-- ==== Sys2Proof/Word.lean ====
section
/-! DEFINITION. The machine word, its tags, and the arithmetic of grains (02_words_tags_grains.md, R26 to R33). -/

namespace Sys2Proof

/-- One octet. -/
abbrev Byte := BitVec 8

/-- A 36-bit payload (R26). -/
abbrev Payload := BitVec 36

/-- The tags of R26. Tags 0x9 to 0xC never exist inside the device (R28), so they have no constructor. -/
inductive Tag
  | int | grain | ptr | sample | event | handle | ticket | bits | code | poison | refused | absent
  deriving DecidableEq, Repr

/-- The number of a tag (R26). -/
def Tag.num : Tag → Nat
  | .int => 0 | .grain => 1 | .ptr => 2 | .sample => 3 | .event => 4 | .handle => 5 | .ticket => 6
  | .bits => 7 | .code => 8 | .poison => 13 | .refused => 14 | .absent => 15

/-- The tag a number names; none for the reserved 0x9 to 0xC (R26, R28). -/
def Tag.ofNum : Nat → Option Tag
  | 0 => some .int | 1 => some .grain | 2 => some .ptr | 3 => some .sample | 4 => some .event
  | 5 => some .handle | 6 => some .ticket | 7 => some .bits | 8 => some .code
  | 13 => some .poison | 14 => some .refused | 15 => some .absent | _ => none

/-- The word: a tag in bits 39:36 and a payload in bits 35:0 (R26). -/
structure Word where
  tag : Tag
  payload : Payload
  deriving DecidableEq, Repr

/-- A word of a given tag from a natural number, its payload modulo 2^36. -/
def Word.mk' (t : Tag) (n : Nat) : Word := ⟨t, BitVec.ofNat 36 n⟩

/-- A word tagged BITS. -/
def Word.bits (n : Nat) : Word := .mk' .bits n

/-- A word tagged GRAIN. -/
def Word.grain (n : Nat) : Word := .mk' .grain n

/-- A word tagged INT from a signed value, two's complement in 36 bits. -/
def Word.int (z : Int) : Word := ⟨.int, BitVec.ofInt 36 z⟩

/-- A word tagged REFUSED: the status code in bits 11:0, the detail in bits 35:12 (R7). -/
def Word.refusal (status detail : Nat) : Word := .mk' .refused (status % 4096 + 4096 * detail)

/-- The word POISON with payload zero, as a memory read makes it (R26, R164). -/
def Word.poisoned : Word := ⟨.poison, 0⟩

/-- The word ABSENT (R26). -/
def Word.absent : Word := ⟨.absent, 0⟩

/-- The payload as a natural number. -/
def Word.nat (w : Word) : Nat := w.payload.toNat

/-- The payload as a signed number. -/
def Word.toInt (w : Word) : Int := w.payload.toInt

/-- Whether a word is tagged POISON, REFUSED or ABSENT (R29, R219). -/
def Word.exceptional (w : Word) : Bool := w.tag == .poison || w.tag == .refused || w.tag == .absent

/-- How many grains a one-word time holds before it wraps (R30). -/
abbrev grainMod : Nat := 2 ^ 36

/-- R31: instant `a` is after instant `b`. -/
def grainAfter (a b : Payload) : Bool := 0 < (a - b).toNat && (a - b).toNat < 2 ^ 35

/-- R31: instant `a` is at or before instant `b`; a value exactly 2^35 grains away counts as past. -/
def grainPast (a b : Payload) : Bool := ! grainAfter a b

/-- Whole microseconds to grains at 67.108864 grains each, rounded to nearest, halves up (R4). -/
def usToGrains (us : Int) : Int := (us * 67108864 + 500000) / 1000000

/-- Grains to whole microseconds, rounded to nearest. -/
def grainsToUs (g : Int) : Int := (g * 1000000 + 33554432) / 67108864

/-- Quotient rounded to the nearest integer, exact halves up (R4), for a positive divisor. -/
def roundNear (n : Int) (d : Nat) : Int := if d = 0 then 0 else (2 * n + d) / (2 * d)

/-- Quotient rounded up. -/
def ceilDiv (n d : Nat) : Nat := if d = 0 then 0 else (n + d - 1) / d

/-- The bits `lo + w - 1 : lo` of a natural number. -/
def bitsOf (n lo w : Nat) : Nat := n / 2 ^ lo % 2 ^ w

/-- Bit `i` of a natural number. -/
def bitOf (n i : Nat) : Bool := n.testBit i

/-- A natural number read as a signed value of `w` bits. -/
def signed (w n : Nat) : Int := if n % 2 ^ w < 2 ^ (w - 1) then (n % 2 ^ w : Nat) else ((n % 2 ^ w : Nat) : Int) - (2 ^ w : Nat)

/-- A signed value as the natural number of its `w`-bit two's complement. -/
def unsigned (w : Nat) (z : Int) : Nat := (z % (2 ^ w : Nat)).toNat

/-- 1 for true, 0 for false. -/
def b2n (b : Bool) : Nat := if b then 1 else 0

/-- The status codes of R8. -/
inductive Status
  | ok | busy | stateRefused | badArg | authFail | rollback | slotOwned | noTicket | dwellExceeded
  | superseded | locked | lowSupply | moving | poisoned | timeout | unknownCommand | settingsUnreadable | dead
  deriving DecidableEq, Repr

/-- The number of a status code (R8). -/
def Status.code : Status → Nat
  | .ok => 0 | .busy => 1 | .stateRefused => 2 | .badArg => 3 | .authFail => 4 | .rollback => 5
  | .slotOwned => 6 | .noTicket => 7 | .dwellExceeded => 8 | .superseded => 9 | .locked => 10
  | .lowSupply => 11 | .moving => 12 | .poisoned => 13 | .timeout => 14 | .unknownCommand => 15
  | .settingsUnreadable => 16 | .dead => 17

/-- A sparse table by number: pairs of a key and a value, keys strictly rising, no value equal to what an unlisted
key reads as. -/
abbrev Store (α : Type) := List (Nat × α)

/-- The islands of chapter 01 (R10). -/
inductive Island
  | aon | wur | rtc | rfRxA | rfRxB | rfTx | lane | link | core | memD | memT | mram | ddr | pcie | chain | evf
  deriving DecidableEq, Repr

/-- The number the recipe and ISLAND_RESTART give an island: its place in the table of chapter 01. -/
def Island.num : Island → Nat
  | .aon => 0 | .wur => 1 | .rtc => 2 | .rfRxA => 3 | .rfRxB => 4 | .rfTx => 5 | .lane => 6 | .link => 7
  | .core => 8 | .memD => 9 | .memT => 10 | .mram => 11 | .ddr => 12 | .pcie => 13 | .chain => 14 | .evf => 15

/-- How an island stands (R12, R13, R16): on, powered off for now, isolated, restarting, or left off by the recipe. -/
inductive IslandState
  | on | off | isolated | restarting | absent
  deriving DecidableEq, Repr

end Sys2Proof
end

