-- ==== Sys2Proof/Syntax.lean ====
section
/-! DEFINITION. The commands of the block: one constructor per row of spec/opcode_table.json, and the types of their
operands. -/

namespace Sys2Proof

/-- The memories with a scrubber: data, dual-port, table, DRAM, retention, instruction. -/
inductive ScrubMemory
  | data | dualPort | table | dram | retention | instruction
  deriving DecidableEq, Repr

/-- A fault that has reached a stored codeword: its memory space, word address and what it added to the thirteen
bytes (R163, R164). -/
structure Upset where
  space : BitVec 4
  addr : BitVec 32
  bytes : List Byte
  deriving DecidableEq, Repr

/-- The memory islands (R169). -/
inductive MemIsland
  | memD | memT | ddr
  deriving DecidableEq, Repr

/-- What DRAM training finds: the installed size (1 512 MiB, 2 1 GiB, 3 2 GiB) and the rate code. -/
structure DdrFound where
  size : Fin 4
  rate : Fin 4
  deriving DecidableEq, Repr


/-- A preamble as a lane's detector finds it (R83, R85, R97): its normalised correlation in 1/256, the octets it has lasted, the
in-channel power on chain A and on chain B in quarter-dBm, its carrier offset in Hz and its symbol-clock offset in ppb. -/
structure Preamble where
  corr : BitVec 9
  octets : Nat
  powerA : Int
  powerB : Int
  offset : Int
  clock : Int
  deriving DecidableEq, Repr

/-- A soft value of the demodulator (R99): signed, positive for 1. -/
abbrev Soft := BitVec 5

/-- What a lane finds at a delimiter (R86): the delimiter, and the soft values of the coded PHY header. -/
structure Delimiter where
  sfd : BitVec 16
  header : List Soft
  deriving DecidableEq, Repr

/-- What the second detector of a lane finds (R87): a preamble, and the RSSI of the present frame in quarter-dBm. -/
structure Stronger where
  preamble : Preamble
  rssi : Int
  deriving DecidableEq, Repr

/-- Eight clipped samples of a lane (R84), and the in-channel power that clipped them in quarter-dBm. -/
structure Clipping where
  lane : Fin 64
  power : Int
  deriving DecidableEq, Repr

/-- What a lane measures of a frame (R98, R102, R103): RSSI in quarter-dBm, EVM in sixteenths of a dB, the margin over
its sensitivity in sixteenths of a dB, the carrier offset in Hz, and whether an ADC sample was at full scale. -/
structure LaneMeasure where
  rssi : Int
  evm : Int
  margin : Int
  offset : Int
  clipped : Bool
  deriving DecidableEq, Repr

/-- How an operation was asked for: a ticket (R245), or the mailbox of a path (R381). -/
inductive Via
  | ticket (n : BitVec 9)
  | mailbox (p : Fin 5)
  deriving DecidableEq, Repr

/-- The source of a move: a port, a signed immediate tagged INT, or a tagged immediate (R215). -/
inductive MoveSource
  | port (p : BitVec 12)
  | int (v : BitVec 20)
  | tagged (tag : BitVec 4) (v : BitVec 16)
  deriving DecidableEq, Repr

/-- The header of a chain frame as it arrives (R398). -/
structure FrameHead where
  bcast : Bool
  dst : BitVec 6
  src : BitVec 6
  hops : BitVec 7
  seq : BitVec 8
  /-- it arrives at CHAIN1, on the backward lane; else at CHAIN0, on the forward lane (R402). -/
  back : Bool
  deriving DecidableEq, Repr

/-- A word slot as a host writes it (R39, R40): its tag and payload, and whether the write covers bytes 0 to 4. -/
structure SlotWrite where
  tag : BitVec 4
  payload : Payload
  full : Bool
  deriving DecidableEq, Repr

/-- What a chain port's receiver finds at training (R397): the other end is under ALT bit 12 and advertises 2.5 Gb/s only; else the
grains that the lock at 5 Gb/s takes. -/
structure PortLock where
  slow : Bool
  grains : BitVec 21
  deriving DecidableEq, Repr

/-- What a start meets (R358): the ROM's digest right; VSYS in millivolts; the levels of RECOVERY_N (low or not), MOTION and
GANG_HEAD; the crystal and the system PLL stable in time; the DRBG's health tests passed; the RF calibration within its
limits and the DPD solve good; the die temperature in °C; what DRAM training finds; and how the receivers of CHAIN0 and
CHAIN1 lock. -/
structure StartFacts where
  romGood : Bool
  vsys : BitVec 12
  recoveryLow : Bool
  motion : Bool
  gangHead : Bool
  xtal : Bool
  pll : Bool
  health : Bool
  cal : Bool
  dpd : Bool
  temp : BitVec 8
  ddr : Option DdrFound
  /-- what the receivers of CHAIN0 and CHAIN1 find; none where they see no port. -/
  lock0 : Option PortLock
  lock1 : Option PortLock
  deriving DecidableEq, Repr
/-- The commands, one constructor for each row of the table: what is done to the block from outside, and what happens in
it, with the facts that the spec leaves to the world (R-numbers name the row's rule). -/
inductive Instr
  /-- First supply of VSYS releases the internal power-on reset and begins a cold start into BOOT (R22). -/
  | powerUp (held : Bool) (mv : BitVec 12) (io33 : Bool)
  /-- RESET_N held low for at least 1 µs resets the device into BOOT (R414). -/
  | resetN (ns : Nat)
  /-- VSYS below 1.78 V for 10 µs abandons any power transition and enters Small Hours or holds the device in reset
  (R339). -/
  | brownOut
  /-- VSYS has stayed at or above 1.82 V for 2 ms, so the chip leaves brown-out by a cold start (R339). -/
  | brownOutExit (mv : BitVec 12)
  /-- The ROM runs boot steps S0 to S13, writes the start record and hands off to firmware, or resets, or enters
  RECOVERY or DEAD (R358). -/
  | start (f : StartFacts)
  /-- The zero fill of DRAM after a cold-start training reaches the end of the installed size and sets INIT_DONE (R176).
  -/
  | ddrFillDone
  /-- A write of a target state is numbered and checked, then answered at once, made active or made pending (R335). -/
  | pwrRequest (target : BitVec 4)
  /-- The active level transition completes once rail and clock have settled, and the pending request starts (R336). -/
  | transitionDone
  /-- At the first bundle boundary with no LSU access outstanding, the core clock is gated (R341). -/
  | duskEntry
  /-- An enabled core event input becomes pending in Dusk and the core resumes 34 gr later (R341). -/
  | duskWake
  /-- Once the frames and carriers of entry step 1 have ended, the core stops, clamps engage, pads latch and islands
  power off, and entry completes at the next tick edge (R341). -/
  | sleepEntryDrained
  /-- An enabled wake source, or the wake time, starts the fixed wake sequence from Night or Midnight, ending at Evening
  with CORE_CAUSE WAKE (R343). -/
  | wake (found : Option DdrFound)
  /-- The idle tick count reaches TICKS, the timer disarms and TARGET is written to PWR_REQUEST (R338). -/
  | idleFired
  /-- A write to PWR_IDLE_ARM arms, re-arms or disarms the idle timer and resets its count (R338). -/
  | pwrIdleArmWrite (v : Payload)
  /-- The 1 ms junction sample is taken, and may trip or clear the thermal guard (R340). -/
  | thermalSample (t : BitVec 8) (mv : BitVec 12)
  /-- A write of RELEASE 1 releases every latched pad at one grain, unless the device state or boundary scan forbids it
  (R349). -/
  | padRelease
  /-- VSYS falls below 1.74 V and the RTC block is isolated (R328). -/
  | rtcLockout
  /-- VSYS falls below 1.68 V, or Small Hours is entered, and the RTC domain switches to VBAT (R328). -/
  | switchToVbat
  /-- VSYS has stayed at or above 1.76 V for 2 ms, so the domain returns to main and logs MAIN_FIRST or BACKUP_LOST
  (R329). -/
  | mainValid (held : Bool)
  /-- The crystal gives no edge for 1 ms, so OSC_STOP is set, OSC_RUNNING clears and the counter holds (R326). -/
  | oscStopped
  /-- After 1024 stable edges OSC_RUNNING returns to 1 and counting resumes (R326). -/
  | oscRecovered
  /-- RTC_CMD OP SET stages a load of the counter from RTC_SET_SECONDS and RTC_SET_FRAC, replacing any pending command
  (R320). -/
  | set
  /-- RTC_CMD OP SHIFT stages a signed addition of fractions to the counter, replacing any pending command (R320). -/
  | shift (field : BitVec 16)
  /-- RTC_CMD OP SNAP requests a joint snapshot of RTC time and grain at the next tick (R317). -/
  | snap
  /-- At the next tick the pending SET or SHIFT is applied and answered, and alarms skipped by the move fire (R321). -/
  | rtcCmdApply
  /-- At the next tick edge the snapshot values are recorded and SNAP_DONE is raised (R317). -/
  | snapTaken
  /-- At the start of each 32 s period the RTC evaluates its error curve, forms N and measures VBAT (R319). -/
  | compPeriod (temp : Int) (vbatMv : Nat) (refPpb : Int)
  /-- At the first tick of a sub-period, one tick is added or dropped per the period's N (R319). -/
  | compAdjust
  /-- The counter reaches the last fraction of 2399 and holds with RANGE_END set (R314). -/
  | rangeEnd
  /-- The counter reaches or passes an armed alarm's time, so FIRED is set, ARMED clears and the alarm source fires
  (R324). -/
  | alarmFire (a : Fin 4)
  /-- Writing ARMED 1 arms the alarm and judges its time, firing late with SKIPPED if already passed (R324). -/
  | alarmArm (a : Fin 4)
  /-- A read of RTC_SECONDS latches the fraction and calendar into the reader's shadow (R316). -/
  | rtcSecondsRead (who : Fin 5)
  /-- The core decodes, guards and executes one four-slot bundle, committing all moves or none (R211). -/
  | bundleIssue
  /-- At a bundle boundary an enabled pending input above CUR saves state and enters its level's vector (R232). -/
  | interruptEntry
  /-- ALU trigger adding OPA and the trigger value under the tag algebra (R221). -/
  | add (bus : Fin 4) (w : Fin 28) (src : MoveSource)
  /-- ALU trigger subtracting the trigger value from OPA (R221). -/
  | sub (bus : Fin 4) (w : Fin 28) (src : MoveSource)
  /-- ALU trigger forming the bitwise AND (R221). -/
  | and (bus : Fin 4) (w : Fin 28) (src : MoveSource)
  /-- ALU trigger forming the bitwise OR (R221). -/
  | or (bus : Fin 4) (w : Fin 28) (src : MoveSource)
  /-- ALU trigger forming the bitwise XOR (R221). -/
  | xor (bus : Fin 4) (w : Fin 28) (src : MoveSource)
  /-- ALU trigger forming A AND NOT B (R221). -/
  | andn (bus : Fin 4) (w : Fin 28) (src : MoveSource)
  /-- ALU trigger shifting left (R221). -/
  | shl (bus : Fin 4) (w : Fin 28) (src : MoveSource)
  /-- ALU trigger shifting right with zero fill (R221). -/
  | shr (bus : Fin 4) (w : Fin 28) (src : MoveSource)
  /-- ALU trigger shifting right with sign fill (R221). -/
  | sar (bus : Fin 4) (w : Fin 28) (src : MoveSource)
  /-- ALU trigger testing equality of payloads of the same tag (R221). -/
  | eq (bus : Fin 4) (w : Fin 28) (src : MoveSource)
  /-- ALU trigger testing inequality (R221). -/
  | ne (bus : Fin 4) (w : Fin 28) (src : MoveSource)
  /-- ALU trigger testing less-than, GRAIN by R31 (R221). -/
  | lt (bus : Fin 4) (w : Fin 28) (src : MoveSource)
  /-- ALU trigger testing less-or-equal (R221). -/
  | le (bus : Fin 4) (w : Fin 28) (src : MoveSource)
  /-- ALU trigger testing unsigned less-than (R221). -/
  | ltu (bus : Fin 4) (w : Fin 28) (src : MoveSource)
  /-- ALU trigger giving the minimum (R221). -/
  | min (bus : Fin 4) (w : Fin 28) (src : MoveSource)
  /-- ALU trigger giving the maximum (R221). -/
  | max (bus : Fin 4) (w : Fin 28) (src : MoveSource)
  /-- ALU trigger concatenating A shifted by 16 with B's low 16 bits (R221). -/
  | cat16 (bus : Fin 4) (w : Fin 28) (src : MoveSource)
  /-- MUL trigger giving the low 36 bits of the signed product (R221). -/
  | mul (bus : Fin 4) (w : Fin 28) (src : MoveSource)
  /-- MUL trigger giving the high 36 bits of the signed product (R221). -/
  | mulh (bus : Fin 4) (w : Fin 28) (src : MoveSource)
  /-- MUL trigger forming a complex SAMPLE product (R221). -/
  | cmul (bus : Fin 4) (w : Fin 28) (src : MoveSource)
  /-- MUL trigger scaling a SAMPLE by a Q1.17 INT (R221). -/
  | scale (bus : Fin 4) (w : Fin 28) (src : MoveSource)
  /-- MUL trigger giving the squared magnitude of a SAMPLE (R221). -/
  | mag2 (bus : Fin 4) (w : Fin 28) (src : MoveSource)
  /-- MUL trigger starting a 20-cycle division into QUO and REM (R221). -/
  | div (bus : Fin 4) (w : Fin 28) (src : MoveSource)
  /-- LSU trigger reading one word into the result queue (R222). -/
  | ld (bus : Fin 4) (w : Fin 28) (src : MoveSource)
  /-- LSU trigger reading an even-aligned codeword pair (R222). -/
  | ld2 (bus : Fin 4) (w : Fin 28) (src : MoveSource)
  /-- LSU trigger posting a one-word store (R222). -/
  | st (bus : Fin 4) (w : Fin 28) (src : MoveSource)
  /-- LSU trigger posting a codeword-pair store (R222). -/
  | st2 (bus : Fin 4) (w : Fin 28) (src : MoveSource)
  /-- LSU trigger performing an atomic add at the bank and returning the old word (R165). -/
  | aadd (bus : Fin 4) (w : Fin 28) (src : MoveSource)
  /-- LSU trigger performing an atomic swap at the bank and returning the old word (R165). -/
  | swap (bus : Fin 4) (w : Fin 28) (src : MoveSource)
  /-- An outstanding LSU access completes at its bank and places its result in the queue (R223). -/
  | lsuAccessDone
  /-- A read of RES returns and removes the oldest result, stalling while it is outstanding (R223). -/
  | lsuResRead (bus : Fin 4) (w : Fin 28) (dst : BitVec 12)
  /-- BIT trigger extracting a field (R221). -/
  | ext (bus : Fin 4) (w : Fin 28) (src : MoveSource)
  /-- BIT trigger inserting a field (R221). -/
  | ins (bus : Fin 4) (w : Fin 28) (src : MoveSource)
  /-- BIT trigger counting leading zeros (R221). -/
  | clz (bus : Fin 4) (w : Fin 28) (src : MoveSource)
  /-- BIT trigger counting set bits (R221). -/
  | popc (bus : Fin 4) (w : Fin 28) (src : MoveSource)
  /-- TAG trigger giving B's payload with tag TAGSEL (R221). -/
  | retag (bus : Fin 4) (w : Fin 28) (src : MoveSource)
  /-- TAG trigger giving B's payload as BITS (R221). -/
  | untag (bus : Fin 4) (w : Fin 28) (src : MoveSource)
  /-- Jump to a CODE address after two delay bundles (R224). -/
  | brJump (bus : Fin 4) (src : MoveSource)
  /-- Relative jump after two delay bundles (R224). -/
  | brRel (bus : Fin 4) (src : MoveSource)
  /-- Jump and set BR_LINK to this bundle plus 3 (R224). -/
  | brCall (bus : Fin 4) (src : MoveSource)
  /-- Relative jump and set BR_LINK (R224). -/
  | brCallr (bus : Fin 4) (src : MoveSource)
  /-- Latch RPT_COUNT and execute the next bundle that many times (R226). -/
  | rptGo (bus : Fin 4) (src : MoveSource)
  /-- Stop fetch until an enabled input is pending or the time-out expires (R235). -/
  | coreWait (bus : Fin 4) (src : MoveSource)
  /-- The wake condition or time-out of CORE_WAIT occurs and fetch resumes or interrupt entry follows (R235). -/
  | coreWaitEnd
  /-- A move to CORE_TRAP raises a SOFT trap carrying the word (R235). -/
  | coreTrap (bus : Fin 4) (src : MoveSource)
  /-- Return from the current level after two delay bundles, restoring the saved state (R233). -/
  | evReti (bus : Fin 4) (src : MoveSource)
  /-- A privileged write to CORE_MODE sets or drops PRIV (R235). -/
  | coreModeWrite (bus : Fin 4) (src : MoveSource)
  /-- A write to TESTXk sets guard gk to 1 for a POISON, REFUSED or ABSENT word and to 0 otherwise (R219). -/
  | testx (bus : Fin 4) (k : Fin 7) (src : MoveSource)
  /-- A read of EV_CAUSE_l returns and consumes the lowest pending enabled input at that level (R234). -/
  | evCause (bus : Fin 4) (l : Fin 3) (dst : BitVec 12)
  /-- A read of EV_POLL_j returns and consumes input j, whatever its level or enable (R234). -/
  | evPoll (bus : Fin 4) (j : Fin 32) (dst : BitVec 12)
  /-- An event delivered to a core event input latches it pending or counts it, or is dropped with OVERRUN (R231). -/
  | coreEventInput (j : Fin 32) (source : BitVec 8) (payload : BitVec 28)
  /-- A launch takes the TK_ARG operands, and either grants a ticket for the operation code or refuses it at TK_RES
  (R243). -/
  | tkLaunch (bus : Fin 4) (src : MoveSource)
  /-- A TICKET written to TK_PEEK returns its state by the next bundle (R249). -/
  | tkPeek (bus : Fin 4) (src : MoveSource)
  /-- A finished operation's entry is written to the completion ring, PROD advances and the ticket is freed (R250). -/
  | completionPost
  /-- Advancing TK_RING_CONS frees entries, and DONE tickets resume posting, oldest first (R251). -/
  | tkRingConsWrite (bus : Fin 4) (src : MoveSource)
  /-- At a step boundary an engine picks its next piece of work by the fixed order and runs one step (R256). -/
  | engineStep (e : Fin 6)
  /-- Ticketed transmit request: the request block is checked and queued by its KIND (R124). -/
  | tx (t : BitVec 9)
  /-- Copy an endpoint record to a space-0 buffer as one indivisible action (R184). -/
  | recRead (v : Via)
  /-- Write a whole endpoint record from a buffer after checking its tags (R184). -/
  | recWrite (v : Via)
  /-- Write codeword 1 of an endpoint record (R184). -/
  | recTouch (v : Via)
  /-- Write codeword 1 only if the new frame counter is higher than the stored one (R184). -/
  | recAdvance (v : Via)
  /-- Walk records under a descriptor in steps, counting, listing, invalidating or mirroring matches (R185). -/
  | sweep (v : Via)
  /-- Write the MRAM user area from space 0 in 256-octet steps (R181). -/
  | mramWrite (v : Via)
  /-- SHA3-512 or SHAKE256 digest of a buffer (R200). -/
  | hash (v : Via)
  /-- KMAC256 with a key from memory (R200). -/
  | kmac (v : Via)
  /-- Verify an MRAM slot's image and its recipe in order (R195). -/
  | imageVerify (v : Via)
  /-- ML-DSA-87 verify with a public key held in memory (R200). -/
  | sigVerify (v : Via)
  /-- Derive a partner key and install it through WRITE_KEEP (R200). -/
  | partnerKey (v : Via)
  /-- Derive an endpoint key, check the MIC and decrypt a ring-1 frame in place (R200). -/
  | epOpen (v : Via)
  /-- Fill the frame counter, encrypt and append the MIC with an endpoint key (R200). -/
  | epSeal (v : Via)
  /-- Put 256 DRBG bits into a key cell (R200). -/
  | keyGen (v : Via)
  /-- Wrap a cell or NMK into an 88-octet blob (R199). -/
  | keyWrap (v : Via)
  /-- Check and unwrap a blob into a key cell (R199). -/
  | keyUnwrap (v : Via)
  /-- Seal a key cell as an NMK slot (R200). -/
  | nmkStore (v : Via)
  /-- Clear both copies of an NMK slot (R200). -/
  | nmkErase (v : Via)
  /-- Generate an ML-KEM-1024 key pair, keeping the decapsulation key (R200). -/
  | kemKeygen (v : Via)
  /-- Encapsulate to a key, putting the shared secret in a cell (R200). -/
  | kemEncaps (v : Via)
  /-- Decapsulate a ciphertext into a cell and clear the KEM store (R200). -/
  | kemDecaps (v : Via)
  /-- Write DRBG output to memory (R200). -/
  | random (v : Via)
  /-- Extend measurement register 4 to 7 with data (R204). -/
  | measExtend (v : Via)
  /-- Build and sign an attestation report over a nonce (R205). -/
  | attest (v : Via)
  /-- Copy out the device certificate (R200). -/
  | idCert (v : Via)
  /-- Check a signed token and, if every check passes, store its counter and apply its type (R201). -/
  | token (v : Via)
  /-- The owner lock's not-after passes while OSC_STOP is clear and the lock ends (R202). -/
  | lockExpiry
  /-- A DEBUG_UNLOCK token's not-after passes and debug access closes (R203). -/
  | debugUnlockExpiry
  /-- An entropy health test fails, so TRNG_FAIL is set and the DRBG stops (R206). -/
  | trngHealthFail (proportion : Bool)
  /-- Writing REINIT re-runs the startup health tests and clears TRNG_FAIL if they pass (R206). -/
  | reinit (pass : Bool)
  /-- Take ownership of the staging slot and mark it WRITING with its length (R366). -/
  | updBegin (v : Via)
  /-- Copy a buffer into the staging slot at an offset (R366). -/
  | updWrite (v : Via)
  /-- Verify the staged image and recipe, marking the slot STAGED on success (R366). -/
  | updVerify (v : Via)
  /-- Enter GERMINATE, write the next settings area and, in hitless mode, load the shadow (R368). -/
  | updGerminate (v : Via)
  /-- Arm activation at a grain or at the first quiet gap, with a trial window (R369). -/
  | updActivateAt (v : Via)
  /-- At the activation grain the banks swap with a bounded core pause, or, in restart mode, the device resets into a
  trial (R370). -/
  | activation
  /-- No quiet gap arises within 1 s and UPD_ACTIVATE_AT completes BUSY (R369). -/
  | quietGapTimeout
  /-- Perform Kiln: commit the state record, return to RUN, burn the counter and release the old settings area (R374).
  -/
  | updConfirm (v : Via)
  /-- Restore the old image as the stage requires (R375). -/
  | updFallback (v : Via)
  /-- The trial window ends without confirmation and fallback begins (R372). -/
  | trialExpiry
  /-- End staging ownership and make the slot EMPTY (R364). -/
  | updAbort (v : Via)
  /-- Write the current or next settings area (R363). -/
  | setWrite (v : Via)
  /-- Clear the named ALT bits (R360). -/
  | ledgerClear (v : Via)
  /-- Trial firmware reports OK or SETTINGS_UNREADABLE, raising SETTINGS_REPORTED (R373). -/
  | updSettingsReportWrite (code : BitVec 12)
  /-- Open a recovery session and set RECOVERY_OPEN (R377). -/
  | rcvBegin (p : Fin 5)
  /-- Write recovery image data as UPD_WRITE does (R377). -/
  | rcvData (p : Fin 5)
  /-- Verify the recovery image, confirm its slot and reset into BOOT, or fail the session (R377). -/
  | rcvEnd (p : Fin 5)
  /-- Abort the recovery session and count a failure (R378). -/
  | rcvAbort (p : Fin 5)
  /-- A write to MBX_GO starts the command its CODE names, or collides while BUSY (R383). -/
  | mbxGo (p : Fin 5) (code : BitVec 8) (seq : BitVec 8)
  /-- A command ends, its reply is filled, BUSY clears, DONE sets and the path owner is signalled (R384). -/
  | mbxReply (p : Fin 5)
  /-- Mailbox command returning the present grain and SYS_STATE (R387). -/
  | ping (p : Fin 5)
  /-- Mailbox command returning the identity registers (R387). -/
  | identity (p : Fin 5)
  /-- Mailbox command restarting one island alone (R13). -/
  | islandRestart (p : Fin 5)
  /-- A restarting island comes back, memory islands after their scrub, and crossings are served again (R13). -/
  | islandRestartDone (k : Fin 16) (found : Option DdrFound) (r0 : Fin 3) (r1 : Fin 3)
  /-- Mailbox command resetting the device as RESET_N when its guard equals SYS_ID (R387). -/
  | deviceReset (p : Fin 5)
  /-- Mailbox command writing a target to PWR_REQUEST (R387). -/
  | power (p : Fin 5)
  /-- Verify a new signed recipe whose only change is the lane plan, then begin processing changed lanes (R273). -/
  | remash (p : Fin 5)
  /-- A changed lane becomes QUIESCED and its new entry is applied 64 gr later (R274). -/
  | remashLaneQuiesced
  /-- QUIESCE_WAIT passes with a frame still in reception and the frame is abandoned with cause QUIESCE (R274). -/
  | quiesceWaitExpiry
  /-- Mailbox command repeating enumeration and delay measurement (R401). -/
  | gangEnumerate (p : Fin 5)
  /-- Mailbox command copying mirrored records of a lost chip to their homes in steps (R406). -/
  | gangTakeover (p : Fin 5)
  /-- A host reads a word slot of a space, within the limits of the device state (R390). -/
  | hostWordRead (p : Fin 4) (sp : BitVec 4) (a : BitVec 32)
  /-- A host writes a word slot, discarded if partial, with a refused tag, or outside the state's limits (R40). -/
  | hostWordWrite (p : Fin 4) (sp : BitVec 4) (a : BitVec 32) (x : SlotWrite)
  /-- An access through a BAR2 aperture is served locally or sent as a chain access frame (R392). -/
  | apertureAccess (k : Fin 4) (w : BitVec 21) (x : Option SlotWrite)
  /-- A remote read has no response within 20 ms and returns REFUSED TIMEOUT (R392). -/
  | accessTimeout
  /-- Quad SPI read transaction of word slots (R394). -/
  | qspiRead (op : BitVec 8) (sp : BitVec 4) (a : BitVec 32) (late : List Bool)
  /-- Quad SPI write transaction of word slots (R394). -/
  | qspiWrite (op : BitVec 8) (sp : BitVec 4) (a : BitVec 32) (xs : List SlotWrite)
  /-- Quad SPI transaction returning the status byte (R394). -/
  | qspiStatusByte
  /-- A UART0 read request frame is answered with a read reply (R395). -/
  | uartReadRequest (bs : List Byte)
  /-- A UART0 write request frame is applied and answered (R395). -/
  | uartWriteRequest (bs : List Byte)
  /-- No byte for 100 ms returns the UART0 receiver to hunting for 0x7E (R395). -/
  | uartIdleTimeout
  /-- PERST_N or a hot reset restarts the PCIe island alone (R393). -/
  | perstN
  /-- A host doorbell write sets DOORBELL and acts as a wake source (R393). -/
  | hostDoorbellIn (w : Payload)
  /-- Firmware raises an MSI-X vector 2 to 31 (R391). -/
  | hostDoorbellOut (v : BitVec 6)
  /-- Chip 0 sends ENUM every 10 ms until the frame returns (R401). -/
  | enumSend
  /-- A chip receiving ENUM takes a number, increments NEXT and forwards it, or chip 0 learns the gang size (R401). -/
  | enum (h : FrameHead) (next : Word) (own : Bool) (reordered : Bool) (d0 : BitVec 16) (d1 : BitVec 16)
  /-- Chip 0 sends TIME every 2^16 gr (R405). -/
  | timeSend
  /-- A TIME frame is compared with local time, which is stepped or slewed, and the frame is re-stamped (R405). -/
  | time (h : FrameHead) (lo : Payload) (hi : Payload) (port : Bool)
  /-- An EVENT frame arrives carrying a gang event for delivery (R291). -/
  | event (h : FrameHead) (line : Fin 16) (stamp : Payload) (w : Payload)
  /-- At the delivery grain GANG_INk fires once, or late at the next tick (R291). -/
  | gangInFire
  /-- A chain access request is served on its target chip (R399). -/
  | accessReq (h : FrameHead) (sp : BitVec 4) (a : BitVec 32) (write : Bool) (count : Nat) (xs : List Word)
  /-- A chain access response completes a remote read (R399). -/
  | accessRsp (h : FrameHead) (ws : List Word)
  /-- A mirror forward is written into the mirror region, or rejected if not from SOURCE (R186). -/
  | mirror (h : FrameHead) (op : Fin 4) (handle : Word) (ws : List Word)
  /-- Each chip broadcasts STATUS every 2^20 gr (R404). -/
  | statusSend
  /-- A STATUS frame marks its source alive (R404). -/
  | status (h : FrameHead) (w0 : Word) (w1 : Word)
  /-- A chip unheard for 4 periods has its alive bit cleared (R404). -/
  | memberLost
  /-- A RING frame reports a break or restoration (R399). -/
  | ring (h : FrameHead) (restored : Bool) (w : Word)
  /-- A port sees nothing for 67 gr and both chips beside it fold the ring (R402). -/
  | chainPortDown (port : Bool) (lost : BitVec 18)
  /-- A DOWN port locks again, the fold is undone and enumeration runs (R402). -/
  | ringRestored (port : Bool) (rate : Fin 3)
  /-- A DOWN port retrains every 10 ms (R397). -/
  | chainRetrain (port : Bool) (rate : Fin 3)
  /-- Writing a RETUNE_AT register arms a retune of a receive or transmit synthesizer (R49). -/
  | retuneAtWrite (x : Fin 3) (g : Payload)
  /-- At the armed grain the chain retunes to its FREQ, zeroes samples and abandons frames (R49). -/
  | retuneStart (x : Fin 3)
  /-- Settling ends, LOCKED returns, FREQ_NOW updates and lanes recompute their placement (R50). -/
  | retuneLocked (x : Fin 3)
  /-- Setting or clearing a chain's ENABLE powers and locks it, or stops it and cuts its frames or carriers (R49). -/
  | chainEnableWrite (x : Fin 3) (v : Bool)
  /-- Changing chain B's FOLLOW makes it follow chain A's centre or leaves it where it is (R48). -/
  | followWrite (v : Bool)
  /-- The overload detector steps a chain's gain index down by one or by three (R53). -/
  | gainStepDown (x : Fin 2) (emergency : Bool)
  /-- After UP_HOLD quiet grains and MIN_INTERVAL, the index steps up by one (R54). -/
  | gainStepUp (x : Fin 2)
  /-- A change of MANUAL_INDEX is applied at the next tick as one compensated step (R55). -/
  | manualIndexWrite (x : Fin 2) (i : Fin 8)
  /-- A written CARRIER_MAX, PA_SELECT or power takes effect at the first grain with no carrier on air or committed
  (R61). -/
  | txConfigApply
  /-- The 1 ms die temperature measurement may move the bin, change the active set or mark a set STALE (R64). -/
  | dieTempMeasure (t : BitVec 8)
  /-- A 512-sample feedback capture completes and is judged qualifying or not (R66). -/
  | dpdCapture (imd : Nat) (papr : Bool) (steady : Bool)
  /-- A candidate solve finishes and is accepted or discarded (R66). -/
  | dpdSolveDone (better : Bool)
  /-- An accepted candidate replaces the set's coefficients at a grain clear of ramp starts (R67). -/
  | dpdSwap
  /-- Start a dedicated training burst for TRAIN_SET, or refuse it (R68). -/
  | trainNow
  /-- The training burst ends and its set is trained (R68). -/
  | trainingBurstDone
  /-- A write to a coefficient-store word of an inactive set (R70). -/
  | dpdStoreWrite (k : Fin 768) (w : Word)
  /-- Writing START calibrates TARGET, or refuses with BUSY (R72). -/
  | startCal (t : Fin 5)
  /-- A calibration finishes, RESULT is set and CAL_DONE is raised (R72). -/
  | calDone
  /-- Writing SAVE stores the present calibration as a new record in MRAM (R71). -/
  | save
  /-- LANE_CTRL.ENABLE going to 1 takes the next channel and mode, or is refused under rule 6 (R77). -/
  | laneEnable (n : Fin 64)
  /-- Clearing ENABLE abandons any frame with cause DISABLED and turns the lane OFF (R88). -/
  | laneDisable (n : Fin 64)
  /-- Clearing or setting LISTEN stops or arms new detections without abandoning (R88). -/
  | listenWrite (n : Fin 64) (v : Bool)
  /-- Writing LANE_SWITCH_AT arms a switch (R77). -/
  | laneSwitchAtWrite (n : Fin 64) (g : Payload)
  /-- At the switch grain, or after the frame's end, the lane takes its new values, or the switch is refused (R77). -/
  | laneSwitch (n : Fin 64)
  /-- SWITCHING ends and the lane enters IDLE, HELD or OUT_OF_BAND (R77). -/
  | switchDone (n : Fin 64)
  /-- The lane detects a preamble, freezes its AGC and enters DETECT (R85). -/
  | preambleDetect (n : Fin 64) (p : Preamble)
  /-- No delimiter within SFD_TIMEOUT symbols counts a false detection and returns the lane to IDLE or HELD (R85). -/
  | sfdTimeout (n : Fin 64)
  /-- The delimiter is found and the PHY header is decoded and checked (R86). -/
  | delimiterFound (n : Fin 64) (d : Delimiter)
  /-- The first PSDU byte reaches the link controller, which reserves a ring slot and payload (R131). -/
  | psduStart (n : Fin 64) (soft : List Soft)
  /-- Once the source address and security header are in, the partner entry is looked up and the key loaded (R107). -/
  | partnerLookup (n : Fin 64)
  /-- A stronger preamble abandons the present frame with cause CAPTURE and is taken (R87). -/
  | capture (n : Fin 64) (p : Stronger)
  /-- Eight consecutive clipped lane samples abandon the frame (R84). -/
  | saturation (k : Clipping)
  /-- The frame's last symbol ends, the last bytes and lane report are handed over and the lane returns to IDLE (R100).
  -/
  | frameEnd (n : Fin 64) (m : LaneMeasure)
  /-- The verdict is published 67 gr after the end grain, ACKs are committed and the descriptor written (R107). -/
  | frameVerdict
  /-- At the ACK's first-symbol grain, word 0 is rewritten SENT and ACK_FINAL is set (R132). -/
  | ackSent
  /-- LINK_ACK_WAIT passes without a match and the attempt counts as unacknowledged (R128). -/
  | ackWaitExpiry
  /-- At its commit grain a carrier is checked against window, budgets and allowance, then committed or lost (R121). -/
  | txCommit
  /-- A carrier's ramp down ends and the transmission's result is written for completion (R60). -/
  | carrierEnd
  /-- A backoff ends and a CCA judges the channel, leading to commit, backoff or refusal (R127). -/
  | csmaCca (t : BitVec 9) (energy : Int)
  /-- A bucket boundary moves the oldest bucket out of every budget's span (R122). -/
  | dwellBucketBoundary
  /-- Changing a budget's window clears its charges and restarts its buckets (R122). -/
  | budgetWindowWrite (b : Fin 9) (w : BitVec 22)
  /-- Clearing LINK_CTRL.ENABLE discards unpublished frames and releases their reservations (R131). -/
  | linkDisable
  /-- Advancing a ring's CONS returns slots and payload space to the link controller (R130). -/
  | linkRingConsWrite (r : Fin 2) (v : Payload)
  /-- A TSCH timeslot starts and its link is served for transmit, receive or beacon (R129). -/
  | tschTimeslot
  /-- Clearing RUN refuses every waiting KIND 3 request with STATE_REFUSED (R125). -/
  | tschRunClear
  /-- Clearing partner-schedule RUN refuses every waiting KIND 3 request (R142). -/
  | pschedRunClear
  /-- Partner operation copying an entry and schedule record into the stage registers (R139). -/
  | read (h : BitVec 12)
  /-- Partner operation writing the staged entry, after its uniqueness checks (R141). -/
  | write (h : BitVec 12)
  /-- Partner operation writing the staged entry while keeping its counters (R139). -/
  | writeKeep (h : BitVec 12)
  /-- Partner operation clearing VALID and the schedule, and leaving the page queue (R139). -/
  | invalidate (h : BitVec 12)
  /-- Partner operation writing the schedule record, held pending while a window is reserved (R143). -/
  | schedWrite (h : BitVec 12)
  /-- Partner operation clearing the schedule record's ACTIVE bit (R139). -/
  | schedClear (h : BitVec 12)
  /-- Partner operation marking the partner LOST_SYNC and queuing a page (R150). -/
  | page (h : BitVec 12)
  /-- Partner operation removing the partner from the page queue (R139). -/
  | pageCancel (h : BitVec 12)
  /-- At grain E, once no frame of that handle awaits its verdict, the partner operation takes effect and completes
  (R140). -/
  | partnerOpEffect
  /-- 2048 gr before its switch, a lane is reserved for a rendezvous window, or it is skipped or the partner lost
  (R147). -/
  | rendezvousReserve
  /-- At N + H the scheduler clears the lane's LISTEN (R146). -/
  | windowClose
  /-- After an ACK with Frame Pending, the queued KIND 3 request goes out at the ramp-down end plus gap (R149). -/
  | downlinkSend
  /-- The next page attempt is committed after LINK_PAGE_INTERVAL (R155). -/
  | pageStart
  /-- The resync wait expires without a request, so the attempt fails and the partner moves back in the queue (R154). -/
  | resyncWaitExpiry
  /-- After a resync request's ACK, the controller sends the grant (R153). -/
  | resyncGrant
  /-- The wake-up receiver matches a pattern and raises MATCH or a wake, starting the hold-off (R158). -/
  | wurMatch (bits : BitVec 48)
  /-- The hold-off of HOLDOFF_S seconds ends (R158). -/
  | wurHoldoffEnd
  /-- At each interval the scrubber decodes a codeword per bank and repairs single-byte errors (R168). -/
  | scrubRead (m : ScrubMemory) (upsets : List Upset)
  /-- The full scrub after a memory island restart or self-refresh wake ends, and accesses are served (R169). -/
  | memoryScrubDone (i : MemIsland)
  /-- The march tester takes a segment and runs copy, test and copy-back (R170). -/
  | marchSegment (fails : Bool)
  /-- Writing RETRAIN retrains the DRAM at run time (R175). -/
  | retrain
  /-- Run-time training finishes with success or TRAIN_FAILED (R175). -/
  | dramTrainDone (found : Option DdrFound)
  /-- Timer START task (R294). -/
  | tmrStart (t : Fin 16)
  /-- Timer STOP task (R294). -/
  | tmrStop (t : Fin 16)
  /-- Timer CLEAR task, re-judging armed compares (R298). -/
  | tmrClear (t : Fin 16)
  /-- Timer SNAP task taking the count (R294). -/
  | tmrSnap (t : Fin 16)
  /-- TMR_GO START bits start the named timers at the next grain (R295). -/
  | tmrGoStart (mask : BitVec 16)
  /-- TMR_GO STOP bits stop the named timers at the next grain (R295). -/
  | tmrGoStop (mask : BitVec 16)
  /-- A count write on a stopped timer re-judges its compares (R298). -/
  | tmrCountWrite (t : Fin 16) (v : Payload)
  /-- Writing a compare arms it, firing late at once if already passed (R296). -/
  | tmrCmpWrite (t : Fin 16) (i : Fin 4) (v : Payload)
  /-- A compare channel fires, sets FIRED and reloads or disarms (R296). -/
  | compareFire (t : Fin 16) (i : Fin 4)
  /-- A timer steps from 2^36 − 1 to 0 and fires WRAP (R294). -/
  | tmrWrap (t : Fin 16)
  /-- A read of a chained pair latches or returns the reader's shadow (R300). -/
  | tmrPairRead (who : Fin 5) (p : Fin 8) (odd : Bool)
  /-- A selected filtered edge count captures the timer count (R301). -/
  | captureEdge (k : Fin 8) (level : Bool)
  /-- A CAP_TRIG task captures at once (R301). -/
  | capTrig (k : Fin 8)
  /-- Reading CAPk_VALUE_LO returns the capture and clears FULL (R312). -/
  | capValueRead (k : Fin 8)
  /-- A synchronised GPIO level change fires its source (R289). -/
  | gpioEdge (p : Fin 40) (level : Bool)
  /-- A GPIO task sets, clears or toggles a pin (R289). -/
  | gpioTask (m : Fin 32)
  /-- EVF_SW_FIRE or EVP_SWk fires a software event source (R290). -/
  | swFire (k : Fin 16) (payload : BitVec 28)
  /-- A GANG_OUT task stamps an event and sends it to every chip (R291). -/
  | gangOut (k : Fin 16) (payload : BitVec 28)
  /-- A filtered logic cell's input is stable for L ticks and its output changes (R285). -/
  | cellFilterChange (i : Fin 48)
  /-- An event reaches a task input, merged with coincident events or dropped as busy (R282). -/
  | eventDelivery
  /-- CHK task RESTART discards the stream in progress (R311). -/
  | restart (n : Fin 8)
  /-- CHK task END ends the stream at once (R311). -/
  | chkEnd (n : Fin 8)
  /-- CHK task SNAP copies the final form of VALUE into RESULT (R311). -/
  | chkSnap (n : Fin 8)
  /-- A stream ends at its marker or length, and the result is formed, compared and flagged (R310). -/
  | chkStreamEnd (n : Fin 8) (octets : List Byte) (dropped : Bool) (abandoned : Bool)
  /-- A write to a register with no row of its own stores its fields, or rejects reserved encodings (R37). -/
  | registerWrite (host : Bool) (a : BitVec 17) (w : Word)
  /-- A committed carrier's ramp up begins, so it goes on air, chain A is blanked under OUT_PORT 0 or TX_BLANK, frames
  in reception there are abandoned with cause TX_BLANK, and the WUR correlator is held (R60). -/
  | carrierRampStart
  /-- A VSYS dip that turned back before 1.68 V ends when VSYS is again at or above 1.76 V, and the RTC lockout is
  released without any switch to VBAT (R328). -/
  | lockoutRelease
  /-- The retention supply falls below its floor while memory is retained, and SUPPLY_DIP is latched (R173). -/
  | retentionSupplyDip (upsets : List Upset)
  /-- In DEAD, once VSYS reaches 2.7 V, the ROM burns the DEAD and TX_INHIBIT fuses (R379). -/
  | deadFuseBurn
  /-- The PCIe link trains up or goes down, so LINK_UP changes and PCIE_LINK is set in HOST_INT_STATUS (R391). -/
  | pcieLinkChange (rate : Fin 4) (wide : Bool) (l1 : Bool)
  /-- A chain frame arrives with a bad CRC, a reserved TYPE or HOPS at 127, and is dropped and counted (R398). -/
  | chainFrameCrcError
  /-- IEEE 1149.1 boundary scan takes or gives up control of the pads, latching them as it drives them and setting
  PAD_STATUS.LATCH_CAUSE (R349). -/
  | boundaryScan (takes : Bool)
  deriving DecidableEq, Repr
end Sys2Proof
end

