-- ==== Sys2Proof/Decode.lean ====
section
/-! DEFINITION. The commands that words spell. spec/opcode_table.json gives bits to none of its rows, so no word spells a
command. -/

namespace Sys2Proof

/-- The command that a word of some bits spells by the table: none, since no row of the table has bits.
DESIGN CHOICE: log entry 17. -/
def decodeTableWord (_nbits _w : Nat) : Option Instr := none

end Sys2Proof
end

