-- ==== Sys2Proof/Config.lean ====
section
/-! DEFINITION. What the spec leaves open or takes from an outside standard: free values, and the cryptographic functions
of the standards chapter 08 names. None has a body that anything could evaluate. -/

namespace Sys2Proof

/-- The n-th free value taken by the machine: where the spec states no value, this is it. -/
opaque Config.freeNat : Nat → Nat

/-- Whether the TAP shifts at a grain, so that TDO is driven (R412). DESIGN CHOICE: log entry 218. -/
opaque Config.tapShifts : Nat → Bool

/-- Whether the event that a source raises in a grain crosses into the EVF island in 2 gr, and not in 1 (R11, R281): the spec
says that it cannot be predicted. -/
opaque Config.crossesLate : Nat → Nat → Bool

/-- SHA3-512 of an octet string (R194, R200). -/
opaque Config.sha3_512Raw : List Nat → List Nat

/-- SHAKE256 of an octet string, to a number of octets (R193, R200). -/
opaque Config.shake256Raw : List Nat → Nat → List Nat

/-- KMAC256 of NIST SP 800-185: key, input, output bits, customisation octets (R198). -/
opaque Config.kmac256Raw : List Nat → List Nat → Nat → List Nat → List Nat

/-- ML-DSA-87 verify: public key, context, message, signature (R192). -/
opaque Config.mldsaVerify : List Nat → List Nat → List Nat → List Nat → Bool

/-- ML-DSA-87 public key of a 32-octet seed (R193). -/
opaque Config.mldsaPublic : List Nat → List Nat

/-- One attempt at an ML-DSA-87 hedged signature: seed, context, message, randomness; none where it fails the rejection tests of
FIPS 204 (R208). -/
opaque Config.mldsaSignRaw : List Nat → List Nat → List Nat → List Nat → Option (List Nat)

/-- ML-KEM-1024 key pair from randomness: encapsulation key and decapsulation key (R200). -/
opaque Config.mlkemKeyGen : List Nat → List Nat × List Nat

/-- ML-KEM-1024 encapsulation: key and randomness to ciphertext and secret; none where the key fails the input check. -/
opaque Config.mlkemEncaps : List Nat → List Nat → Option (List Nat × List Nat)

/-- ML-KEM-1024 decapsulation with implicit rejection: decapsulation key and ciphertext to secret. -/
opaque Config.mlkemDecaps : List Nat → List Nat → List Nat

/-- AES-128 CCM* encryption (R196): key, nonce, associated octets, plain octets, MIC octets; the cipher text and MIC. -/
opaque Config.ccmSealRaw : List Nat → List Nat → List Nat → List Nat → Nat → List Nat

/-- AES-128 CCM* decryption: key, nonce, associated octets, cipher text, MIC; the plain text, or none where the MIC does
not check. -/
opaque Config.ccmOpenRaw : List Nat → List Nat → List Nat → List Nat → List Nat → Option (List Nat)

/-- The n-th octets drawn from the DRBG (R206). -/
opaque Config.drbgRaw : Nat → Nat → List Nat

/-- The digest of the boot ROM (R204). -/
opaque Config.romDigest : List Nat

/-! What IEEE 802.15.4-2020 gives the SUN PHYs and the spec does not repeat (R90, R91, R99). PRESUMED: log entry 172. -/

/-- Taps of the K = 4 code that is not recursive; the second output's and the feedback taps of the recursive one.
PRESUMED: log entry 172. -/
opaque Config.fskTaps : Nat × Nat
@[inherit_doc Config.fskTaps] opaque Config.fskRecursiveTaps : Nat × Nat

/-- Where the MR-FSK interleaver places the k-th pair of coded bits of sixteen. -/
opaque Config.fskPlace : Nat → Nat

/-- Whether MR-FSK frames are sent whitened. -/
opaque Config.fskWhitens : Bool

/-- Taps of the K = 7 code. -/
opaque Config.ofdmTaps : Nat × Nat

/-- Where the MR-OFDM interleaver places the k-th of n bits. -/
opaque Config.ofdmPlace : Nat → Nat → Nat

/-- The check sequence of an MR-OFDM header. -/
opaque Config.ofdmHcs : List Bool → Nat

/-- The scrambler's seed that a header's scrambler field names. -/
opaque Config.ofdmSeed : Nat → Nat

/-- Training symbols of an MR-OFDM option: real and imaginary parts of their tones, in order. -/
opaque Config.ofdmTraining : Nat → List (List (Int × Int))

/-- Identifier, channel page and PHY configuration of the active hop sequence, as the Channel Hopping IE names them: the spec states
none (R117). DEDUCED: log entry 118. -/
opaque Config.hopSequence : Nat × Nat × Nat

/-- The magnitude of a sample of the composite signal as the pre-distorter forms it: the spec states no rounding (R63). DESIGN CHOICE:
log entry 191. -/
opaque Config.dpdMagnitude : Int → Int → Nat

/-- What the ROM reads of a calibration record: the place of the record among its copies, or none where its check value is wrong.
The spec gives the record no layout (R71). DESIGN CHOICE: log entry 52. -/
opaque Config.calSeq : List Nat → Option Nat

/-- The scrambler seed of the n-th frame that is sent: the spec states none. DESIGN CHOICE: log entry 174. -/
opaque Config.sendSeed : Nat → Nat

/-- The pad octet of the n-th frame that is sent: the spec states none (R101, R124). DESIGN CHOICE: log entry 174. -/
opaque Config.padOctet : Nat → Nat

/-- How many octets of a frame a lane has handed over, or a carrier has sent, a number of grains after its delimiter or first symbol:
by the frame or carrier and the grains. The spec bounds the last octet only (R100). DESIGN CHOICE: log entry 206. -/
opaque Config.octetsBy : Nat → Nat → Nat

/-- Octets of MR-FSK preamble that the transmitter sends: the spec states no number (R90). PRESUMED: log entry 104. -/
opaque Config.fskPreamble : Nat

/-- Whether a quotient that the format does not hold is rounded up, where the spec does not state it: by the place it arises
(0 CMUL, 1 SCALE, 2 ERROR_PPB, 3 the step to gang time, 4 the frequency offset in ppb) and its numerator. -/
opaque Config.roundsUp : Nat → Int → Bool

/-- The component SCALE answers where −1 × −1 falls outside the format: no rule saturates it (R221). -/
opaque Config.scaleBeyond : Int

/-- Quotient rounded to the nearest integer, for a positive divisor; which way an exact half goes is free where the spec does
not state it. DESIGN CHOICE: log entry 163. -/
def Config.roundHalf (place : Nat) (n : Int) (d : Nat) : Int :=
  if 2 * (n % d) = d then n / d + b2n (Config.roundsUp place n) else roundNear n d

/-- An octet string cut or zero-filled to a length, every octet below 256. -/
def octetsTo (n : Nat) (xs : List Nat) : List Nat := ((xs.take n).map (· % 256)) ++ List.replicate (n - xs.length) 0

/-- SHA3-512, 64 octets. DESIGN CHOICE: log entry 13. -/
def Config.sha3_512 (m : List Nat) : List Nat := octetsTo 64 (Config.sha3_512Raw m)

/-- SHAKE256 to `n` octets. -/
def Config.shake256 (m : List Nat) (n : Nat) : List Nat := octetsTo n (Config.shake256Raw m n)

/-- KMAC256 to `n` octets. -/
def Config.kmac256 (k x : List Nat) (n : Nat) (s : List Nat) : List Nat := octetsTo n (Config.kmac256Raw k x (8 * n) s)

/-- KMAC256 to a number of bits, in as few octets as hold them, the last zero-filled above. -/
def Config.kmacBits (k x : List Nat) (bits : Nat) (s : List Nat) : List Nat :=
  let o := octetsTo ((bits + 7) / 8) (Config.kmac256Raw k x bits s)
  if bits % 8 = 0 then o else o.dropLast ++ [o.getLastD 0 % 2 ^ (bits % 8)]

/-- The n-th draw of `len` octets from the DRBG. -/
def Config.drbg (n len : Nat) : List Nat := octetsTo len (Config.drbgRaw n len)

/-- A hedged signature, 4627 octets. DEDUCED: log entry 72. -/
def Config.mldsaSign (seed ctx m rnd : List Nat) : Option (List Nat) :=
  (Config.mldsaSignRaw seed ctx m rnd).map (octetsTo 4627)

/-- CCM* encryption, the MIC appended. -/
def Config.ccmSeal (k nonce a m : List Nat) (mic : Nat) : List Nat := octetsTo (m.length + mic) (Config.ccmSealRaw k nonce a m mic)

/-- CCM* decryption. -/
def Config.ccmOpen (k nonce a ct mic : List Nat) : Option (List Nat) :=
  (Config.ccmOpenRaw k nonce a ct mic).map (octetsTo ct.length)

end Sys2Proof
end

