-- ==== Sys2Proof/Machine/RegMap.lean ====
section
/-! DEFINITION. The register map of space 5: the address of every register (R36 and the register tables that end each
chapter: R25, R73, R105, R134, R159, R187, R210, R303, R304, R313, R330, R351, R380, R407, R425), the place of every
field, its access code (R5), its reset value and the values a write may place in it (R37, R44). -/

namespace Sys2Proof.Machine

/-- A field of a register: the register's space-5 address, the field's lowest bit and its width. -/
structure Field where
  reg : Nat
  lo : Nat
  w : Nat
  deriving DecidableEq, Repr

/-- The access codes of R5 that revision A1 uses. -/
inductive Access
  | rw | ro | w1c | wo
  deriving DecidableEq, Repr

/-- The values a field accepts (R37, R44): any, a range of naturals, a range of signed values, or a window in
milliseconds (0, or 16 to 3,600,000, of LINK_DWELL_WINDOW and LINK_DUTY_n_WINDOW). -/
inductive Legal
  | any
  | nat (lo hi : Nat)
  | int (lo hi : Int)
  | window
  deriving DecidableEq, Repr

/-- One field of a register map row. -/
structure FieldInfo where
  lo : Nat
  w : Nat
  acc : Access
  legal : Legal
  deriving DecidableEq, Repr

/-- One row of a register map: a first address, up to two index counts with their strides, the tag, the reset
payload and the fields. -/
structure RegRow where
  addr : Nat
  n1 : Nat
  s1 : Nat
  n2 : Nat
  s2 : Nat
  tag : Tag
  reset : Nat
  fields : List FieldInfo
  deriving DecidableEq, Repr

/-- Whether a row covers an address. -/
def RegRow.covers (r : RegRow) (a : Nat) : Bool :=
  if a < r.addr then false else
  let d := a - r.addr
  if r.n1 = 1 then d == 0
  else if r.n2 = 1 then d % r.s1 == 0 && d / r.s1 < r.n1
  else d / r.s1 < r.n1 && d % r.s1 % r.s2 == 0 && d % r.s1 / r.s2 < r.n2

/-- Whether a value is one the field accepts. -/
def Legal.admits (l : Legal) (w v : Nat) : Bool :=
  match l with
  | .any => true
  | .nat lo hi => decide (lo ≤ v) && decide (v ≤ hi)
  | .int lo hi => decide (lo ≤ signed w v) && decide (signed w v ≤ hi)
  | .window => v == 0 || (decide (16 ≤ v) && decide (v ≤ 3600000))

namespace Reg

/-- SYS_ID (R407). -/
abbrev SYS_ID : Nat := 0x0
/-- SYS_SERIAL_LO (R407). -/
abbrev SYS_SERIAL_LO : Nat := 0x1
/-- SYS_SERIAL_HI (R407). -/
abbrev SYS_SERIAL_HI : Nat := 0x2
/-- SYS_STATE (R24). -/
abbrev SYS_STATE : Nat := 0x8
/-- SYS_STATUS (R407). -/
abbrev SYS_STATUS : Nat := 0xc
/-- SYS_INT_ENABLE (R407). -/
abbrev SYS_INT_ENABLE : Nat := 0xd
/-- PWR_FEATURE (R351). -/
abbrev PWR_FEATURE : Nat := 0x1000
/-- PWR_REQUEST (R351). -/
abbrev PWR_REQUEST : Nat := 0x1001
/-- PWR_STATUS (R351). -/
abbrev PWR_STATUS : Nat := 0x1002
/-- PWR_RESULT (R351). -/
abbrev PWR_RESULT : Nat := 0x1003
/-- PWR_RETAIN_MASK (R351). -/
abbrev PWR_RETAIN_MASK : Nat := 0x1004
/-- PWR_WAKE_ENABLE (R351). -/
abbrev PWR_WAKE_ENABLE : Nat := 0x1005
/-- PWR_WAKE_PINS (R351). -/
abbrev PWR_WAKE_PINS : Nat := 0x1006
/-- PWR_WAKE_STATUS (R351). -/
abbrev PWR_WAKE_STATUS : Nat := 0x1007
/-- PWR_NOW_LO (R351). -/
abbrev PWR_NOW_LO : Nat := 0x1008
/-- PWR_NOW_HI (R351). -/
abbrev PWR_NOW_HI : Nat := 0x1009
/-- PWR_WAKE_AT_LO (R351). -/
abbrev PWR_WAKE_AT_LO : Nat := 0x100a
/-- PWR_WAKE_AT_HI (R351). -/
abbrev PWR_WAKE_AT_HI : Nat := 0x100b
/-- PWR_IDLE_ARM (R351). -/
abbrev PWR_IDLE_ARM : Nat := 0x1010
/-- PWR_IDLE_COUNT (R351). -/
abbrev PWR_IDLE_COUNT : Nat := 0x1011
/-- PWR_MONITOR (R351). -/
abbrev PWR_MONITOR : Nat := 0x1018
/-- PWR_RESET_CAUSE (R351). -/
abbrev PWR_RESET_CAUSE : Nat := 0x1019
/-- PWR_INT_STATUS (R351). -/
abbrev PWR_INT_STATUS : Nat := 0x1020
/-- PWR_INT_ENABLE (R351). -/
abbrev PWR_INT_ENABLE : Nat := 0x1021
/-- PWR_COUNTS (R351). -/
abbrev PWR_COUNTS : Nat := 0x1022
/-- RTC_CTRL (R330). -/
abbrev RTC_CTRL : Nat := 0x2000
/-- RTC_STATUS (R330). -/
abbrev RTC_STATUS : Nat := 0x2001
/-- RTC_SECONDS (R330). -/
abbrev RTC_SECONDS : Nat := 0x2002
/-- RTC_FRAC (R330). -/
abbrev RTC_FRAC : Nat := 0x2003
/-- RTC_CAL_DATE (R330). -/
abbrev RTC_CAL_DATE : Nat := 0x2004
/-- RTC_CAL_TIME (R330). -/
abbrev RTC_CAL_TIME : Nat := 0x2005
/-- RTC_CMD (R330). -/
abbrev RTC_CMD : Nat := 0x2008
/-- RTC_SET_SECONDS (R330). -/
abbrev RTC_SET_SECONDS : Nat := 0x2009
/-- RTC_SET_FRAC (R330). -/
abbrev RTC_SET_FRAC : Nat := 0x200a
/-- RTC_SNAP_SECONDS (R330). -/
abbrev RTC_SNAP_SECONDS : Nat := 0x200c
/-- RTC_SNAP_FRAC (R330). -/
abbrev RTC_SNAP_FRAC : Nat := 0x200d
/-- RTC_SNAP_GRAIN (R330). -/
abbrev RTC_SNAP_GRAIN : Nat := 0x200e
/-- RTC_REF_PPB (R330). -/
abbrev RTC_REF_PPB : Nat := 0x200f
/-- RTC_COMP_T0 (R330). -/
abbrev RTC_COMP_T0 : Nat := 0x2010
/-- RTC_COMP_C0 (R330). -/
abbrev RTC_COMP_C0 : Nat := 0x2011
/-- RTC_COMP_C1 (R330). -/
abbrev RTC_COMP_C1 : Nat := 0x2012
/-- RTC_COMP_C2 (R330). -/
abbrev RTC_COMP_C2 : Nat := 0x2013
/-- RTC_COMP_C3 (R330). -/
abbrev RTC_COMP_C3 : Nat := 0x2014
/-- RTC_COMP_STATUS (R330). -/
abbrev RTC_COMP_STATUS : Nat := 0x2015
/-- RTC_COMP_ERROR (R330). -/
abbrev RTC_COMP_ERROR : Nat := 0x2016
/-- RTC_ALARM_SECONDS (R330). -/
abbrev RTC_ALARM_SECONDS (a : Nat) : Nat := 0x2020 + 0x4 * a
/-- RTC_ALARM_FRAC (R330). -/
abbrev RTC_ALARM_FRAC (a : Nat) : Nat := 0x2021 + 0x4 * a
/-- RTC_ALARM_CTRL (R330). -/
abbrev RTC_ALARM_CTRL (a : Nat) : Nat := 0x2022 + 0x4 * a
/-- RTC_BACKUP_LEVEL (R330). -/
abbrev RTC_BACKUP_LEVEL : Nat := 0x2030
/-- RTC_BACKUP_NOW (R330). -/
abbrev RTC_BACKUP_NOW : Nat := 0x2031
/-- RTC_SUPPLY_LOG (R330). -/
abbrev RTC_SUPPLY_LOG : Nat := 0x2034
/-- RTC_SUPPLY_LOG_AT (R330). -/
abbrev RTC_SUPPLY_LOG_AT : Nat := 0x2035
/-- RTC_INT_STATUS (R330). -/
abbrev RTC_INT_STATUS : Nat := 0x2038
/-- RTC_INT_ENABLE (R330). -/
abbrev RTC_INT_ENABLE : Nat := 0x2039
/-- TMR_CTRL (R304). -/
abbrev TMR_CTRL (t : Nat) : Nat := 0x3000 + 0x20 * t
/-- TMR_COUNT (R304). -/
abbrev TMR_COUNT (t : Nat) : Nat := 0x3001 + 0x20 * t
/-- TMR_STATUS (R304). -/
abbrev TMR_STATUS (t : Nat) : Nat := 0x3002 + 0x20 * t
/-- TMR_SNAPV (R304). -/
abbrev TMR_SNAPV (t : Nat) : Nat := 0x3003 + 0x20 * t
/-- TMR_CMP (R304). -/
abbrev TMR_CMP (t : Nat) (i : Nat) : Nat := 0x3004 + 0x20 * t + i
/-- TMR_ADD (R304). -/
abbrev TMR_ADD (t : Nat) (i : Nat) : Nat := 0x3008 + 0x20 * t + i
/-- TMR_CCFG (R304). -/
abbrev TMR_CCFG (t : Nat) (i : Nat) : Nat := 0x300c + 0x20 * t + i
/-- TMR_PAIR_LO (R304). -/
abbrev TMR_PAIR_LO (p : Nat) : Nat := 0x3200 + 0x2 * p
/-- TMR_PAIR_HI (R304). -/
abbrev TMR_PAIR_HI (p : Nat) : Nat := 0x3201 + 0x2 * p
/-- TMR_GO (R304). -/
abbrev TMR_GO : Nat := 0x3210
/-- TMR_FEATURE (R304). -/
abbrev TMR_FEATURE : Nat := 0x3218
/-- CAP_CTRL (R304). -/
abbrev CAP_CTRL (k : Nat) : Nat := 0x3280 + 0x8 * k
/-- CAP_STATUS (R304). -/
abbrev CAP_STATUS (k : Nat) : Nat := 0x3281 + 0x8 * k
/-- CAP_VALUE_LO (R304). -/
abbrev CAP_VALUE_LO (k : Nat) : Nat := 0x3282 + 0x8 * k
/-- CAP_VALUE_HI (R304). -/
abbrev CAP_VALUE_HI (k : Nat) : Nat := 0x3283 + 0x8 * k
/-- EVF_FEATURE (R303). -/
abbrev EVF_FEATURE : Nat := 0x4000
/-- EVF_SRC_MASK (R303). -/
abbrev EVF_SRC_MASK (m : Nat) : Nat := 0x4008 + m
/-- EVF_OVERRUN (R303). -/
abbrev EVF_OVERRUN (m : Nat) : Nat := 0x4010 + m
/-- EVF_COINCIDE (R303). -/
abbrev EVF_COINCIDE (m : Nat) : Nat := 0x4018 + m
/-- EVF_SW_FIRE (R303). -/
abbrev EVF_SW_FIRE : Nat := 0x4020
/-- EVF_CELL_OUT_LO (R303). -/
abbrev EVF_CELL_OUT_LO : Nat := 0x4021
/-- EVF_CELL_OUT_HI (R303). -/
abbrev EVF_CELL_OUT_HI : Nat := 0x4022
/-- EVF_GPIO_EDGE (R303). -/
abbrev EVF_GPIO_EDGE (m : Nat) : Nat := 0x4028 + m
/-- EVF_GANG_DELAY (R303). -/
abbrev EVF_GANG_DELAY : Nat := 0x4030
/-- EVF_GANG_STATUS (R303). -/
abbrev EVF_GANG_STATUS : Nat := 0x4031
/-- EVF_GANG_COUNTS (R303). -/
abbrev EVF_GANG_COUNTS : Nat := 0x4032
/-- EVF_INT_STATUS (R303). -/
abbrev EVF_INT_STATUS : Nat := 0x4038
/-- EVF_INT_ENABLE (R303). -/
abbrev EVF_INT_ENABLE : Nat := 0x4039
/-- EVF_GPIO_TASK (R303). -/
abbrev EVF_GPIO_TASK (m : Nat) : Nat := 0x4040 + m
/-- CHK_CTRL (R313). -/
abbrev CHK_CTRL (n : Nat) : Nat := 0x5000 + 0x10 * n
/-- CHK_POLY (R313). -/
abbrev CHK_POLY (n : Nat) : Nat := 0x5001 + 0x10 * n
/-- CHK_INIT (R313). -/
abbrev CHK_INIT (n : Nat) : Nat := 0x5002 + 0x10 * n
/-- CHK_XOROUT (R313). -/
abbrev CHK_XOROUT (n : Nat) : Nat := 0x5003 + 0x10 * n
/-- CHK_VALUE (R313). -/
abbrev CHK_VALUE (n : Nat) : Nat := 0x5004 + 0x10 * n
/-- CHK_RESULT (R313). -/
abbrev CHK_RESULT (n : Nat) : Nat := 0x5005 + 0x10 * n
/-- CHK_EXPECT (R313). -/
abbrev CHK_EXPECT (n : Nat) : Nat := 0x5006 + 0x10 * n
/-- CHK_LENGTH (R313). -/
abbrev CHK_LENGTH (n : Nat) : Nat := 0x5007 + 0x10 * n
/-- CHK_COUNT (R313). -/
abbrev CHK_COUNT (n : Nat) : Nat := 0x5008 + 0x10 * n
/-- CHK_STATUS (R313). -/
abbrev CHK_STATUS (n : Nat) : Nat := 0x5009 + 0x10 * n
/-- CHK_INT_ENABLE (R313). -/
abbrev CHK_INT_ENABLE (n : Nat) : Nat := 0x500a + 0x10 * n
/-- CHK_COUNTS (R313). -/
abbrev CHK_COUNTS (n : Nat) : Nat := 0x500b + 0x10 * n
/-- CHK_FEATURE (R313). -/
abbrev CHK_FEATURE : Nat := 0x5080
/-- MEM_FEATURE (R187). -/
abbrev MEM_FEATURE : Nat := 0x6000
/-- MEM_PARTITION (R187). -/
abbrev MEM_PARTITION : Nat := 0x6001
/-- MEM_ENDPOINT_LIMIT (R187). -/
abbrev MEM_ENDPOINT_LIMIT : Nat := 0x6002
/-- MEM_ENDPOINT_SRAM (R187). -/
abbrev MEM_ENDPOINT_SRAM : Nat := 0x6003
/-- MEM_ECC_CTRL (R187). -/
abbrev MEM_ECC_CTRL : Nat := 0x6008
/-- MEM_SCRUB_SRAM_INTERVAL (R187). -/
abbrev MEM_SCRUB_SRAM_INTERVAL : Nat := 0x6009
/-- MEM_SCRUB_TABLE_INTERVAL (R187). -/
abbrev MEM_SCRUB_TABLE_INTERVAL : Nat := 0x600a
/-- MEM_SCRUB_DDR_INTERVAL (R187). -/
abbrev MEM_SCRUB_DDR_INTERVAL : Nat := 0x600b
/-- MEM_ECC_COUNTS_DATA (R187). -/
abbrev MEM_ECC_COUNTS_DATA : Nat := 0x6010
/-- MEM_ECC_COUNTS_DP (R187). -/
abbrev MEM_ECC_COUNTS_DP : Nat := 0x6011
/-- MEM_ECC_COUNTS_TABLE (R187). -/
abbrev MEM_ECC_COUNTS_TABLE : Nat := 0x6012
/-- MEM_ECC_COUNTS_DDR (R187). -/
abbrev MEM_ECC_COUNTS_DDR : Nat := 0x6013
/-- MEM_ECC_COUNTS_RETAIN (R187). -/
abbrev MEM_ECC_COUNTS_RETAIN : Nat := 0x6014
/-- MEM_ECC_COUNTS_MRAM (R187). -/
abbrev MEM_ECC_COUNTS_MRAM : Nat := 0x6015
/-- MEM_ECC_LAST (R187). -/
abbrev MEM_ECC_LAST : Nat := 0x6016
/-- MEM_ECC_LAST_AT (R187). -/
abbrev MEM_ECC_LAST_AT : Nat := 0x6017
/-- MEM_CONFLICT (R187). -/
abbrev MEM_CONFLICT (m : Nat) : Nat := 0x6020 + m
/-- MEM_DP_STATUS (R187). -/
abbrev MEM_DP_STATUS : Nat := 0x6028
/-- MEM_DP_CONFLICT (R187). -/
abbrev MEM_DP_CONFLICT : Nat := 0x6029
/-- MEM_MARCH_CTRL (R187). -/
abbrev MEM_MARCH_CTRL : Nat := 0x6030
/-- MEM_MARCH_INTERVAL (R187). -/
abbrev MEM_MARCH_INTERVAL : Nat := 0x6031
/-- MEM_MARCH_STATUS (R187). -/
abbrev MEM_MARCH_STATUS : Nat := 0x6032
/-- MEM_MARCH_LAST_RETIRED (R187). -/
abbrev MEM_MARCH_LAST_RETIRED : Nat := 0x6033
/-- MEM_RETAIN_STATUS (R187). -/
abbrev MEM_RETAIN_STATUS : Nat := 0x6038
/-- MEM_DDR_CTRL (R187). -/
abbrev MEM_DDR_CTRL : Nat := 0x6040
/-- MEM_DDR_STATUS (R187). -/
abbrev MEM_DDR_STATUS : Nat := 0x6041
/-- MEM_MIRROR_CTRL (R187). -/
abbrev MEM_MIRROR_CTRL : Nat := 0x6048
/-- MEM_MIRROR_STATUS (R187). -/
abbrev MEM_MIRROR_STATUS : Nat := 0x6049
/-- MEM_MIRROR_COUNTS (R187). -/
abbrev MEM_MIRROR_COUNTS : Nat := 0x604a
/-- MEM_INT_STATUS (R187). -/
abbrev MEM_INT_STATUS : Nat := 0x6050
/-- MEM_INT_ENABLE (R187). -/
abbrev MEM_INT_ENABLE : Nat := 0x6051
/-- RF_FEATURE (R73). -/
abbrev RF_FEATURE : Nat := 0x8000
/-- RF_CHAIN_CTRL (R73). -/
abbrev RF_CHAIN_CTRL (x : Nat) : Nat := 0x8010 + 0x10 * x
/-- RF_CHAIN_FREQ (R73). -/
abbrev RF_CHAIN_FREQ (x : Nat) : Nat := 0x8011 + 0x10 * x
/-- RF_CHAIN_RETUNE_AT (R73). -/
abbrev RF_CHAIN_RETUNE_AT (x : Nat) : Nat := 0x8012 + 0x10 * x
/-- RF_CHAIN_STATUS (R73). -/
abbrev RF_CHAIN_STATUS (x : Nat) : Nat := 0x8013 + 0x10 * x
/-- RF_CHAIN_COUNTS (R73). -/
abbrev RF_CHAIN_COUNTS (x : Nat) : Nat := 0x8014 + 0x10 * x
/-- RF_CHAIN_FREQ_NOW (R73). -/
abbrev RF_CHAIN_FREQ_NOW (x : Nat) : Nat := 0x8015 + 0x10 * x
/-- RF_AGC_CONFIG (R73). -/
abbrev RF_AGC_CONFIG : Nat := 0x8030
/-- RF_GAIN_EVENT_LEVEL (R73). -/
abbrev RF_GAIN_EVENT_LEVEL : Nat := 0x8031
/-- RF_TX_CTRL (R73). -/
abbrev RF_TX_CTRL : Nat := 0x8040
/-- RF_TX_FREQ (R73). -/
abbrev RF_TX_FREQ : Nat := 0x8041
/-- RF_TX_RETUNE_AT (R73). -/
abbrev RF_TX_RETUNE_AT : Nat := 0x8042
/-- RF_TX_POWER (R73). -/
abbrev RF_TX_POWER : Nat := 0x8043
/-- RF_TX_CAPACITY (R73). -/
abbrev RF_TX_CAPACITY : Nat := 0x8044
/-- RF_EXT_PA (R73). -/
abbrev RF_EXT_PA : Nat := 0x8045
/-- RF_TX_FREQ_NOW (R73). -/
abbrev RF_TX_FREQ_NOW : Nat := 0x8046
/-- RF_DPD_CTRL (R73). -/
abbrev RF_DPD_CTRL : Nat := 0x8050
/-- RF_DPD_UPDATE_GUARD (R73). -/
abbrev RF_DPD_UPDATE_GUARD : Nat := 0x8051
/-- RF_DPD_STATUS (R73). -/
abbrev RF_DPD_STATUS : Nat := 0x8052
/-- RF_DPD_STATE_LO (R73). -/
abbrev RF_DPD_STATE_LO : Nat := 0x8053
/-- RF_DPD_STATE_HI (R73). -/
abbrev RF_DPD_STATE_HI : Nat := 0x8054
/-- RF_DPD_IMD_LIMIT (R73). -/
abbrev RF_DPD_IMD_LIMIT : Nat := 0x8055
/-- RF_DPD_TEMP_EDGES (R73). -/
abbrev RF_DPD_TEMP_EDGES : Nat := 0x8056
/-- RF_DPD_GROUP_EDGE0 (R73). -/
abbrev RF_DPD_GROUP_EDGE0 : Nat := 0x8058
/-- RF_DPD_GROUP_EDGE1 (R73). -/
abbrev RF_DPD_GROUP_EDGE1 : Nat := 0x8059
/-- RF_DPD_GROUP_EDGE2 (R73). -/
abbrev RF_DPD_GROUP_EDGE2 : Nat := 0x805a
/-- RF_DPD_GROUP_EDGE3 (R73). -/
abbrev RF_DPD_GROUP_EDGE3 : Nat := 0x805b
/-- RF_DPD_GROUP_EDGE4 (R73). -/
abbrev RF_DPD_GROUP_EDGE4 : Nat := 0x805c
/-- RF_DPD_GROUP_EDGE5 (R73). -/
abbrev RF_DPD_GROUP_EDGE5 : Nat := 0x805d
/-- RF_DPD_GROUP_EDGE6 (R73). -/
abbrev RF_DPD_GROUP_EDGE6 : Nat := 0x805e
/-- RF_CAL_CTRL (R73). -/
abbrev RF_CAL_CTRL : Nat := 0x8060
/-- RF_CAL_STATUS (R73). -/
abbrev RF_CAL_STATUS : Nat := 0x8061
/-- RF_INT_STATUS (R73). -/
abbrev RF_INT_STATUS : Nat := 0x8070
/-- RF_INT_ENABLE (R73). -/
abbrev RF_INT_ENABLE : Nat := 0x8071
/-- LANE_CTRL (R105). -/
abbrev LANE_CTRL (n : Nat) : Nat := 0xa000 + 0x40 * n
/-- LANE_FREQ (R105). -/
abbrev LANE_FREQ (n : Nat) : Nat := 0xa001 + 0x40 * n
/-- LANE_PHY (R105). -/
abbrev LANE_PHY (n : Nat) : Nat := 0xa002 + 0x40 * n
/-- LANE_SWITCH_AT (R105). -/
abbrev LANE_SWITCH_AT (n : Nat) : Nat := 0xa003 + 0x40 * n
/-- LANE_DETECT (R105). -/
abbrev LANE_DETECT (n : Nat) : Nat := 0xa004 + 0x40 * n
/-- LANE_STATUS (R105). -/
abbrev LANE_STATUS (n : Nat) : Nat := 0xa005 + 0x40 * n
/-- LANE_RSSI_NOW (R105). -/
abbrev LANE_RSSI_NOW (n : Nat) : Nat := 0xa006 + 0x40 * n
/-- LANE_COUNTS_A (R105). -/
abbrev LANE_COUNTS_A (n : Nat) : Nat := 0xa007 + 0x40 * n
/-- LANE_COUNTS_B (R105). -/
abbrev LANE_COUNTS_B (n : Nat) : Nat := 0xa008 + 0x40 * n
/-- LANE_INT_STATUS (R105). -/
abbrev LANE_INT_STATUS (n : Nat) : Nat := 0xa009 + 0x40 * n
/-- LANE_INT_ENABLE (R105). -/
abbrev LANE_INT_ENABLE (n : Nat) : Nat := 0xa00a + 0x40 * n
/-- LANE_CAPS (R105). -/
abbrev LANE_CAPS (n : Nat) : Nat := 0xa00b + 0x40 * n
/-- LINK_FEATURE (R134). -/
abbrev LINK_FEATURE : Nat := 0xc000
/-- LINK_CTRL (R134). -/
abbrev LINK_CTRL : Nat := 0xc001
/-- LINK_PAN_SHORT (R134). -/
abbrev LINK_PAN_SHORT : Nat := 0xc002
/-- LINK_EXT_ADDR_LO (R134). -/
abbrev LINK_EXT_ADDR_LO : Nat := 0xc003
/-- LINK_EXT_ADDR_HI (R134). -/
abbrev LINK_EXT_ADDR_HI : Nat := 0xc004
/-- LINK_ACK_GAP (R134). -/
abbrev LINK_ACK_GAP : Nat := 0xc005
/-- LINK_ACK_WAIT (R134). -/
abbrev LINK_ACK_WAIT : Nat := 0xc006
/-- LINK_TX_FRAME_COUNTER (R134). -/
abbrev LINK_TX_FRAME_COUNTER : Nat := 0xc007
/-- LINK_ZHR_PAD_FIX (R134). -/
abbrev LINK_ZHR_PAD_FIX : Nat := 0xc008
/-- LINK_SCHED_LANES_LO (R134). -/
abbrev LINK_SCHED_LANES_LO : Nat := 0xc009
/-- LINK_SCHED_LANES_HI (R134). -/
abbrev LINK_SCHED_LANES_HI : Nat := 0xc00a
/-- LINK_CSMA (R134). -/
abbrev LINK_CSMA : Nat := 0xc010
/-- LINK_CCA (R134). -/
abbrev LINK_CCA : Nat := 0xc011
/-- LINK_DWELL_BASE (R134). -/
abbrev LINK_DWELL_BASE : Nat := 0xc018
/-- LINK_DWELL_SPACING (R134). -/
abbrev LINK_DWELL_SPACING : Nat := 0xc019
/-- LINK_DWELL_WINDOW (R134). -/
abbrev LINK_DWELL_WINDOW : Nat := 0xc01a
/-- LINK_DWELL_BUDGET (R134). -/
abbrev LINK_DWELL_BUDGET : Nat := 0xc01b
/-- LINK_RING_BASE (R134). -/
abbrev LINK_RING_BASE (r : Nat) : Nat := 0xc040 + 0x8 * r
/-- LINK_RING_SIZE (R134). -/
abbrev LINK_RING_SIZE (r : Nat) : Nat := 0xc041 + 0x8 * r
/-- LINK_RING_PROD (R134). -/
abbrev LINK_RING_PROD (r : Nat) : Nat := 0xc042 + 0x8 * r
/-- LINK_RING_CONS (R134). -/
abbrev LINK_RING_CONS (r : Nat) : Nat := 0xc043 + 0x8 * r
/-- LINK_RING_PAY_BASE (R134). -/
abbrev LINK_RING_PAY_BASE (r : Nat) : Nat := 0xc044 + 0x8 * r
/-- LINK_RING_PAY_SIZE (R134). -/
abbrev LINK_RING_PAY_SIZE (r : Nat) : Nat := 0xc045 + 0x8 * r
/-- LINK_RING_PAY_FREE (R134). -/
abbrev LINK_RING_PAY_FREE (r : Nat) : Nat := 0xc046 + 0x8 * r
/-- LINK_TSCH_CTRL (R134). -/
abbrev LINK_TSCH_CTRL : Nat := 0xc050
/-- LINK_TSCH_ASN_LO (R134). -/
abbrev LINK_TSCH_ASN_LO : Nat := 0xc051
/-- LINK_TSCH_ASN_HI (R134). -/
abbrev LINK_TSCH_ASN_HI : Nat := 0xc052
/-- LINK_TSCH_TABLE (R134). -/
abbrev LINK_TSCH_TABLE : Nat := 0xc053
/-- LINK_TSCH_HOP_BASE (R134). -/
abbrev LINK_TSCH_HOP_BASE : Nat := 0xc054
/-- LINK_TSCH_HOP_LEN (R134). -/
abbrev LINK_TSCH_HOP_LEN : Nat := 0xc055
/-- LINK_TSCH_EB (R134). -/
abbrev LINK_TSCH_EB : Nat := 0xc056
/-- LINK_TSCH_SF (R134). -/
abbrev LINK_TSCH_SF (i : Nat) : Nat := 0xc058 + i
/-- LINK_TS (R134). -/
abbrev LINK_TS (k : Nat) : Nat := 0xc060 + k
/-- LINK_COUNTS_0 (R134). -/
abbrev LINK_COUNTS_0 : Nat := 0xc070
/-- LINK_COUNTS_1 (R134). -/
abbrev LINK_COUNTS_1 : Nat := 0xc071
/-- LINK_COUNTS_2 (R134). -/
abbrev LINK_COUNTS_2 : Nat := 0xc072
/-- LINK_COUNTS_3 (R134). -/
abbrev LINK_COUNTS_3 : Nat := 0xc073
/-- LINK_COUNTS_4 (R134). -/
abbrev LINK_COUNTS_4 : Nat := 0xc074
/-- LINK_COUNTS_5 (R134). -/
abbrev LINK_COUNTS_5 : Nat := 0xc075
/-- LINK_COUNTS_6 (R134). -/
abbrev LINK_COUNTS_6 : Nat := 0xc076
/-- LINK_COUNTS_7 (R134). -/
abbrev LINK_COUNTS_7 : Nat := 0xc077
/-- LINK_INT_STATUS (R134). -/
abbrev LINK_INT_STATUS : Nat := 0xc078
/-- LINK_INT_ENABLE (R134). -/
abbrev LINK_INT_ENABLE : Nat := 0xc079
/-- LINK_STATUS (R134). -/
abbrev LINK_STATUS : Nat := 0xc07a
/-- LINK_DUTY_LOW (R134). -/
abbrev LINK_DUTY_LOW (n : Nat) : Nat := 0xc080 + 0x8 * n
/-- LINK_DUTY_HIGH (R134). -/
abbrev LINK_DUTY_HIGH (n : Nat) : Nat := 0xc081 + 0x8 * n
/-- LINK_DUTY_WINDOW (R134). -/
abbrev LINK_DUTY_WINDOW (n : Nat) : Nat := 0xc082 + 0x8 * n
/-- LINK_DUTY_BUDGET (R134). -/
abbrev LINK_DUTY_BUDGET (n : Nat) : Nat := 0xc083 + 0x8 * n
/-- LINK_DUTY_USED (R134). -/
abbrev LINK_DUTY_USED (n : Nat) : Nat := 0xc084 + 0x8 * n
/-- LINK_PARTNER_BASE (R159). -/
abbrev LINK_PARTNER_BASE : Nat := 0xc100
/-- LINK_PSCHED_BASE (R159). -/
abbrev LINK_PSCHED_BASE : Nat := 0xc101
/-- LINK_PARTNER_CMD (R159). -/
abbrev LINK_PARTNER_CMD : Nat := 0xc102
/-- LINK_PARTNER_STATUS (R159). -/
abbrev LINK_PARTNER_STATUS : Nat := 0xc103
/-- LINK_PARTNER_STAGE (R159). -/
abbrev LINK_PARTNER_STAGE (i : Nat) : Nat := 0xc108 + i
/-- LINK_PSCHED_STAGE (R159). -/
abbrev LINK_PSCHED_STAGE (i : Nat) : Nat := 0xc110 + i
/-- LINK_PSCHED_CTRL (R159). -/
abbrev LINK_PSCHED_CTRL : Nat := 0xc120
/-- LINK_PSCHED_GUARD (R159). -/
abbrev LINK_PSCHED_GUARD : Nat := 0xc121
/-- LINK_PSCHED_MAX_WINDOW (R159). -/
abbrev LINK_PSCHED_MAX_WINDOW : Nat := 0xc122
/-- LINK_PAGE_CTRL (R159). -/
abbrev LINK_PAGE_CTRL : Nat := 0xc123
/-- LINK_PAGE_INTERVAL (R159). -/
abbrev LINK_PAGE_INTERVAL : Nat := 0xc124
/-- LINK_RESYNC_WAIT (R159). -/
abbrev LINK_RESYNC_WAIT : Nat := 0xc125
/-- LINK_PSCHED_OUI (R159). -/
abbrev LINK_PSCHED_OUI : Nat := 0xc126
/-- LINK_PSCHED_NEXT_LO (R159). -/
abbrev LINK_PSCHED_NEXT_LO : Nat := 0xc128
/-- LINK_PSCHED_NEXT_HI (R159). -/
abbrev LINK_PSCHED_NEXT_HI : Nat := 0xc129
/-- LINK_PAGE_STATUS (R159). -/
abbrev LINK_PAGE_STATUS : Nat := 0xc12a
/-- LINK_PSCHED_COUNTS_0 (R159). -/
abbrev LINK_PSCHED_COUNTS_0 : Nat := 0xc130
/-- LINK_PSCHED_COUNTS_1 (R159). -/
abbrev LINK_PSCHED_COUNTS_1 : Nat := 0xc131
/-- LINK_PSCHED_COUNTS_2 (R159). -/
abbrev LINK_PSCHED_COUNTS_2 : Nat := 0xc132
/-- LINK_PSCHED_COUNTS_3 (R159). -/
abbrev LINK_PSCHED_COUNTS_3 : Nat := 0xc133
/-- LINK_PSCHED_INT_STATUS (R159). -/
abbrev LINK_PSCHED_INT_STATUS : Nat := 0xc134
/-- LINK_PSCHED_INT_ENABLE (R159). -/
abbrev LINK_PSCHED_INT_ENABLE : Nat := 0xc135
/-- LINK_WUR_CTRL (R159). -/
abbrev LINK_WUR_CTRL : Nat := 0xc300
/-- LINK_WUR_FREQ (R159). -/
abbrev LINK_WUR_FREQ : Nat := 0xc301
/-- LINK_WUR_NET (R159). -/
abbrev LINK_WUR_NET : Nat := 0xc302
/-- LINK_WUR_ID (R159). -/
abbrev LINK_WUR_ID : Nat := 0xc303
/-- LINK_WUR_STATUS (R159). -/
abbrev LINK_WUR_STATUS : Nat := 0xc304
/-- LINK_WUR_COUNTS (R159). -/
abbrev LINK_WUR_COUNTS : Nat := 0xc305
/-- The dwell charge of planned channel `k` (R134). -/
abbrev LINK_DWELL_USED (k : Nat) : Nat := 0xd000 + k
/-- SEC_FEATURE (R210). -/
abbrev SEC_FEATURE : Nat := 0x10000
/-- SEC_LIFECYCLE (R210). -/
abbrev SEC_LIFECYCLE : Nat := 0x10001
/-- SEC_STATUS (R210). -/
abbrev SEC_STATUS : Nat := 0x10003
/-- SEC_KEY_CELLS (R210). -/
abbrev SEC_KEY_CELLS : Nat := 0x10004
/-- SEC_DRBG_CTRL (R210). -/
abbrev SEC_DRBG_CTRL : Nat := 0x10005
/-- SEC_TRNG_COUNTS (R210). -/
abbrev SEC_TRNG_COUNTS : Nat := 0x10006
/-- SEC_INT_STATUS (R210). -/
abbrev SEC_INT_STATUS : Nat := 0x10010
/-- SEC_INT_ENABLE (R210). -/
abbrev SEC_INT_ENABLE : Nat := 0x10011
/-- UPD_CTRL (R380). -/
abbrev UPD_CTRL : Nat := 0x14000
/-- UPD_STATUS (R380). -/
abbrev UPD_STATUS : Nat := 0x14001
/-- UPD_MIN_SUPPLY (R380). -/
abbrev UPD_MIN_SUPPLY : Nat := 0x14002
/-- UPD_ACTIVATE_GRAIN (R380). -/
abbrev UPD_ACTIVATE_GRAIN : Nat := 0x14003
/-- UPD_TRIAL_END_LO (R380). -/
abbrev UPD_TRIAL_END_LO : Nat := 0x14004
/-- UPD_TRIAL_END_HI (R380). -/
abbrev UPD_TRIAL_END_HI : Nat := 0x14005
/-- UPD_SETTINGS_REPORT (R380). -/
abbrev UPD_SETTINGS_REPORT : Nat := 0x14006
/-- UPD_BOOT_LEDGER (R380). -/
abbrev UPD_BOOT_LEDGER : Nat := 0x14008
/-- UPD_BOOT_INFO (R380). -/
abbrev UPD_BOOT_INFO : Nat := 0x14009
/-- UPD_INT_STATUS (R380). -/
abbrev UPD_INT_STATUS : Nat := 0x14010
/-- UPD_INT_ENABLE (R380). -/
abbrev UPD_INT_ENABLE : Nat := 0x14011
/-- HOST_FEATURE (R407). -/
abbrev HOST_FEATURE : Nat := 0x18000
/-- MBX_ARG (R382). -/
abbrev MBX_ARG (p : Nat) (k : Nat) : Nat := 0x18040 + 0x40 * p + k
/-- MBX_GO (R382). -/
abbrev MBX_GO (p : Nat) : Nat := 0x18050 + 0x40 * p
/-- MBX_STATUS (R382). -/
abbrev MBX_STATUS (p : Nat) : Nat := 0x18051 + 0x40 * p
/-- MBX_REPLY (R382). -/
abbrev MBX_REPLY (p : Nat) (k : Nat) : Nat := 0x18058 + 0x40 * p + k
/-- HOST_PCIE_STATUS (R407). -/
abbrev HOST_PCIE_STATUS : Nat := 0x18200
/-- HOST_DOORBELL_IN (R407). -/
abbrev HOST_DOORBELL_IN : Nat := 0x18201
/-- HOST_DOORBELL_OUT (R407). -/
abbrev HOST_DOORBELL_OUT : Nat := 0x18202
/-- HOST_APERTURE (R407). -/
abbrev HOST_APERTURE (k : Nat) : Nat := 0x18208 + k
/-- HOST_QSPI_CFG (R407). -/
abbrev HOST_QSPI_CFG : Nat := 0x18210
/-- HOST_CHAIN_STATUS (R407). -/
abbrev HOST_CHAIN_STATUS : Nat := 0x18221
/-- HOST_CHAIN_TRAIN_LIMIT (R407). -/
abbrev HOST_CHAIN_TRAIN_LIMIT : Nat := 0x18222
/-- HOST_GANG_OFFSET (R407). -/
abbrev HOST_GANG_OFFSET : Nat := 0x18223
/-- HOST_GANG_ALIVE_LO (R407). -/
abbrev HOST_GANG_ALIVE_LO : Nat := 0x18224
/-- HOST_GANG_ALIVE_HI (R407). -/
abbrev HOST_GANG_ALIVE_HI : Nat := 0x18225
/-- HOST_CHAIN_COUNTS (R407). -/
abbrev HOST_CHAIN_COUNTS : Nat := 0x18226
/-- HOST_INT_STATUS (R407). -/
abbrev HOST_INT_STATUS : Nat := 0x18230
/-- HOST_INT_ENABLE (R407). -/
abbrev HOST_INT_ENABLE : Nat := 0x18231
/-- PAD_FEATURE (R425). -/
abbrev PAD_FEATURE : Nat := 0x1c000
/-- PAD_RELEASE (R351). -/
abbrev PAD_RELEASE : Nat := 0x1c001
/-- PAD_STATUS (R351). -/
abbrev PAD_STATUS : Nat := 0x1c002
/-- PAD_GPIO_OUT_LO (R425). -/
abbrev PAD_GPIO_OUT_LO : Nat := 0x1c008
/-- PAD_GPIO_OUT_HI (R425). -/
abbrev PAD_GPIO_OUT_HI : Nat := 0x1c009
/-- PAD_GPIO_OE_LO (R425). -/
abbrev PAD_GPIO_OE_LO : Nat := 0x1c00a
/-- PAD_GPIO_OE_HI (R425). -/
abbrev PAD_GPIO_OE_HI : Nat := 0x1c00b
/-- PAD_GPIO_IN_LO (R425). -/
abbrev PAD_GPIO_IN_LO : Nat := 0x1c00c
/-- PAD_GPIO_IN_HI (R425). -/
abbrev PAD_GPIO_IN_HI : Nat := 0x1c00d
/-- PAD_GPIO_SET_LO (R425). -/
abbrev PAD_GPIO_SET_LO : Nat := 0x1c00e
/-- PAD_GPIO_SET_HI (R425). -/
abbrev PAD_GPIO_SET_HI : Nat := 0x1c00f
/-- PAD_GPIO_CLR_LO (R425). -/
abbrev PAD_GPIO_CLR_LO : Nat := 0x1c010
/-- PAD_GPIO_CLR_HI (R425). -/
abbrev PAD_GPIO_CLR_HI : Nat := 0x1c011
/-- PAD_CFG (R425). -/
abbrev PAD_CFG (k : Nat) : Nat := 0x1c020 + k

end Reg

namespace Fld

abbrev SYS_ID_DEVICE : Field := ⟨Reg.SYS_ID, 8, 16⟩
abbrev SYS_ID_REVISION : Field := ⟨Reg.SYS_ID, 0, 8⟩
abbrev SYS_STATE_CHIP_NUMBER : Field := ⟨Reg.SYS_STATE, 16, 6⟩
abbrev SYS_STATE_ROLE : Field := ⟨Reg.SYS_STATE, 14, 2⟩
abbrev SYS_STATE_TRIAL : Field := ⟨Reg.SYS_STATE, 13, 1⟩
abbrev SYS_STATE_ROLE_VALID : Field := ⟨Reg.SYS_STATE, 12, 1⟩
abbrev SYS_STATE_POWER_STATE : Field := ⟨Reg.SYS_STATE, 8, 4⟩
abbrev SYS_STATE_DEVICE_STATE : Field := ⟨Reg.SYS_STATE, 0, 3⟩
abbrev SYS_STATUS_HOST_REJECT : Field := ⟨Reg.SYS_STATUS, 1, 1⟩
abbrev SYS_STATUS_REG_REJECT : Field := ⟨Reg.SYS_STATUS, 0, 1⟩
abbrev PWR_FEATURE_SLEEPS : Field := ⟨Reg.PWR_FEATURE, 4, 4⟩
abbrev PWR_FEATURE_LEVELS : Field := ⟨Reg.PWR_FEATURE, 0, 4⟩
abbrev PWR_REQUEST_TARGET : Field := ⟨Reg.PWR_REQUEST, 0, 4⟩
abbrev PWR_STATUS_STATE : Field := ⟨Reg.PWR_STATUS, 32, 4⟩
abbrev PWR_STATUS_ACTIVE : Field := ⟨Reg.PWR_STATUS, 31, 1⟩
abbrev PWR_STATUS_ACTIVE_TARGET : Field := ⟨Reg.PWR_STATUS, 27, 4⟩
abbrev PWR_STATUS_PENDING : Field := ⟨Reg.PWR_STATUS, 26, 1⟩
abbrev PWR_STATUS_PENDING_TARGET : Field := ⟨Reg.PWR_STATUS, 22, 4⟩
abbrev PWR_STATUS_THERMAL_HOLD : Field := ⟨Reg.PWR_STATUS, 21, 1⟩
abbrev PWR_STATUS_ENTRY_WAIT : Field := ⟨Reg.PWR_STATUS, 20, 1⟩
abbrev PWR_STATUS_ACTIVE_SEQ : Field := ⟨Reg.PWR_STATUS, 8, 8⟩
abbrev PWR_STATUS_LAST_SEQ : Field := ⟨Reg.PWR_STATUS, 0, 8⟩
abbrev PWR_RESULT_SEQ : Field := ⟨Reg.PWR_RESULT, 20, 8⟩
abbrev PWR_RESULT_TARGET : Field := ⟨Reg.PWR_RESULT, 16, 4⟩
abbrev PWR_RESULT_STATUS : Field := ⟨Reg.PWR_RESULT, 0, 12⟩
abbrev PWR_WAKE_ENABLE_HOST : Field := ⟨Reg.PWR_WAKE_ENABLE, 4, 1⟩
abbrev PWR_WAKE_ENABLE_PINS : Field := ⟨Reg.PWR_WAKE_ENABLE, 3, 1⟩
abbrev PWR_WAKE_ENABLE_TIMER : Field := ⟨Reg.PWR_WAKE_ENABLE, 2, 1⟩
abbrev PWR_WAKE_ENABLE_ALARM : Field := ⟨Reg.PWR_WAKE_ENABLE, 1, 1⟩
abbrev PWR_WAKE_ENABLE_WUR : Field := ⟨Reg.PWR_WAKE_ENABLE, 0, 1⟩
abbrev PWR_WAKE_PINS_PINS : Field := ⟨Reg.PWR_WAKE_PINS, 0, 32⟩
abbrev PWR_WAKE_STATUS_PIN : Field := ⟨Reg.PWR_WAKE_STATUS, 8, 4⟩
abbrev PWR_WAKE_STATUS_TIMER_LATE : Field := ⟨Reg.PWR_WAKE_STATUS, 7, 1⟩
abbrev PWR_WAKE_STATUS_DURING_ENTRY : Field := ⟨Reg.PWR_WAKE_STATUS, 6, 1⟩
abbrev PWR_WAKE_STATUS_RETAIN : Field := ⟨Reg.PWR_WAKE_STATUS, 5, 1⟩
abbrev PWR_WAKE_STATUS_HOST : Field := ⟨Reg.PWR_WAKE_STATUS, 4, 1⟩
abbrev PWR_WAKE_STATUS_PINS : Field := ⟨Reg.PWR_WAKE_STATUS, 3, 1⟩
abbrev PWR_WAKE_STATUS_TIMER : Field := ⟨Reg.PWR_WAKE_STATUS, 2, 1⟩
abbrev PWR_WAKE_STATUS_ALARM : Field := ⟨Reg.PWR_WAKE_STATUS, 1, 1⟩
abbrev PWR_WAKE_STATUS_WUR : Field := ⟨Reg.PWR_WAKE_STATUS, 0, 1⟩
abbrev PWR_IDLE_ARM_ARMED : Field := ⟨Reg.PWR_IDLE_ARM, 32, 1⟩
abbrev PWR_IDLE_ARM_TARGET : Field := ⟨Reg.PWR_IDLE_ARM, 28, 4⟩
abbrev PWR_IDLE_ARM_TICKS : Field := ⟨Reg.PWR_IDLE_ARM, 0, 24⟩
abbrev PWR_MONITOR_VSYS_MV : Field := ⟨Reg.PWR_MONITOR, 12, 12⟩
abbrev PWR_MONITOR_JUNCTION : Field := ⟨Reg.PWR_MONITOR, 0, 8⟩
abbrev PWR_RESET_CAUSE_WAKE_FAIL : Field := ⟨Reg.PWR_RESET_CAUSE, 4, 1⟩
abbrev PWR_RESET_CAUSE_SMALL_HOURS : Field := ⟨Reg.PWR_RESET_CAUSE, 3, 1⟩
abbrev PWR_RESET_CAUSE_BROWNOUT : Field := ⟨Reg.PWR_RESET_CAUSE, 2, 1⟩
abbrev PWR_RESET_CAUSE_RESET_PIN : Field := ⟨Reg.PWR_RESET_CAUSE, 1, 1⟩
abbrev PWR_RESET_CAUSE_POWER_UP : Field := ⟨Reg.PWR_RESET_CAUSE, 0, 1⟩
abbrev PWR_INT_STATUS_IDLE_FIRED : Field := ⟨Reg.PWR_INT_STATUS, 5, 1⟩
abbrev PWR_INT_STATUS_THERMAL_CLEAR : Field := ⟨Reg.PWR_INT_STATUS, 4, 1⟩
abbrev PWR_INT_STATUS_THERMAL_TRIP : Field := ⟨Reg.PWR_INT_STATUS, 3, 1⟩
abbrev PWR_INT_STATUS_SUPERSEDED : Field := ⟨Reg.PWR_INT_STATUS, 2, 1⟩
abbrev PWR_INT_STATUS_REFUSED : Field := ⟨Reg.PWR_INT_STATUS, 1, 1⟩
abbrev PWR_INT_STATUS_DONE : Field := ⟨Reg.PWR_INT_STATUS, 0, 1⟩
abbrev PWR_INT_ENABLE_ENABLE : Field := ⟨Reg.PWR_INT_ENABLE, 0, 6⟩
abbrev PWR_COUNTS_TRANSITIONS : Field := ⟨Reg.PWR_COUNTS, 18, 18⟩
abbrev PWR_COUNTS_THERMAL_TRIPS : Field := ⟨Reg.PWR_COUNTS, 0, 18⟩
abbrev RTC_CTRL_NO_BACKUP : Field := ⟨Reg.RTC_CTRL, 3, 1⟩
abbrev RTC_CTRL_NET_SET : Field := ⟨Reg.RTC_CTRL, 2, 1⟩
abbrev RTC_CTRL_COMP_ENABLE : Field := ⟨Reg.RTC_CTRL, 1, 1⟩
abbrev RTC_STATUS_SUB_TICK : Field := ⟨Reg.RTC_STATUS, 24, 12⟩
abbrev RTC_STATUS_CMD_RESULT : Field := ⟨Reg.RTC_STATUS, 12, 12⟩
abbrev RTC_STATUS_TIME_SOURCE : Field := ⟨Reg.RTC_STATUS, 10, 2⟩
abbrev RTC_STATUS_RANGE_END : Field := ⟨Reg.RTC_STATUS, 9, 1⟩
abbrev RTC_STATUS_CMD_PENDING : Field := ⟨Reg.RTC_STATUS, 8, 1⟩
abbrev RTC_STATUS_COMP_PENDING : Field := ⟨Reg.RTC_STATUS, 7, 1⟩
abbrev RTC_STATUS_OSC_RUNNING : Field := ⟨Reg.RTC_STATUS, 6, 1⟩
abbrev RTC_STATUS_LOW_BACKUP : Field := ⟨Reg.RTC_STATUS, 1, 1⟩
abbrev RTC_STATUS_OSC_STOP : Field := ⟨Reg.RTC_STATUS, 0, 1⟩
abbrev RTC_CAL_DATE_YEAR : Field := ⟨Reg.RTC_CAL_DATE, 15, 9⟩
abbrev RTC_CAL_DATE_MONTH : Field := ⟨Reg.RTC_CAL_DATE, 11, 4⟩
abbrev RTC_CAL_DATE_DAY : Field := ⟨Reg.RTC_CAL_DATE, 6, 5⟩
abbrev RTC_CAL_DATE_WEEKDAY : Field := ⟨Reg.RTC_CAL_DATE, 3, 3⟩
abbrev RTC_CAL_TIME_HOUR : Field := ⟨Reg.RTC_CAL_TIME, 12, 5⟩
abbrev RTC_CAL_TIME_MINUTE : Field := ⟨Reg.RTC_CAL_TIME, 6, 6⟩
abbrev RTC_CAL_TIME_SECOND : Field := ⟨Reg.RTC_CAL_TIME, 0, 6⟩
abbrev RTC_CMD_OP : Field := ⟨Reg.RTC_CMD, 32, 4⟩
abbrev RTC_CMD_SHIFT : Field := ⟨Reg.RTC_CMD, 0, 16⟩
abbrev RTC_COMP_STATUS_TEMP : Field := ⟨Reg.RTC_COMP_STATUS, 18, 8⟩
abbrev RTC_COMP_STATUS_TICKS : Field := ⟨Reg.RTC_COMP_STATUS, 9, 9⟩
abbrev RTC_COMP_STATUS_CLAMPED : Field := ⟨Reg.RTC_COMP_STATUS, 8, 1⟩
abbrev RTC_ALARM_CTRL_SKIPPED (a : Nat) : Field := ⟨Reg.RTC_ALARM_CTRL a, 2, 1⟩
abbrev RTC_ALARM_CTRL_FIRED (a : Nat) : Field := ⟨Reg.RTC_ALARM_CTRL a, 1, 1⟩
abbrev RTC_ALARM_CTRL_ARMED (a : Nat) : Field := ⟨Reg.RTC_ALARM_CTRL a, 0, 1⟩
abbrev RTC_SUPPLY_LOG_LAST_EVENT : Field := ⟨Reg.RTC_SUPPLY_LOG, 28, 4⟩
abbrev RTC_SUPPLY_LOG_SWITCHES : Field := ⟨Reg.RTC_SUPPLY_LOG, 20, 8⟩
abbrev RTC_INT_STATUS_COMP_CLAMPED : Field := ⟨Reg.RTC_INT_STATUS, 6, 1⟩
abbrev RTC_INT_STATUS_RANGE_END : Field := ⟨Reg.RTC_INT_STATUS, 5, 1⟩
abbrev RTC_INT_STATUS_SNAP_DONE : Field := ⟨Reg.RTC_INT_STATUS, 4, 1⟩
abbrev RTC_INT_STATUS_CMD_DONE : Field := ⟨Reg.RTC_INT_STATUS, 3, 1⟩
abbrev RTC_INT_STATUS_SUPPLY_EVENT : Field := ⟨Reg.RTC_INT_STATUS, 2, 1⟩
abbrev RTC_INT_STATUS_LOW_BACKUP : Field := ⟨Reg.RTC_INT_STATUS, 1, 1⟩
abbrev RTC_INT_STATUS_OSC_STOP : Field := ⟨Reg.RTC_INT_STATUS, 0, 1⟩
abbrev RTC_INT_ENABLE_ENABLE : Field := ⟨Reg.RTC_INT_ENABLE, 0, 7⟩
abbrev TMR_CTRL_PRESCALE (t : Nat) : Field := ⟨Reg.TMR_CTRL t, 4, 4⟩
abbrev TMR_CTRL_CHAIN (t : Nat) : Field := ⟨Reg.TMR_CTRL t, 3, 1⟩
abbrev TMR_CTRL_MODE (t : Nat) : Field := ⟨Reg.TMR_CTRL t, 2, 1⟩
abbrev TMR_CTRL_RUN (t : Nat) : Field := ⟨Reg.TMR_CTRL t, 0, 1⟩
abbrev TMR_STATUS_LATE (t : Nat) : Field := ⟨Reg.TMR_STATUS t, 4, 4⟩
abbrev TMR_STATUS_FIRED (t : Nat) : Field := ⟨Reg.TMR_STATUS t, 0, 4⟩
abbrev TMR_CCFG_WIDE (t : Nat) (i : Nat) : Field := ⟨Reg.TMR_CCFG t i, 3, 1⟩
abbrev TMR_CCFG_STOP_ON_MATCH (t : Nat) (i : Nat) : Field := ⟨Reg.TMR_CCFG t i, 2, 1⟩
abbrev TMR_CCFG_RELOAD (t : Nat) (i : Nat) : Field := ⟨Reg.TMR_CCFG t i, 1, 1⟩
abbrev TMR_CCFG_ARMED (t : Nat) (i : Nat) : Field := ⟨Reg.TMR_CCFG t i, 0, 1⟩
abbrev TMR_GO_STOP : Field := ⟨Reg.TMR_GO, 16, 16⟩
abbrev TMR_GO_START : Field := ⟨Reg.TMR_GO, 0, 16⟩
abbrev TMR_FEATURE_CAP_PINS : Field := ⟨Reg.TMR_FEATURE, 0, 8⟩
abbrev CAP_CTRL_EDGE_PRESCALE (k : Nat) : Field := ⟨Reg.CAP_CTRL k, 16, 8⟩
abbrev CAP_CTRL_FILTER (k : Nat) : Field := ⟨Reg.CAP_CTRL k, 8, 8⟩
abbrev CAP_CTRL_TIMER (k : Nat) : Field := ⟨Reg.CAP_CTRL k, 4, 4⟩
abbrev CAP_CTRL_EDGE (k : Nat) : Field := ⟨Reg.CAP_CTRL k, 2, 2⟩
abbrev CAP_CTRL_PAIR (k : Nat) : Field := ⟨Reg.CAP_CTRL k, 1, 1⟩
abbrev CAP_CTRL_ENABLE (k : Nat) : Field := ⟨Reg.CAP_CTRL k, 0, 1⟩
abbrev CAP_STATUS_EDGES (k : Nat) : Field := ⟨Reg.CAP_STATUS k, 8, 8⟩
abbrev CAP_STATUS_LEVEL (k : Nat) : Field := ⟨Reg.CAP_STATUS k, 2, 1⟩
abbrev CAP_STATUS_OVERFLOW (k : Nat) : Field := ⟨Reg.CAP_STATUS k, 1, 1⟩
abbrev CAP_STATUS_FULL (k : Nat) : Field := ⟨Reg.CAP_STATUS k, 0, 1⟩
abbrev EVF_FEATURE_ROUTES : Field := ⟨Reg.EVF_FEATURE, 16, 10⟩
abbrev EVF_FEATURE_CELLS : Field := ⟨Reg.EVF_FEATURE, 10, 6⟩
abbrev EVF_FEATURE_GANG : Field := ⟨Reg.EVF_FEATURE, 9, 1⟩
abbrev EVF_SW_FIRE_INDEX : Field := ⟨Reg.EVF_SW_FIRE, 32, 4⟩
abbrev EVF_SW_FIRE_PAYLOAD : Field := ⟨Reg.EVF_SW_FIRE, 0, 28⟩
abbrev EVF_GANG_STATUS_COINCIDE : Field := ⟨Reg.EVF_GANG_STATUS, 16, 16⟩
abbrev EVF_GANG_STATUS_LATE : Field := ⟨Reg.EVF_GANG_STATUS, 0, 16⟩
abbrev EVF_GANG_COUNTS_SENT : Field := ⟨Reg.EVF_GANG_COUNTS, 18, 18⟩
abbrev EVF_GANG_COUNTS_LATE : Field := ⟨Reg.EVF_GANG_COUNTS, 0, 18⟩
abbrev EVF_INT_STATUS_CAP_OVERFLOW : Field := ⟨Reg.EVF_INT_STATUS, 3, 1⟩
abbrev EVF_INT_STATUS_GANG_LATE : Field := ⟨Reg.EVF_INT_STATUS, 2, 1⟩
abbrev EVF_INT_STATUS_COINCIDE : Field := ⟨Reg.EVF_INT_STATUS, 1, 1⟩
abbrev EVF_INT_STATUS_OVERRUN : Field := ⟨Reg.EVF_INT_STATUS, 0, 1⟩
abbrev EVF_INT_ENABLE_ENABLE : Field := ⟨Reg.EVF_INT_ENABLE, 0, 4⟩
abbrev EVF_GPIO_TASK_PIN (m : Nat) : Field := ⟨Reg.EVF_GPIO_TASK m, 2, 6⟩
abbrev EVF_GPIO_TASK_ACTION (m : Nat) : Field := ⟨Reg.EVF_GPIO_TASK m, 0, 2⟩
abbrev CHK_CTRL_SEL (n : Nat) : Field := ⟨Reg.CHK_CTRL n, 24, 6⟩
abbrev CHK_CTRL_SRC (n : Nat) : Field := ⟨Reg.CHK_CTRL n, 21, 3⟩
abbrev CHK_CTRL_END_MODE (n : Nat) : Field := ⟨Reg.CHK_CTRL n, 19, 2⟩
abbrev CHK_CTRL_TASK (n : Nat) : Field := ⟨Reg.CHK_CTRL n, 17, 2⟩
abbrev CHK_CTRL_COMPARE (n : Nat) : Field := ⟨Reg.CHK_CTRL n, 16, 1⟩
abbrev CHK_CTRL_REFOUT (n : Nat) : Field := ⟨Reg.CHK_CTRL n, 15, 1⟩
abbrev CHK_CTRL_REFIN (n : Nat) : Field := ⟨Reg.CHK_CTRL n, 14, 1⟩
abbrev CHK_CTRL_ALGO (n : Nat) : Field := ⟨Reg.CHK_CTRL n, 13, 1⟩
abbrev CHK_CTRL_WIDTH_M1 (n : Nat) : Field := ⟨Reg.CHK_CTRL n, 8, 5⟩
abbrev CHK_CTRL_ENABLE (n : Nat) : Field := ⟨Reg.CHK_CTRL n, 0, 1⟩
abbrev CHK_STATUS_ACTIVE (n : Nat) : Field := ⟨Reg.CHK_STATUS n, 4, 1⟩
abbrev CHK_STATUS_ABANDONED (n : Nat) : Field := ⟨Reg.CHK_STATUS n, 3, 1⟩
abbrev CHK_STATUS_DROPPED (n : Nat) : Field := ⟨Reg.CHK_STATUS n, 2, 1⟩
abbrev CHK_STATUS_MISMATCH (n : Nat) : Field := ⟨Reg.CHK_STATUS n, 1, 1⟩
abbrev CHK_STATUS_END (n : Nat) : Field := ⟨Reg.CHK_STATUS n, 0, 1⟩
abbrev CHK_INT_ENABLE_ENABLE (n : Nat) : Field := ⟨Reg.CHK_INT_ENABLE n, 0, 4⟩
abbrev CHK_COUNTS_SKIPPED (n : Nat) : Field := ⟨Reg.CHK_COUNTS n, 24, 12⟩
abbrev CHK_COUNTS_MISMATCHES (n : Nat) : Field := ⟨Reg.CHK_COUNTS n, 12, 12⟩
abbrev CHK_COUNTS_ENDS (n : Nat) : Field := ⟨Reg.CHK_COUNTS n, 0, 12⟩
abbrev CHK_FEATURE_UNITS : Field := ⟨Reg.CHK_FEATURE, 0, 8⟩
abbrev MEM_FEATURE_MIRROR : Field := ⟨Reg.MEM_FEATURE, 3, 1⟩
abbrev MEM_FEATURE_DDR : Field := ⟨Reg.MEM_FEATURE, 2, 1⟩
abbrev MEM_FEATURE_TABLE_SRAM : Field := ⟨Reg.MEM_FEATURE, 1, 1⟩
abbrev MEM_FEATURE_MARCH : Field := ⟨Reg.MEM_FEATURE, 0, 1⟩
abbrev MEM_PARTITION_ENDPOINT_HOME : Field := ⟨Reg.MEM_PARTITION, 32, 2⟩
abbrev MEM_PARTITION_LINK_BANKS : Field := ⟨Reg.MEM_PARTITION, 16, 16⟩
abbrev MEM_PARTITION_USER_BANKS : Field := ⟨Reg.MEM_PARTITION, 0, 16⟩
abbrev MEM_ECC_CTRL_SCRUB_DDR : Field := ⟨Reg.MEM_ECC_CTRL, 3, 1⟩
abbrev MEM_ECC_CTRL_SCRUB_TABLE : Field := ⟨Reg.MEM_ECC_CTRL, 2, 1⟩
abbrev MEM_ECC_CTRL_SCRUB_DP : Field := ⟨Reg.MEM_ECC_CTRL, 1, 1⟩
abbrev MEM_ECC_CTRL_SCRUB_DATA : Field := ⟨Reg.MEM_ECC_CTRL, 0, 1⟩
abbrev MEM_ECC_COUNTS_DATA_CORRECTED : Field := ⟨Reg.MEM_ECC_COUNTS_DATA, 18, 18⟩
abbrev MEM_ECC_COUNTS_DATA_UNCORRECTABLE : Field := ⟨Reg.MEM_ECC_COUNTS_DATA, 0, 18⟩
abbrev MEM_ECC_COUNTS_DP_CORRECTED : Field := ⟨Reg.MEM_ECC_COUNTS_DP, 18, 18⟩
abbrev MEM_ECC_COUNTS_DP_UNCORRECTABLE : Field := ⟨Reg.MEM_ECC_COUNTS_DP, 0, 18⟩
abbrev MEM_ECC_COUNTS_TABLE_CORRECTED : Field := ⟨Reg.MEM_ECC_COUNTS_TABLE, 18, 18⟩
abbrev MEM_ECC_COUNTS_TABLE_UNCORRECTABLE : Field := ⟨Reg.MEM_ECC_COUNTS_TABLE, 0, 18⟩
abbrev MEM_ECC_COUNTS_DDR_CORRECTED : Field := ⟨Reg.MEM_ECC_COUNTS_DDR, 18, 18⟩
abbrev MEM_ECC_COUNTS_DDR_UNCORRECTABLE : Field := ⟨Reg.MEM_ECC_COUNTS_DDR, 0, 18⟩
abbrev MEM_ECC_COUNTS_RETAIN_CORRECTED : Field := ⟨Reg.MEM_ECC_COUNTS_RETAIN, 18, 18⟩
abbrev MEM_ECC_COUNTS_RETAIN_UNCORRECTABLE : Field := ⟨Reg.MEM_ECC_COUNTS_RETAIN, 0, 18⟩
abbrev MEM_ECC_COUNTS_MRAM_CORRECTED : Field := ⟨Reg.MEM_ECC_COUNTS_MRAM, 18, 18⟩
abbrev MEM_ECC_COUNTS_MRAM_UNCORRECTABLE : Field := ⟨Reg.MEM_ECC_COUNTS_MRAM, 0, 18⟩
abbrev MEM_CONFLICT_DATA_WAITS (m : Nat) : Field := ⟨Reg.MEM_CONFLICT m, 16, 16⟩
abbrev MEM_CONFLICT_TABLE_WAITS (m : Nat) : Field := ⟨Reg.MEM_CONFLICT m, 0, 16⟩
abbrev MEM_DP_STATUS_LOST_ADDR : Field := ⟨Reg.MEM_DP_STATUS, 1, 13⟩
abbrev MEM_DP_STATUS_WRITE_LOST : Field := ⟨Reg.MEM_DP_STATUS, 0, 1⟩
abbrev MEM_DP_CONFLICT_PORT_A : Field := ⟨Reg.MEM_DP_CONFLICT, 16, 16⟩
abbrev MEM_DP_CONFLICT_PORT_B : Field := ⟨Reg.MEM_DP_CONFLICT, 0, 16⟩
abbrev MEM_MARCH_CTRL_TABLE : Field := ⟨Reg.MEM_MARCH_CTRL, 1, 1⟩
abbrev MEM_MARCH_CTRL_DATA : Field := ⟨Reg.MEM_MARCH_CTRL, 0, 1⟩
abbrev MEM_MARCH_STATUS_PHASE : Field := ⟨Reg.MEM_MARCH_STATUS, 34, 2⟩
abbrev MEM_MARCH_STATUS_IN_TABLE : Field := ⟨Reg.MEM_MARCH_STATUS, 33, 1⟩
abbrev MEM_MARCH_STATUS_SEGMENT : Field := ⟨Reg.MEM_MARCH_STATUS, 20, 13⟩
abbrev MEM_MARCH_STATUS_RETIRED : Field := ⟨Reg.MEM_MARCH_STATUS, 12, 8⟩
abbrev MEM_MARCH_STATUS_EXHAUSTED_BANKS : Field := ⟨Reg.MEM_MARCH_STATUS, 6, 6⟩
abbrev MEM_RETAIN_STATUS_SUPPLY_DIP : Field := ⟨Reg.MEM_RETAIN_STATUS, 17, 1⟩
abbrev MEM_RETAIN_STATUS_RETAIN_SRAM_LOST : Field := ⟨Reg.MEM_RETAIN_STATUS, 16, 1⟩
abbrev MEM_RETAIN_STATUS_RETAIN_LOST : Field := ⟨Reg.MEM_RETAIN_STATUS, 0, 16⟩
abbrev MEM_DDR_CTRL_RETRAIN : Field := ⟨Reg.MEM_DDR_CTRL, 1, 1⟩
abbrev MEM_DDR_CTRL_SELF_REFRESH_IN_NIGHT : Field := ⟨Reg.MEM_DDR_CTRL, 0, 1⟩
abbrev MEM_DDR_STATUS_SIZE : Field := ⟨Reg.MEM_DDR_STATUS, 34, 2⟩
abbrev MEM_DDR_STATUS_RATE : Field := ⟨Reg.MEM_DDR_STATUS, 32, 2⟩
abbrev MEM_DDR_STATUS_TRAINED : Field := ⟨Reg.MEM_DDR_STATUS, 31, 1⟩
abbrev MEM_DDR_STATUS_INIT_DONE : Field := ⟨Reg.MEM_DDR_STATUS, 30, 1⟩
abbrev MEM_DDR_STATUS_TRAIN_FAILED : Field := ⟨Reg.MEM_DDR_STATUS, 29, 1⟩
abbrev MEM_DDR_STATUS_OUTSTANDING : Field := ⟨Reg.MEM_DDR_STATUS, 20, 9⟩
abbrev MEM_DDR_STATUS_TRAIN_RESULT : Field := ⟨Reg.MEM_DDR_STATUS, 8, 12⟩
abbrev MEM_MIRROR_CTRL_SOURCE : Field := ⟨Reg.MEM_MIRROR_CTRL, 8, 6⟩
abbrev MEM_MIRROR_CTRL_ACCEPT : Field := ⟨Reg.MEM_MIRROR_CTRL, 7, 1⟩
abbrev MEM_MIRROR_CTRL_SEND : Field := ⟨Reg.MEM_MIRROR_CTRL, 6, 1⟩
abbrev MEM_MIRROR_CTRL_TARGET : Field := ⟨Reg.MEM_MIRROR_CTRL, 0, 6⟩
abbrev MEM_MIRROR_STATUS_GAP : Field := ⟨Reg.MEM_MIRROR_STATUS, 35, 1⟩
abbrev MEM_MIRROR_STATUS_QUEUED : Field := ⟨Reg.MEM_MIRROR_STATUS, 0, 11⟩
abbrev MEM_MIRROR_COUNTS_DROPPED : Field := ⟨Reg.MEM_MIRROR_COUNTS, 18, 18⟩
abbrev MEM_MIRROR_COUNTS_REJECTED : Field := ⟨Reg.MEM_MIRROR_COUNTS, 0, 18⟩
abbrev MEM_INT_STATUS_MIRROR_REJECT : Field := ⟨Reg.MEM_INT_STATUS, 8, 1⟩
abbrev MEM_INT_STATUS_MIRROR_GAP : Field := ⟨Reg.MEM_INT_STATUS, 7, 1⟩
abbrev MEM_INT_STATUS_DRAM_TRAIN_DONE : Field := ⟨Reg.MEM_INT_STATUS, 6, 1⟩
abbrev MEM_INT_STATUS_SPARES_EXHAUSTED : Field := ⟨Reg.MEM_INT_STATUS, 5, 1⟩
abbrev MEM_INT_STATUS_SEGMENT_RETIRED : Field := ⟨Reg.MEM_INT_STATUS, 4, 1⟩
abbrev MEM_INT_STATUS_WRITE_LOST : Field := ⟨Reg.MEM_INT_STATUS, 3, 1⟩
abbrev MEM_INT_STATUS_SUPPLY_DIP : Field := ⟨Reg.MEM_INT_STATUS, 2, 1⟩
abbrev MEM_INT_STATUS_RETAIN_LOST : Field := ⟨Reg.MEM_INT_STATUS, 1, 1⟩
abbrev MEM_INT_STATUS_POISON : Field := ⟨Reg.MEM_INT_STATUS, 0, 1⟩
abbrev MEM_INT_ENABLE_ENABLE : Field := ⟨Reg.MEM_INT_ENABLE, 0, 9⟩
abbrev RF_FEATURE_EXT_PA : Field := ⟨Reg.RF_FEATURE, 5, 1⟩
abbrev RF_FEATURE_NARROW_B : Field := ⟨Reg.RF_FEATURE, 4, 1⟩
abbrev RF_FEATURE_NARROW_A : Field := ⟨Reg.RF_FEATURE, 3, 1⟩
abbrev RF_FEATURE_TX : Field := ⟨Reg.RF_FEATURE, 2, 1⟩
abbrev RF_FEATURE_CHAIN_B : Field := ⟨Reg.RF_FEATURE, 1, 1⟩
abbrev RF_FEATURE_CHAIN_A : Field := ⟨Reg.RF_FEATURE, 0, 1⟩
abbrev RF_CHAIN_CTRL_FOLLOW (x : Nat) : Field := ⟨Reg.RF_CHAIN_CTRL x, 7, 1⟩
abbrev RF_CHAIN_CTRL_TX_BLANK (x : Nat) : Field := ⟨Reg.RF_CHAIN_CTRL x, 6, 1⟩
abbrev RF_CHAIN_CTRL_AGC_MANUAL (x : Nat) : Field := ⟨Reg.RF_CHAIN_CTRL x, 5, 1⟩
abbrev RF_CHAIN_CTRL_MANUAL_INDEX (x : Nat) : Field := ⟨Reg.RF_CHAIN_CTRL x, 2, 3⟩
abbrev RF_CHAIN_CTRL_SETTING (x : Nat) : Field := ⟨Reg.RF_CHAIN_CTRL x, 1, 1⟩
abbrev RF_CHAIN_CTRL_ENABLE (x : Nat) : Field := ⟨Reg.RF_CHAIN_CTRL x, 0, 1⟩
abbrev RF_CHAIN_FREQ_FREQ_HZ (x : Nat) : Field := ⟨Reg.RF_CHAIN_FREQ x, 0, 36⟩
abbrev RF_CHAIN_RETUNE_AT_AT (x : Nat) : Field := ⟨Reg.RF_CHAIN_RETUNE_AT x, 0, 36⟩
abbrev RF_CHAIN_STATUS_OVERLOAD (x : Nat) : Field := ⟨Reg.RF_CHAIN_STATUS x, 6, 1⟩
abbrev RF_CHAIN_STATUS_RETUNE_ARMED (x : Nat) : Field := ⟨Reg.RF_CHAIN_STATUS x, 5, 1⟩
abbrev RF_CHAIN_STATUS_RETUNING (x : Nat) : Field := ⟨Reg.RF_CHAIN_STATUS x, 4, 1⟩
abbrev RF_CHAIN_STATUS_LOCKED (x : Nat) : Field := ⟨Reg.RF_CHAIN_STATUS x, 3, 1⟩
abbrev RF_CHAIN_STATUS_GAIN_INDEX (x : Nat) : Field := ⟨Reg.RF_CHAIN_STATUS x, 0, 3⟩
abbrev RF_CHAIN_COUNTS_GAIN_EVENTS (x : Nat) : Field := ⟨Reg.RF_CHAIN_COUNTS x, 18, 18⟩
abbrev RF_CHAIN_COUNTS_STEPS (x : Nat) : Field := ⟨Reg.RF_CHAIN_COUNTS x, 0, 18⟩
abbrev RF_CHAIN_FREQ_NOW_FREQ_HZ (x : Nat) : Field := ⟨Reg.RF_CHAIN_FREQ_NOW x, 0, 36⟩
abbrev RF_AGC_CONFIG_UP_HOLD : Field := ⟨Reg.RF_AGC_CONFIG, 24, 12⟩
abbrev RF_AGC_CONFIG_MIN_INTERVAL : Field := ⟨Reg.RF_AGC_CONFIG, 16, 8⟩
abbrev RF_AGC_CONFIG_UP_DBFS : Field := ⟨Reg.RF_AGC_CONFIG, 10, 6⟩
abbrev RF_AGC_CONFIG_DOWN_DBFS : Field := ⟨Reg.RF_AGC_CONFIG, 4, 6⟩
abbrev RF_GAIN_EVENT_LEVEL_MARGIN_QDB : Field := ⟨Reg.RF_GAIN_EVENT_LEVEL, 16, 8⟩
abbrev RF_GAIN_EVENT_LEVEL_REF_QDBM : Field := ⟨Reg.RF_GAIN_EVENT_LEVEL, 0, 16⟩
abbrev RF_TX_CTRL_AUTO_RETUNE : Field := ⟨Reg.RF_TX_CTRL, 7, 1⟩
abbrev RF_TX_CTRL_OUT_PORT : Field := ⟨Reg.RF_TX_CTRL, 6, 1⟩
abbrev RF_TX_CTRL_PA_SELECT : Field := ⟨Reg.RF_TX_CTRL, 5, 1⟩
abbrev RF_TX_CTRL_CARRIER_MAX : Field := ⟨Reg.RF_TX_CTRL, 2, 3⟩
abbrev RF_TX_CTRL_ENABLE : Field := ⟨Reg.RF_TX_CTRL, 0, 1⟩
abbrev RF_TX_FREQ_FREQ_HZ : Field := ⟨Reg.RF_TX_FREQ, 0, 36⟩
abbrev RF_TX_RETUNE_AT_AT : Field := ⟨Reg.RF_TX_RETUNE_AT, 0, 36⟩
abbrev RF_TX_POWER_TOTAL_QDBM : Field := ⟨Reg.RF_TX_POWER, 0, 8⟩
abbrev RF_TX_CAPACITY_PER_CARRIER_QDBM : Field := ⟨Reg.RF_TX_CAPACITY, 8, 8⟩
abbrev RF_TX_CAPACITY_CARRIER_MAX_NOW : Field := ⟨Reg.RF_TX_CAPACITY, 5, 3⟩
abbrev RF_TX_CAPACITY_CARRIERS_ALLOWED : Field := ⟨Reg.RF_TX_CAPACITY, 2, 3⟩
abbrev RF_TX_CAPACITY_SET_STATE : Field := ⟨Reg.RF_TX_CAPACITY, 0, 2⟩
abbrev RF_EXT_PA_LEAD_GR : Field := ⟨Reg.RF_EXT_PA, 8, 8⟩
abbrev RF_EXT_PA_OBS_LOSS_QDB : Field := ⟨Reg.RF_EXT_PA, 0, 8⟩
abbrev RF_TX_FREQ_NOW_FREQ_HZ : Field := ⟨Reg.RF_TX_FREQ_NOW, 0, 36⟩
abbrev RF_DPD_CTRL_TRAIN_NOW : Field := ⟨Reg.RF_DPD_CTRL, 15, 1⟩
abbrev RF_DPD_CTRL_TRAIN_SET : Field := ⟨Reg.RF_DPD_CTRL, 10, 5⟩
abbrev RF_DPD_CTRL_TRAIN_CAPTURES : Field := ⟨Reg.RF_DPD_CTRL, 4, 6⟩
abbrev RF_DPD_CTRL_LIVE_TRAIN : Field := ⟨Reg.RF_DPD_CTRL, 1, 1⟩
abbrev RF_DPD_CTRL_ENABLE : Field := ⟨Reg.RF_DPD_CTRL, 0, 1⟩
abbrev RF_DPD_UPDATE_GUARD_GUARD_GR : Field := ⟨Reg.RF_DPD_UPDATE_GUARD, 0, 36⟩
abbrev RF_DPD_STATUS_ACTIVE_SET : Field := ⟨Reg.RF_DPD_STATUS, 25, 5⟩
abbrev RF_DPD_STATUS_ACTIVE_STATE : Field := ⟨Reg.RF_DPD_STATUS, 23, 2⟩
abbrev RF_DPD_STATUS_DIE_TEMP : Field := ⟨Reg.RF_DPD_STATUS, 15, 8⟩
abbrev RF_DPD_STATUS_CAPTURES : Field := ⟨Reg.RF_DPD_STATUS, 8, 7⟩
abbrev RF_DPD_STATUS_SOLVING : Field := ⟨Reg.RF_DPD_STATUS, 7, 1⟩
abbrev RF_DPD_STATUS_SWAP_PENDING : Field := ⟨Reg.RF_DPD_STATUS, 6, 1⟩
abbrev RF_DPD_STATE_LO_STATES : Field := ⟨Reg.RF_DPD_STATE_LO, 0, 32⟩
abbrev RF_DPD_STATE_HI_STATES : Field := ⟨Reg.RF_DPD_STATE_HI, 0, 32⟩
abbrev RF_DPD_IMD_LIMIT_LIMIT_QDB : Field := ⟨Reg.RF_DPD_IMD_LIMIT, 0, 8⟩
abbrev RF_DPD_TEMP_EDGES_TEMP_SPAN : Field := ⟨Reg.RF_DPD_TEMP_EDGES, 32, 4⟩
abbrev RF_DPD_TEMP_EDGES_EDGE2 : Field := ⟨Reg.RF_DPD_TEMP_EDGES, 16, 8⟩
abbrev RF_DPD_TEMP_EDGES_EDGE1 : Field := ⟨Reg.RF_DPD_TEMP_EDGES, 8, 8⟩
abbrev RF_DPD_TEMP_EDGES_EDGE0 : Field := ⟨Reg.RF_DPD_TEMP_EDGES, 0, 8⟩
abbrev RF_CAL_CTRL_START : Field := ⟨Reg.RF_CAL_CTRL, 7, 1⟩
abbrev RF_CAL_CTRL_TARGET : Field := ⟨Reg.RF_CAL_CTRL, 4, 3⟩
abbrev RF_CAL_CTRL_SAVE : Field := ⟨Reg.RF_CAL_CTRL, 0, 1⟩
abbrev RF_CAL_STATUS_RESULT : Field := ⟨Reg.RF_CAL_STATUS, 12, 12⟩
abbrev RF_CAL_STATUS_BUSY : Field := ⟨Reg.RF_CAL_STATUS, 11, 1⟩
abbrev RF_CAL_STATUS_FROM_STORED : Field := ⟨Reg.RF_CAL_STATUS, 10, 1⟩
abbrev RF_INT_STATUS_WINDOW_MISS : Field := ⟨Reg.RF_INT_STATUS, 10, 1⟩
abbrev RF_INT_STATUS_CAL_DONE : Field := ⟨Reg.RF_INT_STATUS, 9, 1⟩
abbrev RF_INT_STATUS_DPD_SWAP : Field := ⟨Reg.RF_INT_STATUS, 8, 1⟩
abbrev RF_INT_STATUS_DPD_STALE : Field := ⟨Reg.RF_INT_STATUS, 7, 1⟩
abbrev RF_INT_STATUS_TX_RETUNE_DONE : Field := ⟨Reg.RF_INT_STATUS, 6, 1⟩
abbrev RF_INT_STATUS_RETUNE_DONE_B : Field := ⟨Reg.RF_INT_STATUS, 5, 1⟩
abbrev RF_INT_STATUS_RETUNE_DONE_A : Field := ⟨Reg.RF_INT_STATUS, 4, 1⟩
abbrev RF_INT_STATUS_GAIN_EVENT_B : Field := ⟨Reg.RF_INT_STATUS, 3, 1⟩
abbrev RF_INT_STATUS_GAIN_EVENT_A : Field := ⟨Reg.RF_INT_STATUS, 2, 1⟩
abbrev RF_INT_STATUS_OVERLOAD_B : Field := ⟨Reg.RF_INT_STATUS, 1, 1⟩
abbrev RF_INT_STATUS_OVERLOAD_A : Field := ⟨Reg.RF_INT_STATUS, 0, 1⟩
abbrev RF_INT_ENABLE_ENABLE : Field := ⟨Reg.RF_INT_ENABLE, 0, 11⟩
abbrev LANE_CTRL_FORCE_SWITCH (n : Nat) : Field := ⟨Reg.LANE_CTRL n, 9, 1⟩
abbrev LANE_CTRL_CAPTURE (n : Nat) : Field := ⟨Reg.LANE_CTRL n, 8, 1⟩
abbrev LANE_CTRL_CAPTURE_DB (n : Nat) : Field := ⟨Reg.LANE_CTRL n, 4, 4⟩
abbrev LANE_CTRL_LISTEN (n : Nat) : Field := ⟨Reg.LANE_CTRL n, 1, 1⟩
abbrev LANE_CTRL_ENABLE (n : Nat) : Field := ⟨Reg.LANE_CTRL n, 0, 1⟩
abbrev LANE_FREQ_FREQ_HZ (n : Nat) : Field := ⟨Reg.LANE_FREQ n, 0, 36⟩
abbrev LANE_PHY_FAMILY (n : Nat) : Field := ⟨Reg.LANE_PHY n, 14, 2⟩
abbrev LANE_PHY_PARAMS (n : Nat) : Field := ⟨Reg.LANE_PHY n, 0, 14⟩
abbrev LANE_SWITCH_AT_AT (n : Nat) : Field := ⟨Reg.LANE_SWITCH_AT n, 0, 36⟩
abbrev LANE_DETECT_SFD_TIMEOUT (n : Nat) : Field := ⟨Reg.LANE_DETECT n, 16, 8⟩
abbrev LANE_DETECT_THRESHOLD (n : Nat) : Field := ⟨Reg.LANE_DETECT n, 8, 8⟩
abbrev LANE_DETECT_PREAMBLE_MIN (n : Nat) : Field := ⟨Reg.LANE_DETECT n, 4, 4⟩
abbrev LANE_STATUS_SWITCH_REFUSED (n : Nat) : Field := ⟨Reg.LANE_STATUS n, 30, 1⟩
abbrev LANE_STATUS_DIV_LOST (n : Nat) : Field := ⟨Reg.LANE_STATUS n, 29, 1⟩
abbrev LANE_STATUS_SWITCH_LATE (n : Nat) : Field := ⟨Reg.LANE_STATUS n, 28, 1⟩
abbrev LANE_STATUS_SCHEDULED (n : Nat) : Field := ⟨Reg.LANE_STATUS n, 27, 1⟩
abbrev LANE_STATUS_SPUR (n : Nat) : Field := ⟨Reg.LANE_STATUS n, 26, 1⟩
abbrev LANE_STATUS_SWITCH_ARMED (n : Nat) : Field := ⟨Reg.LANE_STATUS n, 25, 1⟩
abbrev LANE_STATUS_LAST_ABANDON (n : Nat) : Field := ⟨Reg.LANE_STATUS n, 22, 3⟩
abbrev LANE_STATUS_CHAIN_IN_USE (n : Nat) : Field := ⟨Reg.LANE_STATUS n, 20, 2⟩
abbrev LANE_STATUS_SUB_BAND (n : Nat) : Field := ⟨Reg.LANE_STATUS n, 16, 4⟩
abbrev LANE_STATUS_STATE (n : Nat) : Field := ⟨Reg.LANE_STATUS n, 0, 4⟩
abbrev LANE_RSSI_NOW_RSSI_QDBM (n : Nat) : Field := ⟨Reg.LANE_RSSI_NOW n, 0, 36⟩
abbrev LANE_COUNTS_A_DETECTS (n : Nat) : Field := ⟨Reg.LANE_COUNTS_A n, 18, 18⟩
abbrev LANE_COUNTS_A_FALSE_DETECTS (n : Nat) : Field := ⟨Reg.LANE_COUNTS_A n, 0, 18⟩
abbrev LANE_COUNTS_B_DELIVERED (n : Nat) : Field := ⟨Reg.LANE_COUNTS_B n, 18, 18⟩
abbrev LANE_COUNTS_B_ABANDONED (n : Nat) : Field := ⟨Reg.LANE_COUNTS_B n, 9, 9⟩
abbrev LANE_COUNTS_B_HEADER_ERRORS (n : Nat) : Field := ⟨Reg.LANE_COUNTS_B n, 0, 9⟩
abbrev LANE_INT_STATUS_ZHR_4096 (n : Nat) : Field := ⟨Reg.LANE_INT_STATUS n, 6, 1⟩
abbrev LANE_INT_STATUS_SWITCH_REFUSED (n : Nat) : Field := ⟨Reg.LANE_INT_STATUS n, 5, 1⟩
abbrev LANE_INT_STATUS_DIV_LOST (n : Nat) : Field := ⟨Reg.LANE_INT_STATUS n, 4, 1⟩
abbrev LANE_INT_STATUS_OUT_OF_BAND (n : Nat) : Field := ⟨Reg.LANE_INT_STATUS n, 3, 1⟩
abbrev LANE_INT_STATUS_SWITCH_DONE (n : Nat) : Field := ⟨Reg.LANE_INT_STATUS n, 2, 1⟩
abbrev LANE_INT_STATUS_HEADER_ERROR (n : Nat) : Field := ⟨Reg.LANE_INT_STATUS n, 1, 1⟩
abbrev LANE_INT_STATUS_ABANDON (n : Nat) : Field := ⟨Reg.LANE_INT_STATUS n, 0, 1⟩
abbrev LANE_INT_ENABLE_ENABLE (n : Nat) : Field := ⟨Reg.LANE_INT_ENABLE n, 0, 7⟩
abbrev LANE_CAPS_CHAIN (n : Nat) : Field := ⟨Reg.LANE_CAPS n, 6, 2⟩
abbrev LANE_CAPS_NARROW (n : Nat) : Field := ⟨Reg.LANE_CAPS n, 5, 1⟩
abbrev LANE_CAPS_FSK (n : Nat) : Field := ⟨Reg.LANE_CAPS n, 4, 1⟩
abbrev LANE_CAPS_OFDM (n : Nat) : Field := ⟨Reg.LANE_CAPS n, 3, 1⟩
abbrev LANE_CAPS_ZHR (n : Nat) : Field := ⟨Reg.LANE_CAPS n, 2, 1⟩
abbrev LINK_FEATURE_PARTNER_ENTRIES : Field := ⟨Reg.LINK_FEATURE, 11, 13⟩
abbrev LINK_FEATURE_CCM_INSTANCES : Field := ⟨Reg.LINK_FEATURE, 4, 7⟩
abbrev LINK_FEATURE_PSCHED : Field := ⟨Reg.LINK_FEATURE, 3, 1⟩
abbrev LINK_FEATURE_TSCH : Field := ⟨Reg.LINK_FEATURE, 2, 1⟩
abbrev LINK_FEATURE_RINGS : Field := ⟨Reg.LINK_FEATURE, 0, 2⟩
abbrev LINK_CTRL_SCHED_MODE : Field := ⟨Reg.LINK_CTRL, 8, 2⟩
abbrev LINK_CTRL_ACCEPT_NO_DST : Field := ⟨Reg.LINK_CTRL, 6, 1⟩
abbrev LINK_CTRL_PROMISCUOUS : Field := ⟨Reg.LINK_CTRL, 5, 1⟩
abbrev LINK_CTRL_DELIVER_REJECTS : Field := ⟨Reg.LINK_CTRL, 4, 1⟩
abbrev LINK_CTRL_ALLOW_UNSECURED : Field := ⟨Reg.LINK_CTRL, 3, 1⟩
abbrev LINK_CTRL_ACK_UNSECURED : Field := ⟨Reg.LINK_CTRL, 2, 1⟩
abbrev LINK_CTRL_HW_ACK : Field := ⟨Reg.LINK_CTRL, 1, 1⟩
abbrev LINK_CTRL_ENABLE : Field := ⟨Reg.LINK_CTRL, 0, 1⟩
abbrev LINK_PAN_SHORT_SHORT_ADDR : Field := ⟨Reg.LINK_PAN_SHORT, 16, 16⟩
abbrev LINK_PAN_SHORT_PAN_ID : Field := ⟨Reg.LINK_PAN_SHORT, 0, 16⟩
abbrev LINK_CSMA_BACKOFF_GR : Field := ⟨Reg.LINK_CSMA, 16, 20⟩
abbrev LINK_CSMA_MAX_RETRIES : Field := ⟨Reg.LINK_CSMA, 12, 4⟩
abbrev LINK_CSMA_MAX_BACKOFFS : Field := ⟨Reg.LINK_CSMA, 8, 4⟩
abbrev LINK_CSMA_MAX_BE : Field := ⟨Reg.LINK_CSMA, 4, 4⟩
abbrev LINK_CSMA_MIN_BE : Field := ⟨Reg.LINK_CSMA, 0, 4⟩
abbrev LINK_CCA_THRESHOLD_QDBM : Field := ⟨Reg.LINK_CCA, 16, 12⟩
abbrev LINK_CCA_DURATION_GR : Field := ⟨Reg.LINK_CCA, 4, 12⟩
abbrev LINK_CCA_MODE : Field := ⟨Reg.LINK_CCA, 0, 2⟩
abbrev LINK_DWELL_WINDOW_CHANNELS_M1 : Field := ⟨Reg.LINK_DWELL_WINDOW, 22, 8⟩
abbrev LINK_DWELL_WINDOW_WINDOW_MS : Field := ⟨Reg.LINK_DWELL_WINDOW, 0, 22⟩
abbrev LINK_TSCH_CTRL_EB_ENABLE : Field := ⟨Reg.LINK_TSCH_CTRL, 10, 1⟩
abbrev LINK_TSCH_CTRL_JOIN_METRIC : Field := ⟨Reg.LINK_TSCH_CTRL, 2, 8⟩
abbrev LINK_TSCH_CTRL_COORD : Field := ⟨Reg.LINK_TSCH_CTRL, 1, 1⟩
abbrev LINK_TSCH_CTRL_RUN : Field := ⟨Reg.LINK_TSCH_CTRL, 0, 1⟩
abbrev LINK_TSCH_SF_SIZE (i : Nat) : Field := ⟨Reg.LINK_TSCH_SF i, 20, 16⟩
abbrev LINK_TSCH_SF_FIRST (i : Nat) : Field := ⟨Reg.LINK_TSCH_SF i, 10, 10⟩
abbrev LINK_TSCH_SF_LAST (i : Nat) : Field := ⟨Reg.LINK_TSCH_SF i, 0, 10⟩
abbrev LINK_COUNTS_0_ACCEPTED : Field := ⟨Reg.LINK_COUNTS_0, 18, 18⟩
abbrev LINK_COUNTS_0_UNVERIFIED : Field := ⟨Reg.LINK_COUNTS_0, 0, 18⟩
abbrev LINK_COUNTS_1_FCS_FAIL : Field := ⟨Reg.LINK_COUNTS_1, 18, 18⟩
abbrev LINK_COUNTS_1_FILTERED : Field := ⟨Reg.LINK_COUNTS_1, 0, 18⟩
abbrev LINK_COUNTS_2_MIC_FAIL : Field := ⟨Reg.LINK_COUNTS_2, 18, 18⟩
abbrev LINK_COUNTS_2_REPLAY : Field := ⟨Reg.LINK_COUNTS_2, 0, 18⟩
abbrev LINK_COUNTS_3_DUP : Field := ⟨Reg.LINK_COUNTS_3, 18, 18⟩
abbrev LINK_COUNTS_3_RING_FULL : Field := ⟨Reg.LINK_COUNTS_3, 0, 18⟩
abbrev LINK_COUNTS_4_ACK_SENT : Field := ⟨Reg.LINK_COUNTS_4, 18, 18⟩
abbrev LINK_COUNTS_4_ACK_CARRIER : Field := ⟨Reg.LINK_COUNTS_4, 0, 18⟩
abbrev LINK_COUNTS_5_ACK_DWELL : Field := ⟨Reg.LINK_COUNTS_5, 18, 18⟩
abbrev LINK_COUNTS_5_ACK_WINDOW : Field := ⟨Reg.LINK_COUNTS_5, 0, 18⟩
abbrev LINK_COUNTS_6_TX_DEFERRED : Field := ⟨Reg.LINK_COUNTS_6, 18, 18⟩
abbrev LINK_COUNTS_6_TX_DWELL : Field := ⟨Reg.LINK_COUNTS_6, 0, 18⟩
abbrev LINK_COUNTS_7_ACK_ALLOWANCE : Field := ⟨Reg.LINK_COUNTS_7, 18, 18⟩
abbrev LINK_COUNTS_7_BEACON_SKIPPED : Field := ⟨Reg.LINK_COUNTS_7, 0, 18⟩
abbrev LINK_INT_STATUS_BEACON_SKIPPED : Field := ⟨Reg.LINK_INT_STATUS, 8, 1⟩
abbrev LINK_INT_STATUS_TIME_REFUSED : Field := ⟨Reg.LINK_INT_STATUS, 7, 1⟩
abbrev LINK_INT_STATUS_MIC_FAIL : Field := ⟨Reg.LINK_INT_STATUS, 6, 1⟩
abbrev LINK_INT_STATUS_REPLAY : Field := ⟨Reg.LINK_INT_STATUS, 5, 1⟩
abbrev LINK_INT_STATUS_DWELL : Field := ⟨Reg.LINK_INT_STATUS, 4, 1⟩
abbrev LINK_INT_STATUS_ACK_LOST : Field := ⟨Reg.LINK_INT_STATUS, 3, 1⟩
abbrev LINK_INT_STATUS_RING_FULL : Field := ⟨Reg.LINK_INT_STATUS, 2, 1⟩
abbrev LINK_INT_STATUS_RING1 : Field := ⟨Reg.LINK_INT_STATUS, 1, 1⟩
abbrev LINK_INT_STATUS_RING0 : Field := ⟨Reg.LINK_INT_STATUS, 0, 1⟩
abbrev LINK_INT_ENABLE_ENABLE : Field := ⟨Reg.LINK_INT_ENABLE, 0, 9⟩
abbrev LINK_STATUS_OSC_STOP : Field := ⟨Reg.LINK_STATUS, 7, 1⟩
abbrev LINK_STATUS_TSCH_SYNCED : Field := ⟨Reg.LINK_STATUS, 6, 1⟩
abbrev LINK_STATUS_ON_AIR : Field := ⟨Reg.LINK_STATUS, 3, 3⟩
abbrev LINK_STATUS_COMMITTED : Field := ⟨Reg.LINK_STATUS, 0, 3⟩
abbrev LINK_PARTNER_CMD_OP : Field := ⟨Reg.LINK_PARTNER_CMD, 28, 4⟩
abbrev LINK_PARTNER_CMD_HANDLE : Field := ⟨Reg.LINK_PARTNER_CMD, 0, 12⟩
abbrev LINK_PARTNER_STATUS_BUSY : Field := ⟨Reg.LINK_PARTNER_STATUS, 24, 1⟩
abbrev LINK_PARTNER_STATUS_RESULT : Field := ⟨Reg.LINK_PARTNER_STATUS, 12, 12⟩
abbrev LINK_PARTNER_STATUS_LAST_HANDLE : Field := ⟨Reg.LINK_PARTNER_STATUS, 0, 12⟩
abbrev LINK_PSCHED_CTRL_DRIFT_SHIFT : Field := ⟨Reg.LINK_PSCHED_CTRL, 2, 4⟩
abbrev LINK_PSCHED_CTRL_PAGE_ENABLE : Field := ⟨Reg.LINK_PSCHED_CTRL, 1, 1⟩
abbrev LINK_PSCHED_CTRL_RUN : Field := ⟨Reg.LINK_PSCHED_CTRL, 0, 1⟩
abbrev LINK_PAGE_CTRL_PAGE_RETRIES : Field := ⟨Reg.LINK_PAGE_CTRL, 0, 4⟩
abbrev LINK_PAGE_STATUS_ACTIVE : Field := ⟨Reg.LINK_PAGE_STATUS, 24, 1⟩
abbrev LINK_PAGE_STATUS_QUEUED : Field := ⟨Reg.LINK_PAGE_STATUS, 12, 12⟩
abbrev LINK_PAGE_STATUS_HANDLE : Field := ⟨Reg.LINK_PAGE_STATUS, 0, 12⟩
abbrev LINK_PSCHED_COUNTS_0_RDV_HEARD : Field := ⟨Reg.LINK_PSCHED_COUNTS_0, 18, 18⟩
abbrev LINK_PSCHED_COUNTS_0_RDV_EMPTY : Field := ⟨Reg.LINK_PSCHED_COUNTS_0, 0, 18⟩
abbrev LINK_PSCHED_COUNTS_1_RDV_NO_LANE : Field := ⟨Reg.LINK_PSCHED_COUNTS_1, 18, 18⟩
abbrev LINK_PSCHED_COUNTS_1_LOST_SYNC : Field := ⟨Reg.LINK_PSCHED_COUNTS_1, 0, 18⟩
abbrev LINK_PSCHED_COUNTS_2_PAGES_SENT : Field := ⟨Reg.LINK_PSCHED_COUNTS_2, 18, 18⟩
abbrev LINK_PSCHED_COUNTS_2_PAGE_FAILED : Field := ⟨Reg.LINK_PSCHED_COUNTS_2, 0, 18⟩
abbrev LINK_PSCHED_COUNTS_3_RESYNCS : Field := ⟨Reg.LINK_PSCHED_COUNTS_3, 18, 18⟩
abbrev LINK_PSCHED_COUNTS_3_PAGE_DWELL : Field := ⟨Reg.LINK_PSCHED_COUNTS_3, 0, 18⟩
abbrev LINK_PSCHED_INT_STATUS_OP_DONE : Field := ⟨Reg.LINK_PSCHED_INT_STATUS, 4, 1⟩
abbrev LINK_PSCHED_INT_STATUS_NO_LANE : Field := ⟨Reg.LINK_PSCHED_INT_STATUS, 3, 1⟩
abbrev LINK_PSCHED_INT_STATUS_RESYNC_DONE : Field := ⟨Reg.LINK_PSCHED_INT_STATUS, 2, 1⟩
abbrev LINK_PSCHED_INT_STATUS_PAGE_FAILED : Field := ⟨Reg.LINK_PSCHED_INT_STATUS, 1, 1⟩
abbrev LINK_PSCHED_INT_STATUS_LOST_SYNC : Field := ⟨Reg.LINK_PSCHED_INT_STATUS, 0, 1⟩
abbrev LINK_PSCHED_INT_ENABLE_ENABLE : Field := ⟨Reg.LINK_PSCHED_INT_ENABLE, 0, 5⟩
abbrev LINK_WUR_CTRL_HOLDOFF_S : Field := ⟨Reg.LINK_WUR_CTRL, 8, 8⟩
abbrev LINK_WUR_CTRL_TOLERANCE : Field := ⟨Reg.LINK_WUR_CTRL, 2, 2⟩
abbrev LINK_WUR_CTRL_ACCEPT_BCAST : Field := ⟨Reg.LINK_WUR_CTRL, 1, 1⟩
abbrev LINK_WUR_CTRL_ENABLE : Field := ⟨Reg.LINK_WUR_CTRL, 0, 1⟩
abbrev LINK_WUR_FREQ_STEP : Field := ⟨Reg.LINK_WUR_FREQ, 0, 11⟩
abbrev LINK_WUR_STATUS_HOLDOFF : Field := ⟨Reg.LINK_WUR_STATUS, 3, 1⟩
abbrev LINK_WUR_STATUS_BLANKED : Field := ⟨Reg.LINK_WUR_STATUS, 2, 1⟩
abbrev LINK_WUR_STATUS_LAST_BCAST : Field := ⟨Reg.LINK_WUR_STATUS, 1, 1⟩
abbrev LINK_WUR_STATUS_MATCH : Field := ⟨Reg.LINK_WUR_STATUS, 0, 1⟩
abbrev LINK_WUR_COUNTS_MATCHES : Field := ⟨Reg.LINK_WUR_COUNTS, 18, 18⟩
abbrev LINK_WUR_COUNTS_HELD_OFF : Field := ⟨Reg.LINK_WUR_COUNTS, 0, 18⟩
abbrev SEC_FEATURE_KEY_CELLS : Field := ⟨Reg.SEC_FEATURE, 3, 5⟩
abbrev SEC_FEATURE_MLKEM : Field := ⟨Reg.SEC_FEATURE, 2, 1⟩
abbrev SEC_FEATURE_MLDSA : Field := ⟨Reg.SEC_FEATURE, 1, 1⟩
abbrev SEC_FEATURE_DRBG : Field := ⟨Reg.SEC_FEATURE, 0, 1⟩
abbrev SEC_LIFECYCLE_RECOVERY_COUNT : Field := ⟨Reg.SEC_LIFECYCLE, 16, 4⟩
abbrev SEC_LIFECYCLE_ROLLBACK : Field := ⟨Reg.SEC_LIFECYCLE, 7, 9⟩
abbrev SEC_LIFECYCLE_REVOKED : Field := ⟨Reg.SEC_LIFECYCLE, 3, 4⟩
abbrev SEC_LIFECYCLE_DEAD : Field := ⟨Reg.SEC_LIFECYCLE, 2, 1⟩
abbrev SEC_LIFECYCLE_LIFECYCLE : Field := ⟨Reg.SEC_LIFECYCLE, 0, 2⟩
abbrev SEC_STATUS_PROGRAMMED : Field := ⟨Reg.SEC_STATUS, 8, 4⟩
abbrev SEC_STATUS_KEM_HELD : Field := ⟨Reg.SEC_STATUS, 7, 1⟩
abbrev SEC_STATUS_NMK1 : Field := ⟨Reg.SEC_STATUS, 6, 1⟩
abbrev SEC_STATUS_NMK0 : Field := ⟨Reg.SEC_STATUS, 5, 1⟩
abbrev SEC_STATUS_DEBUG_OPEN : Field := ⟨Reg.SEC_STATUS, 4, 1⟩
abbrev SEC_STATUS_LOCKED : Field := ⟨Reg.SEC_STATUS, 3, 1⟩
abbrev SEC_STATUS_ID_READY : Field := ⟨Reg.SEC_STATUS, 2, 1⟩
abbrev SEC_STATUS_DRBG_READY : Field := ⟨Reg.SEC_STATUS, 1, 1⟩
abbrev SEC_STATUS_TRNG_FAIL : Field := ⟨Reg.SEC_STATUS, 0, 1⟩
abbrev SEC_KEY_CELLS_FULL : Field := ⟨Reg.SEC_KEY_CELLS, 0, 16⟩
abbrev SEC_DRBG_CTRL_REINIT : Field := ⟨Reg.SEC_DRBG_CTRL, 35, 1⟩
abbrev SEC_DRBG_CTRL_RESEED_INTERVAL : Field := ⟨Reg.SEC_DRBG_CTRL, 0, 24⟩
abbrev SEC_TRNG_COUNTS_REPETITION_FAILS : Field := ⟨Reg.SEC_TRNG_COUNTS, 18, 18⟩
abbrev SEC_TRNG_COUNTS_PROPORTION_FAILS : Field := ⟨Reg.SEC_TRNG_COUNTS, 0, 18⟩
abbrev SEC_INT_STATUS_FUSE_BURNED : Field := ⟨Reg.SEC_INT_STATUS, 4, 1⟩
abbrev SEC_INT_STATUS_TOKEN_REFUSED : Field := ⟨Reg.SEC_INT_STATUS, 3, 1⟩
abbrev SEC_INT_STATUS_AUTH_FAIL : Field := ⟨Reg.SEC_INT_STATUS, 2, 1⟩
abbrev SEC_INT_STATUS_NMK_CHANGED : Field := ⟨Reg.SEC_INT_STATUS, 1, 1⟩
abbrev SEC_INT_STATUS_TRNG_FAIL : Field := ⟨Reg.SEC_INT_STATUS, 0, 1⟩
abbrev SEC_INT_ENABLE_ENABLE : Field := ⟨Reg.SEC_INT_ENABLE, 0, 5⟩
abbrev UPD_CTRL_MOVING : Field := ⟨Reg.UPD_CTRL, 0, 1⟩
abbrev UPD_STATUS_SLOT_A : Field := ⟨Reg.UPD_STATUS, 33, 3⟩
abbrev UPD_STATUS_SLOT_B : Field := ⟨Reg.UPD_STATUS, 30, 3⟩
abbrev UPD_STATUS_OWNER : Field := ⟨Reg.UPD_STATUS, 28, 2⟩
abbrev UPD_STATUS_CURRENT_AREA : Field := ⟨Reg.UPD_STATUS, 27, 1⟩
abbrev UPD_STATUS_BURN_PENDING : Field := ⟨Reg.UPD_STATUS, 26, 1⟩
abbrev UPD_STATUS_ACTIVATE_ARMED : Field := ⟨Reg.UPD_STATUS, 25, 1⟩
abbrev UPD_STATUS_QUIET : Field := ⟨Reg.UPD_STATUS, 24, 1⟩
abbrev UPD_STATUS_RESTART_MODE : Field := ⟨Reg.UPD_STATUS, 23, 1⟩
abbrev UPD_STATUS_MOTION : Field := ⟨Reg.UPD_STATUS, 22, 1⟩
abbrev UPD_STATUS_RELEASING : Field := ⟨Reg.UPD_STATUS, 21, 1⟩
abbrev UPD_STATUS_LAST_RESULT : Field := ⟨Reg.UPD_STATUS, 8, 12⟩
abbrev UPD_BOOT_INFO_ALT_MASK : Field := ⟨Reg.UPD_BOOT_INFO, 16, 14⟩
abbrev UPD_BOOT_INFO_CONSECUTIVE : Field := ⟨Reg.UPD_BOOT_INFO, 14, 2⟩
abbrev UPD_BOOT_INFO_FAILED_STEP : Field := ⟨Reg.UPD_BOOT_INFO, 10, 4⟩
abbrev UPD_BOOT_INFO_SLOT : Field := ⟨Reg.UPD_BOOT_INFO, 8, 2⟩
abbrev UPD_BOOT_INFO_START_SEQ : Field := ⟨Reg.UPD_BOOT_INFO, 0, 8⟩
abbrev UPD_INT_STATUS_SETTINGS_REPORTED : Field := ⟨Reg.UPD_INT_STATUS, 6, 1⟩
abbrev UPD_INT_STATUS_PREEMPTED : Field := ⟨Reg.UPD_INT_STATUS, 5, 1⟩
abbrev UPD_INT_STATUS_FELL_BACK : Field := ⟨Reg.UPD_INT_STATUS, 4, 1⟩
abbrev UPD_INT_STATUS_CONFIRMED : Field := ⟨Reg.UPD_INT_STATUS, 3, 1⟩
abbrev UPD_INT_STATUS_ACTIVATED : Field := ⟨Reg.UPD_INT_STATUS, 2, 1⟩
abbrev UPD_INT_STATUS_LOADED : Field := ⟨Reg.UPD_INT_STATUS, 1, 1⟩
abbrev UPD_INT_STATUS_STAGED : Field := ⟨Reg.UPD_INT_STATUS, 0, 1⟩
abbrev UPD_INT_ENABLE_ENABLE : Field := ⟨Reg.UPD_INT_ENABLE, 0, 7⟩
abbrev HOST_FEATURE_CHAIN : Field := ⟨Reg.HOST_FEATURE, 4, 1⟩
abbrev HOST_FEATURE_UART0 : Field := ⟨Reg.HOST_FEATURE, 3, 1⟩
abbrev HOST_FEATURE_QSPI : Field := ⟨Reg.HOST_FEATURE, 2, 1⟩
abbrev HOST_FEATURE_PCIE : Field := ⟨Reg.HOST_FEATURE, 1, 1⟩
abbrev HOST_FEATURE_INTERNAL : Field := ⟨Reg.HOST_FEATURE, 0, 1⟩
abbrev MBX_GO_SEQ (p : Nat) : Field := ⟨Reg.MBX_GO p, 12, 8⟩
abbrev MBX_GO_CODE (p : Nat) : Field := ⟨Reg.MBX_GO p, 0, 8⟩
abbrev MBX_STATUS_SEQ (p : Nat) : Field := ⟨Reg.MBX_STATUS p, 16, 8⟩
abbrev MBX_STATUS_COLLIDE (p : Nat) : Field := ⟨Reg.MBX_STATUS p, 2, 1⟩
abbrev MBX_STATUS_DONE (p : Nat) : Field := ⟨Reg.MBX_STATUS p, 1, 1⟩
abbrev MBX_STATUS_BUSY (p : Nat) : Field := ⟨Reg.MBX_STATUS p, 0, 1⟩
abbrev HOST_PCIE_STATUS_RATE : Field := ⟨Reg.HOST_PCIE_STATUS, 5, 2⟩
abbrev HOST_PCIE_STATUS_WIDTH : Field := ⟨Reg.HOST_PCIE_STATUS, 3, 2⟩
abbrev HOST_PCIE_STATUS_L1 : Field := ⟨Reg.HOST_PCIE_STATUS, 2, 1⟩
abbrev HOST_PCIE_STATUS_LINK_UP : Field := ⟨Reg.HOST_PCIE_STATUS, 0, 1⟩
abbrev HOST_APERTURE_CHIP (k : Nat) : Field := ⟨Reg.HOST_APERTURE k, 28, 6⟩
abbrev HOST_APERTURE_SPACE (k : Nat) : Field := ⟨Reg.HOST_APERTURE k, 24, 4⟩
abbrev HOST_APERTURE_BASE_HI (k : Nat) : Field := ⟨Reg.HOST_APERTURE k, 0, 11⟩
abbrev HOST_QSPI_CFG_IRQ : Field := ⟨Reg.HOST_QSPI_CFG, 8, 1⟩
abbrev HOST_QSPI_CFG_DUMMY : Field := ⟨Reg.HOST_QSPI_CFG, 0, 8⟩
abbrev HOST_CHAIN_STATUS_GANG_SIZE : Field := ⟨Reg.HOST_CHAIN_STATUS, 17, 7⟩
abbrev HOST_CHAIN_STATUS_SYNCED : Field := ⟨Reg.HOST_CHAIN_STATUS, 16, 1⟩
abbrev HOST_CHAIN_STATUS_ISOLATED : Field := ⟨Reg.HOST_CHAIN_STATUS, 15, 1⟩
abbrev HOST_CHAIN_STATUS_FOLDED : Field := ⟨Reg.HOST_CHAIN_STATUS, 14, 1⟩
abbrev HOST_CHAIN_STATUS_HEAD_CONFLICT : Field := ⟨Reg.HOST_CHAIN_STATUS, 13, 1⟩
abbrev HOST_CHAIN_STATUS_SIZE_MISMATCH : Field := ⟨Reg.HOST_CHAIN_STATUS, 12, 1⟩
abbrev HOST_CHAIN_STATUS_RATE_1 : Field := ⟨Reg.HOST_CHAIN_STATUS, 10, 2⟩
abbrev HOST_CHAIN_STATUS_RATE_0 : Field := ⟨Reg.HOST_CHAIN_STATUS, 8, 2⟩
abbrev HOST_CHAIN_COUNTS_CRC_ERRORS : Field := ⟨Reg.HOST_CHAIN_COUNTS, 18, 18⟩
abbrev HOST_CHAIN_COUNTS_LOST_FRAMES : Field := ⟨Reg.HOST_CHAIN_COUNTS, 0, 18⟩
abbrev HOST_INT_STATUS_TAKEOVER_DONE : Field := ⟨Reg.HOST_INT_STATUS, 6, 1⟩
abbrev HOST_INT_STATUS_SYNC_LOST : Field := ⟨Reg.HOST_INT_STATUS, 5, 1⟩
abbrev HOST_INT_STATUS_RING_RESTORED : Field := ⟨Reg.HOST_INT_STATUS, 4, 1⟩
abbrev HOST_INT_STATUS_RING_BREAK : Field := ⟨Reg.HOST_INT_STATUS, 3, 1⟩
abbrev HOST_INT_STATUS_MEMBER_LOST : Field := ⟨Reg.HOST_INT_STATUS, 2, 1⟩
abbrev HOST_INT_STATUS_PCIE_LINK : Field := ⟨Reg.HOST_INT_STATUS, 1, 1⟩
abbrev HOST_INT_STATUS_DOORBELL : Field := ⟨Reg.HOST_INT_STATUS, 0, 1⟩
abbrev HOST_INT_ENABLE_ENABLE : Field := ⟨Reg.HOST_INT_ENABLE, 0, 7⟩
abbrev PAD_FEATURE_VDDIO_3V3 : Field := ⟨Reg.PAD_FEATURE, 6, 1⟩
abbrev PAD_FEATURE_GPIO_PADS : Field := ⟨Reg.PAD_FEATURE, 0, 6⟩
abbrev PAD_RELEASE_RELEASE : Field := ⟨Reg.PAD_RELEASE, 0, 1⟩
abbrev PAD_STATUS_LATCH_CAUSE : Field := ⟨Reg.PAD_STATUS, 1, 2⟩
abbrev PAD_STATUS_LATCHED : Field := ⟨Reg.PAD_STATUS, 0, 1⟩
abbrev PAD_CFG_FUNCTION (k : Nat) : Field := ⟨Reg.PAD_CFG k, 8, 8⟩
abbrev PAD_CFG_PULL (k : Nat) : Field := ⟨Reg.PAD_CFG k, 4, 2⟩
abbrev PAD_CFG_DRIVE (k : Nat) : Field := ⟨Reg.PAD_CFG k, 2, 2⟩
abbrev PAD_CFG_HELD (k : Nat) : Field := ⟨Reg.PAD_CFG k, 0, 2⟩

end Fld

/-- Rows of the SYS block. -/
def rowsSys : List RegRow := [
  ⟨0x0, 1, 0x1, 1, 1, .bits, 0x6400a1, [⟨8, 16, .ro, .any⟩, ⟨0, 8, .ro, .any⟩]⟩,
  ⟨0x1, 1, 0x1, 1, 1, .bits, 0x0, [⟨0, 36, .ro, .any⟩]⟩,
  ⟨0x2, 1, 0x1, 1, 1, .bits, 0x0, [⟨0, 36, .ro, .any⟩]⟩,
  ⟨0x8, 1, 0x1, 1, 1, .bits, 0x200, [⟨16, 6, .ro, .any⟩, ⟨14, 2, .ro, .any⟩, ⟨13, 1, .ro, .any⟩, ⟨12, 1, .ro, .any⟩, ⟨8, 4, .ro, .any⟩, ⟨0, 3, .ro, .any⟩]⟩,
  ⟨0xc, 1, 0x1, 1, 1, .bits, 0x0, [⟨1, 1, .w1c, .any⟩, ⟨0, 1, .w1c, .any⟩]⟩,
  ⟨0xd, 1, 0x1, 1, 1, .bits, 0x0, [⟨0, 2, .rw, .any⟩]⟩]

/-- Rows of the PWR block. -/
def rowsPwr : List RegRow := [
  ⟨0x1000, 1, 0x1, 1, 1, .bits, 0x4, [⟨4, 4, .ro, .any⟩, ⟨0, 4, .ro, .any⟩]⟩,
  ⟨0x1001, 1, 0x1, 1, 1, .bits, 0x0, [⟨0, 4, .wo, (.nat 0 7)⟩]⟩,
  ⟨0x1002, 1, 0x1, 1, 1, .bits, 0x200000000, [⟨32, 4, .ro, .any⟩, ⟨31, 1, .ro, .any⟩, ⟨27, 4, .ro, .any⟩, ⟨26, 1, .ro, .any⟩, ⟨22, 4, .ro, .any⟩, ⟨21, 1, .ro, .any⟩, ⟨20, 1, .ro, .any⟩, ⟨8, 8, .ro, .any⟩, ⟨0, 8, .ro, .any⟩]⟩,
  ⟨0x1003, 1, 0x1, 1, 1, .bits, 0x0, [⟨20, 8, .ro, .any⟩, ⟨16, 4, .ro, .any⟩, ⟨0, 12, .ro, .any⟩]⟩,
  ⟨0x1004, 1, 0x1, 1, 1, .bits, 0xffff, [⟨16, 20, .wo, (.nat 0 0)⟩, ⟨0, 16, .rw, .any⟩]⟩,
  ⟨0x1005, 1, 0x1, 1, 1, .bits, 0x3, [⟨4, 1, .rw, .any⟩, ⟨3, 1, .rw, .any⟩, ⟨2, 1, .rw, .any⟩, ⟨1, 1, .rw, .any⟩, ⟨0, 1, .rw, .any⟩]⟩,
  ⟨0x1006, 1, 0x1, 1, 1, .bits, 0x0, [⟨0, 32, .rw, .any⟩]⟩,
  ⟨0x1007, 1, 0x1, 1, 1, .bits, 0x0, [⟨8, 4, .w1c, .any⟩, ⟨7, 1, .w1c, .any⟩, ⟨6, 1, .w1c, .any⟩, ⟨5, 1, .w1c, .any⟩, ⟨4, 1, .w1c, .any⟩, ⟨3, 1, .w1c, .any⟩, ⟨2, 1, .w1c, .any⟩, ⟨1, 1, .w1c, .any⟩, ⟨0, 1, .w1c, .any⟩]⟩,
  ⟨0x1008, 1, 0x1, 1, 1, .grain, 0x0, [⟨0, 36, .ro, .any⟩]⟩,
  ⟨0x1009, 1, 0x1, 1, 1, .grain, 0x0, [⟨0, 36, .ro, .any⟩]⟩,
  ⟨0x100a, 1, 0x1, 1, 1, .grain, 0x0, [⟨0, 36, .rw, .any⟩]⟩,
  ⟨0x100b, 1, 0x1, 1, 1, .grain, 0x0, [⟨0, 36, .rw, .any⟩]⟩,
  ⟨0x1010, 1, 0x1, 1, 1, .bits, 0x0, [⟨32, 1, .rw, .any⟩, ⟨28, 4, .rw, (.nat 0 7)⟩, ⟨0, 24, .rw, .any⟩]⟩,
  ⟨0x1011, 1, 0x1, 1, 1, .int, 0x0, [⟨0, 36, .ro, .any⟩]⟩,
  ⟨0x1018, 1, 0x1, 1, 1, .bits, 0x0, [⟨12, 12, .ro, .any⟩, ⟨0, 8, .ro, .any⟩]⟩,
  ⟨0x1019, 1, 0x1, 1, 1, .bits, 0x1, [⟨4, 1, .w1c, .any⟩, ⟨3, 1, .w1c, .any⟩, ⟨2, 1, .w1c, .any⟩, ⟨1, 1, .w1c, .any⟩, ⟨0, 1, .w1c, .any⟩]⟩,
  ⟨0x1020, 1, 0x1, 1, 1, .bits, 0x0, [⟨5, 1, .w1c, .any⟩, ⟨4, 1, .w1c, .any⟩, ⟨3, 1, .w1c, .any⟩, ⟨2, 1, .w1c, .any⟩, ⟨1, 1, .w1c, .any⟩, ⟨0, 1, .w1c, .any⟩]⟩,
  ⟨0x1021, 1, 0x1, 1, 1, .bits, 0x0, [⟨0, 6, .rw, .any⟩]⟩,
  ⟨0x1022, 1, 0x1, 1, 1, .bits, 0x0, [⟨18, 18, .rw, .any⟩, ⟨0, 18, .rw, .any⟩]⟩]

/-- Rows of the RTC block. -/
def rowsRtc0 : List RegRow := [
  ⟨0x2000, 1, 0x1, 1, 1, .bits, 0x2, [⟨3, 1, .rw, .any⟩, ⟨2, 1, .rw, .any⟩, ⟨1, 1, .rw, .any⟩]⟩,
  ⟨0x2001, 1, 0x1, 1, 1, .bits, 0x1, [⟨24, 12, .ro, .any⟩, ⟨12, 12, .ro, .any⟩, ⟨10, 2, .ro, .any⟩, ⟨9, 1, .ro, .any⟩, ⟨8, 1, .ro, .any⟩, ⟨7, 1, .ro, .any⟩, ⟨6, 1, .ro, .any⟩, ⟨1, 1, .ro, .any⟩, ⟨0, 1, .ro, .any⟩]⟩,
  ⟨0x2002, 1, 0x1, 1, 1, .int, 0x0, [⟨0, 36, .ro, .any⟩]⟩,
  ⟨0x2003, 1, 0x1, 1, 1, .bits, 0x0, [⟨0, 15, .ro, .any⟩]⟩,
  ⟨0x2004, 1, 0x1, 1, 1, .bits, 0x870, [⟨15, 9, .ro, .any⟩, ⟨11, 4, .ro, .any⟩, ⟨6, 5, .ro, .any⟩, ⟨3, 3, .ro, .any⟩]⟩,
  ⟨0x2005, 1, 0x1, 1, 1, .bits, 0x0, [⟨12, 5, .ro, .any⟩, ⟨6, 6, .ro, .any⟩, ⟨0, 6, .ro, .any⟩]⟩,
  ⟨0x2008, 1, 0x1, 1, 1, .bits, 0x0, [⟨32, 4, .wo, (.nat 0 3)⟩, ⟨0, 16, .wo, (.int (-32767) 32767)⟩]⟩,
  ⟨0x2009, 1, 0x1, 1, 1, .int, 0x0, [⟨0, 36, .rw, .any⟩]⟩,
  ⟨0x200a, 1, 0x1, 1, 1, .bits, 0x0, [⟨15, 21, .wo, (.nat 0 0)⟩, ⟨0, 15, .rw, .any⟩]⟩,
  ⟨0x200c, 1, 0x1, 1, 1, .int, 0x0, [⟨0, 36, .ro, .any⟩]⟩,
  ⟨0x200d, 1, 0x1, 1, 1, .bits, 0x0, [⟨0, 36, .ro, .any⟩]⟩,
  ⟨0x200e, 1, 0x1, 1, 1, .grain, 0x0, [⟨0, 36, .ro, .any⟩]⟩,
  ⟨0x200f, 1, 0x1, 1, 1, .int, 0x0, [⟨0, 36, .ro, .any⟩]⟩,
  ⟨0x2010, 1, 0x1, 1, 1, .int, 0x19, [⟨0, 36, .rw, (.int (-40) 125)⟩]⟩,
  ⟨0x2011, 1, 0x1, 1, 1, .int, 0x0, [⟨0, 36, .rw, (.int (-1000000) 1000000)⟩]⟩,
  ⟨0x2012, 1, 0x1, 1, 1, .int, 0x0, [⟨0, 36, .rw, (.int (-100000) 100000)⟩]⟩,
  ⟨0x2013, 1, 0x1, 1, 1, .int, 0xfffffffde, [⟨0, 36, .rw, (.int (-10000) 10000)⟩]⟩,
  ⟨0x2014, 1, 0x1, 1, 1, .int, 0x0, [⟨0, 36, .rw, (.int (-100000) 100000)⟩]⟩,
  ⟨0x2015, 1, 0x1, 1, 1, .bits, 0x0, [⟨18, 8, .ro, .any⟩, ⟨9, 9, .ro, .any⟩, ⟨8, 1, .ro, .any⟩]⟩,
  ⟨0x2016, 1, 0x1, 1, 1, .int, 0x0, [⟨0, 36, .ro, .any⟩]⟩,
  ⟨0x2020, 4, 0x4, 1, 1, .int, 0x0, [⟨0, 36, .rw, .any⟩]⟩,
  ⟨0x2021, 4, 0x4, 1, 1, .bits, 0x0, [⟨15, 21, .wo, (.nat 0 0)⟩, ⟨0, 15, .rw, .any⟩]⟩,
  ⟨0x2022, 4, 0x4, 1, 1, .bits, 0x0, [⟨2, 1, .w1c, .any⟩, ⟨1, 1, .w1c, .any⟩, ⟨0, 1, .rw, .any⟩]⟩,
  ⟨0x2030, 1, 0x1, 1, 1, .int, 0x898, [⟨0, 36, .rw, (.nat 1800 3300)⟩]⟩]

/-- Rows of the RTC block. -/
def rowsRtc1 : List RegRow := [
  ⟨0x2031, 1, 0x1, 1, 1, .int, 0x0, [⟨0, 36, .ro, .any⟩]⟩,
  ⟨0x2034, 1, 0x1, 1, 1, .bits, 0x40000000, [⟨28, 4, .ro, .any⟩, ⟨20, 8, .rw, .any⟩]⟩,
  ⟨0x2035, 1, 0x1, 1, 1, .int, 0x0, [⟨0, 36, .ro, .any⟩]⟩,
  ⟨0x2038, 1, 0x1, 1, 1, .bits, 0x1, [⟨6, 1, .w1c, .any⟩, ⟨5, 1, .w1c, .any⟩, ⟨4, 1, .w1c, .any⟩, ⟨3, 1, .w1c, .any⟩, ⟨2, 1, .w1c, .any⟩, ⟨1, 1, .w1c, .any⟩, ⟨0, 1, .w1c, .any⟩]⟩,
  ⟨0x2039, 1, 0x1, 1, 1, .bits, 0x0, [⟨0, 7, .rw, .any⟩]⟩]

/-- All rows of the RTC block. -/
def rowsRtc : List RegRow := rowsRtc0 ++ rowsRtc1

/-- Rows of the TMR block. -/
def rowsTmr : List RegRow := [
  ⟨0x3000, 16, 0x20, 1, 1, .bits, 0x0, [⟨4, 4, .rw, .any⟩, ⟨3, 1, .rw, .any⟩, ⟨2, 1, .rw, .any⟩, ⟨0, 1, .rw, .any⟩]⟩,
  ⟨0x3001, 16, 0x20, 1, 1, .grain, 0x0, [⟨0, 36, .rw, .any⟩]⟩,
  ⟨0x3002, 16, 0x20, 1, 1, .bits, 0x0, [⟨4, 4, .w1c, .any⟩, ⟨0, 4, .w1c, .any⟩]⟩,
  ⟨0x3003, 16, 0x20, 1, 1, .grain, 0x0, [⟨0, 36, .ro, .any⟩]⟩,
  ⟨0x3004, 16, 0x20, 4, 1, .grain, 0x0, [⟨0, 36, .rw, .any⟩]⟩,
  ⟨0x3008, 16, 0x20, 4, 1, .int, 0x1, [⟨0, 36, .rw, (.nat 1 34359738367)⟩]⟩,
  ⟨0x300c, 16, 0x20, 4, 1, .bits, 0x0, [⟨3, 1, .rw, .any⟩, ⟨2, 1, .rw, .any⟩, ⟨1, 1, .rw, .any⟩, ⟨0, 1, .rw, .any⟩]⟩,
  ⟨0x3200, 8, 0x2, 1, 1, .grain, 0x0, [⟨0, 36, .ro, .any⟩]⟩,
  ⟨0x3201, 8, 0x2, 1, 1, .grain, 0x0, [⟨0, 36, .ro, .any⟩]⟩,
  ⟨0x3210, 1, 0x1, 1, 1, .bits, 0x0, [⟨16, 16, .wo, .any⟩, ⟨0, 16, .wo, .any⟩]⟩,
  ⟨0x3218, 1, 0x1, 1, 1, .bits, 0x0, [⟨0, 8, .ro, .any⟩]⟩,
  ⟨0x3280, 8, 0x8, 1, 1, .bits, 0x0, [⟨16, 8, .rw, .any⟩, ⟨8, 8, .rw, .any⟩, ⟨4, 4, .rw, .any⟩, ⟨2, 2, .rw, .any⟩, ⟨1, 1, .rw, .any⟩, ⟨0, 1, .rw, .any⟩]⟩,
  ⟨0x3281, 8, 0x8, 1, 1, .bits, 0x0, [⟨8, 8, .ro, .any⟩, ⟨2, 1, .ro, .any⟩, ⟨1, 1, .w1c, .any⟩, ⟨0, 1, .ro, .any⟩]⟩,
  ⟨0x3282, 8, 0x8, 1, 1, .grain, 0x0, [⟨0, 36, .ro, .any⟩]⟩,
  ⟨0x3283, 8, 0x8, 1, 1, .grain, 0x0, [⟨0, 36, .ro, .any⟩]⟩]

/-- Rows of the EVF block. -/
def rowsEvf : List RegRow := [
  ⟨0x4000, 1, 0x1, 1, 1, .bits, 0x0, [⟨16, 10, .ro, .any⟩, ⟨10, 6, .ro, .any⟩, ⟨9, 1, .ro, .any⟩]⟩,
  ⟨0x4008, 8, 0x1, 1, 1, .bits, 0x0, [⟨32, 4, .wo, (.nat 0 0)⟩, ⟨0, 32, .rw, .any⟩]⟩,
  ⟨0x4010, 6, 0x1, 1, 1, .bits, 0x0, [⟨32, 4, .wo, (.nat 0 0)⟩, ⟨0, 32, .w1c, .any⟩]⟩,
  ⟨0x4018, 6, 0x1, 1, 1, .bits, 0x0, [⟨32, 4, .wo, (.nat 0 0)⟩, ⟨0, 32, .w1c, .any⟩]⟩,
  ⟨0x4020, 1, 0x1, 1, 1, .bits, 0x0, [⟨32, 4, .wo, (.nat 0 11)⟩, ⟨0, 28, .wo, .any⟩]⟩,
  ⟨0x4021, 1, 0x1, 1, 1, .bits, 0x0, [⟨0, 36, .ro, .any⟩]⟩,
  ⟨0x4022, 1, 0x1, 1, 1, .bits, 0x0, [⟨0, 36, .ro, .any⟩]⟩,
  ⟨0x4028, 3, 0x1, 1, 1, .bits, 0x0, [⟨0, 36, .rw, .any⟩]⟩,
  ⟨0x4030, 1, 0x1, 1, 1, .int, 0x280, [⟨0, 36, .rw, (.nat 64 65535)⟩]⟩,
  ⟨0x4031, 1, 0x1, 1, 1, .bits, 0x0, [⟨16, 16, .w1c, .any⟩, ⟨0, 16, .w1c, .any⟩]⟩,
  ⟨0x4032, 1, 0x1, 1, 1, .bits, 0x0, [⟨18, 18, .rw, .any⟩, ⟨0, 18, .rw, .any⟩]⟩,
  ⟨0x4038, 1, 0x1, 1, 1, .bits, 0x0, [⟨3, 1, .w1c, .any⟩, ⟨2, 1, .w1c, .any⟩, ⟨1, 1, .w1c, .any⟩, ⟨0, 1, .w1c, .any⟩]⟩,
  ⟨0x4039, 1, 0x1, 1, 1, .bits, 0x0, [⟨0, 4, .rw, .any⟩]⟩,
  ⟨0x4040, 32, 0x1, 1, 1, .bits, 0x0, [⟨2, 6, .rw, (.nat 0 39)⟩, ⟨0, 2, .rw, .any⟩]⟩]

/-- Rows of the CHK block. -/
def rowsChk : List RegRow := [
  ⟨0x5000, 8, 0x10, 1, 1, .bits, 0x0, [⟨24, 6, .rw, .any⟩, ⟨21, 3, .rw, .any⟩, ⟨19, 2, .rw, (.nat 0 2)⟩, ⟨17, 2, .rw, (.nat 0 2)⟩, ⟨16, 1, .rw, .any⟩, ⟨15, 1, .rw, .any⟩, ⟨14, 1, .rw, .any⟩, ⟨13, 1, .rw, .any⟩, ⟨8, 5, .rw, .any⟩, ⟨0, 1, .rw, .any⟩]⟩,
  ⟨0x5001, 8, 0x10, 1, 1, .bits, 0x0, [⟨32, 4, .wo, (.nat 0 0)⟩, ⟨0, 32, .rw, .any⟩]⟩,
  ⟨0x5002, 8, 0x10, 1, 1, .bits, 0x0, [⟨32, 4, .wo, (.nat 0 0)⟩, ⟨0, 32, .rw, .any⟩]⟩,
  ⟨0x5003, 8, 0x10, 1, 1, .bits, 0x0, [⟨32, 4, .wo, (.nat 0 0)⟩, ⟨0, 32, .rw, .any⟩]⟩,
  ⟨0x5004, 8, 0x10, 1, 1, .bits, 0x0, [⟨32, 4, .wo, (.nat 0 0)⟩, ⟨0, 32, .rw, .any⟩]⟩,
  ⟨0x5005, 8, 0x10, 1, 1, .bits, 0x0, [⟨0, 36, .ro, .any⟩]⟩,
  ⟨0x5006, 8, 0x10, 1, 1, .bits, 0x0, [⟨32, 4, .wo, (.nat 0 0)⟩, ⟨0, 32, .rw, .any⟩]⟩,
  ⟨0x5007, 8, 0x10, 1, 1, .int, 0x0, [⟨32, 4, .wo, (.nat 0 0)⟩, ⟨0, 32, .rw, .any⟩]⟩,
  ⟨0x5008, 8, 0x10, 1, 1, .int, 0x0, [⟨32, 4, .wo, (.nat 0 0)⟩, ⟨0, 32, .rw, .any⟩]⟩,
  ⟨0x5009, 8, 0x10, 1, 1, .bits, 0x0, [⟨4, 1, .ro, .any⟩, ⟨3, 1, .w1c, .any⟩, ⟨2, 1, .w1c, .any⟩, ⟨1, 1, .w1c, .any⟩, ⟨0, 1, .w1c, .any⟩]⟩,
  ⟨0x500a, 8, 0x10, 1, 1, .bits, 0x0, [⟨0, 4, .rw, .any⟩]⟩,
  ⟨0x500b, 8, 0x10, 1, 1, .bits, 0x0, [⟨24, 12, .rw, .any⟩, ⟨12, 12, .rw, .any⟩, ⟨0, 12, .rw, .any⟩]⟩,
  ⟨0x5080, 1, 0x1, 1, 1, .bits, 0xff, [⟨0, 8, .ro, .any⟩]⟩]

/-- Rows of the MEM block. -/
def rowsMem0 : List RegRow := [
  ⟨0x6000, 1, 0x1, 1, 1, .bits, 0x1, [⟨3, 1, .ro, .any⟩, ⟨2, 1, .ro, .any⟩, ⟨1, 1, .ro, .any⟩, ⟨0, 1, .ro, .any⟩]⟩,
  ⟨0x6001, 1, 0x1, 1, 1, .bits, 0x0, [⟨32, 2, .ro, .any⟩, ⟨16, 16, .ro, .any⟩, ⟨0, 16, .ro, .any⟩]⟩,
  ⟨0x6002, 1, 0x1, 1, 1, .int, 0x0, [⟨0, 36, .ro, .any⟩]⟩,
  ⟨0x6003, 1, 0x1, 1, 1, .int, 0x0, [⟨0, 36, .ro, .any⟩]⟩,
  ⟨0x6008, 1, 0x1, 1, 1, .bits, 0xf, [⟨3, 1, .rw, .any⟩, ⟨2, 1, .rw, .any⟩, ⟨1, 1, .rw, .any⟩, ⟨0, 1, .rw, .any⟩]⟩,
  ⟨0x6009, 1, 0x1, 1, 1, .int, 0x1000, [⟨0, 36, .rw, (.nat 64 1048575)⟩]⟩,
  ⟨0x600a, 1, 0x1, 1, 1, .int, 0x1000, [⟨0, 36, .rw, (.nat 64 1048575)⟩]⟩,
  ⟨0x600b, 1, 0x1, 1, 1, .int, 0x40, [⟨0, 36, .rw, (.nat 16 1048575)⟩]⟩,
  ⟨0x6010, 1, 0x1, 1, 1, .bits, 0x0, [⟨18, 18, .rw, .any⟩, ⟨0, 18, .rw, .any⟩]⟩,
  ⟨0x6011, 1, 0x1, 1, 1, .bits, 0x0, [⟨18, 18, .rw, .any⟩, ⟨0, 18, .rw, .any⟩]⟩,
  ⟨0x6012, 1, 0x1, 1, 1, .bits, 0x0, [⟨18, 18, .rw, .any⟩, ⟨0, 18, .rw, .any⟩]⟩,
  ⟨0x6013, 1, 0x1, 1, 1, .bits, 0x0, [⟨18, 18, .rw, .any⟩, ⟨0, 18, .rw, .any⟩]⟩,
  ⟨0x6014, 1, 0x1, 1, 1, .bits, 0x0, [⟨18, 18, .rw, .any⟩, ⟨0, 18, .rw, .any⟩]⟩,
  ⟨0x6015, 1, 0x1, 1, 1, .bits, 0x0, [⟨18, 18, .rw, .any⟩, ⟨0, 18, .rw, .any⟩]⟩,
  ⟨0x6016, 1, 0x1, 1, 1, .ptr, 0x0, [⟨0, 36, .ro, .any⟩]⟩,
  ⟨0x6017, 1, 0x1, 1, 1, .grain, 0x0, [⟨0, 36, .ro, .any⟩]⟩,
  ⟨0x6020, 8, 0x1, 1, 1, .bits, 0x0, [⟨32, 4, .rw, (.nat 0 0)⟩, ⟨16, 16, .rw, .any⟩, ⟨0, 16, .rw, .any⟩]⟩,
  ⟨0x6028, 1, 0x1, 1, 1, .bits, 0x0, [⟨1, 13, .ro, .any⟩, ⟨0, 1, .w1c, .any⟩]⟩,
  ⟨0x6029, 1, 0x1, 1, 1, .bits, 0x0, [⟨32, 4, .rw, (.nat 0 0)⟩, ⟨16, 16, .rw, .any⟩, ⟨0, 16, .rw, .any⟩]⟩,
  ⟨0x6030, 1, 0x1, 1, 1, .bits, 0x0, [⟨1, 1, .rw, .any⟩, ⟨0, 1, .rw, .any⟩]⟩,
  ⟨0x6031, 1, 0x1, 1, 1, .int, 0x4000000, [⟨0, 36, .rw, (.nat 1048576 34359738367)⟩]⟩,
  ⟨0x6032, 1, 0x1, 1, 1, .bits, 0x0, [⟨34, 2, .ro, .any⟩, ⟨33, 1, .ro, .any⟩, ⟨20, 13, .ro, .any⟩, ⟨12, 8, .ro, .any⟩, ⟨6, 6, .ro, .any⟩]⟩,
  ⟨0x6033, 1, 0x1, 1, 1, .ptr, 0x0, [⟨0, 36, .ro, .any⟩]⟩,
  ⟨0x6038, 1, 0x1, 1, 1, .bits, 0x0, [⟨17, 1, .w1c, .any⟩, ⟨16, 1, .w1c, .any⟩, ⟨0, 16, .w1c, .any⟩]⟩]

/-- Rows of the MEM block. -/
def rowsMem1 : List RegRow := [
  ⟨0x6040, 1, 0x1, 1, 1, .bits, 0x0, [⟨1, 1, .wo, .any⟩, ⟨0, 1, .rw, .any⟩]⟩,
  ⟨0x6041, 1, 0x1, 1, 1, .bits, 0x0, [⟨34, 2, .ro, .any⟩, ⟨32, 2, .ro, .any⟩, ⟨31, 1, .ro, .any⟩, ⟨30, 1, .ro, .any⟩, ⟨29, 1, .ro, .any⟩, ⟨20, 9, .ro, .any⟩, ⟨8, 12, .ro, .any⟩]⟩,
  ⟨0x6048, 1, 0x1, 1, 1, .bits, 0x0, [⟨8, 6, .rw, .any⟩, ⟨7, 1, .rw, .any⟩, ⟨6, 1, .rw, .any⟩, ⟨0, 6, .rw, .any⟩]⟩,
  ⟨0x6049, 1, 0x1, 1, 1, .bits, 0x0, [⟨35, 1, .w1c, .any⟩, ⟨0, 11, .ro, .any⟩]⟩,
  ⟨0x604a, 1, 0x1, 1, 1, .bits, 0x0, [⟨18, 18, .rw, .any⟩, ⟨0, 18, .rw, .any⟩]⟩,
  ⟨0x6050, 1, 0x1, 1, 1, .bits, 0x0, [⟨8, 1, .w1c, .any⟩, ⟨7, 1, .w1c, .any⟩, ⟨6, 1, .w1c, .any⟩, ⟨5, 1, .w1c, .any⟩, ⟨4, 1, .w1c, .any⟩, ⟨3, 1, .w1c, .any⟩, ⟨2, 1, .w1c, .any⟩, ⟨1, 1, .w1c, .any⟩, ⟨0, 1, .w1c, .any⟩]⟩,
  ⟨0x6051, 1, 0x1, 1, 1, .bits, 0x0, [⟨0, 9, .rw, .any⟩]⟩]

/-- All rows of the MEM block. -/
def rowsMem : List RegRow := rowsMem0 ++ rowsMem1

/-- Rows of the RF block. -/
def rowsRf0 : List RegRow := [
  ⟨0x8000, 1, 0x1, 1, 1, .bits, 0x0, [⟨5, 1, .ro, .any⟩, ⟨4, 1, .ro, .any⟩, ⟨3, 1, .ro, .any⟩, ⟨2, 1, .ro, .any⟩, ⟨1, 1, .ro, .any⟩, ⟨0, 1, .ro, .any⟩]⟩,
  ⟨0x8010, 2, 0x10, 1, 1, .bits, 0x40, [⟨7, 1, .rw, .any⟩, ⟨6, 1, .rw, .any⟩, ⟨5, 1, .rw, .any⟩, ⟨2, 3, .rw, .any⟩, ⟨1, 1, .ro, .any⟩, ⟨0, 1, .rw, .any⟩]⟩,
  ⟨0x8011, 2, 0x10, 1, 1, .int, 0x3689cac0, [⟨0, 36, .rw, (.nat 410000000 960000000)⟩]⟩,
  ⟨0x8012, 2, 0x10, 1, 1, .grain, 0x0, [⟨0, 36, .rw, .any⟩]⟩,
  ⟨0x8013, 2, 0x10, 1, 1, .bits, 0x0, [⟨6, 1, .w1c, .any⟩, ⟨5, 1, .ro, .any⟩, ⟨4, 1, .ro, .any⟩, ⟨3, 1, .ro, .any⟩, ⟨0, 3, .ro, .any⟩]⟩,
  ⟨0x8014, 2, 0x10, 1, 1, .bits, 0x0, [⟨18, 18, .rw, .any⟩, ⟨0, 18, .rw, .any⟩]⟩,
  ⟨0x8015, 2, 0x10, 1, 1, .int, 0x0, [⟨0, 36, .ro, .any⟩]⟩,
  ⟨0x8030, 1, 0x1, 1, 1, .bits, 0x800405430, [⟨24, 12, .rw, .any⟩, ⟨16, 8, .rw, .any⟩, ⟨10, 6, .rw, .any⟩, ⟨4, 6, .rw, .any⟩]⟩,
  ⟨0x8031, 1, 0x1, 1, 1, .bits, 0x18fe3c, [⟨16, 8, .rw, .any⟩, ⟨0, 16, .rw, .any⟩]⟩,
  ⟨0x8040, 1, 0x1, 1, 1, .bits, 0x4, [⟨7, 1, .rw, .any⟩, ⟨6, 1, .rw, .any⟩, ⟨5, 1, .rw, .any⟩, ⟨2, 3, .rw, (.nat 1 4)⟩, ⟨0, 1, .rw, .any⟩]⟩,
  ⟨0x8041, 1, 0x1, 1, 1, .int, 0x3689cac0, [⟨0, 36, .rw, (.nat 410000000 960000000)⟩]⟩,
  ⟨0x8042, 1, 0x1, 1, 1, .grain, 0x0, [⟨0, 36, .rw, .any⟩]⟩,
  ⟨0x8043, 1, 0x1, 1, 1, .bits, 0x50, [⟨0, 8, .rw, (.int (-40) 120)⟩]⟩,
  ⟨0x8044, 1, 0x1, 1, 1, .bits, 0x4424, [⟨8, 8, .ro, .any⟩, ⟨5, 3, .ro, .any⟩, ⟨2, 3, .ro, .any⟩, ⟨0, 2, .ro, .any⟩]⟩,
  ⟨0x8045, 1, 0x1, 1, 1, .bits, 0x8650, [⟨8, 8, .rw, .any⟩, ⟨0, 8, .rw, .any⟩]⟩,
  ⟨0x8046, 1, 0x1, 1, 1, .int, 0x0, [⟨0, 36, .ro, .any⟩]⟩,
  ⟨0x8050, 1, 0x1, 1, 1, .bits, 0x103, [⟨15, 1, .wo, .any⟩, ⟨10, 5, .rw, .any⟩, ⟨4, 6, .rw, (.nat 4 63)⟩, ⟨1, 1, .rw, .any⟩, ⟨0, 1, .rw, .any⟩]⟩,
  ⟨0x8051, 1, 0x1, 1, 1, .int, 0x0, [⟨0, 36, .rw, (.nat 0 4095)⟩]⟩,
  ⟨0x8052, 1, 0x1, 1, 1, .bits, 0x0, [⟨25, 5, .ro, .any⟩, ⟨23, 2, .ro, .any⟩, ⟨15, 8, .ro, .any⟩, ⟨8, 7, .ro, .any⟩, ⟨7, 1, .ro, .any⟩, ⟨6, 1, .ro, .any⟩]⟩,
  ⟨0x8053, 1, 0x1, 1, 1, .bits, 0x0, [⟨0, 32, .ro, .any⟩]⟩,
  ⟨0x8054, 1, 0x1, 1, 1, .bits, 0x0, [⟨0, 32, .ro, .any⟩]⟩,
  ⟨0x8055, 1, 0x1, 1, 1, .bits, 0xb4, [⟨0, 8, .rw, .any⟩]⟩,
  ⟨0x8056, 1, 0x1, 1, 1, .bits, 0x800502800, [⟨32, 4, .rw, (.nat 1 15)⟩, ⟨16, 8, .rw, .any⟩, ⟨8, 8, .rw, .any⟩, ⟨0, 8, .rw, .any⟩]⟩,
  ⟨0x8058, 1, 0x1, 1, 1, .int, 0x1c03a180, [⟨0, 36, .rw, (.nat 410000000 960000000)⟩]⟩]

/-- Rows of the RF block. -/
def rowsRf1 : List RegRow := [
  ⟨0x8059, 1, 0x1, 1, 1, .int, 0x2160ec00, [⟨0, 36, .rw, (.nat 410000000 960000000)⟩]⟩,
  ⟨0x805a, 1, 0x1, 1, 1, .int, 0x2887fa00, [⟨0, 36, .rw, (.nat 410000000 960000000)⟩]⟩,
  ⟨0x805b, 1, 0x1, 1, 1, .int, 0x2faf0800, [⟨0, 36, .rw, (.nat 410000000 960000000)⟩]⟩,
  ⟨0x805c, 1, 0x1, 1, 1, .int, 0x33428f00, [⟨0, 36, .rw, (.nat 410000000 960000000)⟩]⟩,
  ⟨0x805d, 1, 0x1, 1, 1, .int, 0x350c5280, [⟨0, 36, .rw, (.nat 410000000 960000000)⟩]⟩,
  ⟨0x805e, 1, 0x1, 1, 1, .int, 0x3689cac0, [⟨0, 36, .rw, (.nat 410000000 960000000)⟩]⟩,
  ⟨0x8060, 1, 0x1, 1, 1, .bits, 0x0, [⟨7, 1, .wo, .any⟩, ⟨4, 3, .rw, (.nat 0 4)⟩, ⟨0, 1, .wo, .any⟩]⟩,
  ⟨0x8061, 1, 0x1, 1, 1, .bits, 0x0, [⟨12, 12, .ro, .any⟩, ⟨11, 1, .ro, .any⟩, ⟨10, 1, .ro, .any⟩]⟩,
  ⟨0x8070, 1, 0x1, 1, 1, .bits, 0x0, [⟨10, 1, .w1c, .any⟩, ⟨9, 1, .w1c, .any⟩, ⟨8, 1, .w1c, .any⟩, ⟨7, 1, .w1c, .any⟩, ⟨6, 1, .w1c, .any⟩, ⟨5, 1, .w1c, .any⟩, ⟨4, 1, .w1c, .any⟩, ⟨3, 1, .w1c, .any⟩, ⟨2, 1, .w1c, .any⟩, ⟨1, 1, .w1c, .any⟩, ⟨0, 1, .w1c, .any⟩]⟩,
  ⟨0x8071, 1, 0x1, 1, 1, .bits, 0x0, [⟨0, 11, .rw, .any⟩]⟩]

/-- All rows of the RF block. -/
def rowsRf : List RegRow := rowsRf0 ++ rowsRf1

/-- Rows of the LANE block. -/
def rowsLane : List RegRow := [
  ⟨0xa000, 64, 0x40, 1, 1, .bits, 0xa0, [⟨9, 1, .rw, .any⟩, ⟨8, 1, .rw, .any⟩, ⟨4, 4, .rw, (.nat 3 15)⟩, ⟨1, 1, .rw, .any⟩, ⟨0, 1, .rw, .any⟩]⟩,
  ⟨0xa001, 64, 0x40, 1, 1, .int, 0x0, [⟨0, 36, .rw, (.nat 410000000 960000000)⟩]⟩,
  ⟨0xa002, 64, 0x40, 1, 1, .bits, 0x0, [⟨14, 2, .rw, (.nat 0 2)⟩, ⟨0, 14, .rw, .any⟩]⟩,
  ⟨0xa003, 64, 0x40, 1, 1, .grain, 0x0, [⟨0, 36, .rw, .any⟩]⟩,
  ⟨0xa004, 64, 0x40, 1, 1, .bits, 0x406020, [⟨16, 8, .rw, (.nat 1 255)⟩, ⟨8, 8, .rw, (.nat 32 224)⟩, ⟨4, 4, .rw, (.nat 1 15)⟩]⟩,
  ⟨0xa005, 64, 0x40, 1, 1, .bits, 0x0, [⟨30, 1, .w1c, .any⟩, ⟨29, 1, .w1c, .any⟩, ⟨28, 1, .w1c, .any⟩, ⟨27, 1, .ro, .any⟩, ⟨26, 1, .ro, .any⟩, ⟨25, 1, .ro, .any⟩, ⟨22, 3, .ro, .any⟩, ⟨20, 2, .ro, .any⟩, ⟨16, 4, .ro, .any⟩, ⟨0, 4, .ro, .any⟩]⟩,
  ⟨0xa006, 64, 0x40, 1, 1, .int, 0x0, [⟨0, 36, .ro, .any⟩]⟩,
  ⟨0xa007, 64, 0x40, 1, 1, .bits, 0x0, [⟨18, 18, .rw, .any⟩, ⟨0, 18, .rw, .any⟩]⟩,
  ⟨0xa008, 64, 0x40, 1, 1, .bits, 0x0, [⟨18, 18, .rw, .any⟩, ⟨9, 9, .rw, .any⟩, ⟨0, 9, .rw, .any⟩]⟩,
  ⟨0xa009, 64, 0x40, 1, 1, .bits, 0x0, [⟨6, 1, .w1c, .any⟩, ⟨5, 1, .w1c, .any⟩, ⟨4, 1, .w1c, .any⟩, ⟨3, 1, .w1c, .any⟩, ⟨2, 1, .w1c, .any⟩, ⟨1, 1, .w1c, .any⟩, ⟨0, 1, .w1c, .any⟩]⟩,
  ⟨0xa00a, 64, 0x40, 1, 1, .bits, 0x0, [⟨0, 7, .rw, .any⟩]⟩,
  ⟨0xa00b, 64, 0x40, 1, 1, .bits, 0x0, [⟨6, 2, .ro, .any⟩, ⟨5, 1, .ro, .any⟩, ⟨4, 1, .ro, .any⟩, ⟨3, 1, .ro, .any⟩, ⟨2, 1, .ro, .any⟩]⟩]

/-- Rows of the LINK block. -/
def rowsLink0 : List RegRow := [
  ⟨0xc000, 1, 0x1, 1, 1, .bits, 0x0, [⟨11, 13, .ro, .any⟩, ⟨4, 7, .ro, .any⟩, ⟨3, 1, .ro, .any⟩, ⟨2, 1, .ro, .any⟩, ⟨0, 2, .ro, .any⟩]⟩,
  ⟨0xc001, 1, 0x1, 1, 1, .bits, 0x2, [⟨8, 2, .rw, (.nat 0 2)⟩, ⟨6, 1, .rw, .any⟩, ⟨5, 1, .rw, .any⟩, ⟨4, 1, .rw, .any⟩, ⟨3, 1, .rw, .any⟩, ⟨2, 1, .rw, .any⟩, ⟨1, 1, .rw, .any⟩, ⟨0, 1, .rw, .any⟩]⟩,
  ⟨0xc002, 1, 0x1, 1, 1, .bits, 0xfffeffff, [⟨16, 16, .rw, .any⟩, ⟨0, 16, .rw, .any⟩]⟩,
  ⟨0xc003, 1, 0x1, 1, 1, .bits, 0x0, [⟨0, 36, .rw, (.nat 0 4294967295)⟩]⟩,
  ⟨0xc004, 1, 0x1, 1, 1, .bits, 0x0, [⟨0, 36, .rw, (.nat 0 4294967295)⟩]⟩,
  ⟨0xc005, 1, 0x1, 1, 1, .int, 0x53e, [⟨0, 36, .rw, (.nat 1342 1048575)⟩]⟩,
  ⟨0xc006, 1, 0x1, 1, 1, .int, 0x20000, [⟨0, 36, .rw, (.nat 1342 1048575)⟩]⟩,
  ⟨0xc007, 1, 0x1, 1, 1, .int, 0x0, [⟨0, 36, .rw, (.nat 0 4294967295)⟩]⟩,
  ⟨0xc008, 1, 0x1, 1, 1, .bits, 0x0, [⟨0, 36, .rw, (.nat 0 1)⟩]⟩,
  ⟨0xc009, 1, 0x1, 1, 1, .bits, 0x0, [⟨0, 36, .ro, .any⟩]⟩,
  ⟨0xc00a, 1, 0x1, 1, 1, .bits, 0x0, [⟨0, 36, .ro, .any⟩]⟩,
  ⟨0xc010, 1, 0x1, 1, 1, .bits, 0x55eb3453, [⟨16, 20, .rw, (.nat 67 1048575)⟩, ⟨12, 4, .rw, (.nat 0 7)⟩, ⟨8, 4, .rw, (.nat 0 5)⟩, ⟨4, 4, .rw, (.nat 3 8)⟩, ⟨0, 4, .rw, (.nat 0 8)⟩]⟩,
  ⟨0xc011, 1, 0x1, 1, 1, .bits, 0xe702180, [⟨16, 12, .rw, .any⟩, ⟨4, 12, .rw, (.nat 67 4095)⟩, ⟨0, 2, .rw, (.nat 0 2)⟩]⟩,
  ⟨0xc018, 1, 0x1, 1, 1, .int, 0x35c67ac0, [⟨0, 36, .rw, (.nat 410000000 960000000)⟩]⟩,
  ⟨0xc019, 1, 0x1, 1, 1, .int, 0x30d40, [⟨0, 36, .rw, (.nat 12500 26000000)⟩]⟩,
  ⟨0xc01a, 1, 0x1, 1, 1, .bits, 0x0, [⟨22, 8, .rw, .any⟩, ⟨0, 22, .rw, .window⟩]⟩,
  ⟨0xc01b, 1, 0x1, 1, 1, .int, 0x0, [⟨0, 36, .rw, (.nat 0 34359738367)⟩]⟩,
  ⟨0xc040, 2, 0x8, 1, 1, .ptr, 0x0, [⟨0, 36, .rw, .any⟩]⟩,
  ⟨0xc041, 2, 0x8, 1, 1, .int, 0x0, [⟨0, 36, .rw, .any⟩]⟩,
  ⟨0xc042, 2, 0x8, 1, 1, .int, 0x0, [⟨0, 36, .ro, .any⟩]⟩,
  ⟨0xc043, 2, 0x8, 1, 1, .int, 0x0, [⟨0, 36, .rw, .any⟩]⟩,
  ⟨0xc044, 2, 0x8, 1, 1, .ptr, 0x0, [⟨0, 36, .rw, .any⟩]⟩,
  ⟨0xc045, 2, 0x8, 1, 1, .int, 0x0, [⟨0, 36, .rw, .any⟩]⟩,
  ⟨0xc046, 2, 0x8, 1, 1, .int, 0x0, [⟨0, 36, .ro, .any⟩]⟩]

/-- Rows of the LINK block. -/
def rowsLink1 : List RegRow := [
  ⟨0xc050, 1, 0x1, 1, 1, .bits, 0x0, [⟨10, 1, .rw, .any⟩, ⟨2, 8, .rw, .any⟩, ⟨1, 1, .rw, .any⟩, ⟨0, 1, .rw, .any⟩]⟩,
  ⟨0xc051, 1, 0x1, 1, 1, .bits, 0x0, [⟨0, 36, .rw, .any⟩]⟩,
  ⟨0xc052, 1, 0x1, 1, 1, .bits, 0x0, [⟨0, 36, .rw, (.nat 0 15)⟩]⟩,
  ⟨0xc053, 1, 0x1, 1, 1, .ptr, 0x0, [⟨0, 36, .rw, .any⟩]⟩,
  ⟨0xc054, 1, 0x1, 1, 1, .ptr, 0x0, [⟨0, 36, .rw, .any⟩]⟩,
  ⟨0xc055, 1, 0x1, 1, 1, .int, 0x1, [⟨0, 36, .rw, (.nat 1 256)⟩]⟩,
  ⟨0xc056, 1, 0x1, 1, 1, .ptr, 0x0, [⟨0, 36, .rw, .any⟩]⟩,
  ⟨0xc058, 8, 0x1, 1, 1, .bits, 0x0, [⟨20, 16, .rw, .any⟩, ⟨10, 10, .rw, .any⟩, ⟨0, 10, .rw, .any⟩]⟩,
  ⟨0xc060, 5, 0x1, 1, 1, .int, 0x0, [⟨0, 36, .rw, (.nat 0 1048575)⟩]⟩,
  ⟨0xc065, 1, 0x1, 1, 1, .int, 0x0, [⟨0, 36, .rw, (.nat 1342 1048575)⟩]⟩,
  ⟨0xc066, 6, 0x1, 1, 1, .int, 0x0, [⟨0, 36, .rw, (.nat 0 1048575)⟩]⟩,
  ⟨0xc070, 1, 0x1, 1, 1, .bits, 0x0, [⟨18, 18, .rw, .any⟩, ⟨0, 18, .rw, .any⟩]⟩,
  ⟨0xc071, 1, 0x1, 1, 1, .bits, 0x0, [⟨18, 18, .rw, .any⟩, ⟨0, 18, .rw, .any⟩]⟩,
  ⟨0xc072, 1, 0x1, 1, 1, .bits, 0x0, [⟨18, 18, .rw, .any⟩, ⟨0, 18, .rw, .any⟩]⟩,
  ⟨0xc073, 1, 0x1, 1, 1, .bits, 0x0, [⟨18, 18, .rw, .any⟩, ⟨0, 18, .rw, .any⟩]⟩,
  ⟨0xc074, 1, 0x1, 1, 1, .bits, 0x0, [⟨18, 18, .rw, .any⟩, ⟨0, 18, .rw, .any⟩]⟩,
  ⟨0xc075, 1, 0x1, 1, 1, .bits, 0x0, [⟨18, 18, .rw, .any⟩, ⟨0, 18, .rw, .any⟩]⟩,
  ⟨0xc076, 1, 0x1, 1, 1, .bits, 0x0, [⟨18, 18, .rw, .any⟩, ⟨0, 18, .rw, .any⟩]⟩,
  ⟨0xc077, 1, 0x1, 1, 1, .bits, 0x0, [⟨18, 18, .rw, .any⟩, ⟨0, 18, .rw, .any⟩]⟩,
  ⟨0xc078, 1, 0x1, 1, 1, .bits, 0x0, [⟨8, 1, .w1c, .any⟩, ⟨7, 1, .w1c, .any⟩, ⟨6, 1, .w1c, .any⟩, ⟨5, 1, .w1c, .any⟩, ⟨4, 1, .w1c, .any⟩, ⟨3, 1, .w1c, .any⟩, ⟨2, 1, .w1c, .any⟩, ⟨1, 1, .w1c, .any⟩, ⟨0, 1, .w1c, .any⟩]⟩,
  ⟨0xc079, 1, 0x1, 1, 1, .bits, 0x0, [⟨0, 9, .rw, .any⟩]⟩,
  ⟨0xc07a, 1, 0x1, 1, 1, .bits, 0x0, [⟨7, 1, .ro, .any⟩, ⟨6, 1, .ro, .any⟩, ⟨3, 3, .ro, .any⟩, ⟨0, 3, .ro, .any⟩]⟩,
  ⟨0xc080, 8, 0x8, 1, 1, .int, 0x0, [⟨0, 36, .rw, .any⟩]⟩,
  ⟨0xc081, 8, 0x8, 1, 1, .int, 0x0, [⟨0, 36, .rw, .any⟩]⟩,
  ⟨0xc082, 8, 0x8, 1, 1, .int, 0x0, [⟨0, 22, .rw, .window⟩]⟩,
  ⟨0xc083, 8, 0x8, 1, 1, .int, 0x0, [⟨0, 36, .rw, (.nat 0 34359738367)⟩]⟩]

/-- Rows of the LINK block. -/
def rowsLink2 : List RegRow := [
  ⟨0xc084, 8, 0x8, 1, 1, .int, 0x0, [⟨0, 36, .ro, .any⟩]⟩,
  ⟨0xc100, 1, 0x1, 1, 1, .ptr, 0x0, [⟨0, 36, .ro, .any⟩]⟩,
  ⟨0xc101, 1, 0x1, 1, 1, .ptr, 0x0, [⟨0, 36, .ro, .any⟩]⟩,
  ⟨0xc102, 1, 0x1, 1, 1, .bits, 0x0, [⟨28, 4, .wo, .any⟩, ⟨0, 12, .wo, .any⟩]⟩,
  ⟨0xc103, 1, 0x1, 1, 1, .bits, 0x0, [⟨24, 1, .ro, .any⟩, ⟨12, 12, .ro, .any⟩, ⟨0, 12, .ro, .any⟩]⟩,
  ⟨0xc108, 8, 0x1, 1, 1, .bits, 0x0, [⟨0, 36, .rw, .any⟩]⟩,
  ⟨0xc110, 8, 0x1, 1, 1, .bits, 0x0, [⟨0, 36, .rw, .any⟩]⟩,
  ⟨0xc120, 1, 0x1, 1, 1, .bits, 0x8, [⟨2, 4, .rw, (.nat 0 8)⟩, ⟨1, 1, .rw, .any⟩, ⟨0, 1, .rw, .any⟩]⟩,
  ⟨0xc121, 1, 0x1, 1, 1, .int, 0x53e, [⟨0, 36, .rw, (.nat 0 1048575)⟩]⟩,
  ⟨0xc122, 1, 0x1, 1, 1, .int, 0x20c4a, [⟨0, 36, .rw, (.nat 1342 1048575)⟩]⟩,
  ⟨0xc123, 1, 0x1, 1, 1, .bits, 0x3, [⟨0, 4, .rw, (.nat 1 15)⟩]⟩,
  ⟨0xc124, 1, 0x1, 1, 1, .int, 0xf0000000, [⟨0, 36, .rw, (.nat 67108864 34359738367)⟩]⟩,
  ⟨0xc125, 1, 0x1, 1, 1, .int, 0x1eb852, [⟨0, 36, .rw, (.nat 671089 67108864)⟩]⟩,
  ⟨0xc126, 1, 0x1, 1, 1, .bits, 0x0, [⟨0, 36, .rw, (.nat 0 16777215)⟩]⟩,
  ⟨0xc128, 1, 0x1, 1, 1, .bits, 0x0, [⟨0, 36, .ro, .any⟩]⟩,
  ⟨0xc129, 1, 0x1, 1, 1, .bits, 0x0, [⟨0, 36, .ro, .any⟩]⟩,
  ⟨0xc12a, 1, 0x1, 1, 1, .bits, 0x0, [⟨24, 1, .ro, .any⟩, ⟨12, 12, .ro, .any⟩, ⟨0, 12, .ro, .any⟩]⟩,
  ⟨0xc130, 1, 0x1, 1, 1, .bits, 0x0, [⟨18, 18, .rw, .any⟩, ⟨0, 18, .rw, .any⟩]⟩,
  ⟨0xc131, 1, 0x1, 1, 1, .bits, 0x0, [⟨18, 18, .rw, .any⟩, ⟨0, 18, .rw, .any⟩]⟩,
  ⟨0xc132, 1, 0x1, 1, 1, .bits, 0x0, [⟨18, 18, .rw, .any⟩, ⟨0, 18, .rw, .any⟩]⟩,
  ⟨0xc133, 1, 0x1, 1, 1, .bits, 0x0, [⟨18, 18, .rw, .any⟩, ⟨0, 18, .rw, .any⟩]⟩,
  ⟨0xc134, 1, 0x1, 1, 1, .bits, 0x0, [⟨4, 1, .w1c, .any⟩, ⟨3, 1, .w1c, .any⟩, ⟨2, 1, .w1c, .any⟩, ⟨1, 1, .w1c, .any⟩, ⟨0, 1, .w1c, .any⟩]⟩,
  ⟨0xc135, 1, 0x1, 1, 1, .bits, 0x0, [⟨0, 5, .rw, .any⟩]⟩,
  ⟨0xc300, 1, 0x1, 1, 1, .bits, 0x1e04, [⟨8, 8, .rw, .any⟩, ⟨2, 2, .rw, (.nat 0 2)⟩, ⟨1, 1, .rw, .any⟩, ⟨0, 1, .rw, .any⟩]⟩]

/-- Rows of the LINK block. -/
def rowsLink3 : List RegRow := [
  ⟨0xc301, 1, 0x1, 1, 1, .bits, 0x0, [⟨0, 11, .rw, (.nat 0 1400)⟩]⟩,
  ⟨0xc302, 1, 0x1, 1, 1, .bits, 0x0, [⟨0, 36, .rw, (.nat 0 65535)⟩]⟩,
  ⟨0xc303, 1, 0x1, 1, 1, .bits, 0x0, [⟨0, 36, .rw, (.nat 0 16777214)⟩]⟩,
  ⟨0xc304, 1, 0x1, 1, 1, .bits, 0x0, [⟨3, 1, .ro, .any⟩, ⟨2, 1, .ro, .any⟩, ⟨1, 1, .ro, .any⟩, ⟨0, 1, .w1c, .any⟩]⟩,
  ⟨0xc305, 1, 0x1, 1, 1, .bits, 0x0, [⟨18, 18, .rw, .any⟩, ⟨0, 18, .rw, .any⟩]⟩,
  ⟨0xd000, 256, 0x1, 1, 1, .int, 0x0, [⟨0, 36, .ro, .any⟩]⟩]

/-- All rows of the LINK block. -/
def rowsLink : List RegRow := rowsLink0 ++ rowsLink1 ++ rowsLink2 ++ rowsLink3

/-- Rows of the SEC block. -/
def rowsSec : List RegRow := [
  ⟨0x10000, 1, 0x1, 1, 1, .bits, 0x87, [⟨3, 5, .ro, .any⟩, ⟨2, 1, .ro, .any⟩, ⟨1, 1, .ro, .any⟩, ⟨0, 1, .ro, .any⟩]⟩,
  ⟨0x10001, 1, 0x1, 1, 1, .bits, 0x1, [⟨16, 4, .ro, .any⟩, ⟨7, 9, .ro, .any⟩, ⟨3, 4, .ro, .any⟩, ⟨2, 1, .ro, .any⟩, ⟨0, 2, .ro, .any⟩]⟩,
  ⟨0x10003, 1, 0x1, 1, 1, .bits, 0x100, [⟨8, 4, .ro, .any⟩, ⟨7, 1, .ro, .any⟩, ⟨6, 1, .ro, .any⟩, ⟨5, 1, .ro, .any⟩, ⟨4, 1, .ro, .any⟩, ⟨3, 1, .ro, .any⟩, ⟨2, 1, .ro, .any⟩, ⟨1, 1, .ro, .any⟩, ⟨0, 1, .ro, .any⟩]⟩,
  ⟨0x10004, 1, 0x1, 1, 1, .bits, 0x0, [⟨0, 16, .ro, .any⟩]⟩,
  ⟨0x10005, 1, 0x1, 1, 1, .bits, 0x100000, [⟨35, 1, .wo, .any⟩, ⟨0, 24, .rw, (.nat 1 16777215)⟩]⟩,
  ⟨0x10006, 1, 0x1, 1, 1, .bits, 0x0, [⟨18, 18, .rw, .any⟩, ⟨0, 18, .rw, .any⟩]⟩,
  ⟨0x10010, 1, 0x1, 1, 1, .bits, 0x0, [⟨4, 1, .w1c, .any⟩, ⟨3, 1, .w1c, .any⟩, ⟨2, 1, .w1c, .any⟩, ⟨1, 1, .w1c, .any⟩, ⟨0, 1, .w1c, .any⟩]⟩,
  ⟨0x10011, 1, 0x1, 1, 1, .bits, 0x0, [⟨0, 5, .rw, .any⟩]⟩]

/-- Rows of the UPD block. -/
def rowsUpd : List RegRow := [
  ⟨0x14000, 1, 0x1, 1, 1, .bits, 0x0, [⟨0, 1, .rw, .any⟩]⟩,
  ⟨0x14001, 1, 0x1, 1, 1, .bits, 0x0, [⟨33, 3, .ro, .any⟩, ⟨30, 3, .ro, .any⟩, ⟨28, 2, .ro, .any⟩, ⟨27, 1, .ro, .any⟩, ⟨26, 1, .ro, .any⟩, ⟨25, 1, .ro, .any⟩, ⟨24, 1, .ro, .any⟩, ⟨23, 1, .ro, .any⟩, ⟨22, 1, .ro, .any⟩, ⟨21, 1, .ro, .any⟩, ⟨8, 12, .ro, .any⟩]⟩,
  ⟨0x14002, 1, 0x1, 1, 1, .int, 0xa28, [⟨0, 36, .rw, (.nat 1800 3600)⟩]⟩,
  ⟨0x14003, 1, 0x1, 1, 1, .grain, 0x0, [⟨0, 36, .ro, .any⟩]⟩,
  ⟨0x14004, 1, 0x1, 1, 1, .grain, 0x0, [⟨0, 36, .ro, .any⟩]⟩,
  ⟨0x14005, 1, 0x1, 1, 1, .grain, 0x0, [⟨0, 36, .ro, .any⟩]⟩,
  ⟨0x14006, 1, 0x1, 1, 1, .bits, 0x0, [⟨0, 12, .rw, .any⟩]⟩,
  ⟨0x14008, 1, 0x1, 1, 1, .bits, 0x0, [⟨0, 36, .ro, .any⟩]⟩,
  ⟨0x14009, 1, 0x1, 1, 1, .bits, 0x3c00, [⟨16, 14, .ro, .any⟩, ⟨14, 2, .ro, .any⟩, ⟨10, 4, .ro, .any⟩, ⟨8, 2, .ro, .any⟩, ⟨0, 8, .ro, .any⟩]⟩,
  ⟨0x14010, 1, 0x1, 1, 1, .bits, 0x0, [⟨6, 1, .w1c, .any⟩, ⟨5, 1, .w1c, .any⟩, ⟨4, 1, .w1c, .any⟩, ⟨3, 1, .w1c, .any⟩, ⟨2, 1, .w1c, .any⟩, ⟨1, 1, .w1c, .any⟩, ⟨0, 1, .w1c, .any⟩]⟩,
  ⟨0x14011, 1, 0x1, 1, 1, .bits, 0x0, [⟨0, 7, .rw, .any⟩]⟩]

/-- Rows of the HOST block. -/
def rowsHost : List RegRow := [
  ⟨0x18000, 1, 0x1, 1, 1, .bits, 0x0, [⟨4, 1, .ro, .any⟩, ⟨3, 1, .ro, .any⟩, ⟨2, 1, .ro, .any⟩, ⟨1, 1, .ro, .any⟩, ⟨0, 1, .ro, .any⟩]⟩,
  ⟨0x18040, 4, 0x40, 16, 1, .int, 0x0, [⟨0, 36, .rw, .any⟩]⟩,
  ⟨0x18050, 4, 0x40, 1, 1, .bits, 0x0, [⟨12, 8, .wo, .any⟩, ⟨0, 8, .wo, .any⟩]⟩,
  ⟨0x18051, 4, 0x40, 1, 1, .bits, 0x0, [⟨16, 8, .ro, .any⟩, ⟨2, 1, .w1c, .any⟩, ⟨1, 1, .w1c, .any⟩, ⟨0, 1, .ro, .any⟩]⟩,
  ⟨0x18058, 4, 0x40, 8, 1, .int, 0x0, [⟨0, 36, .ro, .any⟩]⟩,
  ⟨0x18200, 1, 0x1, 1, 1, .bits, 0x0, [⟨5, 2, .ro, .any⟩, ⟨3, 2, .ro, .any⟩, ⟨2, 1, .ro, .any⟩, ⟨0, 1, .ro, .any⟩]⟩,
  ⟨0x18201, 1, 0x1, 1, 1, .bits, 0x0, [⟨0, 36, .rw, .any⟩]⟩,
  ⟨0x18202, 1, 0x1, 1, 1, .int, 0x0, [⟨0, 36, .wo, (.nat 2 31)⟩]⟩,
  ⟨0x18208, 4, 0x1, 1, 1, .bits, 0x0, [⟨28, 6, .rw, .any⟩, ⟨24, 4, .rw, .any⟩, ⟨0, 11, .rw, .any⟩]⟩,
  ⟨0x18210, 1, 0x1, 1, 1, .bits, 0x8, [⟨8, 1, .rw, .any⟩, ⟨0, 8, .rw, (.nat 8 32)⟩]⟩,
  ⟨0x18221, 1, 0x1, 1, 1, .bits, 0x0, [⟨17, 7, .ro, .any⟩, ⟨16, 1, .ro, .any⟩, ⟨15, 1, .ro, .any⟩, ⟨14, 1, .ro, .any⟩, ⟨13, 1, .ro, .any⟩, ⟨12, 1, .ro, .any⟩, ⟨10, 2, .ro, .any⟩, ⟨8, 2, .ro, .any⟩]⟩,
  ⟨0x18222, 1, 0x1, 1, 1, .int, 0x0, [⟨0, 36, .rw, (.nat 1342 1048575)⟩]⟩,
  ⟨0x18223, 1, 0x1, 1, 1, .int, 0x0, [⟨0, 36, .ro, .any⟩]⟩,
  ⟨0x18224, 1, 0x1, 1, 1, .bits, 0x0, [⟨0, 36, .ro, .any⟩]⟩,
  ⟨0x18225, 1, 0x1, 1, 1, .bits, 0x0, [⟨0, 36, .ro, .any⟩]⟩,
  ⟨0x18226, 1, 0x1, 1, 1, .bits, 0x0, [⟨18, 18, .rw, .any⟩, ⟨0, 18, .rw, .any⟩]⟩,
  ⟨0x18230, 1, 0x1, 1, 1, .bits, 0x0, [⟨6, 1, .w1c, .any⟩, ⟨5, 1, .w1c, .any⟩, ⟨4, 1, .w1c, .any⟩, ⟨3, 1, .w1c, .any⟩, ⟨2, 1, .w1c, .any⟩, ⟨1, 1, .w1c, .any⟩, ⟨0, 1, .w1c, .any⟩]⟩,
  ⟨0x18231, 1, 0x1, 1, 1, .bits, 0x0, [⟨0, 7, .rw, .any⟩]⟩]

/-- Rows of the PAD block. -/
def rowsPad : List RegRow := [
  ⟨0x1c000, 1, 0x1, 1, 1, .bits, 0x28, [⟨6, 1, .ro, .any⟩, ⟨0, 6, .ro, .any⟩]⟩,
  ⟨0x1c001, 1, 0x1, 1, 1, .bits, 0x0, [⟨0, 1, .wo, .any⟩]⟩,
  ⟨0x1c002, 1, 0x1, 1, 1, .bits, 0x1, [⟨1, 2, .ro, .any⟩, ⟨0, 1, .ro, .any⟩]⟩,
  ⟨0x1c008, 1, 0x1, 1, 1, .bits, 0x0, [⟨32, 4, .wo, (.nat 0 0)⟩, ⟨0, 32, .rw, .any⟩]⟩,
  ⟨0x1c009, 1, 0x1, 1, 1, .bits, 0x0, [⟨8, 28, .wo, (.nat 0 0)⟩, ⟨0, 8, .rw, .any⟩]⟩,
  ⟨0x1c00a, 1, 0x1, 1, 1, .bits, 0x0, [⟨32, 4, .wo, (.nat 0 0)⟩, ⟨0, 32, .rw, .any⟩]⟩,
  ⟨0x1c00b, 1, 0x1, 1, 1, .bits, 0x0, [⟨8, 28, .wo, (.nat 0 0)⟩, ⟨0, 8, .rw, .any⟩]⟩,
  ⟨0x1c00c, 1, 0x1, 1, 1, .bits, 0x0, [⟨0, 32, .ro, .any⟩]⟩,
  ⟨0x1c00d, 1, 0x1, 1, 1, .bits, 0x0, [⟨0, 8, .ro, .any⟩]⟩,
  ⟨0x1c00e, 1, 0x1, 1, 1, .bits, 0x0, [⟨32, 4, .wo, (.nat 0 0)⟩, ⟨0, 32, .wo, .any⟩]⟩,
  ⟨0x1c00f, 1, 0x1, 1, 1, .bits, 0x0, [⟨8, 28, .wo, (.nat 0 0)⟩, ⟨0, 8, .wo, .any⟩]⟩,
  ⟨0x1c010, 1, 0x1, 1, 1, .bits, 0x0, [⟨32, 4, .wo, (.nat 0 0)⟩, ⟨0, 32, .wo, .any⟩]⟩,
  ⟨0x1c011, 1, 0x1, 1, 1, .bits, 0x0, [⟨8, 28, .wo, (.nat 0 0)⟩, ⟨0, 8, .wo, .any⟩]⟩,
  ⟨0x1c020, 40, 0x1, 1, 1, .bits, 0x0, [⟨8, 8, .ro, .any⟩, ⟨4, 2, .rw, (.nat 0 2)⟩, ⟨2, 2, .ro, .any⟩, ⟨0, 2, .ro, .any⟩]⟩]

/-- The rows of the block that holds an address (R36). -/
def regRows (a : Nat) : List RegRow :=
  if a < 0x1000 then rowsSys else if a < 0x2000 then rowsPwr else if a < 0x3000 then rowsRtc
  else if a < 0x4000 then rowsTmr else if a < 0x5000 then rowsEvf else if a < 0x6000 then rowsChk
  else if a < 0x8000 then rowsMem else if a < 0xA000 then rowsRf else if a < 0xB000 then rowsLane
  else if a < 0xC000 then [] else if a < 0x10000 then rowsLink else if a < 0x14000 then rowsSec
  else if a < 0x18000 then rowsUpd else if a < 0x1C000 then rowsHost else if a < 0x20000 then rowsPad else []

/-- The register map row of an address; none for a reserved address (R38). -/
def regInfo (a : Nat) : Option RegRow := (regRows a).find? fun r => r.covers a

/-- The word a register holds at reset; a reserved address reads ABSENT (R38). -/
def regReset (a : Nat) : Word :=
  match regInfo a with
  | some r => .mk' r.tag r.reset
  | none => .absent

end Sys2Proof.Machine
end

