-- ==== Sys2Proof/Machine/State.lean ====
section
/-! DEFINITION. The state of the block, as plain data: every register of the register map, every memory, and what the
chapters say the hardware holds besides; the queue of commands waiting; the stops; and the state after reset. -/

namespace Sys2Proof.Machine

/-- The ROLE, MEMORY_PARTITION, SOCKET_MAP, TICKET_QUOTAS, PIN_MUX, LANE_PLAN and EVENT_WIRING records of a recipe. -/
structure LaneEntry where
  lane : Nat
  /-- 0 A, 1 B, 2 both (R266). -/
  chain : Nat
  /-- bit 0 MR-FSK, bit 1 MR-OFDM, bit 2 ZHR. -/
  families : Nat
  enable : Bool
  listen : Bool
  freq : Nat
  phy : Nat
  deriving DecidableEq, Repr

/-- The LANE_PLAN section (R266). -/
structure LanePlan where
  /-- 0 unused, 1 wide, 2 narrow. -/
  settingA : Nat
  settingB : Nat
  centreA : Nat
  centreB : Nat
  /-- bit n: lane n is a scheduler lane. -/
  schedLanes : Nat
  lanes : List LaneEntry
  deriving DecidableEq, Repr

/-- One logic cell record (R267). -/
structure CellRec where
  ins : List Nat
  lut : Nat
  enable : Bool
  ff : Bool
  filter : Nat
  deriving DecidableEq, Repr

/-- One route of the event wiring: a task input and a selector (R267). -/
structure Route where
  task : Nat
  sel : Nat
  deriving DecidableEq, Repr

/-- One window of the socket map (R264). -/
structure Window where
  type : Nat
  writeBuses : Nat
  readBuses : Nat
  deriving DecidableEq, Repr

/-- One PIN_MUX entry (R265). -/
structure PadEntry where
  pad : Nat
  fn : Nat
  held : Nat
  drive : Nat
  deriving DecidableEq, Repr

/-- One section of a recipe's section table: its type, length and SHA3-512 digest (R258). -/
structure SectionRec where
  type : Nat
  offset : Nat
  length : Nat
  digest : List Nat
  deriving DecidableEq, Repr

/-- A recipe as the loader reads it (R258 to R268). -/
structure Recipe where
  role : Nat
  rollback : Nat
  minRevision : Nat
  hostPath : Nat
  gangSize : Nat
  levels : Nat
  sleeps : Nat
  /-- the sixteen octets of ISLANDS, and the highest DDR rate. -/
  islands : List Nat
  ddrRate : Nat
  partners : Nat
  linkBanks : Nat
  userBanks : Nat
  endpointHome : Nat
  groups : Nat
  /-- RESERVE and LIMIT of classes 0 to 7. -/
  quotas : List (Nat × Nat)
  sysPorts : Nat
  windows : List Window
  paObs : Bool
  pads : List PadEntry
  plan : LanePlan
  cells : List CellRec
  routes : List Route
  sections : List SectionRec
  deriving DecidableEq, Repr

/-- State of the power controller that no register shows (chapter 15). -/
structure Pwr where
  /-- sequence number of the pending request (R336). -/
  pendingSeq : Nat
  /-- the active transition was forced by the thermal guard and has no sequence number (R340). -/
  activeForced : Bool
  /-- a forced transition to Evening waits ahead of any pending request (R340). -/
  forcedNext : Bool
  /-- consecutive junction samples at or above 125 °C, and below 115 °C. -/
  hot : Nat
  cool : Nat
  /-- wake sources latched, in the places of PWR_WAKE_STATUS (R342). -/
  latched : Nat
  /-- the performance level in force under Dusk (R340, R341). -/
  level : Nat
  /-- brown-out in force (R339), and whether it holds the device in reset (NO_BACKUP 1). -/
  brownout : Bool
  heldInReset : Bool
  /-- the tick edge at which the wake time starts the wake, chosen at entry completion (R345). -/
  wakeEdge : Option Nat
  /-- the tick edge at which the last sleep entry completes (R341). -/
  entered : Nat
  /-- the end of the active level transition (R337). -/
  doneAt : Option Nat
  /-- ticks each enabled wake pin entry has held its active level (R342). -/
  pinHeld : Store Nat
  /-- VSYS in millivolts, as last told. -/
  vsys : Nat
  /-- something has been in use in the present tick, so that the idle timer does not count it (R338). -/
  used : Bool
  deriving DecidableEq, Repr

/-- A SET or SHIFT waiting for its tick (R320). -/
inductive RtcPending
  | set
  | shift (fractions : Int)
  deriving DecidableEq, Repr

/-- State of the RTC island that no register shows (chapter 14). -/
structure Rtc where
  pending : Option RtcPending
  /-- a SNAP waits for the next tick (R317). -/
  snap : Bool
  /-- the tick of the pending command, and that of the SNAP, has come (R317, R320). -/
  cmdDue : Bool
  snapDue : Bool
  /-- the signed accumulator of R319, in 10^-9 ticks. -/
  acc : Int
  /-- ticks since the 32 s period began, 0 to 1,048,575. -/
  periodTick : Nat
  /-- a new 32 s period has begun and COMP_PERIOD is due. -/
  periodDue : Bool
  /-- an adjustment is due in this tick (R319); the one to come was lost to a SHIFT (R322, A1 erratum E5). -/
  adjDue : Bool
  adjLost : Bool
  /-- the adjustment made in the last 2 ticks, while a SHIFT would still lose it: 1 added, −1 dropped, 0 none. -/
  adjMade : Int
  /-- a SET or network set has taken effect in this tick, and overwrites its adjustment (R321). -/
  setNow : Bool
  /-- the last temperature measured on VSYS (R319). -/
  lastTemp : Int
  /-- the counter has reached the last fraction and one more tick would leave the range (R314). -/
  endDue : Bool
  /-- alarms that are due to fire, on time or skipped (R324, R325). -/
  alarmDue : List Nat
  alarmSkipped : List Nat
  /-- alarms armed at a time that had passed: they fall due, skipped, at the next tick (R324). -/
  alarmLate : List Nat
  /-- the domain runs from VBAT; the block is locked out (R328). -/
  onVbat : Bool
  lockout : Bool
  /-- a network set that waits for the next tick (R323): TIME, and the grain at which its frame's delimiter ended. -/
  net : Option (Nat × Nat)
  /-- a whole compensation period has begun since the last reset, so the next one yields RTC_REF_PPB (R317). -/
  refArmed : Bool
  deriving DecidableEq, Repr

/-- A source of the event fabric that has fired and awaits its tick: its number and its payload, or a block source
whose payload is taken from its status and enable registers at that tick (R277, R278). -/
structure Fired where
  source : Nat
  /-- none for a block source in the grain in which it fires. -/
  payload : Option Nat
  /-- the status bits whose setting fired it, as a mask. -/
  bits : Nat
  /-- the tick in which it takes part (R281, R290). -/
  due : Nat
  deriving DecidableEq, Repr

/-- State of a logic cell (R285). -/
structure CellState where
  /-- the output at the last tick. -/
  out : Bool
  /-- the filtered level. -/
  filt : Bool
  /-- v(t − 1) of a registered cell with no filter, and the filtered output one tick back (FF with a filter). -/
  last : Bool
  /-- the value of the last ticks and how many in a row, for the filter. -/
  run : Bool
  runLen : Nat
  deriving DecidableEq, Repr

/-- A gang event waiting for its delivery grain (R291). -/
structure GangEvent where
  line : Nat
  chip : Nat
  payload : Nat
  due : Nat
  late : Bool
  deriving DecidableEq, Repr

/-- What has been done to the timers in the present grain (R294). -/
structure TmrGrain where
  /-- whether a timer that a START or STOP has changed was running before the first of them. -/
  runWas : List (Nat × Bool)
  /-- timers with a STOP, a COUNT write or a SNAP; capture inputs that captured; timers with a channel that fired. -/
  stopped : List Nat
  counted : List Nat
  snapped : List Nat
  captured : List Nat
  matched : List Nat
  deriving DecidableEq, Repr

/-- State of the event fabric and timers that no register shows (chapter 12). -/
structure Fabric where
  fired : List Fired
  /-- mask registers written in the present grain, with what they held before (R284). -/
  maskWas : List (Nat × Nat)
  /-- write-one-to-clear bits set in the present cycle of their island, as register and bit: the grain, or for the power
  controller and the RTC the 32.768 kHz cycle (R278). -/
  justSet : List (Nat × Nat)
  /-- GPIO tasks triggered in the present tick (R289). -/
  gpioTasks : List Nat
  /-- check-unit tasks triggered in the present tick: the unit, and the action as TASK encodes it (R311). -/
  chkTasks : List (Nat × Nat)
  /-- one more than the grain of the last write of PAD_GPIO_CLR, and the pads cleared in that grain (R425). -/
  padCleared : Nat × Nat
  /-- writes of EVF_GANG_DELAY: their grains, and the delay until then (R292). -/
  delays : List (Nat × Nat)
  /-- one more than the grain at which a pad last changed, and at which a capture input was enabled (R301). -/
  padAt : Store Nat
  capAt : Store Nat
  tick : TmrGrain
  /-- the one pass of the present tick has been made (R276). -/
  passed : Bool
  cells : Store CellState
  gang : List GangEvent
  /-- one more than the grain of the last event each GANG_OUT accepted; 0 none (R280). -/
  gangLast : Store Nat
  /-- compare channels (4t + c) whose step brought the count to the compare value, and channels judged late (R296). -/
  onTime : List Nat
  /-- with the tick from which a late one fires. -/
  late : List (Nat × Nat)
  /-- timers that stepped from 2^36 − 1 to 0 (R294). -/
  wrapped : List Nat
  /-- timers started or stopped by TMR_GO or a RUN write, taking effect at the next grain (R295, R304), and the tasks and COUNT
  writes that came after the compares of their grain. -/
  goStart : List Nat
  goStop : List Nat
  goClear : List Nat
  goCount : List (Nat × Payload)
  deriving DecidableEq, Repr

/-- State of a check unit that no register shows (chapter 13). -/
structure ChkUnit where
  /-- the stream in progress is not joined: folding starts at the next frame (R308). -/
  waitFrame : Bool
  /-- the carrier whose TX frame is being folded, if any (R308). -/
  txCarrier : Option Nat
  /-- octets of the framed stream's present frame that have reached the unit, as far as it has folded them (R308). -/
  seen : Nat
  /-- the stream has overflowed (R309). -/
  dropped : Bool
  /-- the grain of the last end (R311). -/
  endedAt : Option Nat
  deriving DecidableEq, Repr

/-- One core event input (R231): the EVENT word it holds, and how many events it has gathered. -/
structure EvInput where
  word : Word
  count : Nat
  deriving DecidableEq, Repr

/-- The kinds of core memory access (R222). -/
inductive LsuKind
  | ld | ld2 | st | st2 | aadd | swap
  deriving DecidableEq, Repr

/-- A core memory access issued and not yet completed (R223). -/
structure LsuAccess where
  window : Nat
  kind : LsuKind
  ptr : Nat
  data : Word
  data2 : Word
  /-- places of its results in its unit's queue. -/
  slots : Nat
  deriving DecidableEq, Repr

/-- A unit result on its way to its result port (R212). -/
structure InFlight where
  left : Nat
  port : Nat
  word : Word
  deriving DecidableEq, Repr

/-- A stalled bundle (R214): its slots as fetched, the words its moves have read, none for a result still awaited, and what
those reads take when it commits: of event inputs how many events, and of a chained count what a reader's shadow holds.
DEDUCED: log entry 85. -/
structure Stall where
  slots : List Nat
  words : List (Option Word)
  taken : List (Nat × Nat)
  latched : List (Nat × Word)
  deriving DecidableEq, Repr

/-- State of the Phoza core (chapter 09). -/
structure Core where
  /-- firmware has been started and not stopped. -/
  running : Bool
  pc : Nat
  /-- CUR, 0 to 4 (R232). -/
  cur : Nat
  /-- g7–g1 in bits 7:1. -/
  guards : Nat
  /-- delay bundles still to run before the pending transfer, whether it is an EV_RETI, and its target (R225, R233). -/
  delayLeft : Nat
  transfer : Bool
  delayIsReti : Bool
  brTarget : Nat
  /-- RPT_GO's latched count and base, to take effect at the next bundle (R226). -/
  rptGo : Option (Nat × Int)
  rptLeft : Nat
  rptIndex : Int
  /-- stopped in CORE_WAIT, and the grain of its time-out (R235). -/
  waiting : Bool
  waitUntil : Option Nat
  /-- paused for activation (R237). -/
  paused : Bool
  startCause : Nat
  trapCause2 : Nat
  /-- core ports that hold a word: registers, operand and result ports, control ports, ticket ports. -/
  ports : Store Word
  inputs : Store EvInput
  inflight : List InFlight
  /-- each LSU's result queue, oldest first; none for an access still outstanding (R223). -/
  results : Store (List (Option Word))
  accesses : List LsuAccess
  /-- a bundle that is stalled (R214). -/
  stalled : Option Stall
  /-- instruction memory slots, 40 bits each, by physical bank × 0x4_0000 + 4b + s (R236). -/
  im : Store Nat
  bank : Nat
  /-- the shadow holds a complete, verified image (R238). -/
  shadowValid : Bool
  deriving DecidableEq, Repr

/-- A sweep under way (R185). -/
structure Sweep where
  /-- the next endpoint, records left, matches, poisoned records, handles listed. -/
  next : Nat
  left : Nat
  matched : Nat
  poisoned : Nat
  listed : Nat
  /-- the list buffer filled. -/
  full : Bool
  deriving DecidableEq, Repr

/-- A ticket held (R245, R249): launched and not yet posted. -/
structure Ticket where
  number : Nat
  cls : Nat
  gen : Nat
  code : Nat
  args : List Word
  /-- 1 QUEUED, 2 RUNNING, 3 DONE (R249). -/
  state : Nat
  steps : Nat
  /-- the result word, once DONE. -/
  result : Word
  /-- the grain at which the operation finished. -/
  doneAt : Nat
  /-- the privilege it was launched with. -/
  priv : Bool
  /-- octets done of a stepped write, and the progress of a SWEEP. -/
  prog : Nat
  sweep : Option Sweep
  /-- a DONE ticket that found no ring room has counted its stall (R251). -/
  stalled : Bool
  /-- the grain at which its DRAM transactions end, and how many, while it holds any (R177, R248). -/
  dram : Option (Nat × Nat)
  deriving DecidableEq, Repr

/-- State of the ticket unit and of the engines (chapter 10). -/
structure Tickets where
  /-- tickets held, in launch order. -/
  held : List Ticket
  /-- the present generation of each ticket number. -/
  gens : Store Nat
  /-- per engine: the last boundary was taken by a single-step operation (R256). -/
  yielded : Store Bool
  /-- operations left in other islands by a restart of the CORE island: they run to their end and post nothing (R253). -/
  orphans : List Ticket
  /-- the master keys an operation of several steps found when it started (R197), by ticket number, or 512 more than a host
  path. -/
  keys : Store (Store (List Nat))
  deriving DecidableEq, Repr

/-- A mirror forward waiting to leave (R186): the handle and the codewords it carries, by word number. -/
structure Forward where
  handle : Nat
  words : List (Nat × Word)
  deriving DecidableEq, Repr

/-- What one port of the dual-port banks did in a grain (R166): the codewords it read, and the words it wrote with what
they replaced, newest first. -/
structure PortUse where
  at_ : Nat
  reads : List Nat
  /-- written words: address, old word, new word. -/
  writes : List (Nat × Word × Word)
  deriving DecidableEq, Repr

/-- A segment under test (R170): its index, whether it fails, its phase (1 COPY, 2 TEST, 3 COPY_BACK) and how far that has
come: codewords copied out or back, or codeword operations of the test. -/
structure MarchRun where
  segment : Nat
  fails : Bool
  phase : Nat
  done_ : Nat
  deriving DecidableEq, Repr

/-- The memories (chapter 07). -/
structure Mems where
  /-- words of spaces 0, 1, 2, 3 and 6 by PTR payload; a word not listed reads INT 0. -/
  words : Store Word
  /-- codewords with erroneous bytes, by even address: what was added to their thirteen bytes (R163, R164). -/
  flaws : Store (List Nat)
  /-- MRAM, 32 bits by byte address ÷ 4; a word not listed reads 0. -/
  mram : Store Nat
  /-- MRAM lines with erroneous bits, by byte address ÷ 32: how many (R180). -/
  mramFlaws : Store Nat
  /-- next scrub of each memory: grain and position within its banks (R168), by space. -/
  scrubDue : Store Nat
  scrubPos : Store Nat
  /-- next segment of the march test, data SRAM first (R170), and when. -/
  march : Nat
  marchDue : Nat
  /-- the segment under test, with its phase (R170). -/
  marchRun : Option MarchRun
  /-- segments recorded as retired in the MRAM (R171). -/
  retired : List Nat
  /-- segments redirected to a spare for good, since boot step S8 restored them (R171), and banks found exhausted. -/
  redirected : List Nat
  exhausted : List Nat
  forwards : List Forward
  /-- the last uses of port A by the core, the ticket engines and the host, and of port B by the link controller (R166). -/
  portA : Option PortUse
  portB : Option PortUse
  /-- RF calibration records stored by SAVE since final test (R71). -/
  calRecords : Nat
  /-- DRAM in run-time training (R175). -/
  training : Bool
  /-- the installed size of DRAM as last read at training: 0 none so far, 1 512 MiB, 2 1 GiB, 3 2 GiB (R174, R182). -/
  dramSize : Nat
  /-- the last training failed at every rate, or S11 was skipped, so the endpoint table is in table SRAM only: a restart of
  the DDR island leaves it so until a training succeeds (R175, R182). -/
  ddrFailed : Bool
  /-- the grain at which the fill of DRAM began, while it runs, and the even addresses written since (R176). -/
  ddrFillAt : Option Nat
  ddrWritten : List Nat
  /-- the DRAM contents survived in self-refresh (R178). -/
  ddrKept : Bool
  /-- the grain at which DDR_PWR_EN last rose, while it is high (R413). -/
  ddrPower : Option Nat
  deriving DecidableEq, Repr
/-- The secrets and measurements of the security engine, and the MRAM key area (chapter 08). -/
structure Sec where
  /-- key cells that hold a key, 32 octets each (R197). -/
  cells : Store (List Nat)
  /-- the unsealed master keys, by slot. -/
  nmk : Store (List Nat)
  /-- the ML-KEM decapsulation key held. -/
  kem : Option (List Nat)
  /-- M0 to M7, 64 octets each; a register not listed is zero (R204). -/
  meas : Store (List Nat)
  /-- draws taken from the DRBG, and generate requests since the last reseed (R206). -/
  draws : Nat
  requests : Nat
  /-- the not-after of the debug unlock in force; 0 for none stated (R203). -/
  unlock : Option Nat
  /-- key area: sealed master keys, newest copy first, by slot (R199). -/
  sealed : Store (List (List Nat))
  /-- key area: the owner lock in force, with its not-after (R202). -/
  lock : Option Nat
  /-- key area: the highest token counter accepted (R201). -/
  tokenCounter : Nat
  /-- the seed the identity key pair was generated from at this start; none before (R193). -/
  idSeed : Option (List Nat)
  /-- fuses burned by the command being executed, as row and mask; empty between commands. -/
  burns : List (Nat × Nat)
  /-- the startup health tests run again: the grain at which they end, and whether they pass (R206). -/
  testing : Option (Nat × Bool)
  deriving DecidableEq, Repr
/-- A synthesizer (R49): an armed retune, the retune in progress, and when it settles. -/
structure Synth where
  armed : Option Nat
  target : Nat
  lockAt : Option Nat
  /-- a receive calibration holds the chain's samples at zero until this grain (R72). -/
  calUntil : Option Nat
  /-- grain of the last analog gain step (R53, R54). -/
  lastStep : Option Nat
  deriving DecidableEq, Repr

/-- A lane report (R102). -/
structure LaneReport where
  rssi : Int
  evm : Int
  lqi : Int
  offset : Int
  drift : Int
  gainEvent : Bool
  spur : Bool
  deriving DecidableEq, Repr

/-- A ring slot held (R131, R132): its ring, its number modulo 2^16, its payload words from an offset in the payload
area, whether its descriptor is complete, and whether its ACK is final. -/
structure Slot where
  ring : Nat
  number : Nat
  off : Nat
  words : Nat
  published : Bool
  final : Bool
  deriving DecidableEq, Repr

/-- A frame from its preamble detection to its verdict (R85, R86, R106, R107). -/
structure Frame where
  id : Nat
  lane : Nat
  /-- 0 chain A, 1 chain B, 2 combined. -/
  chain : Nat
  freq : Nat
  /-- mode word; the mode as received from the delimiter on. -/
  phy : Nat
  detectAt : Nat
  /-- end of the delimiter or of the long training field; none while the lane is in DETECT. -/
  startAt : Option Nat
  length : Nat
  /-- octets on air, the pad octet included, and the scrambler seed or whitening bit (R90, R91, R95). -/
  onAir : Nat
  seed : Nat
  /-- in-channel power at its preamble, quarter-dBm; carrier offset, Hz, and symbol-clock offset, ppb, as acquired on the
  preamble and tracked since (R97). -/
  power : Int
  offset : Int
  clock : Int
  /-- the FCS type its PHY header states: 2-octet. -/
  fcs2 : Bool
  /-- PSDU octets as received, FCS included, pad octet excluded. -/
  psdu : List Nat
  /-- the first PSDU byte has reached the link controller, and was taken by it. -/
  started : Bool
  taken : Bool
  /-- received on a TSCH link: the ASN of its timeslot, the start expected, whether the link is TIMEKEEPING. -/
  tsch : Option (Nat × Nat × Bool)
  /-- the lookup has been made, the handle it found and the entry then. -/
  looked : Bool
  handle : Option Nat
  entry : List Word
  /-- the slot reserved: its ring and number are fixed at delivery. -/
  slot : Option Slot
  triedRing : Option Nat
  /-- an ADC sample at full scale, and the worst noise-figure rise of a step down, quarter-dB (R56). -/
  clipped : Bool
  stepped : Option Nat
  endAt : Option Nat
  abandoned : Bool
  /-- the trellis fault of R101 spoiled it: its FCS fails. -/
  faulted : Bool
  /-- its chain gave zero samples while it sought its delimiter, which it can no longer find (R80). -/
  blind : Bool
  report : Option LaneReport
  deriving DecidableEq, Repr

/-- State of a lane that no register shows (R77, R79, R274). -/
structure LaneSt where
  /-- the present channel and mode. -/
  freq : Nat
  phy : Nat
  /-- the armed switch; it waits for the end of the frame (SWITCH_LATE). -/
  switchAt : Option Nat
  late : Bool
  /-- the end of SWITCHING, and whether SWITCH_DONE follows. -/
  until_ : Option Nat
  done_ : Bool
  /-- the partner whose reservation holds the lane (R147). -/
  owner : Option Nat
  /-- the re-mash: the lane waits to become QUIESCED until a grain, or is QUIESCED until one (R274). -/
  quiesce : Option Nat
  hold : Option Nat
  /-- the diversity condition held when last judged (R81). -/
  combined : Bool
  /-- the digital AGC of each chain's part, while frozen: the in-channel power, quarter-dBm, that its gain brings to −21 dBFS
  (R83). -/
  agcA : Option Int
  agcB : Option Int
  /-- the recipe's ENABLE waits for the chain to lock (R266). -/
  awaitLock : Bool
  deriving DecidableEq, Repr

/-- A tone of a symbol: its index and (re + j·im)/√norm (R94). -/
structure Tone where
  index : Int
  re : Int
  im : Int
  norm : Nat
  deriving DecidableEq, Repr

/-- A symbol on air: that of a keyed carrier by its bits, or the tones of a multi-tone symbol. -/
inductive AirSymbol
  | level (bits : Nat)
  | tones (ts : List Tone)
  deriving DecidableEq, Repr

/-- The kinds of carrier (R120, R121). -/
inductive CarrierKind
  | ack | fwAck | at | csma | tsch | psched | page | grant | beacon | training
  deriving DecidableEq, Repr

/-- A carrier committed or on air (R60, R120). -/
structure Carrier where
  id : Nat
  kind : CarrierKind
  commit : Nat
  ramp : Nat
  first : Nat
  /-- the end of the ramp down. -/
  last : Nat
  freq : Nat
  phy : Nat
  /-- dB below the per-carrier level (R124). -/
  powerDb : Nat
  lane : Nat
  priority : Nat
  ticket : Nat
  handle : Option Nat
  onAir : Bool
  /-- cut short because the transmit chain became unavailable (R428). -/
  cut : Bool
  /-- octets on air, FCS included. -/
  octets : List Nat
  /-- the symbols it sends (R90, R91, R94, R155). -/
  wave : List AirSymbol
  /-- at the end of its last symbol: whether a lane was IDLE on its channel and family (R128). -/
  heard : Option Bool
  deriving DecidableEq, Repr

/-- Air time charged to a budget (R122): the budget (0 to 255 a channel, 256 and on a sub-band), the ramp start, the air
time, the carrier. -/
structure Charge where
  key : Nat
  at_ : Nat
  air : Nat
  id : Nat
  deriving DecidableEq, Repr

/-- A hardware ACK owed (R114 to R116, R132, R148): its carrier, the slot whose word 0 it rewrites, and what the
partner's record needs of the frame. -/
structure AckRec where
  carrier : Nat
  lane : Nat
  addr : Option Nat
  ring : Nat
  number : Nat
  word0 : Nat
  handle : Option Nat
  accepted : Bool
  start : Nat
  freq : Nat
  drift : Int
  tc : Option Int
  phy : Nat
  frameEnd : Nat
  /-- security level, key identifier mode and index of the frame when it was a resync request (R153). -/
  resync : Option (Nat × Nat × Nat)
  /-- the ACK_CAUSE of its loss, until the descriptor is complete. -/
  lost : Option Nat
  /-- the frame's counter, and whether the ACK carries Frame Pending. -/
  fc : Nat
  pending : Bool
  /-- the grain at which the frame's descriptor is complete (R106, R132). -/
  shown : Nat
  deriving DecidableEq, Repr

/-- Where a transmit request stands (R124 to R128, R145). -/
inductive TxPhase
  | queued | backoff | committed | awaiting
  deriving DecidableEq, Repr

/-- A transmit request in the link controller (R124). -/
structure TxJob where
  ticket : Nat
  block : Nat
  kind : Nat
  freq : Nat
  phy : Nat
  /-- octets on air. -/
  octets : List Nat
  ar : Bool
  seq : Option Nat
  /-- destination addressing mode and address. -/
  dst : Nat × Nat
  handle : Option Nat
  powerDb : Nat
  fcs2 : Bool
  phase : TxPhase
  carrier : Nat
  attempts : Nat
  retries : Nat
  nb : Nat
  be : Nat
  /-- the end of the CCA, or of the ACK wait. -/
  due : Nat
  /-- the planned first-symbol grain, and that of the last attempt. -/
  plan : Option Nat
  first : Option Nat
  /-- key, level and header length of a frame secured only when it is sent: its counter is suppressed. -/
  sec : Option (List Nat × Nat × Nat)
  /-- the TSCH link it is sent on is shared, and TIMEKEEPING. -/
  shared : Bool
  keep : Bool
  /-- the rendezvous number used, for KIND 3 of a ROLE 1 record. -/
  rdv : Option Nat
  /-- the ASN of the timeslot that serves it (R129). -/
  asn : Option Nat
  /-- withdrawn by a CORE restart: it finishes what is committed and posts nothing (R253). -/
  dead : Bool
  deriving DecidableEq, Repr

/-- A rendezvous window reserved (R146, R147). -/
structure RdvWindow where
  /-- 0 a rendezvous listened for, 1 a lane for our own frame's ACK, 2 a wait for a resync request. -/
  kind : Nat
  handle : Nat
  n : Nat
  lane : Nat
  at_ : Nat
  half : Nat
  freq : Nat
  closed : Bool
  heard : Bool
  /-- the exchange after the window lasts until this grain. -/
  until_ : Nat
  deriving DecidableEq, Repr

/-- A partner operation in progress (R139, R140); the ticket of a PARTNER_KEY that issued it. -/
structure PartnerOp where
  op : Nat
  handle : Nat
  /-- entry words for PARTNER_KEY, in place of the stage. -/
  entry : Option (List Word)
  ticket : Option Nat
  deriving DecidableEq, Repr

/-- The page on air or waiting for its request (R154). -/
structure PageSt where
  handle : Nat
  carrier : Nat
  /-- end of the page once known, and end of the resync wait. -/
  waitUntil : Option Nat
  /-- a request came while the page was on air: the attempt has succeeded. -/
  answered : Bool
  deriving DecidableEq, Repr

/-- A resync exchange (R153): the partner, the grain at which its grant may go, its carrier once committed, its M and
its delimiter end, and the frame counter it took. -/
structure Resync where
  handle : Nat
  phy : Nat
  freq : Nat
  goAt : Nat
  carrier : Option Nat
  m : Nat
  mark : Nat
  seq : Nat
  level : Nat
  kidMode : Nat
  keyIndex : Nat
  /-- the end of the wait for its acknowledgement. -/
  waitUntil : Option Nat
  deriving DecidableEq, Repr

/-- A downlink owed after a rendezvous frame (R149). -/
structure Downlink where
  handle : Nat
  freq : Nat
  goAt : Nat
  limit : Nat
  deriving DecidableEq, Repr

/-- State of the radio, lanes, link controller and partner scheduler that no register shows (chapters 03 to 06). -/
structure Radio where
  /-- synthesizers of chain A, chain B and the transmitter. -/
  synths : Store Synth
  /-- the effective CARRIER_MAX, PA_SELECT and TOTAL_QDBM (R61). -/
  effMax : Nat
  effPa : Nat
  effTotal : Int
  /-- words of the coefficient store, by 24 × set + word (R70). -/
  dpd : Store Word
  /-- the temperature bin, once a first measurement set it (R64). -/
  tempBin : Option Nat
  /-- the captured candidate: solving until, and accepted and waiting for its grain (R66, R67). -/
  solveSet : Option Nat
  solveTemp : Int
  swapSet : Option Nat
  /-- the training burst in progress: its set and end (R68); the calibration target and end (R72). -/
  burst : Option (Nat × Nat)
  cal : Option (Nat × Nat)
  /-- the calibration in force, as a record of the settings store holds it (R71). -/
  calNow : List Nat
  /-- ramp starts of the last 4096 gr (R67). -/
  ramps : List Nat
  lanes : Store LaneSt
  frames : List Frame
  nextId : Nat
  carriers : List Carrier
  /-- chain B has a retune to make at the next tick since FOLLOW rose (R48). -/
  followDue : Bool
  /-- the carrier that an automatic retune is for (R58). -/
  autoFor : Option Nat
  /-- carriers that lost in this grain, until its one contest is decided, with the cause if they stay lost (R120). -/
  losing : List (Carrier × Nat)
  charges : List Charge
  acks : List AckRec
  jobs : List TxJob
  slots : List Slot
  /-- partner operation, pending schedule records, windows, the last rendezvous reserved or skipped, by handle. -/
  op : Option PartnerOp
  pendingRecs : Store (List Word)
  windows : List RdvWindow
  /-- per partner, one more than the number of the last rendezvous dealt with since its record was written; 0 none. -/
  lastRdv : Store Nat
  /-- the page queue: partner and failed attempts; the page in flight; the earliest next page. -/
  pages : List (Nat × Nat)
  page : Option PageSt
  pageNext : Nat
  resyncs : List Resync
  downlinks : List Downlink
  /-- TSCH: the start of the next timeslot; backoff windows per partner key; channel and grain of an RX timeslot. -/
  tschNext : Option Nat
  /-- a timeslot has started: the ASN is that of the timeslot that runs. -/
  tschIn : Bool
  /-- words of the link table before writes of the last 4096 gr: address, word, grain of the write. -/
  tschOld : List (Nat × Word × Nat)
  tschBackoff : Store Nat
  tschExp : Store Nat
  /-- the timeslot being listened to: lane, ASN, expected arrival, TIMEKEEPING link, end of the wait. -/
  tschRx : Option (Nat × Nat × Nat × Bool × Nat)
  /-- the lane that awaits the acknowledgement of what a timeslot sends (R129). -/
  tschAck : Option Nat
  /-- the wake-up receiver's hold-off end (R158). -/
  wurHold : Option Nat
  /-- counters of resync requests whose ACK was not sent, one more, by handle (R153). -/
  asked : Store Nat
  deriving DecidableEq, Repr
/-- The state record (R356). -/
structure SlotRec where
  seq : Nat
  /-- states of slots A and B: 0 EMPTY, 1 WRITING, 2 STAGED, 3 TRIAL, 4 CONFIRMED. -/
  a : Nat
  b : Nat
  /-- 0 none, 1 radio, 2 host. -/
  owner : Nat
  area : Nat
  burnPending : Bool
  restartTrial : Bool
  recoveryOpen : Bool
  countPending : Bool
  burnTarget : Nat
  length : Nat
  window : Nat
  alt : Nat
  fails : Nat
  deriving DecidableEq, Repr

/-- An accepted UPD_ACTIVATE_AT (R369): who gave it, its activation grain (none for QUIET 1), and the end of the wait for
a quiet gap. -/
structure Activation where
  via : Via
  at_ : Option Nat
  limit : Nat
  /-- it posts its completion: 0 where a restart of the CORE island has discarded its ticket (R253). -/
  posts : Bool
  deriving DecidableEq, Repr

/-- State of start-up, update and recovery that no register shows (chapter 16). -/
structure Upd where
  /-- the copy of the state record in force, once read at S4. -/
  record : Option SlotRec
  /-- slot started: 0 A, 1 B. -/
  slot : Nat
  armed : Option Activation
  /-- end of the trial, as long time. -/
  trialEnd : Nat
  /-- the settings area being released and the octets done (R374). -/
  release : Option (Nat × Nat)
  /-- path that owns the recovery session (R376). -/
  session : Option Nat
  /-- failed starts counted while no state record could be read. -/
  aonFails : Nat
  /-- step codes of the start, two bits a step, and the sequence number of the last start record (R357). -/
  codes : Nat
  startSeq : Nat
  /-- the step that failed the last failed start, 15 for none (R380). -/
  failed : Nat
  /-- the trial firmware reported SETTINGS_UNREADABLE (R372, R373). -/
  unreadable : Bool
  /-- an accepted UPD_GERMINATE is under way: 1 in mode 0, where it writes the shadow, 2 in mode 1; else 0 (R368). -/
  germinating : Nat
  /-- octets of the confirmed slot's instruction section read so far where a fallback reloads the shadow (R375). -/
  reload : Option Nat
  /-- a Kiln has committed its record and has yet to burn the counter and release this settings area (R374). -/
  kiln : Option Nat
  deriving DecidableEq, Repr

/-- A mailbox (R382, R383): the command it runs, its arguments as taken, when its MBX_GO landed, the octets or steps done,
and the words of its reply once it has ended: MBX_REPLY0, then MBX_REPLY2 on. -/
structure Mbx where
  busy : Bool
  code : Nat
  seq : Nat
  args : List Word
  at_ : Nat
  steps : Nat
  prog : Nat
  result : Option (List Word)
  deriving DecidableEq, Repr

/-- A chain frame (R398, R399). -/
structure ChainFrame where
  type : Nat
  bcast : Bool
  dst : Nat
  src : Nat
  hops : Nat
  seq : Nat
  op : Nat
  words : List Word
  /-- it travels backward, out of CHAIN0 (R402). -/
  back : Bool
  /-- it is this chip's own, not one that passes through (R400). -/
  own : Bool
  deriving DecidableEq, Repr

/-- A frame on a link: the port it left by, 0 for CHAIN0 and its backward lane, 1 for CHAIN1 and its forward lane, and its octets
between K27.7 and K29.7, the CRC-32 last (R398, R402). -/
structure LinkFrame where
  port : Nat
  octets : List Nat
  deriving DecidableEq, Repr

/-- A remote read waiting for its response (R392): the chip asked, how many words, and the end of the wait. -/
structure Remote where
  chip : Nat
  count : Nat
  due : Nat
  deriving DecidableEq, Repr

/-- State of the chain and of gang time that no register shows (chapter 17). -/
structure Gang where
  /-- next SEQ of this chip's frames. -/
  seq : Nat
  /-- broadcasts acted on: source and SEQ (R400). -/
  seen : List (Nat × Nat)
  /-- frames that wait for a port, as they came (R400). -/
  waiting : List ChainFrame
  /-- frames that left in the last tick, in order. -/
  sent : List LinkFrame
  /-- grain at which each chip's STATUS was last heard, one more. -/
  heard : Store Nat
  remote : List Remote
  /-- a break occurred since ACCEPT was last set (R406). -/
  breakSeen : Bool
  /-- offset still to slew, 1/16 gr, and the grain of the last slew step (R405). -/
  slew : Int
  slewAt : Nat
  /-- measured delay of the lanes that lead in, 1/16 gr: CHAIN0, CHAIN1. -/
  delay0 : Nat
  delay1 : Nat
  /-- this chip holds a number. -/
  numbered : Bool
  /-- next ENUM, TIME and STATUS to send, and the next retraining of each port. -/
  enumAt : Option Nat
  timeAt : Nat
  statusAt : Nat
  retrainAt : Store Nat
  /-- the breaks this chip knows of: the chip, and the port that saw it, true for CHAIN1 (R402, R403). -/
  breaks : List (Nat × Bool)
  /-- GANG_TAKEOVER: the next handle to copy and the end of its range (R406). -/
  takeover : Option (Nat × Nat)
  /-- the paths on which GANG_ENUMERATE waits for its frame. -/
  enumPaths : List Nat
  deriving DecidableEq, Repr

/-- A re-mash in progress (R272 to R275). -/
structure Remash where
  path : Nat
  recipe : Recipe
  wait : Nat
  /-- lanes still to process, in ascending order, and lanes held QUIESCED under rule 6 or for their chain. -/
  todo : List Nat
  held : List Nat
  /-- the changed chains that have taken their new setting. -/
  took : List Nat
  count : Nat
  deriving DecidableEq, Repr

/-- The UART0 receiver (R395): the bytes of the frame being received, none while hunting, and the grain of the last. -/
structure Uart where
  bytes : Option (List Nat)
  at_ : Nat
  deriving DecidableEq, Repr

/-- Everything the chip holds but its OTP fuses and its command queue. -/
structure Chip where
  /-- device long time, 72 bits (R344). -/
  now : Nat
  /-- how many free values have been taken (the model's own; see Config.freeNat). -/
  free : Nat
  /-- the words the last reading command returned, and the frames or replies sent (the model's own output latch). -/
  out : List Word
  islands : Store IslandState
  /-- every register of space 5, by address; a register not listed holds its reset word. -/
  regs : Store Word
  /-- registers latched in a reader's shadow, by reader × 2^20 + address (R300, R316). -/
  shadows : Store Word
  /-- external pin levels: GPIO p at p; the dedicated pins above them. -/
  pins : Store Nat
  pwr : Pwr
  rtc : Rtc
  fab : Fabric
  chk : Store ChkUnit
  core : Core
  tk : Tickets
  mems : Mems
  radio : Radio
  sec : Sec
  upd : Upd
  mbx : Store Mbx
  gang : Gang
  remash : Option Remash
  uart : Uart
  /-- boundary scan holds the pads (R349); PAD_STATUS is kept beneath it. -/
  scan : Bool
  /-- LAST_REJECT of the quad SPI status byte (R394). -/
  qspiReject : Bool
  /-- MSI-X vectors signalled since the last tick began (R383, R391). -/
  msix : List Nat
  recipe : Option Recipe
  /-- the digest list and lane section kept by AON for wakes (R271). -/
  kept : Option Recipe
  deriving DecidableEq, Repr

/-- The whole machine: the chip, its fuses, and the commands that wait, first in, first out. -/
structure State where
  chip : Chip
  /-- OTP rows that hold a burned bit, by row number (R188). -/
  otp : Store Nat
  pending : List Instr
  deriving DecidableEq, Repr

/-- The stops that are faults. -/
inductive Fault
  /-- Raised by RESET_N on a pulse of at least 100 ns and below 1 µs: R414 does not define the outcome. Safe: the
  model stops where the hardware does one thing or another. -/
  | resetPulseUndefined
  deriving DecidableEq, Repr

/-- The stops that are refusals. -/
inductive Refusal
  /-- Raised by exec on a command whose meaning is not modelled. Safe. -/
  | notModelled (mnemonic : String)
  deriving DecidableEq, Repr

/-- The power controller after reset. -/
def Pwr.reset : Pwr :=
  { pendingSeq := 0, activeForced := false, forcedNext := false, hot := 0, cool := 0, latched := 0, level := 2,
    brownout := false, heldInReset := false, wakeEdge := none, entered := 0,
    doneAt := none, pinHeld := [], vsys := 0, used := false }

/-- The RTC domain after its loss (R329). -/
def Rtc.reset : Rtc :=
  { pending := none, snap := false, cmdDue := false, snapDue := false, acc := 0, periodTick := 0, periodDue := true, adjDue := false, adjLost := false,
    adjMade := 0, setNow := false, lastTemp := 25, endDue := false, alarmDue := [], alarmSkipped := [], alarmLate := [], onVbat := false, lockout := false,
    net := none, refArmed := false }

/-- A grain in which nothing has been done to the timers. -/
def TmrGrain.none_ : TmrGrain := { runWas := [], stopped := [], counted := [], snapped := [], captured := [], matched := [] }

/-- The event fabric after reset. -/
def Fabric.reset : Fabric :=
  { fired := [], passed := false, maskWas := [], justSet := [], gpioTasks := [], chkTasks := [], padCleared := (0, 0), delays := [], padAt := [], capAt := [],
    tick := .none_, cells := [], gang := [], gangLast := [], onTime := [], late := [], wrapped := [], goStart := [], goStop := [],
    goClear := [], goCount := [] }

/-- The core after reset: no firmware started. -/
def Core.reset : Core :=
  { running := false, pc := 0, cur := 0, guards := 0, delayLeft := 0, transfer := false, delayIsReti := false,
    brTarget := 0, rptGo := none, rptLeft := 0, rptIndex := 0, waiting := false, waitUntil := none, paused := false,
    startCause := 0, trapCause2 := 0, ports := [], inputs := [], inflight := [], results := [], accesses := [], stalled := none,
    im := [], bank := 0, shadowValid := false }

/-- The ticket unit after reset. -/
def Tickets.reset : Tickets := { held := [], gens := [], yielded := [], orphans := [], keys := [] }

/-- The memories at power-on: nothing listed. DESIGN CHOICE: log entry 11. -/
def Mems.reset : Mems :=
  { words := [], flaws := [], mram := [], mramFlaws := [], scrubDue := [], scrubPos := [], march := 0, marchDue := 0,
    marchRun := none, retired := [], redirected := [], exhausted := [], forwards := [], portA := none, portB := none,
    calRecords := 0, training := false, dramSize := 0, ddrFailed := false, ddrFillAt := none, ddrWritten := [],
    ddrKept := false, ddrPower := none }

/-- The radio and link controller after reset. -/
def Radio.reset : Radio :=
  { synths := [], effMax := 1, effPa := 0, effTotal := 80, dpd := [], tempBin := none, solveSet := none, solveTemp := 0,
    swapSet := none, burst := none, cal := none, ramps := [], lanes := [], frames := [], nextId := 0, carriers := [], autoFor := none,
    losing := [], calNow := [], followDue := false, tschAck := none,
    charges := [], acks := [], jobs := [], slots := [], op := none, pendingRecs := [], windows := [], lastRdv := [],
    pages := [], page := none, pageNext := 0, resyncs := [], downlinks := [], tschNext := none, tschIn := false,
    tschOld := [], tschBackoff := [],
    tschExp := [], tschRx := none, wurHold := none, asked := [] }

/-- The security engine at power-on. DEDUCED: log entry 71. -/
def Sec.reset : Sec :=
  { cells := [], nmk := [], kem := none, meas := [], draws := 0, requests := 0, unlock := none, sealed := [],
    lock := none, tokenCounter := 0, idSeed := none, burns := [], testing := none }

/-- Start-up and update before S4 of a start. -/
def Upd.reset : Upd :=
  { record := none, slot := 0, armed := none, trialEnd := 0, release := none, session := none, aonFails := 0, codes := 0,
    startSeq := 0, failed := 15, unreadable := false, germinating := 0, reload := none,
    kiln := none }

/-- A mailbox with no command. -/
def Mbx.idle : Mbx := { busy := false, code := 0, seq := 0, args := [], at_ := 0, steps := 0, prog := 0, result := none }

/-- The chain before training. -/
def Gang.reset : Gang :=
  { seq := 0, seen := [], waiting := [], sent := [], heard := [], remote := [], breakSeen := false, slew := 0, slewAt := 0,
    delay0 := 0, delay1 := 0, numbered := false, enumAt := none, timeAt := 0, statusAt := 0, retrainAt := [], breaks := [],
    takeover := none, enumPaths := [] }

/-- The chip right after reset. -/
def Chip.reset : Chip :=
  { now := 0, free := 0, out := [], islands := [], regs := [], shadows := [], pins := [], pwr := .reset, rtc := .reset,
    fab := .reset, chk := [], core := .reset, tk := .reset,
    mems := .reset, radio := .reset, sec := .reset, upd := .reset, mbx := [], gang := .reset, remash := none,
    uart := { bytes := none, at_ := 0 }, scan := false, qspiReject := false, msix := [], recipe := none, kept := none }

/-- The machine right after reset: a part as shipped, lifecycle SECURED and key slot 0 programmed (R190).
DESIGN CHOICE: log entry 6. DESIGN CHOICE: log entry 7. DESIGN CHOICE: log entry 8. DESIGN CHOICE: log entry 9. Its final test burned
a date, a sensor gain and the check over rows 0x68 to 0x7E (R424). DESIGN CHOICE: log entry 224. -/
def State.reset : State := { chip := .reset, otp := [(2, 1), (3, 64), (0x6A, 0xFFFF), (0x7C, 0x20250101), (0x7F, 0xc23a3ff9)], pending := [] }

end Sys2Proof.Machine
end

