-- ==== Sys2Proof/Machine/Ops.lean ====
section
/-! DEFINITION. The named operations over sparse tables, registers, islands and the device state that every family of
commands shares. -/

namespace Sys2Proof.Machine

/-! ### Sparse tables -/

/-- What a key of a sparse table reads as: its entry, or the default of the table. -/
def Store.get {α : Type} (d : α) : Store α → Nat → α
  | [], _ => d
  | (k, v) :: m, a => if a = k then v else Store.get d m a

/-- Put an entry into its place in a table that does not list its key. -/
def Store.insert {α : Type} (a : Nat) (v : α) : Store α → Store α
  | [] => [(a, v)]
  | (k, w) :: m => if k < a then (k, w) :: Store.insert a v m else (a, v) :: (k, w) :: m

/-- Write a key of a sparse table, keeping keys rising and listing no entry equal to the default. -/
def Store.put {α : Type} [DecidableEq α] (d : α) (m : Store α) (a : Nat) (v : α) : Store α :=
  let rest := m.filter fun e => e.1 != a
  if v = d then rest else Store.insert a v rest

/-- The canonical form of a sparse table whose key `k` reads `d k` when not listed: keys above a bound, strictly rising,
and no entry equal to its default. -/
def Store.okFrom {α : Type} [DecidableEq α] (d : Nat → α) : Nat → Store α → Bool
  | _, [] => true
  | lo, (k, v) :: m => decide (lo ≤ k) && decide (v ≠ d k) && Store.okFrom d (k + 1) m

/-- A sparse table in canonical form. -/
def Store.ok {α : Type} [DecidableEq α] (d : Nat → α) (m : Store α) : Bool := Store.okFrom d 0 m

/-- Write a run of keys. -/
def Store.putMany {α : Type} [DecidableEq α] (d : α) (m : Store α) (a : Nat) : List α → Store α
  | [] => m
  | v :: vs => Store.putMany d (Store.put d m a v) (a + 1) vs

/-- Drop every entry whose key a test names: those keys read as the default again. -/
def Store.drop {α : Type} (m : Store α) (p : Nat → Bool) : Store α := m.filter fun e => ! p e.1

/-- What a register table reads at an address: its entry, or the register's reset word. -/
def regGet (m : Store Word) (a : Nat) : Word := Store.get (regReset a) m a

/-- Write a register table: an entry equal to the register's reset word is dropped. -/
def regPut (m : Store Word) (a : Nat) (v : Word) : Store Word := Store.put (regReset a) m a v

end Sys2Proof.Machine

namespace Sys2Proof

/-! ### Words and fields -/

/-- The field of `w` bits from bit `lo` of a payload. -/
def Word.field (x : Word) (lo w : Nat) : Nat := bitsOf x.nat lo w

/-- A number with its field of `w` bits from bit `lo` replaced. -/
def putBits (n lo w v : Nat) : Nat := n % 2 ^ lo + v % 2 ^ w * 2 ^ lo + n / 2 ^ (lo + w) * 2 ^ (lo + w)

/-- A word with one field of its payload replaced. -/
def Word.withField (x : Word) (lo w v : Nat) : Word := Word.mk' x.tag (putBits x.nat lo w v)

end Sys2Proof

namespace Sys2Proof.Machine

/-! ### Registers -/

/-- A register's stored word. -/
def Chip.reg (c : Chip) (a : Nat) : Word := regGet c.regs a

/-- Store a word in a register. -/
def Chip.setReg (c : Chip) (a : Nat) (w : Word) : Chip := { c with regs := regPut c.regs a w }

/-- A register's payload. -/
def Chip.regN (c : Chip) (a : Nat) : Nat := (c.reg a).nat

/-- Store a payload in a register, keeping its tag. -/
def Chip.setRegN (c : Chip) (a n : Nat) : Chip := c.setReg a (Word.mk' (c.reg a).tag n)

/-- Store a signed payload in a register, keeping its tag. -/
def Chip.setRegI (c : Chip) (a : Nat) (z : Int) : Chip := c.setRegN a (unsigned 36 z)

/-- A register's payload, signed. -/
def Chip.regI (c : Chip) (a : Nat) : Int := (c.reg a).toInt

/-- The value of a register field. -/
def Chip.f (c : Chip) (x : Field) : Nat := (c.reg x.reg).field x.lo x.w

/-- The value of a register field, signed. -/
def Chip.fI (c : Chip) (x : Field) : Int := signed x.w (c.f x)

/-- Whether a one-bit field is 1. -/
def Chip.b (c : Chip) (x : Field) : Bool := c.f x == 1

/-- Set a register field. -/
def Chip.setF (c : Chip) (x : Field) (v : Nat) : Chip := c.setReg x.reg ((c.reg x.reg).withField x.lo x.w v)

/-- Set a one-bit field from a truth value. -/
def Chip.setB (c : Chip) (x : Field) (v : Bool) : Chip := c.setF x (b2n v)

/-- Count one more in a field that saturates at all ones and counts on from any value written. -/
def Chip.bump (c : Chip) (x : Field) : Chip := if c.f x + 1 < 2 ^ x.w then c.setF x (c.f x + 1) else c

/-- Count several more in a saturating field. -/
def Chip.bumpBy (c : Chip) (x : Field) (n : Nat) : Chip := c.setF x (min (c.f x + n) (2 ^ x.w - 1))

/-- Take a free value below a bound. DESIGN CHOICE: log entry 12. -/
def takeFree (bound : Nat) (c : Chip) : Nat × Chip := (Config.freeNat c.free % max 1 bound, { c with free := c.free + 1 })

/-- Take a free status code: one of the eighteen that revision A1 returns (R8, R9). -/
def takeStatus (c : Chip) : Nat × Chip := takeFree 18 c

/-! ### Islands -/

/-- How an island stands. -/
def Chip.island (c : Chip) (i : Island) : IslandState := Store.get .on c.islands i.num

/-- Whether an island is on and serves its crossings. -/
def Chip.isOn (c : Chip) (i : Island) : Bool := c.island i == .on

/-- Put an island in a state. -/
def Chip.setIsland (c : Chip) (i : Island) (s : IslandState) : Chip :=
  { c with islands := Store.put .on c.islands i.num s }

/-- All sixteen islands, in the order of R261. -/
def allIslands : List Island :=
  [.aon, .wur, .rtc, .rfRxA, .rfRxB, .rfTx, .lane, .link, .core, .memD, .memT, .mram, .ddr, .pcie, .chain, .evf]

/-- The island that holds a register (chapter 01's island table; R73, R159, R187, R407). The spec names none for the UPD
block, which is taken to lie in AON with the state it mirrors. DEDUCED: log entry 18. -/
def islandOf (a : Nat) : Island :=
  if a < 0x2000 then .aon
  else if a < 0x3000 then .rtc
  else if a < 0x5000 then .evf
  else if a < 0x6000 then .link
  else if a < 0x8000 then (if 0x6040 ≤ a && a ≤ 0x6041 then .ddr else .memD)
  else if a < 0xA000 then
    (if 0x8010 ≤ a && a ≤ 0x8015 then .rfRxA else if 0x8020 ≤ a && a ≤ 0x8025 then .rfRxB else .rfTx)
  else if a < 0xB000 then .lane
  else if a < 0x10000 then (if 0xC300 ≤ a && a ≤ 0xC305 then .wur else .link)
  else if a < 0x14000 then .core
  else if a < 0x18000 then .aon
  else if a < 0x1C000 then (if 0x18221 ≤ a && a ≤ 0x18226 then .chain else .pcie)
  else .aon

/-- Return every register an island holds to its reset value. -/
def Chip.resetRegs (c : Chip) (i : Island) : Chip := { c with regs := Store.drop c.regs fun a => islandOf a == i }

/-! ### Device and power state -/

abbrev devBoot : Nat := 0
abbrev devRun : Nat := 1
abbrev devGerminate : Nat := 2
abbrev devRecovery : Nat := 3
abbrev devDead : Nat := 4

/-- How step S`k` of the last start ended: 0 not run, 1 OK, 2 by its alternate, 3 failed (R357). -/
def Chip.stepCode (c : Chip) (k : Nat) : Nat := c.upd.codes / 4 ^ k % 4

/-- The device state code (chapter 01, Device states). -/
def Chip.dev (c : Chip) : Nat := c.f Fld.SYS_STATE_DEVICE_STATE

/-- The power state code (R24, R331). -/
def Chip.power (c : Chip) : Nat := c.f Fld.PWR_STATUS_STATE

/-- Whether the chip is awake or in Dusk (R331). -/
def Chip.awake (c : Chip) : Bool := decide (c.power ≤ 4)

/-- Whether an entry to Night, Midnight or Small Hours is under way (R341). -/
def Chip.entering (c : Chip) : Bool := c.b Fld.PWR_STATUS_ACTIVE && decide (5 ≤ c.f Fld.PWR_STATUS_ACTIVE_TARGET)

/-- A word REFUSED with STATE_REFUSED, its detail holding the device state in bits 15:12 and the power state in bits
19:16 (R24). -/
def Chip.stateRefused (c : Chip) : Word := .refusal Status.stateRefused.code (c.dev + 16 * c.power)

/-- A word REFUSED with a status and no detail (R7). -/
def refused (s : Status) : Word := .refusal s.code 0

/-- The status code a result word carries: that of a REFUSED word, or OK (R250). -/
def resultStatus (w : Word) : Nat := if w.tag = .refused then w.nat % 4096 else 0

/-- The grain counter: the low 36 bits of the device long time (R344). -/
def Chip.grain (c : Chip) : Payload := BitVec.ofNat 36 c.now

/-! ### Pins -/

/-- The level of an external pin; pins above the 40 GPIOs are dedicated. -/
def Chip.pin (c : Chip) (p : Nat) : Bool := Store.get 0 c.pins p != 0

/-- Set the level of an external pin. -/
def Chip.setPin (c : Chip) (p : Nat) (v : Bool) : Chip := { c with pins := Store.put 0 c.pins p (b2n v) }

/-! ### Output latch and lifts -/

/-- Leave words in the output latch. DESIGN CHOICE: log entry 14. -/
def Chip.reply (c : Chip) (ws : List Word) : Chip := { c with out := ws }

/-- A command whose effect lies in the chip alone: it always completes, and leaves the fuses and the queue alone. -/
def onChip (g : Chip → Chip) (s : State) : Host.Outcome State Fault Refusal := .next { s with chip := g s.chip }

/-- A command that also reads the fuses. -/
def onChipOtp (g : Store Nat → Chip → Chip) (s : State) : Host.Outcome State Fault Refusal :=
  .next { s with chip := g s.otp s.chip }

/-- Apply a change when a condition holds, else leave the chip as it is. -/
def Chip.when (c : Chip) (p : Bool) (g : Chip → Chip) : Chip := if p then g c else c

end Sys2Proof.Machine
end

