-- ==== Sys2Proof/Machine/Flags.lean ====
section
/-! DEFINITION. Status flags, event sources and how hardware raises them (R37, R277, R278, R283). -/

namespace Sys2Proof.Machine

/-- A block source: its status and enable registers, and its number in the table of R277. -/
structure Block where
  status : Nat
  enable : Nat
  source : Nat
  deriving DecidableEq, Repr

/-- The block sources (R277, R278). -/
def Block.lane (n : Nat) : Block := ⟨Reg.LANE_INT_STATUS n, Reg.LANE_INT_ENABLE n, 0x80 + n⟩
def Block.rf : Block := ⟨Reg.RF_INT_STATUS, Reg.RF_INT_ENABLE, 0xC0⟩
def Block.link : Block := ⟨Reg.LINK_INT_STATUS, Reg.LINK_INT_ENABLE, 0xC1⟩
def Block.psched : Block := ⟨Reg.LINK_PSCHED_INT_STATUS, Reg.LINK_PSCHED_INT_ENABLE, 0xC2⟩
def Block.mem : Block := ⟨Reg.MEM_INT_STATUS, Reg.MEM_INT_ENABLE, 0xC4⟩
def Block.sec : Block := ⟨Reg.SEC_INT_STATUS, Reg.SEC_INT_ENABLE, 0xC5⟩
def Block.rtc : Block := ⟨Reg.RTC_INT_STATUS, Reg.RTC_INT_ENABLE, 0xCC⟩
def Block.pwr : Block := ⟨Reg.PWR_INT_STATUS, Reg.PWR_INT_ENABLE, 0xCD⟩
def Block.upd : Block := ⟨Reg.UPD_INT_STATUS, Reg.UPD_INT_ENABLE, 0xCF⟩
def Block.chk (n : Nat) : Block := ⟨Reg.CHK_STATUS n, Reg.CHK_INT_ENABLE n, 0xD0 + n⟩
def Block.sys : Block := ⟨Reg.SYS_STATUS, Reg.SYS_INT_ENABLE, 0xD8⟩
def Block.host : Block := ⟨Reg.HOST_INT_STATUS, Reg.HOST_INT_ENABLE, 0xD9⟩
def Block.evf : Block := ⟨Reg.EVF_INT_STATUS, Reg.EVF_INT_ENABLE, 0xDB⟩

/-- The block whose source has a given number. -/
def blockOf (src : Nat) : Option Block :=
  if 0x80 ≤ src && src < 0xC0 then some (.lane (src - 0x80))
  else if 0xD0 ≤ src && src < 0xD8 then some (.chk (src - 0xD0))
  else [Block.rf, .link, .psched, .mem, .sec, .rtc, .pwr, .upd, .sys, .host, .evf].find? fun b => b.source == src

/-- Whether a source lies in the EVF island (R277). -/
def evfSource (src : Nat) : Bool := decide (src < 0x80) || src == 0xDB || (decide (0xE0 ≤ src) && decide (src < 0xFC))

/-- The tick in which an event raised now takes part (R281): a source of the EVF island in this tick, or the next where this
one's pass has been made; a software source in the tick after (R290); any other 1 or 2 gr after this grain.
DESIGN CHOICE: log entry 195. -/
def Chip.dueTick (c : Chip) (src : Nat) : Nat :=
  if 0xF0 ≤ src then c.now + 1
  else if evfSource src then (if c.fab.passed then c.now + 1 else c.now)
  else c.now + 1 + b2n (Config.crossesLate src c.now)

/-- A source fires, by the setting of status bits where it is a block source. A firing while the EVF island is off is lost
(R293); a source fires at most once per tick, the later payload standing (R276, R290). -/
def Chip.fire (c : Chip) (src : Nat) (payload : Option Nat) (bits : Nat := 0) : Chip :=
  if c.isOn .evf then
    let due := c.dueTick src
    let same (x : Fired) : Bool := x.source == src && x.due == due
    let was := ((c.fab.fired.find? same).map fun x => x.bits).getD 0
    { c with fab := { c.fab with fired := (c.fab.fired.filter fun x => ! same x) ++ [⟨src, payload, Nat.lor was bits, due⟩] } }
  else c

/-- Whether a source has fired with a payload and waits for its tick. -/
def Chip.hasFired (c : Chip) (src : Nat) (payload : Option Nat) : Bool :=
  c.fab.fired.any fun x => x.source == src && x.payload == payload

/-- Whether a register is clocked at 32.768 kHz: those of the power controller and the RTC (R278). -/
def slowReg (a : Nat) : Bool := decide (0x1000 ≤ a) && decide (a < 0x3000)

/-- Hardware sets a write-one-to-clear bit. A clearing write that lands in the same cycle of its island leaves it at 1: in the
EVF island the same grain, in the power controller and the RTC the same 32.768 kHz cycle (R278). DEDUCED: log entry 196. -/
def Chip.setFlag (c : Chip) (a bit : Nat) : Chip :=
  let c1 := c.setF ⟨a, bit, 1⟩ 1
  if islandOf a = .evf || slowReg a then { c1 with fab := { c1.fab with justSet := (a, bit) :: c1.fab.justSet } } else c1

/-- The bits of a register that hardware has set in the same cycle, as a mask: a clearing write leaves them at 1 (R278). -/
def Chip.justSetMask (c : Chip) (a : Nat) : Nat := c.fab.justSet.foldl (fun m x => if x.1 = a then Nat.lor m (2 ^ x.2) else m) 0

/-- Hardware sets a status bit of a block: the bit becomes 1, and the source fires if the bit is enabled, whether or
not it was already set (R278). -/
def Chip.raise (c : Chip) (b : Block) (bit : Nat) : Chip :=
  let c1 := c.setFlag b.status bit
  if (c1.reg b.enable).field bit 1 = 1 then c1.fire b.source none (2 ^ bit) else c1

/-- SYS_STATUS.REG_REJECT is set, raising an interrupt if that is enabled (R37, R38, R40). -/
def Chip.regReject (c : Chip) : Chip := c.raise .sys 0

/-- SYS_STATUS.HOST_REJECT is set (R407). -/
def Chip.hostReject (c : Chip) : Chip := c.raise .sys 1

/-- The payload of a block source: bits 27:0 of its status ANDed with its enables. It holds the bits whose setting fired the
source (R278). -/
def Chip.blockPayload (c : Chip) (b : Block) (bits : Nat) : Nat := Nat.land (Nat.lor (c.regN b.status) bits) (c.regN b.enable) % 2 ^ 28

/-- The EVENT word of a fired source (R26, R277). -/
def Chip.eventWord (c : Chip) (x : Fired) : Word :=
  let p := match x.payload with
    | some p => p % 2 ^ 28
    | none => match blockOf x.source with
      | some b => c.blockPayload b x.bits
      | none => 0
  .mk' .event (x.source * 2 ^ 28 + p)

/-- The payloads of the events raised in the grain that ends, where their ticks are to come, are those of this grain (R278). -/
def latchPayloads (c : Chip) : Chip :=
  { c with fab := { c.fab with fired := c.fab.fired.map fun x => { x with payload := some ((c.eventWord x).nat % 2 ^ 28), bits := 0 } } }

/-- A task input was busy: EVF_OVERRUN and the summary bit are set (R283). -/
def Chip.overrun (c : Chip) (task : Nat) : Chip :=
  (c.setFlag (Reg.EVF_OVERRUN (task / 32)) (task % 32)).raise .evf 0

/-- Several events reached one task input in one tick: EVF_COINCIDE and the summary bit are set (R282, R283). -/
def Chip.coincide (c : Chip) (task : Nat) : Chip :=
  (c.setFlag (Reg.EVF_COINCIDE (task / 32)) (task % 32)).raise .evf 1

end Sys2Proof.Machine
end

