-- ==== Sys2Proof/Machine/Check.lean ====
section
/-! DEFINITION. Check-value units CHK0 to CHK7 (13_check_units.md). -/

namespace Sys2Proof.Machine

/-- A check unit's hidden state at reset. -/
def ChkUnit.idle : ChkUnit := { waitFrame := false, txCarrier := none, seen := 0, dropped := false, endedAt := none }

/-- The hidden state of unit `n`. -/
def Chip.chkUnit (c : Chip) (n : Nat) : ChkUnit := Store.get .idle c.chk n

/-- Set the hidden state of unit `n`. -/
def Chip.setChk (c : Chip) (n : Nat) (u : ChkUnit) : Chip := { c with chk := Store.put .idle c.chk n u }

/-! ### Algorithms -/

/-- One input bit folded into a CRC register of `w` bits (R305). -/
def crcBit (w poly reg : Nat) (bit : Bool) : Nat :=
  let out := xor (reg.testBit (w - 1)) bit
  let sh := reg * 2 % 2 ^ w
  if out then Nat.xor sh (poly % 2 ^ w) else sh

/-- The eight bits of an octet in the order REFIN gives (R305). -/
def octetBits (refin : Bool) (o : Nat) : List Bool :=
  if refin then [o.testBit 0, o.testBit 1, o.testBit 2, o.testBit 3, o.testBit 4, o.testBit 5, o.testBit 6, o.testBit 7]
  else [o.testBit 7, o.testBit 6, o.testBit 5, o.testBit 4, o.testBit 3, o.testBit 2, o.testBit 1, o.testBit 0]

/-- One octet folded into a CRC register (R305). -/
def crcOctet (w poly : Nat) (refin : Bool) (reg o : Nat) : Nat := (octetBits refin o).foldl (crcBit w poly) reg

/-- The reversal of `w` bits. -/
def reverseBits : Nat → Nat → Nat
  | 0, _ => 0
  | w + 1, n => (n % 2) * 2 ^ w + reverseBits w (n / 2)

/-- One 16-bit word folded into Fletcher-32 sums, sum2 in bits 31:16 and sum1 in bits 15:0 (R306). -/
def fletcherWord (v word : Nat) : Nat :=
  let s1 := (v % 65536 + word) % 65535
  let s2 := (v / 65536 + s1) % 65535
  s2 * 65536 + s1

/-- The second octet of a word folded where the first was folded with a zero beside it: both sums grow by it. What VALUE holds after
an odd number of octets is the form that a zero octet completes. DEDUCED: log entry 204. -/
def fletcherHigh (v o : Nat) : Nat := (v / 65536 + 256 * o) % 65535 * 65536 + (v % 65536 + 256 * o) % 65535

/-- The width of a unit's CRC. -/
def Chip.chkWidth (c : Chip) (n : Nat) : Nat := c.f (Fld.CHK_CTRL_WIDTH_M1 n) + 1

/-- Whether a unit computes Fletcher-32. -/
def Chip.chkFletcher (c : Chip) (n : Nat) : Bool := c.b (Fld.CHK_CTRL_ALGO n)

/-- The final form of a register value (R305, R306). -/
def Chip.chkForm (c : Chip) (n v : Nat) : Nat :=
  if c.chkFletcher n then v
  else Nat.xor (if c.b (Fld.CHK_CTRL_REFOUT n) then reverseBits (c.chkWidth n) v else v) (c.regN (Reg.CHK_XOROUT n))

/-- The final form of a unit's running value (R305, R306). -/
def Chip.chkFinal (c : Chip) (n : Nat) : Nat := c.chkForm n (c.regN (Reg.CHK_VALUE n))

/-- The final form a stream ends with: an empty stream's is that of INIT (R311). -/
def Chip.chkResult (c : Chip) (n : Nat) : Nat :=
  if c.regN (Reg.CHK_COUNT n) = 0 then c.chkForm n (c.regN (Reg.CHK_INIT n)) else c.chkFinal n

/-- VALUE is loaded from INIT and COUNT becomes 0 (R310 step 4, R311 RESTART). -/
def chkReload (n : Nat) (c : Chip) : Chip :=
  ((((c.setRegN (Reg.CHK_VALUE n) (c.regN (Reg.CHK_INIT n))).setRegN (Reg.CHK_COUNT n) 0).setB
    (Fld.CHK_STATUS_ACTIVE n) false)).setChk n { (c.chkUnit n) with dropped := false }

/-- A stream of unit `n` ends, abandoned by its lane or not (R310). A frame whose octets still come goes on being folded, into the new
stream (R308, R311). -/
def chkEnd (n : Nat) (abandoned : Bool) (c : Chip) : Chip :=
  let u := c.chkUnit n
  let bad := abandoned || u.dropped
  let c1 := if bad then
      let a := if abandoned then c.raise (.chk n) 3 else c
      if u.dropped then a.raise (.chk n) 2 else a
    else
      let r := c.setRegN (Reg.CHK_RESULT n) (c.chkResult n)
      if r.b (Fld.CHK_CTRL_COMPARE n) && r.regN (Reg.CHK_RESULT n) != r.regN (Reg.CHK_EXPECT n) then
        (r.raise (.chk n) 1).bump (Fld.CHK_COUNTS_MISMATCHES n)
      else r
  let c2 := (c1.raise (.chk n) 0).bump (Fld.CHK_COUNTS_ENDS n)
  let c3 := chkReload n c2
  c3.setChk n { (c3.chkUnit n) with endedAt := some c3.now }

/-- The running value with one octet folded (R305, R306): which octet of its word it is, COUNT tells. -/
def Chip.chkFolded (c : Chip) (n o : Nat) : Nat :=
  let v := c.regN (Reg.CHK_VALUE n)
  if c.chkFletcher n then (if c.regN (Reg.CHK_COUNT n) % 2 = 0 then fletcherWord v o else fletcherHigh v o)
  else crcOctet (c.chkWidth n) (c.regN (Reg.CHK_POLY n)) (c.b (Fld.CHK_CTRL_REFIN n)) v o

/-- One octet folded into unit `n`, which ends by length if COUNT reaches LENGTH (R305, R306, R310). COUNT has 32 bits and wraps.
DEDUCED: log entry 204. -/
def chkOctet (n : Nat) (c : Chip) (o : Nat) : Chip :=
  let c1 := if (c.chkUnit n).dropped then c else c.setRegN (Reg.CHK_VALUE n) (c.chkFolded n (o % 256))
  let c2 := (c1.setRegN (Reg.CHK_COUNT n) ((c1.regN (Reg.CHK_COUNT n) + 1) % 2 ^ 32)).setB (Fld.CHK_STATUS_ACTIVE n) true
  if c2.f (Fld.CHK_CTRL_END_MODE n) == 1 && c2.regN (Reg.CHK_COUNT n) == c2.regN (Reg.CHK_LENGTH n) then chkEnd n false c2
  else c2

/-- The eight units. -/
def chkUnits : List Nat := List.range 8

/-- Whether a unit is enabled and watches a stream (R307): SEL of the TX stream and of host DMA is a set of kinds. -/
def Chip.chkWatches (c : Chip) (n src sel : Nat) : Bool :=
  let s := c.f (Fld.CHK_CTRL_SEL n)
  c.isOn .link && c.b (Fld.CHK_CTRL_ENABLE n) && c.f (Fld.CHK_CTRL_SRC n) == src &&
    (if src == 2 then s.testBit sel
     else if src == 6 then s == sel || s == 2
     else if src == 7 then s == sel || s == 0
     else s == sel)

/-- A frame of a lane starts: units that waited for it join (R308). -/
def chkFrameStart (lane : Nat) (c : Chip) : Chip :=
  chkUnits.foldl (fun c n =>
    if c.chkWatches n 1 lane then c.setChk n { (c.chkUnit n) with waitFrame := false, seen := 0 } else c) c

/-- The octets of the present frame reach a unit as far as `upto` (R308). -/
def chkFold (n : Nat) (octets : List Nat) (upto : Nat) (c : Chip) : Chip :=
  let c1 := ((octets.take upto).drop (c.chkUnit n).seen).foldl (chkOctet n) c
  c1.setChk n { (c1.chkUnit n) with seen := max (c1.chkUnit n).seen upto }

/-- Octets of a stream reach the units that watch it, and its end marker if one follows (R308, R310). A framed stream
ends a unit's wait for the next frame. -/
def chkStream (src sel : Nat) (octets : List Nat) (marker : Bool) (c : Chip) : Chip :=
  chkUnits.foldl (fun c n =>
    if c.chkWatches n src sel then
      if (c.chkUnit n).waitFrame then
        (if marker then c.setChk n { (c.chkUnit n) with waitFrame := false } else c)
      else
        let c1 := octets.foldl (chkOctet n) c
        if marker && c1.f (Fld.CHK_CTRL_END_MODE n) == 0 then chkEnd n false c1 else c1
    else c) c

/-- The octets of a lane's frame reach the units that watch it as far as `upto`. -/
def chkLaneFold (lane : Nat) (octets : List Nat) (upto : Nat) (c : Chip) : Chip :=
  chkUnits.foldl (fun c n =>
    if c.chkWatches n 1 lane && ! (c.chkUnit n).waitFrame then chkFold n octets upto c else c) c

/-- The frame of a lane closes with its last octet, or with an abandon mark after what has been handed over (R88, R310). -/
def chkLaneClose (lane : Nat) (octets : List Nat) (abandoned : Bool) (c : Chip) : Chip :=
  chkUnits.foldl (fun c n =>
    if c.chkWatches n 1 lane then
      if (c.chkUnit n).waitFrame then c.setChk n { (c.chkUnit n) with waitFrame := false, seen := 0 }
      else
        let c1 := if abandoned then c else chkFold n octets octets.length c
        let c2 := if c1.f (Fld.CHK_CTRL_END_MODE n) == 0 then chkEnd n abandoned c1 else c1
        c2.setChk n { (c2.chkUnit n) with seen := 0 }
    else c) c

/-- The five bytes of a tag and payload in the order of R39, and of a word. -/
def slotBytes (tag n : Nat) : List Nat :=
  [n % 256, n / 2 ^ 8 % 256, n / 2 ^ 16 % 256, n / 2 ^ 24 % 256, n / 2 ^ 32 % 16 + 16 * tag]
@[inherit_doc slotBytes] def wordBytes (w : Word) : List Nat := slotBytes w.tag.num w.nat

/-! ### Streams of the host, of MRAM and of the chain (R307) -/

/-- A slot that a host path moves over PCIe (path 1) or the quad SPI (path 2): `sel` is 0 for a write, 1 for a read. -/
def dmaSeen (p sel : Nat) (bytes : List Nat) (last : Bool) (c : Chip) : Chip :=
  if p = 1 ∨ p = 2 then chkStream 6 sel bytes last c else c

/-- Words that a reader of MRAM gets, four bytes each, as one read request or the last part of one: 1 the core, 2 a host,
3 the ROM loader or the hash engine, 4 any other, which SEL 0 alone names. -/
def mramSeen (sel : Nat) (ws : List Word) (last : Bool) (c : Chip) : Chip :=
  chkStream 7 sel ((ws.filter fun w => w.tag == .bits).flatMap fun w => (wordBytes w).take 4) last c

/-- The header and payload of a chain frame, as a check unit sees them (R398). -/
def ChainFrame.octets (f : ChainFrame) : List Nat :=
  [f.type % 16 + 16 * b2n f.bcast, f.dst % 64, f.src % 64, f.hops % 128, f.seq % 256, f.words.length % 256, f.op % 256, 0] ++
    f.words.flatMap wordBytes

/-- A whole chain frame passes a port, in (3) or out (4). -/
def chainSeen (src port : Nat) (f : ChainFrame) (c : Chip) : Chip := chkStream src port f.octets true c

/-- The port a chain frame leaves by: forward traffic by CHAIN1 and backward traffic by CHAIN0, each turned back at a port that is
DOWN; none where both are (R400, R402). DEDUCED: log entry 199. -/
def Chip.portOut (c : Chip) (back : Bool) : Option Nat :=
  let up0 := c.f Fld.HOST_CHAIN_STATUS_RATE_0 != 0
  let up1 := c.f Fld.HOST_CHAIN_STATUS_RATE_1 != 0
  if back then (if up0 then some 0 else if up1 then some 1 else none) else if up1 then some 1 else if up0 then some 0 else none

/-! ### Commands -/

/-- Whether the task input of unit `n` is busy: the tick after any end (R311). -/
def Chip.chkBusy (c : Chip) (n : Nat) : Bool :=
  match (c.chkUnit n).endedAt with
  | some g => c.now == g + 1
  | none => false

/-- SNAP (R311): RESULT takes the final form of VALUE; no flag follows. -/
def chkSnap (n : Nat) (c : Chip) : Chip := c.setRegN (Reg.CHK_RESULT n) (c.chkFinal n)

/-- A task acts on a unit that still serves: RESTART, END or SNAP, as TASK encodes them (R311). While ENABLE is 0, VALUE and COUNT
are kept, and RESTART and END change nothing (R312). DEDUCED: log entry 205. -/
def chkAct (x : Nat × Nat) (c : Chip) : Chip :=
  if ! c.isOn .link then c
  else if x.2 = 2 then chkSnap x.1 c
  else if ! c.b (Fld.CHK_CTRL_ENABLE x.1) then c
  else if x.2 = 0 then chkReload x.1 c
  else chkEnd x.1 false c

/-- The end of a tick: its tasks act on the streams as the ends of the tick have left them (R311). -/
def chkTasksEnd (c : Chip) : Chip :=
  c.fab.chkTasks.foldl (fun c x => chkAct x c) { c with fab := { c.fab with chkTasks := [] } }

/-- A CHK task: refused as busy in the tick after an end, or with the LINK island not on (R283); it acts when the ends of its
tick have been handled (R311). DEDUCED: log entry 201. -/
def chkTaskInput (n act : Nat) (c : Chip) : Chip :=
  if c.chkBusy n || ! c.isOn .link then c.overrun (144 + n)
  else { c with fab := { c.fab with chkTasks := c.fab.chkTasks ++ [(n, act)] } }

/-- A task input carries out the action that TASK selects (R311): a row names one action and is no event while TASK selects
another. -/
def chkTaskRow (n act : Nat) (c : Chip) : Chip := if c.f (Fld.CHK_CTRL_TASK n) = act then chkTaskInput n act c else c

/-- RESTART (R311). -/
def execRestart (n : Fin 8) (s : State) : Host.Outcome State Fault Refusal :=
  onChip (chkTaskRow n.val 0) s

/-- END (R311). -/
def execEnd (n : Fin 8) (s : State) : Host.Outcome State Fault Refusal :=
  onChip (chkTaskRow n.val 1) s

/-- CHK_SNAP (R311). -/
def execChkSnap (n : Fin 8) (s : State) : Host.Outcome State Fault Refusal :=
  onChip (chkTaskRow n.val 2) s

/-- Octets of a unit's stream reach it, `dropped` telling that its buffer overflowed after them, which sets DROPPED: a lane, TX or
chain stream never overflows (R309). -/
def chkArrive (n : Nat) (octets : List Nat) (dropped : Bool) (c : Chip) : Chip :=
  let c1 := octets.foldl (chkOctet n) c
  if dropped && decide (5 ≤ c1.f (Fld.CHK_CTRL_SRC n)) then
    (c1.setChk n { (c1.chkUnit n) with dropped := true }).raise (.chk n) 2
  else c1

/-- The last octets of a unit's stream reach it and the stream ends at its marker or length (R308 to R310): `abandoned` tells that a
lane closed the stream with an abandon mark. A unit that is not enabled folds nothing and ignores end markers (R312). -/
def chkStreamEnd (n : Nat) (octets : List Nat) (dropped abandoned : Bool) (c : Chip) : Chip :=
  if c.isOn .link && c.b (Fld.CHK_CTRL_ENABLE n) then
    if (c.chkUnit n).waitFrame then c.setChk n { (c.chkUnit n) with waitFrame := false }
    else
      let c1 := chkArrive n octets dropped c
      if c1.f (Fld.CHK_CTRL_END_MODE n) == 0 then chkEnd n (abandoned && c1.f (Fld.CHK_CTRL_SRC n) == 1) c1 else c1
  else c

/-- CHK_STREAM_END (R310). -/
def execChkStreamEnd (n : Fin 8) (octets : List Byte) (dropped abandoned : Bool) (s : State) :
    Host.Outcome State Fault Refusal :=
  onChip (chkStreamEnd n.val (octets.map BitVec.toNat) dropped abandoned) s

end Sys2Proof.Machine
end

