-- ==== Sys2Proof/Machine/Phy.lean ====
section
/-! DEFINITION. The PHY tables: mode words, legal combinations, plan bandwidths and frame times (04_lanes.md, R75, R76,
R89 to R96, R101). -/

namespace Sys2Proof.Machine

/-! ### Mode words, in the layout of LANE_PHY (R105) -/

abbrev famFsk : Nat := 0
abbrev famOfdm : Nat := 1
abbrev famZhr : Nat := 2

/-- FAMILY of a mode word. -/
abbrev phyFamily (p : Nat) : Nat := bitsOf p 14 2
/-- SYM_RATE, LEVELS and MOD_INDEX of an MR-FSK mode word. -/
abbrev fskRate (p : Nat) : Nat := bitsOf p 11 3
abbrev fskLevels (p : Nat) : Nat := bitsOf p 10 1
abbrev fskIndex (p : Nat) : Nat := bitsOf p 8 2
/-- OPTION of an MR-OFDM mode word. -/
abbrev ofdmOption (p : Nat) : Nat := bitsOf p 12 2

/-- The mode-select bits of a mode word: ACCEPT_UNCODED and ACCEPT_CODED, MCS_ACCEPT or MODE_ACCEPT. -/
def phyModes (p : Nat) : Nat :=
  match phyFamily p with
  | 0 => bitsOf p 6 2
  | 1 => bitsOf p 5 7
  | _ => bitsOf p 8 6

/-- Plan bandwidth of an MR-FSK combination, in Hz; none for a combination not in R89. -/
def fskBandwidth (rate levels index : Nat) : Option Nat :=
  match rate, levels, index with
  | 0, 0, 0 => some 200000
  | 1, 0, 1 => some 200000
  | 1, 0, 0 => some 400000
  | 1, 1, 2 => some 400000
  | 2, 0, 1 => some 400000
  | 3, 0, 1 => some 400000
  | 3, 1, 2 => some 600000
  | 4, 0, 1 => some 600000
  | _, _, _ => none

/-- Symbols per second of an MR-FSK rate (R89). -/
def fskSymbols (rate : Nat) : Nat :=
  match rate with
  | 0 => 50000 | 1 => 100000 | 2 => 150000 | 3 => 200000 | _ => 300000

/-- The MCS an MR-OFDM option defines, as accept bits (R91). -/
def ofdmDefined (option : Nat) : Nat :=
  match option with
  | 0 => 0x7F | 1 => 0x7F | 2 => 0x7E | _ => 0x7C

/-- Whether every field of a mode word holds a supported value and its family is among a set (bit 0 MR-FSK, bit 1
MR-OFDM, bit 2 ZHR) (R89, R91, R93, R105). -/
def phyLegal (families p : Nat) : Bool :=
  decide (p < 65536) && decide (phyFamily p < 3) && families.testBit (phyFamily p) && phyModes p != 0 &&
    (match phyFamily p with
      | 0 => (fskBandwidth (fskRate p) (fskLevels p) (fskIndex p)).isSome && bitsOf p 4 2 != 3 && bitsOf p 0 3 == 0
      | 1 => Nat.land (phyModes p) (Nat.xor 0x7F (ofdmDefined (ofdmOption p))) == 0 && bitsOf p 0 4 == 0
      | _ => bitsOf p 0 8 == 0)

/-- How many of the low `k` bits are set. -/
def countBits : Nat → Nat → Nat
  | 0, _ => 0
  | k + 1, n => n % 2 + countBits k (n / 2)

/-- Whether exactly one mode is selected (R124, R143). -/
def phySingle (p : Nat) : Bool := countBits 7 (phyModes p) == 1

/-- The number of the lowest mode selected. -/
def phyMode (p : Nat) : Nat := ((List.range 7).find? fun k => (phyModes p).testBit k).getD 0

/-- The plan bandwidth of a mode word, in Hz (R89, R91, R92). -/
def planBandwidth (p : Nat) : Nat :=
  match phyFamily p with
  | 0 => (fskBandwidth (fskRate p) (fskLevels p) (fskIndex p)).getD 200000
  | 1 => (match ofdmOption p with
    | 0 => 1200000 | 1 => 800000 | 2 => 400000 | _ => 200000)
  | _ => 1600000

/-! ### Frame times -/

/-- A duration of `n` symbols at a rate in symbols per second, in grains (R4). -/
def symbolGrains (n rate : Nat) : Nat := (roundNear ((n * 67108864 : Nat) : Int) rate).toNat

/-- Data bits of an MR-OFDM symbol: the net rate of R91 over 120 µs. -/
def ofdmBits (option mcs : Nat) : Nat :=
  let k := (match mcs with
    | 0 => 12 | 1 => 24 | 2 => 48 | 3 => 96 | 4 => 144 | 5 => 192 | _ => 288)
  k / 2 ^ option

/-- Data bits of a ZHR symbol (R93). -/
def zhrBits (mode : Nat) : Nat :=
  match mode with
  | 0 => 45 | 1 => 90 | 2 => 120 | 3 => 135 | 4 => 180 | _ => 240

/-- Grains from the first symbol to the end of the delimiter (MR-FSK) or of the long training field (R94, R145). -/
def headGrains (p : Nat) : Nat :=
  match phyFamily p with
  | 0 => symbolGrains (8 * (Config.fskPreamble + 2)) (fskSymbols (fskRate p))
  | 1 => symbolGrains 720 1000000
  | _ => symbolGrains 400 1000000

/-- Grains from the first symbol to the end of the last, for a PSDU of `len` octets on air (R94). -/
def airGrains (p len : Nat) : Nat :=
  match phyFamily p with
  | 0 =>
    let coded := bitsOf p 6 2 == 1
    let body := if coded then 16 * (len + 3) else 8 * (len + 2)
    symbolGrains (8 * (Config.fskPreamble + 2) + (if fskLevels p = 1 then ceilDiv body 2 else body)) (fskSymbols (fskRate p))
  | 1 =>
    let phr := if ofdmOption p = 0 then 3 else 6
    symbolGrains (120 * (6 + phr + ceilDiv (8 * len + 6) (ofdmBits (ofdmOption p) (phyMode p)))) 1000000
  | _ => symbolGrains (100 * (2 + 2 + 1 + ceilDiv (8 * len + 8) (zhrBits (phyMode p)))) 1000000

/-- Code rate of a ZHR mode as numerator and denominator (R93). -/
def zhrRate (mode : Nat) : Nat × Nat :=
  match mode with
  | 0 => (1, 2) | 1 => (1, 2) | 2 => (2, 3) | 3 => (3, 4) | 4 => (1, 2) | _ => (2, 3)

/-- Whether a ZHR frame of `len` octets has a coded length that is a multiple of 4096 bits (R101). -/
def zhrFaults (mode len : Nat) : Bool :=
  let (a, b) := zhrRate mode
  ceilDiv ((8 * len + 8) * b) a % 4096 == 0

/-- Whether a frame of a mode word and a length on air would fault (R101). -/
def phyFaults (p len : Nat) : Bool := phyFamily p == famZhr && zhrFaults (phyMode p) len

/-! ### Channels -/

/-- Half the usable bandwidth of a chain in wide or narrow setting, in Hz (R46). -/
def usableHalf (narrow : Bool) : Nat := if narrow then 1200000 else 13000000

/-- Whether a channel lies wholly within a span about a centre (R46, R58). -/
def withinSpan (f bw centre half : Nat) : Bool :=
  decide (2 * ((f : Int) - centre).natAbs + bw ≤ 2 * half)

/-- Whether two channels overlap (R76 rule 6). -/
def overlaps (f1 b1 f2 b2 : Nat) : Bool := decide (2 * ((f1 : Int) - f2).natAbs < b1 + b2)

/-- The sub-band of an offset, as k + 8, in narrow setting always 8 (R74, R75): the nearest centre, the lower where two
are equally near. -/
def subBand (narrow : Bool) (offset : Int) : Nat :=
  if narrow then 8 else min 15 (8 - (2500000 - 2 * offset) / 5000000).toNat

/-- Whether a spur at a frequency lies strictly inside a channel (R82). -/
def inside (f bw spur : Int) : Bool := decide (2 * (spur - f).natAbs < bw)

/-- Whether a fixed spur lies inside a channel of a chain (R82): the DC residual at the centre, the commutator at
multiples of 2.5 MHz up to ±5 from it, and every multiple of 40 MHz. -/
def spurred (f bw centre : Nat) : Bool :=
  ((List.range 11).any fun k => inside f bw ((centre : Int) + ((k : Int) - 5) * 2500000)) ||
    inside f bw (roundNear f 40000000 * 40000000)

end Sys2Proof.Machine
end

