-- ==== Sys2Proof/Machine/Coding.lean ====
section
/-! DEFINITION. The bits of a frame on air and in a lane: sequence generators, headers, the convolutional codes and their
trellis decoder, puncturing, interleaving and mapping (04_lanes.md, R86, R90 to R96, R99). What IEEE 802.15.4-2020 supplies and
the spec does not state is PRESUMED, or a constant of Config: log entry 172. -/

namespace Sys2Proof.Machine

/-! ### Bits -/

/-- The low `w` bits of a number, least significant first. -/
def bitsLsb (w n : Nat) : List Bool := (List.range w).map n.testBit

/-- The low `w` bits of a number, most significant first. -/
def bitsMsb (w n : Nat) : List Bool := (bitsLsb w n).reverse

/-- The number whose bits are listed, least significant first. -/
def ofBitsLsb : List Bool → Nat
  | [] => 0
  | b :: bs => b2n b + 2 * ofBitsLsb bs

/-- The number whose bits are listed, most significant first. -/
def ofBitsMsb (bs : List Bool) : Nat := ofBitsLsb bs.reverse

/-- The bits of octets, each least significant bit first. PRESUMED: log entry 172. -/
def octetBitsLsb (xs : List Nat) : List Bool := xs.flatMap (bitsLsb 8)

/-- Octets from bits, each least significant bit first. -/
def bitsToOctets : Nat → List Bool → List Nat
  | 0, _ => []
  | n + 1, bs => ofBitsLsb (bs.take 8) :: bitsToOctets n (bs.drop 8)

/-- Whether an odd number of bits is set among those of a mask. -/
def parity (mask n : Nat) : Bool := countBits 9 (Nat.land mask n) % 2 == 1

/-! ### Sequence generators -/

/-- One bit of a shift-register generator of `w` stages that feeds back the sum of its last stage and stage `tap`: bit k of the
seed stands in stage k + 1, and the stages shift towards the last. DEDUCED: log entry 215. -/
def lfsrBit (w tap s : Nat) : Bool := xor (s.testBit (w - 1)) (s.testBit (tap - 1))

/-- `n` bits of such a generator from a seed. -/
def lfsrBits (w tap : Nat) : Nat → Nat → List Bool
  | 0, _ => []
  | n + 1, s =>
    let b := lfsrBit w tap s
    b :: lfsrBits w tap n ((2 * s + b2n b) % 2 ^ w)

/-- The ZHR sequence generator x^7 + x^4 + 1 (R94). -/
def zhrSequence (n seed : Nat) : List Bool := lfsrBits 7 4 n seed

/-- The PN9 sequence x^9 + x^5 + 1 of the standard, which whitens MR-FSK and scrambles MR-OFDM. PRESUMED: log entry 172. -/
def pn9 (n seed : Nat) : List Bool := lfsrBits 9 5 n seed

/-- Bits added, bit by bit, to a sequence at least as long. -/
def addBits (xs ys : List Bool) : List Bool := (xs.zip ys).map fun p => xor p.1 p.2

/-! ### Convolutional codes (R99) -/

/-- A code of rate 1/2: its constraint length, the taps of its two outputs with the newest bit highest, and the taps that feed
back, 0 in a code that is not recursive. The first output of a recursive code is the bit itself. -/
structure Code where
  k : Nat
  g0 : Nat
  g1 : Nat
  feed : Nat
  deriving DecidableEq, Repr

/-- The ZHR code, generators 561 and 753 octal (R99). -/
def zhrCode : Code := { k := 9, g0 := 0o561, g1 := 0o753, feed := 0 }

/-- The MR-OFDM code, K = 7 (R91, R99): its generators are the standard's. -/
def ofdmCode : Code := { k := 7, g0 := Config.ofdmTaps.1, g1 := Config.ofdmTaps.2, feed := 0 }

/-- The MR-FSK codes, K = 4 (R90, R99): CODE 0 is not recursive, 1 and 2 are recursive systematic; their taps are the
standard's. -/
def fskCode (sel : Nat) : Code :=
  if sel = 0 then { k := 4, g0 := Config.fskTaps.1, g1 := Config.fskTaps.2, feed := 0 }
  else { k := 4, g0 := 0, g1 := Config.fskRecursiveTaps.1, feed := Config.fskRecursiveTaps.2 }

/-- The bit that enters the register for an input bit. -/
def Code.enters (x : Code) (s : Nat) (b : Bool) : Bool := xor b (parity x.feed s)

/-- The two bits a code sends for an input bit in a state. -/
def Code.outputs (x : Code) (s : Nat) (b : Bool) : Bool × Bool :=
  let reg := b2n (x.enters s b) * 2 ^ (x.k - 1) + s
  (if x.feed = 0 then parity x.g0 reg else b, parity x.g1 reg)

/-- The state that follows. -/
def Code.next (x : Code) (s : Nat) (b : Bool) : Nat := (b2n (x.enters s b) * 2 ^ (x.k - 1) + s) / 2

/-- The coded bits of a message from a state, and the state it ends in. -/
def Code.encodeFrom (x : Code) : Nat → List Bool → List Bool × Nat
  | s, [] => ([], s)
  | s, b :: bs =>
    let (o0, o1) := x.outputs s b
    let (rest, e) := x.encodeFrom (x.next s b) bs
    (o0 :: o1 :: rest, e)

/-- The bit that brings a zero into the register: 0, or what cancels the feedback. -/
def Code.tailBit (x : Code) (s : Nat) : Bool := parity x.feed s

/-- The tail that terminates a code to state zero. -/
def Code.tail (x : Code) : Nat → Nat → List Bool
  | 0, _ => []
  | n + 1, s => x.tailBit s :: x.tail n (x.next s (x.tailBit s))

/-- The coded bits of a message from state zero. -/
def Code.encode (x : Code) (bs : List Bool) : List Bool := (x.encodeFrom 0 bs).1

/-! ### Puncturing (R99): for each input bit of the period, whether its first and second output are sent -/

/-- The pattern of a rate, numerator over denominator; the K = 7 code is taken to drop the same bits at 3/4.
PRESUMED: log entry 172. -/
def punctured : Nat × Nat → List Bool
  | (2, 3) => [true, true, true, false]
  | (3, 4) => [true, true, true, false, false, true]
  | _ => [true, true]

/-- Whether the coded bit at a place is sent. -/
def sends (pat : List Bool) (i : Nat) : Bool := pat.getD (i % pat.length) true

/-- Coded bits with the bits that are not sent left out, from a place on. -/
def punctureFrom {α : Type} (pat : List Bool) : Nat → List α → List α
  | _, [] => []
  | i, x :: xs => if sends pat i then x :: punctureFrom pat (i + 1) xs else punctureFrom pat (i + 1) xs

/-- Soft values with a zero where no bit was sent: `n` coded bits from a place on. -/
def fillFrom (pat : List Bool) : Nat → Nat → List Int → List Int
  | 0, _, _ => []
  | n + 1, i, xs =>
    if sends pat i then xs.headD 0 :: fillFrom pat n (i + 1) xs.tail else 0 :: fillFrom pat n (i + 1) xs

/-! ### The trellis decoder (R99): 5-bit soft values, positive for 1 -/

/-- A state's best path: its metric and its input bits, newest first. -/
structure Survivor where
  metric : Int
  path : List Bool
  deriving DecidableEq, Repr

/-- How well two soft values agree with two coded bits. -/
def agreement (o : Bool × Bool) (x y : Int) : Int := (if o.1 then x else -x) + (if o.2 then y else -y)

/-- The better of two survivors, the first where they are equal. DESIGN CHOICE: log entry 173. -/
def Survivor.better (a b : Survivor) : Survivor := if a.metric < b.metric then b else a

/-- A survivor's step through a branch. -/
def Survivor.step (v : Survivor) (x : Code) (s : Nat) (enter : Bool) (p q : Int) : Survivor :=
  let b := xor enter (parity x.feed s)
  { metric := v.metric + agreement (x.outputs s b) p q, path := b :: v.path }

/-- The states that bit `enter` leads into, from the survivors of states 2j and 2j + 1 in order. -/
def trellisHalf (x : Code) (enter : Bool) (p q : Int) : Nat → List Survivor → List Survivor
  | j, a :: b :: rest =>
    (a.step x (2 * j) enter p q).better (b.step x (2 * j + 1) enter p q) :: trellisHalf x enter p q (j + 1) rest
  | _, _ => []

/-- One trellis step. -/
def trellisStep (x : Code) (p q : Int) (vs : List Survivor) : List Survivor :=
  trellisHalf x false p q 0 vs ++ trellisHalf x true p q 0 vs

/-- The survivors before the first step: state zero alone. -/
def trellisStart (x : Code) : List Survivor :=
  { metric := 0, path := [] } :: List.replicate (2 ^ (x.k - 1) - 1) { metric := -(2 ^ 30), path := [] }

/-- The best survivor. -/
def bestOf : List Survivor → Survivor
  | [] => { metric := 0, path := [] }
  | v :: vs => vs.foldl Survivor.better v

/-- The decoder over the soft values that are left: past the traceback depth, each step releases the bit that lies that far
behind it on the best path. Answers the bits released, newest first, and the survivors. -/
def trellisRun (x : Code) (depth : Nat) : Nat → List Survivor → List Bool → List Int → List Bool × List Survivor
  | t, vs, done_, p :: q :: rest =>
    let vs1 := trellisStep x p q vs
    trellisRun x depth (t + 1) vs1 (if depth ≤ t then (bestOf vs1).path.getD depth false :: done_ else done_) rest
  | _, vs, done_, _ => (done_, vs)

/-- The bits of a terminated message: the bits released, then the rest of the path that ends in state zero. -/
def decodeSoft (x : Code) (depth : Nat) (soft : List Int) : List Bool :=
  let (done_, vs) := trellisRun x depth 0 (trellisStart x) [] soft
  done_.reverse ++ ((vs.headD { metric := 0, path := [] }).path.take (soft.length / 2 - done_.length)).reverse

/-- Traceback depth of a code at a rate (R99). -/
def traceback (k : Nat) (rate : Nat × Nat) : Nat :=
  match k, rate with
  | 4, _ => 32
  | 7, (3, 4) => 96
  | 7, _ => 64
  | _, (2, 3) => 160
  | _, (3, 4) => 192
  | _, _ => 128

/-- A message of `n` bits, its tail counted, from the soft values sent for it. -/
def decodeCoded (x : Code) (rate : Nat × Nat) (n : Nat) (soft : List Int) : List Bool :=
  decodeSoft x (traceback x.k rate) (fillFrom (punctured rate) (2 * n) 0 soft)

/-- The coded bits sent for a message. -/
def sendCoded (x : Code) (rate : Nat × Nat) (bs : List Bool) : List Bool := punctureFrom (punctured rate) 0 (x.encode bs)

/-! ### Interleaving -/

/-- A block in the order of its places: what the k-th element is placed at. -/
def placed {α : Type} (d : α) (place : Nat → Nat) (xs : List α) : List α :=
  (List.range xs.length).map fun p => match (List.range xs.length).find? fun k => place k == p with
    | some k => xs.getD k d
    | none => d

/-- A block put back into its first order. -/
def unplaced {α : Type} (d : α) (place : Nat → Nat) (xs : List α) : List α :=
  (List.range xs.length).map fun k => xs.getD (place k) d

/-- A rule applied to each block of `n`, for at most `m` blocks. -/
def blockwise {α : Type} (n : Nat) (g : List α → List α) : Nat → List α → List α
  | 0, _ => []
  | m + 1, xs => if xs.isEmpty then [] else g (xs.take n) ++ blockwise n g m (xs.drop n)

/-- A rule applied to every block of `n`. -/
def inBlocks {α : Type} (n : Nat) (g : List α → List α) (xs : List α) : List α := blockwise n g (xs.length / max 1 n + 1) xs

/-! ### ZHR (R92 to R96) -/

/-- FFT points, samples of the cyclic prefix, samples per second (R92). -/
abbrev zhrFft : Nat := 128
abbrev zhrPrefix : Nat := 32
abbrev zhrRateHz : Nat := 1600000

/-- The active tones, −50 to +50 but 0, in ascending order (R92). -/
def zhrTones : List Int := ((List.range 101).map fun k : Nat => (k : Int) - 50).filter fun t => t != 0

/-- Whether a tone carries a pilot: ±5, ±15, ±25, ±35, ±45 (R92). -/
def zhrPilot (t : Int) : Bool := t.natAbs % 10 == 5

/-- The ninety data tones, in ascending order (R92). -/
def zhrDataTones : List Int := zhrTones.filter fun t => ! zhrPilot t

/-- Bits per tone of a mode (R93). -/
def zhrTone (mode : Nat) : Nat := match mode with
  | 0 => 1 | 1 => 2 | 2 => 2 | 3 => 2 | _ => 4

/-- Where coded bit `k` of a symbol of `n` coded bits is placed (R96). -/
def zhrPlace (n k : Nat) : Nat := n / 10 * (k % 10) + k / 10

/-- The coded bits of whole symbols, interleaved. -/
def zhrInterleave (mode : Nat) (bs : List Bool) : List Bool :=
  let n := 90 * zhrTone mode
  inBlocks n (placed false (zhrPlace n)) bs

/-- Soft values of whole symbols, in coded order. -/
def zhrDeinterleave (mode : Nat) (xs : List Int) : List Int :=
  let n := 90 * zhrTone mode
  inBlocks n (unplaced 0 (zhrPlace n)) xs

/-- The check sequence of a header: over its 29 bits in the order sent, x^8 + x^2 + x + 1 from 0xFF (R95). -/
def zhrHcs (bs : List Bool) : Nat := bs.foldl (crcBit 8 7) 0xFF

/-- The 37 header bits (R95). -/
def zhrHeader (mode len : Nat) (fcs2 pad : Bool) (seed : Nat) : List Bool :=
  let bs := bitsLsb 3 mode ++ bitsLsb 11 len ++ [fcs2, pad] ++ bitsLsb 7 seed ++ bitsLsb 6 0
  bs ++ bitsLsb 8 (zhrHcs bs)

/-- The interleaved coded bits of the PHR symbol: ZM0, with 8 zero tail bits (R94). -/
def zhrPhr (header : List Bool) : List Bool := zhrInterleave 0 (zhrCode.encode (header ++ List.replicate 8 false))

/-- Symbols of a PSDU of `len` octets on air (R94). -/
def zhrSymbols (mode len : Nat) : Nat := ceilDiv (8 * len + 8) (zhrBits mode)

/-- The interleaved coded bits of a PSDU: scrambled, 8 zero tail bits, then scrambled zeros to fill the last symbol (R94).
DESIGN CHOICE: log entry 174. -/
def zhrPsdu (mode seed : Nat) (octets : List Nat) : List Bool :=
  let data := octetBitsLsb octets
  let total := zhrSymbols mode octets.length * zhrBits mode
  let seq := zhrSequence total seed
  let n := data.length
  zhrInterleave mode (sendCoded zhrCode (zhrRate mode)
    (addBits data seq ++ List.replicate 8 false ++ (seq.drop (n + 8)).take (total - (n + 8))))

/-- The octets of a PSDU from its soft values: `len` octets on air, tail and pad dropped. -/
def zhrOctets (mode seed len : Nat) (soft : List Int) : List Nat :=
  let bs := decodeCoded zhrCode (zhrRate mode) (8 * len + 8) (zhrDeinterleave mode soft)
  bitsToOctets len (addBits (bs.take (8 * len)) (zhrSequence (8 * len) seed))

/-! ### MR-OFDM (R91) -/

/-- Copies of each coded bit sent on other tones (frequency repetition), bits per tone, and code rate of an MCS.
PRESUMED: log entry 172. -/
def ofdmCopies (mcs : Nat) : Nat := match mcs with
  | 0 => 4 | 1 => 2 | 2 => 2 | _ => 1
@[inherit_doc ofdmCopies] def ofdmTone (mcs : Nat) : Nat := if mcs ≤ 1 then 1 else if mcs ≤ 4 then 2 else 4
@[inherit_doc ofdmCopies] def ofdmRate (mcs : Nat) : Nat × Nat := if mcs = 4 ∨ mcs = 6 then (3, 4) else (1, 2)

/-- Data tones of an option (R91). -/
def ofdmTones (option : Nat) : Nat := 96 / 2 ^ option

/-- Coded bits of a symbol before they are repeated. -/
def ofdmCoded (option mcs : Nat) : Nat := ofdmTones option * ofdmTone mcs / ofdmCopies mcs

/-- Bits over which the interleaver runs: a symbol's, or with INTERLEAVE_SPAN as many symbols as there are copies.
PRESUMED: log entry 172. -/
def ofdmSpan (option mcs : Nat) (span : Bool) : Nat := ofdmCoded option mcs * (if span then ofdmCopies mcs else 1)

/-- Each symbol's bits sent as often as there are copies. -/
def ofdmRepeat (option mcs : Nat) (bs : List Bool) : List Bool :=
  inBlocks (ofdmCoded option mcs) (fun x => (List.replicate (ofdmCopies mcs) x).flatten) bs

/-- The soft values of the copies of each bit, added up. -/
def ofdmCombine (option mcs : Nat) (xs : List Int) : List Int :=
  let n := ofdmCoded option mcs
  inBlocks (n * ofdmCopies mcs) (fun x => (List.range n).map fun i =>
    (List.range (ofdmCopies mcs)).foldl (fun s k => s + x.getD (i + n * k) 0) 0) xs

/-- The bits of a message on air. -/
def ofdmSend (option mcs : Nat) (span : Bool) (bs : List Bool) : List Bool :=
  let n := ofdmSpan option mcs span
  ofdmRepeat option mcs (inBlocks n (placed false (Config.ofdmPlace n)) (sendCoded ofdmCode (ofdmRate mcs) bs))

/-- A message of `n` bits from its soft values. -/
def ofdmReceive (option mcs : Nat) (span : Bool) (n : Nat) (soft : List Int) : List Bool :=
  let m := ofdmSpan option mcs span
  decodeCoded ofdmCode (ofdmRate mcs) n (inBlocks m (unplaced 0 (Config.ofdmPlace m)) (ofdmCombine option mcs soft))

/-- The MCS of the PHR: the lowest the option defines. PRESUMED: log entry 172. -/
def ofdmPhrMcs (option : Nat) : Nat := match option with
  | 0 => 0 | 1 => 0 | 2 => 1 | _ => 2

/-- The PHR: rate 5, reserved 1, length 11, reserved 2, scrambler 2, reserved 1, HCS 8 bits. PRESUMED: log entry 172. -/
def ofdmHeader (mcs len seed : Nat) : List Bool :=
  let bs := bitsMsb 5 mcs ++ [false] ++ bitsMsb 11 len ++ [false, false] ++ bitsMsb 2 seed ++ [false]
  bs ++ bitsMsb 8 (Config.ofdmHcs bs % 256)

/-- The PSDU's bits: octets, 6 tail bits and a fill to a whole symbol, scrambled but for the tail. -/
def ofdmPsdu (option mcs : Nat) (span : Bool) (seed : Nat) (octets : List Nat) : List Bool :=
  let data := octetBitsLsb octets
  let total := ceilDiv (data.length + 6) (ofdmBits option mcs) * ofdmBits option mcs
  let seq := pn9 total (Config.ofdmSeed seed % 512)
  let n := data.length
  ofdmSend option mcs span (addBits data seq ++ List.replicate 6 false ++ (seq.drop (n + 6)).take (total - (n + 6)))

/-- The octets of a PSDU from its soft values. -/
def ofdmOctets (option mcs : Nat) (span : Bool) (seed len : Nat) (soft : List Int) : List Nat :=
  let bs := ofdmReceive option mcs span (8 * len + 6) soft
  bitsToOctets len (addBits (bs.take (8 * len)) (pn9 (8 * len) (Config.ofdmSeed seed % 512)))

/-! ### MR-FSK (R90) -/

/-- The delimiter of an SFD set, for a coded or an uncoded frame. PRESUMED: log entry 172. -/
def fskSfd (set coded : Bool) : Nat :=
  match set, coded with
  | false, false => 0x904E
  | false, true => 0x6F4E
  | true, false => 0x7A0E
  | true, true => 0x632D

/-- The PHR: mode switch, 2 reserved, FCS type, data whitening, 11 bits of length. PRESUMED: log entry 172. -/
def fskHeader (fcs2 white : Bool) (len : Nat) : List Bool := [false, false, false, fcs2, white] ++ bitsMsb 11 len

/-- The whitening sequence. PRESUMED: log entry 172. -/
def fskWhite (n : Nat) : List Bool := pn9 n 511

/-- The PSDU's bits, whitened or not. -/
def fskPsdu (white : Bool) (octets : List Nat) : List Bool :=
  let data := octetBitsLsb octets
  if white then addBits data (fskWhite data.length) else data

/-- The pairs of coded bits of each sixteen, interleaved as CODE 2 does. -/
def fskInterleave {α : Type} (d : α) (back : Bool) (xs : List α) : List α :=
  let place (k : Nat) : Nat := 2 * (Config.fskPlace (k / 2) % 16) + k % 2
  inBlocks 32 (if back then unplaced d place else placed d place) xs

/-- Header and PSDU coded as one message, its tail and 5 bits of fill behind it. PRESUMED: log entry 172. -/
def fskCoded (sel : Nat) (bs : List Bool) : List Bool :=
  let x := fskCode sel
  let (sent, e) := x.encodeFrom 0 bs
  let out := sent ++ (x.encodeFrom e (x.tail 3 e ++ List.replicate 5 false)).1
  if sel = 2 then fskInterleave false false out else out

/-- A coded message of `n` bits, header and PSDU, from its soft values. -/
def fskDecode (sel n : Nat) (soft : List Int) : List Bool :=
  (decodeCoded (fskCode sel) (1, 2) (n + 3) (if sel = 2 then fskInterleave 0 true soft else soft)).take n

/-- Bits as an uncoded frame's soft values say them: 1 where positive. -/
def hardBits (soft : List Int) : List Bool := soft.map fun x => decide (0 < x)

/-! ### What a lane decodes -/

/-- A PHY header as a lane decodes it (R86, R90, R91, R95). -/
structure PhyHeader where
  /-- MR-FSK 0 uncoded, 1 coded; else the MCS or ZM number. -/
  mode : Nat
  length : Nat
  fcs2 : Bool
  /-- ZHR: the last octet is a pad octet. -/
  pad : Bool
  /-- scrambler seed, or the data whitening bit of MR-FSK. -/
  seed : Nat
  /-- MR-FSK mode-switch bit. -/
  modeSwitch : Bool
  /-- reserved bits of ZHR. -/
  reserved : Nat
  /-- the check sequence agrees; MR-FSK has none. -/
  checked : Bool
  deriving DecidableEq, Repr

/-- A ZHR header from its 37 bits (R95). -/
def zhrParse (bs : List Bool) : PhyHeader :=
  let f (lo w : Nat) : Nat := ofBitsLsb ((bs.drop lo).take w)
  { mode := f 0 3, length := f 3 11, fcs2 := f 14 1 == 1, pad := f 15 1 == 1, seed := f 16 7, modeSwitch := false,
    reserved := f 23 6, checked := f 29 8 == zhrHcs (bs.take 29) }

/-- An MR-OFDM header from its 30 bits: MCS numbers above 6 are no mode of the lane. -/
def ofdmParse (bs : List Bool) : PhyHeader :=
  let f (lo w : Nat) : Nat := ofBitsMsb ((bs.drop lo).take w)
  { mode := f 0 5, length := f 6 11, fcs2 := false, pad := false, seed := f 19 2, modeSwitch := false, reserved := 0,
    checked := f 22 8 == Config.ofdmHcs (bs.take 22) % 256 }

/-- An MR-FSK header from its 16 bits. -/
def fskParse (coded : Bool) (bs : List Bool) : PhyHeader :=
  { mode := b2n coded, length := ofBitsMsb ((bs.drop 5).take 11), fcs2 := bs.getD 3 false, pad := false,
    seed := b2n (bs.getD 4 false), modeSwitch := bs.getD 0 false, reserved := 0, checked := true }

/-- The PHY header a lane of a mode word decodes from the soft values of its header, and for MR-FSK from its delimiter; none
where that is no delimiter of the lane's SFD_SET (R85, R86, R90). -/
def phyHeader (p sfd : Nat) (soft : List Int) : Option PhyHeader :=
  match phyFamily p with
  | 0 =>
    let set := bitOf p 3
    if sfd = fskSfd set false then some (fskParse false (hardBits soft))
    else if sfd = fskSfd set true then some (fskParse true (fskDecode (bitsOf p 4 2) 16 soft))
    else none
  | 1 =>
    let mcs := ofdmPhrMcs (ofdmOption p)
    some (ofdmParse (ofdmReceive (ofdmOption p) mcs (bitOf p 4) 36 soft))
  | _ => some (zhrParse (decodeCoded zhrCode (1, 2) 45 (zhrDeinterleave 0 soft)))

/-- The octets of a PSDU of `len` octets on air, its soft values those of the mode as received; those of a coded MR-FSK frame
begin with its header. -/
def phyOctets (p seed len : Nat) (soft : List Int) : List Nat :=
  match phyFamily p with
  | 0 =>
    let bs := if bitsOf p 6 2 = 1 then (fskDecode (bitsOf p 4 2) (16 + 8 * len) soft).drop 16 else hardBits (soft.take (8 * len))
    bitsToOctets len (if seed = 1 then addBits bs (fskWhite (8 * len)) else bs)
  | 1 => ofdmOctets (ofdmOption p) (phyMode p) (bitOf p 4) seed len soft
  | _ => zhrOctets (phyMode p) seed len soft

/-! ### What goes on air -/

/-- 1 − 2b. -/
def sign (b : Bool) : Int := if b then -1 else 1

/-- A tone's point from its bits (R94): BPSK, QPSK or 16-QAM. -/
def mapTone (t : Int) (bs : List Bool) : Tone :=
  let bit (k : Nat) : Bool := bs.getD k false
  let axis (k : Nat) : Int := (if bit k then 1 else -1) * (if bit (k + 1) then 1 else 3)
  match bs.length with
  | 1 => { index := t, re := - sign (bit 0), im := 0, norm := 1 }
  | 2 => { index := t, re := - sign (bit 0), im := - sign (bit 1), norm := 2 }
  | _ => { index := t, re := axis 0, im := axis 2, norm := 10 }

/-- Tones take consecutive bits, in order. -/
def mapTones (k : Nat) : List Int → List Bool → List Tone
  | [], _ => []
  | t :: ts, bs => mapTone t (bs.take k) :: mapTones k ts (bs.drop k)

/-- The pilots of a symbol, whose bit is `p` (R94). -/
def zhrPilots (p : Bool) : List Tone := (zhrTones.filter zhrPilot).map fun t => { index := t, re := sign p, im := 0, norm := 1 }

/-- Symbols from the coded bits, each with its pilots, in the order of the pilot bits given. -/
def zhrSymbolsOf (k : Nat) : List Bool → List Bool → List AirSymbol
  | [], _ => []
  | p :: ps, bs => .tones (mapTones k zhrDataTones (bs.take (90 * k)) ++ zhrPilots p) :: zhrSymbolsOf k ps (bs.drop (90 * k))

/-- The short training symbol (R94): its tones take the successive bits from the lowest upward. DEDUCED: log entry 214. -/
def zhrStf : AirSymbol :=
  let ts := zhrTones.filter fun t => t.natAbs % 4 == 0 && decide (t.natAbs ≤ 48)
  .tones ((ts.zip (zhrSequence 24 0x7F)).map fun x => { index := x.1, re := sign x.2, im := sign x.2, norm := 2 })

/-- The long training symbol (R94). -/
def zhrLtf : AirSymbol :=
  .tones ((zhrTones.zip (zhrSequence 100 0x55)).map fun x => { index := x.1, re := sign x.2, im := 0, norm := 1 })

/-- A whole ZHR frame (R94). -/
def zhrFrame (mode seed : Nat) (fcs2 pad : Bool) (octets : List Nat) : List AirSymbol :=
  let ps := zhrSequence (1 + zhrSymbols mode octets.length) 0x7F
  [zhrStf, zhrStf, zhrLtf, zhrLtf] ++ zhrSymbolsOf 1 (ps.take 1) (zhrPhr (zhrHeader mode octets.length fcs2 pad seed))
    ++ zhrSymbolsOf (zhrTone mode) (ps.drop 1) (zhrPsdu mode seed octets)

/-- Bits grouped `k` to a symbol. -/
def levels (k : Nat) : Nat → List Bool → List AirSymbol
  | 0, _ => []
  | n + 1, bs => if bs.isEmpty then [] else .level (ofBitsMsb (bs.take k)) :: levels k n (bs.drop k)

/-- A whole MR-FSK frame (R89, R90): preamble of alternating bits, delimiter, header and PSDU; two bits a symbol past the
delimiter under 4-FSK. Whether it is whitened is the standard's choice, a constant of Config. PRESUMED: log entry 172. -/
def fskFrame (p : Nat) (fcs2 : Bool) (octets : List Nat) : List AirSymbol :=
  let coded := bitsOf p 6 2 == 1
  let white := Config.fskWhitens
  let head := (List.replicate (4 * Config.fskPreamble) [false, true]).flatten ++ bitsMsb 16 (fskSfd (bitOf p 3) coded)
  let message := fskHeader fcs2 white octets.length ++ fskPsdu white octets
  let body := if coded then fskCoded (bitsOf p 4 2) message else message
  levels 1 head.length head ++ levels (if fskLevels p = 1 then 2 else 1) body.length body

/-- The PHR and PSDU of an MR-OFDM frame, as the points of its data tones in order; its training symbols and pilots are the
standard's. -/
def ofdmFrame (p seed : Nat) (octets : List Nat) : List AirSymbol :=
  let o := ofdmOption p
  let mcs := phyMode p
  let sym (m : Nat) (bs : List Bool) : List AirSymbol :=
    let n := ofdmTones o * ofdmTone m
    (List.range (ceilDiv bs.length n)).map fun i =>
      .tones (mapTones (ofdmTone m) ((List.range (ofdmTones o)).map Int.ofNat) ((bs.drop (n * i)).take n))
  (Config.ofdmTraining o).map (fun xs => .tones (((List.range xs.length).zip xs).map fun x =>
      { index := x.1, re := x.2.1, im := x.2.2, norm := 1 })) ++ sym (ofdmPhrMcs o) (ofdmSend o (ofdmPhrMcs o) (bitOf p 4)
      (ofdmHeader mcs octets.length seed ++ List.replicate 6 false))
    ++ sym mcs (ofdmPsdu o mcs (bitOf p 4) seed octets)

/-- The symbols of a frame on air, of octets as sent, with a scrambler seed (R90, R91, R94). -/
def phyFrame (p seed : Nat) (fcs2 pad : Bool) (octets : List Nat) : List AirSymbol :=
  match phyFamily p with
  | 0 => fskFrame p fcs2 octets
  | 1 => ofdmFrame p (seed % 4) octets
  | _ => zhrFrame (phyMode p) (1 + seed % 127) fcs2 pad octets

/-- The halves of the 48 bits of a wake pattern, on and off: a 1 is on first (R155, R156). -/
def pageWave (pattern : Nat) : List AirSymbol :=
  (bitsMsb 48 pattern).flatMap fun b => [.level (b2n b), .level (b2n (! b))]

end Sys2Proof.Machine
end

