-- ==== Sys2Proof/Machine/Memory.lean ====
section
/-! DEFINITION. Memory banks, the error code, scrubbing, the march test, DRAM, MRAM and the endpoint tables
(07_memory_and_endpoint_tables.md). -/

namespace Sys2Proof.Machine

/-! ### Addresses (R34) -/

/-- The PTR payload of a word address in a space. -/
abbrev ptrOf (space addr : Nat) : Nat := space * 2 ^ 32 + addr

/-- The space and the word address of a PTR payload. -/
abbrev spaceOf (p : Nat) : Nat := p / 2 ^ 32 % 16
abbrev addrOf (p : Nat) : Nat := p % 2 ^ 32

/-- Words of the installed DRAM (R34, R174); while no training has read the size, of the largest. DEDUCED: log entry 193. -/
def Chip.ddrWords (c : Chip) : Nat :=
  match c.mems.dramSize with
  | 1 => 2 ^ 26 | 2 => 2 ^ 27 | _ => 2 ^ 28

/-- Whether a pointer lies in its space's valid range (R34, R236). -/
def Chip.ptrValid (c : Chip) (p : Nat) : Bool :=
  let a := addrOf p
  match spaceOf p with
  | 0 => decide (a < 0x80000)
  | 1 => decide (a < 0x2000)
  | 2 => decide (a < 0x200000)
  | 3 => decide (a < c.ddrWords)
  | 4 => decide (a < 0x400000)
  | 5 => decide (a < 0x20000)
  | 6 => decide (a < 0x400)
  | 7 => decide (a < 0x30000) || (decide (0x40000 ≤ a) && decide (a < 0x70000))
  | _ => false

/-- The first word of the partner region: the lowest bank that the recipe gives the link controller (R138, R262). -/
def Recipe.partnerBase (r : Recipe) : Nat := 32768 * ((List.range 16).find? fun b => r.linkBanks.testBit b).getD 0

/-- Whether a pointer names a word of the link-owned partner region (R138, R143). -/
def Chip.inPartners (c : Chip) (p : Nat) : Bool :=
  match c.recipe with
  | none => false
  | some r =>
    let lo := r.partnerBase
    spaceOf p == 0 && decide (lo ≤ addrOf p) && decide (addrOf p < lo + 16 * r.partners)

/-- Whether any of `n` words from a pointer on lies in the partner region (R138, R143). -/
def Chip.spanInPartners (c : Chip) (p n : Nat) : Bool :=
  match c.recipe with
  | none => false
  | some r =>
    let lo := r.partnerBase
    spaceOf p == 0 && decide (0 < n) && decide (lo < addrOf p + n) && decide (addrOf p < lo + 16 * r.partners)

/-- How the words of a memory answer: served, refused while its island is stopped or DRAM is not trained, or absent
where the recipe leaves the island off (R12, R175). -/
inductive MemAccess
  | served | stopped | missing
  deriving DecidableEq, Repr

/-- How an island's words answer (R12). -/
def Chip.islandAccess (c : Chip) (i : Island) : MemAccess :=
  match c.island i with
  | .on => .served
  | .absent => .missing
  | _ => .stopped

/-- How the words of a space answer (R12, R175). -/
def Chip.spaceAccess (c : Chip) (space : Nat) : MemAccess :=
  match space with
  | 0 | 1 => c.islandAccess .memD
  | 2 => c.islandAccess .memT
  | 3 => if c.islandAccess .ddr = .served then
      (if c.b Fld.MEM_DDR_STATUS_TRAINED && ! c.b Fld.MEM_DDR_STATUS_TRAIN_FAILED then .served else .stopped)
    else c.islandAccess .ddr
  | 4 => c.islandAccess .mram
  | _ => .served

/-! ### The error code (R163, R164) -/

/-- Doubling in GF(2^8) with the field polynomial 0x11D. -/
def gfDouble (x : Nat) : Nat := if x < 128 then 2 * x else Nat.xor (2 * x) 0x11D

/-- `x` times α^k. -/
def gfShift (x : Nat) : Nat → Nat
  | 0 => x
  | k + 1 => gfDouble (gfShift x k)

/-- The syndrome at α^k of thirteen received bytes, the first the coefficient of x^12 (R163). -/
def syndrome (k : Nat) (bytes : List Nat) : Nat := bytes.foldl (fun s b => Nat.xor (gfShift s k) b) 0

/-- The place of the one byte in error that syndromes `s0`, `s1`, `s2` tell, if one byte explains them. -/
def errorPlace (s0 s1 s2 : Nat) : Option Nat :=
  (List.range 13).find? fun j => gfShift s0 (12 - j) == s1 && gfShift s1 (12 - j) == s2

/-- What decoding a codeword with an error pattern gives (R164). -/
inductive Decoded
  /-- no error seen; the pattern is what is left in the words -/
  | clean (left : List Nat)
  /-- one byte corrected -/
  | corrected (left : List Nat)
  | uncorrectable
  deriving DecidableEq, Repr

/-- Decode an error pattern (R163, R164): the code is linear, so the pattern alone decides. -/
def rsDecode (e : List Nat) : Decoded :=
  let s0 := syndrome 0 e
  let s1 := syndrome 1 e
  let s2 := syndrome 2 e
  if s0 = 0 ∧ s1 = 0 ∧ s2 = 0 then .clean e
  else if s0 = 0 ∨ s1 = 0 ∨ s2 = 0 then .uncorrectable
  else match errorPlace s0 s1 s2 with
    | some j => .corrected (e.set j (Nat.xor (e.getD j 0) s0))
    | none => .uncorrectable

/-- A word as five bytes in the order of R39. -/
def bytesOfWord (w : Word) : List Nat :=
  let n := w.nat + 2 ^ 36 * w.tag.num
  [n % 256, n / 2 ^ 8 % 256, n / 2 ^ 16 % 256, n / 2 ^ 24 % 256, n / 2 ^ 32 % 256]

/-- Five bytes as a number, the first the lowest. -/
def leNat : List Nat → Nat
  | [] => 0
  | b :: bs => b % 256 + 256 * leNat bs

/-- Five bytes as a word; bytes that name no tag, as an undetected error may leave (R164), give a free tag.
DESIGN CHOICE: log entry 50. -/
def wordOfBytes (bs : List Nat) : Word :=
  let n := leNat bs
  let t := match Tag.ofNum (n / 2 ^ 36 % 16) with
    | some t => t
    | none => (Tag.ofNum (Config.freeNat n % 9)).getD .int
  .mk' t (n % 2 ^ 36)

/-- A stored word with five bytes of an error pattern left in it. -/
def disturbed (w : Word) (e : List Nat) : Word :=
  if e.all (· == 0) then w else wordOfBytes ((bytesOfWord w).zipWith Nat.xor e)

/-! ### Stored words -/

/-- Change the memories. -/
def Chip.onMems (c : Chip) (g : Mems → Mems) : Chip := { c with mems := g c.mems }

/-- The word stored at a pointer, its flaws apart. DESIGN CHOICE: log entry 10. -/
def Chip.stored (c : Chip) (p : Nat) : Word := Store.get (.int 0) c.mems.words p

/-- The even address of a pointer's codeword (R41). -/
abbrev evenOf (p : Nat) : Nat := p - p % 2

/-- The error pattern of a codeword. -/
def Chip.flaw (c : Chip) (p : Nat) : List Nat := Store.get [] c.mems.flaws (evenOf p)

/-- Store a codeword: it is encoded afresh, so no flaw is left (R41, R42). -/
def storePair (p : Nat) (w0 w1 : Word) (c : Chip) : Chip :=
  c.onMems fun m => { m with
    words := Store.put (.int 0) (Store.put (.int 0) m.words (evenOf p) w0) (evenOf p + 1) w1
    flaws := Store.put [] m.flaws (evenOf p) [] }

/-- The bank of a word, as a check unit selects it; none where no unit can watch the memory (R160, R307). -/
def portBank (p : Nat) : Option Nat :=
  let a := addrOf p
  match spaceOf p with
  | 0 => some (a / 32768)
  | 1 => some (16 + a / 4096)
  | 2 => some (18 + 4 * (a / 2 ^ 18) + a / 2 % 4)
  | _ => none

/-- Words written at a bank's port reach the check units that watch it (R307). -/
def portWatch (p : Nat) (ws : List Word) (c : Chip) : Chip :=
  match portBank p with
  | some b => chkStream 5 b (ws.flatMap wordBytes) false c
  | none => c

/-- A write of the link table keeps the words it replaces while the timeslots that start within 2048 gr still use them
(R129). -/
def tableNote (p : Nat) (c : Chip) : Chip :=
  let t := c.regN Reg.LINK_TSCH_TABLE
  if c.b Fld.LINK_FEATURE_TSCH && spaceOf p == 1 && decide (t ≤ evenOf p) && decide (evenOf p < t + 2048) then
    let old := [(evenOf p, c.stored (evenOf p), c.now), (evenOf p + 1, c.stored (evenOf p + 1), c.now)]
    { c with radio := { c.radio with tschOld := (c.radio.tschOld.filter fun x => decide (c.now < x.2.2 + 4096)) ++ old } }
  else c

/-- A write of DRAM while it is filled counts as filled (R176). -/
def fillNote (p : Nat) (c : Chip) : Chip :=
  if spaceOf p == 3 && c.mems.ddrFillAt.isSome && ! c.mems.ddrWritten.contains (evenOf p)
  then c.onMems fun m => { m with ddrWritten := evenOf p :: m.ddrWritten } else c

/-- A codeword write: the pair is stored and its words seen at the write port. -/
def writePair (p : Nat) (w0 w1 : Word) (c : Chip) : Chip := portWatch p [w0, w1] (storePair p w0 w1 (tableNote p (fillNote p c)))

/-- The corrected and uncorrectable counters of a space (R187). -/
def eccCounters (space : Nat) : Field × Field :=
  match space with
  | 0 => (Fld.MEM_ECC_COUNTS_DATA_CORRECTED, Fld.MEM_ECC_COUNTS_DATA_UNCORRECTABLE)
  | 1 => (Fld.MEM_ECC_COUNTS_DP_CORRECTED, Fld.MEM_ECC_COUNTS_DP_UNCORRECTABLE)
  | 2 => (Fld.MEM_ECC_COUNTS_TABLE_CORRECTED, Fld.MEM_ECC_COUNTS_TABLE_UNCORRECTABLE)
  | 3 => (Fld.MEM_ECC_COUNTS_DDR_CORRECTED, Fld.MEM_ECC_COUNTS_DDR_UNCORRECTABLE)
  | _ => (Fld.MEM_ECC_COUNTS_RETAIN_CORRECTED, Fld.MEM_ECC_COUNTS_RETAIN_UNCORRECTABLE)

/-- An uncorrectable codeword is counted, recorded and reported (R164). -/
def reportPoison (p : Nat) (c : Chip) : Chip :=
  (((c.bump (eccCounters (spaceOf p)).2).setRegN Reg.MEM_ECC_LAST (evenOf p)).setReg Reg.MEM_ECC_LAST_AT
    ⟨.grain, c.grain⟩).raise .mem 0

/-- A codeword as read: its words, and whether it was uncorrectable. -/
structure PairRead where
  even : Word
  odd : Word
  bad : Bool
  deriving DecidableEq, Repr

/-- The word of a read pair that a pointer names. -/
def PairRead.word (r : PairRead) (p : Nat) : Word := if p % 2 = 0 then r.even else r.odd

/-- Read and decode a codeword (R164). -/
def readPair (p : Nat) (c : Chip) : PairRead × Chip :=
  let k := evenOf p
  match rsDecode (c.flaw k) with
  | .clean e => (⟨disturbed (c.stored k) (e.take 5), disturbed (c.stored (k + 1)) ((e.drop 5).take 5), false⟩, c)
  | .corrected e =>
    (⟨disturbed (c.stored k) (e.take 5), disturbed (c.stored (k + 1)) ((e.drop 5).take 5), false⟩,
      c.bump (eccCounters (spaceOf k)).1)
  | .uncorrectable => (⟨.poisoned, .poisoned, true⟩, reportPoison k (storePair k .poisoned .poisoned c))

/-- The second half of a read-modify-write: the word is merged into the pair that was read, and the pair re-encoded. -/
def mergeWord (p : Nat) (w : Word) (r : PairRead) (c : Chip) : Chip :=
  let c1 := tableNote p (fillNote p c)
  portWatch p [w] (if p % 2 = 0 then storePair p w r.odd c1 else storePair p r.even w c1)

/-- The word a pointer names, as its codeword decodes. -/
def Chip.peek (c : Chip) (p : Nat) : Word := (readPair p c).1.word p

/-- The flawed codewords of `n` words from a pointer on that a test names are read: what their decoding counts, poisons and reports
(R164). -/
def readFlaws (sel : List Nat → Bool) (p n : Nat) (c : Chip) : Chip :=
  (c.mems.flaws.filter fun e => decide (evenOf p ≤ e.1) && decide (e.1 < p + n) && sel e.2).foldl (fun c e => (readPair e.1 c).2) c

/-- The codewords of `n` words from a pointer on are read once (R164). -/
abbrev readSpan (p n : Nat) (c : Chip) : Chip := readFlaws (fun _ => true) p n c

/-- Of the codewords of `n` words from a pointer on, those that cannot be corrected are found (R164). -/
abbrev findPoison (p n : Nat) (c : Chip) : Chip := readFlaws (fun e => rsDecode e == .uncorrectable) p n c

/-- Write one word: the pair is read and corrected, the word merged, the pair re-encoded (R42, R43). -/
def writeWord (p : Nat) (w : Word) (c : Chip) : Chip :=
  let (r, c1) := readPair p c
  mergeWord p w r c1

/-- Atomic add at the bank, its operand's tag already checked at launch (R165). DEDUCED: log entry 61. -/
def atomicAdd (p : Nat) (x : Word) (c : Chip) : Word × Chip :=
  let (r, c1) := readPair p c
  if r.bad then (refused .poisoned, c1)
  else
    let old := r.word p
    match old.tag with
    | .int => (old, mergeWord p ⟨.int, old.payload + x.payload⟩ r c1)
    | .grain => (old, mergeWord p ⟨.grain, old.payload + x.payload⟩ r c1)
    | .poison => (refused .poisoned, c1)
    | _ => (refused .badArg, c1)

/-- Atomic swap at the bank (R165). -/
def atomicSwap (p : Nat) (x : Word) (c : Chip) : Word × Chip :=
  let (r, c1) := readPair p c
  if r.bad then (refused .poisoned, c1) else (r.word p, mergeWord p x r c1)

/-! ### MRAM (R180) -/

/-- Read a word of the MRAM window. -/
def readMram (a : Nat) (c : Chip) : Word × Chip :=
  if 0x3A0000 ≤ a ∧ a < 0x3C0000 then (.absent, c)
  else
    match Store.get 0 c.mems.mramFlaws (a / 8) with
    | 0 => (.bits (Store.get 0 c.mems.mram a), c)
    | 1 | 2 => (.bits (Store.get 0 c.mems.mram a), c.bump Fld.MEM_ECC_COUNTS_MRAM_CORRECTED)
    | _ => (.poisoned, c.bump Fld.MEM_ECC_COUNTS_MRAM_UNCORRECTABLE)

/-- Write 32 bits of MRAM: the line is encoded afresh. -/
def writeMram (a n : Nat) (c : Chip) : Chip :=
  c.onMems fun m => { m with
    mram := Store.put 0 m.mram a (n % 2 ^ 32)
    mramFlaws := Store.put 0 m.mramFlaws (a / 8) 0 }

/-- One octet of MRAM by byte address, as stored. -/
def Chip.mramByte (c : Chip) (b : Nat) : Nat := Store.get 0 c.mems.mram (b / 4) / 256 ^ (b % 4) % 256

/-- Octets of MRAM from a byte address, as stored. -/
def Chip.mramBytes (c : Chip) (b n : Nat) : List Nat := (List.range n).map fun i => c.mramByte (b + i)

/-- A little-endian number of `n` octets of MRAM. -/
def Chip.mramLe (c : Chip) (b n : Nat) : Nat := leNat (c.mramBytes b n)

/-- Whether any line of a range of MRAM is uncorrectable (R180). -/
def Chip.mramBad (c : Chip) (b n : Nat) : Bool :=
  c.mems.mramFlaws.any fun e => decide (2 < e.2) && decide (b / 32 ≤ e.1) && decide (e.1 * 32 < b + n)

/-- The lines of a range of MRAM are read: corrected and uncorrectable ones are counted (R180). -/
def mramLines (b n : Nat) (c : Chip) : Chip :=
  (c.mems.mramFlaws.filter fun e => decide (b / 32 ≤ e.1) && decide (e.1 * 32 < b + n)).foldl (fun c e =>
    c.bump (if e.2 ≤ 2 then Fld.MEM_ECC_COUNTS_MRAM_CORRECTED else Fld.MEM_ECC_COUNTS_MRAM_UNCORRECTABLE)) c

/-- Write one octet of MRAM. -/
def writeMramByte (b v : Nat) (c : Chip) : Chip :=
  writeMram (b / 4) (putBits (Store.get 0 c.mems.mram (b / 4)) (8 * (b % 4)) 8 v) c

/-- Write octets of MRAM from a byte address. -/
def writeMramBytes (b : Nat) : List Nat → Chip → Chip
  | [], c => c
  | v :: vs, c => writeMramBytes (b + 1) vs (writeMramByte b v c)

/-! ### The two ports of the dual-port banks, and waits at a bank (R166, R167) -/

/-- What a port did in the present grain. -/
def PortUse.inGrain (u : Option PortUse) (now : Nat) : PortUse :=
  match u with
  | some x => if x.at_ = now then x else ⟨now, [], []⟩
  | none => ⟨now, [], []⟩

/-- A port's use with one more access. -/
def PortUse.note (u : PortUse) (reads : List Nat) (writes : List (Nat × Word × Word)) : PortUse :=
  { u with reads := reads ++ u.reads, writes := writes ++ u.writes }

/-- The words a port wrote in a codeword. -/
def PortUse.writesIn (u : PortUse) (k : Nat) : List (Nat × Word × Word) := u.writes.filter fun x => evenOf x.1 == k

/-- Whether a port reached a codeword. -/
def PortUse.reaches (u : PortUse) (k : Nat) : Bool := u.reads.contains k || ! (u.writesIn k).isEmpty

/-- The counts of two ports that met in one cycle (R166): `a` is what port A writes, `b` what port B writes. A word of
port B that port A writes otherwise is lost; equal words count nothing; any other overlap counts for both. -/
def portsMeet (a b : List (Nat × Word)) (c : Chip) : Chip :=
  match b.find? fun y => a.any fun x => x.1 == y.1 && x.2 != y.2 with
  | some y => (((c.setB Fld.MEM_DP_STATUS_WRITE_LOST true).setF Fld.MEM_DP_STATUS_LOST_ADDR (addrOf y.1)).bump
      Fld.MEM_DP_CONFLICT_PORT_B).raise .mem 3
  | none =>
    if b.any fun y => a.any fun x => x.1 == y.1 then c else (c.bump Fld.MEM_DP_CONFLICT_PORT_A).bump Fld.MEM_DP_CONFLICT_PORT_B

/-- How an access falls with one of the other port to the same codeword earlier in its grain: apart, in the same cycle, or
in the second cycle of a single-word write, where it waits. The spec fixes no cycle within a grain: a free value decides.
DESIGN CHOICE: log entry 160. -/
def sameCycle (earlier : PortUse) (k : Nat) (waits : Field) (c : Chip) : Bool × Chip :=
  if ! earlier.reaches k then (false, c)
  else
    let (n, c1) := takeFree 4 c
    if n = 1 then (true, c1)
    else if n = 2 ∧ (earlier.writesIn k).length = 1 then (false, c1.bump waits)
    else (false, c1)

/-- The two ports of the dual-port banks: A of the core, the ticket engines and the host, B of the link controller (R160). -/
inductive DpPort
  | a | b
  deriving DecidableEq, Repr

/-- The other port. -/
def DpPort.other : DpPort → DpPort
  | .a => .b
  | .b => .a

/-- The counter of a port's conflicts (R166). -/
def DpPort.waits : DpPort → Field
  | .a => Fld.MEM_DP_CONFLICT_PORT_A
  | .b => Fld.MEM_DP_CONFLICT_PORT_B

/-- What a port did in the present grain. -/
def Chip.portUse (x : DpPort) (c : Chip) : PortUse :=
  PortUse.inGrain (match x with | .a => c.mems.portA | .b => c.mems.portB) c.now

/-- An access through a port. -/
def portNote (x : DpPort) (reads : List Nat) (writes : List (Nat × Word × Word)) (c : Chip) : Chip :=
  let u := some ((c.portUse x).note reads writes)
  match x with
  | .a => c.onMems fun m => { m with portA := u }
  | .b => c.onMems fun m => { m with portB := u }

/-- Words as a word of a port's write in the same cycle left them: a read takes what the write replaced (R166). -/
def beforeWrites (p : Nat) (ws : List Word) (writes : List (Nat × Word × Word)) : List Word :=
  (ws.zip (List.range ws.length)).map fun x =>
    match writes.find? fun y => y.1 == p + x.2 with
    | some y => y.2.1
    | none => x.1

/-- Words of one codeword were read through a port (R166). -/
def portRead (x : DpPort) (p : Nat) (ws : List Word) (c : Chip) : List Word × Chip :=
  if spaceOf p ≠ 1 ∨ c.spaceAccess 1 ≠ .served then (ws, c)
  else
    let k := evenOf p
    let (met, c1) := sameCycle (c.portUse x.other) k x.waits (portNote x [k] [] c)
    if met then
      let theirs := (c.portUse x.other).writesIn k
      (beforeWrites p ws theirs, portsMeet [] (theirs.map fun y => (y.1, y.2.2)) c1)
    else (ws, c1)

/-- Words of one codeword were written through port A, `olds` before them: in one cycle with a write of port B they stand
(R166). -/
def portAWrite (p : Nat) (ws olds : List Word) (c : Chip) : Chip :=
  if spaceOf p ≠ 1 ∨ c.spaceAccess 1 ≠ .served then c
  else
    let k := evenOf p
    let mine := (List.range ws.length).map fun i => (p + i, olds.getD i (.int 0), ws.getD i (.int 0))
    let (met, c1) := sameCycle (c.portUse .b) k Fld.MEM_DP_CONFLICT_PORT_A (portNote .a [] mine c)
    if met then portsMeet (mine.map fun y => (y.1, y.2.2)) (((c.portUse .b).writesIn k).map fun y => (y.1, y.2.2)) c1 else c1

/-- Whether master `m` reaches the banks of a memory at all (R160, R167): the link controller no table SRAM, the ROM loader neither
memory, and no master of an island that the recipe leaves off. -/
def Chip.bankMaster (c : Chip) (m space : Nat) : Bool :=
  match m with
  | 0 | 4 => c.island .core != .absent
  | 1 => space == 0 && c.island .link != .absent
  | 3 => c.island .chain != .absent
  | 7 => false
  | _ => true

/-- A count of cycles that master `m` waited for banks of one memory, as a reader of its register finds it: it has gone up by
a free amount since it was last read or written, to its ceiling, which for the chain is that of A1 erratum E4; that of a master
which makes no access to the memory stands (R160, R167). DESIGN CHOICE: log entry 161. -/
def bankWaits (m : Nat) (space : Nat) (x : Field) (c : Chip) : Chip :=
  if c.spaceAccess space ≠ .served ∨ c.bankMaster m space = false then c
  else
    let (n, c1) := takeFree (2 ^ 16) c
    c1.setF x (max (c.f x) (min (if m = 3 then 0x7FFF else 0xFFFF) (c.f x + n)))

/-- A read of MEM_CONFLICT_m. -/
def readConflict (m : Nat) (c : Chip) : Word × Chip :=
  let c1 := bankWaits m 2 (Fld.MEM_CONFLICT_TABLE_WAITS m) (bankWaits m 0 (Fld.MEM_CONFLICT_DATA_WAITS m) c)
  (c1.reg (Reg.MEM_CONFLICT m), c1)

/-! ### Words of any memory space, as a master sees them -/

/-- Read one word of spaces 0 to 4 and 6, its address in range (R12, R34, R164, R180). -/
def readMem (p : Nat) (c : Chip) : Word × Chip :=
  match c.spaceAccess (spaceOf p) with
  | .missing => (.absent, c)
  | .stopped => (c.stateRefused, c)
  | .served =>
    if spaceOf p = 4 then readMram (addrOf p) c
    else
      let (r, c1) := readPair p c
      (r.word p, c1)

/-- Write one word of spaces 0 to 3 and 6: discarded with REG_REJECT where the memory does not serve (R12, R38). -/
def writeMem (p : Nat) (w : Word) (c : Chip) : Chip :=
  match c.spaceAccess (spaceOf p) with
  | .served => writeWord p w c
  | _ => c.regReject

/-- Read a pair of words at an even address: one read of their codeword, or of their MRAM line. -/
def readMemPair (p : Nat) (c : Chip) : List Word × Chip :=
  match c.spaceAccess (spaceOf p) with
  | .missing => ([.absent, .absent], c)
  | .stopped => ([c.stateRefused, c.stateRefused], c)
  | .served =>
    if spaceOf p = 4 then
      let (w, c1) := readMram (addrOf p) c
      ([w, (readMram (addrOf p + 1) c).1], c1)
    else
      let (r, c1) := readPair p c
      ([r.even, r.odd], c1)

/-- A master of port A or B reads one word of any memory space (R160). -/
def readWordBy (x : DpPort) (p : Nat) (c : Chip) : Word × Chip :=
  let (w, c1) := readMem p c
  let (ws, c2) := portRead x p [w] c1
  (ws.headD .absent, c2)

/-- A master of port A writes one word of any memory space (R160). -/
def writeWordByA (p : Nat) (w : Word) (c : Chip) : Chip := portAWrite p [w] [c.stored p] (writeMem p w c)

/-! ### Buffers of octets (R200) -/

/-- What reading a buffer gives: its octets, or the status it fails with. -/
inductive Octets
  | ok (xs : List Nat)
  | fail (w : Word)
  deriving DecidableEq, Repr

/-- A master of a port reads words one after another; a word that is not BITS with bits 35:32 zero fails the buffer. -/
def readBuffer (x : DpPort) (p : Nat) : Nat → Chip → Octets × Chip
  | 0, c => (.ok [], c)
  | n + 1, c =>
    let (w, c1) := readWordBy x p c
    match w.tag with
    | .poison => (.fail (refused .poisoned), c1)
    | .refused => (.fail w, c1)
    | .bits =>
      if w.nat < 2 ^ 32 then
        match readBuffer x (p + 1) n c1 with
        | (.ok xs, c2) => (.ok ([w.nat % 256, w.nat / 2 ^ 8 % 256, w.nat / 2 ^ 16 % 256, w.nat / 2 ^ 24 % 256] ++ xs), c2)
        | r => r
      else (.fail (refused .badArg), c1)
    | _ => (.fail (refused .badArg), c1)

/-- A master of a port reads `n` octets from a buffer of 4 octets a word. -/
def readOctetsBy (x : DpPort) (p n : Nat) (c : Chip) : Octets × Chip :=
  match readBuffer x p (ceilDiv n 4) c with
  | (.ok xs, c1) => (.ok (xs.take n), c1)
  | r => r

/-- A ticket engine reads `n` octets from a buffer. -/
abbrev readOctets (p n : Nat) (c : Chip) : Octets × Chip := readOctetsBy .a p n c

/-- Write words of BITS, 4 octets each, the last zero-filled. -/
def writeOctetsFuel (p : Nat) : Nat → List Nat → Chip → Chip
  | 0, _, c => c
  | _ + 1, [], c => c
  | k + 1, xs, c => writeOctetsFuel (p + 1) k (xs.drop 4) (writeWordByA p (.bits (leNat (xs.take 4))) c)

/-- A ticket engine writes octets to a buffer of 4 octets a word. -/
def writeOctets (p : Nat) (xs : List Nat) (c : Chip) : Chip := writeOctetsFuel p xs.length xs c

/-- Whether a buffer of `n` octets at an argument word is well placed in one of the spaces allowed (R35). -/
def Chip.bufferOk (c : Chip) (w : Word) (n : Nat) (spaces : List Nat) : Bool :=
  w.tag == .ptr && spaces.contains (spaceOf w.nat) && c.ptrValid w.nat &&
    c.ptrValid (w.nat + (ceilDiv n 4 - 1)) && spaceOf (w.nat + (ceilDiv n 4 - 1)) == spaceOf w.nat

/-- Whether a destination of `n` octets is well placed and keeps out of the partner region (R35, R138). -/
def Chip.destOk (c : Chip) (w : Word) (n : Nat) (spaces : List Nat) : Bool :=
  c.bufferOk w n spaces && (List.range (max 1 (ceilDiv n 4))).all fun i => ! c.inPartners (w.nat + i)

/-! ### Scrubbing and faults (R168, R169) -/

/-- How many bits of a byte are 1. -/
def bitsSet (n : Nat) : Nat := ((List.range 8).filter fun i => n.testBit i).length

/-- Whether the fill has passed a codeword of DRAM, at 4 × 10^9 bytes per second, 8 bytes a word, or a write has filled it
(R176, R179); where no fill runs, it has. DESIGN CHOICE: log entry 220. -/
def Chip.ddrReached (c : Chip) (p : Nat) : Bool :=
  match c.mems.ddrFillAt with
  | none => true
  | some g => decide (addrOf (evenOf p) + 2 ≤ (c.now - g) * 500000000 / 67108864) || c.mems.ddrWritten.contains (evenOf p)

/-- Faults that reach storage: erroneous bytes are added to what a codeword holds (R164), erroneous bits to a line of MRAM
(R180). A codeword of DRAM that the fill has not reached is read without the device and then filled, so what hits it is not seen
(R176). DEDUCED: log entry 55. -/
def addFlaw (p : Nat) (e : List Nat) (c : Chip) : Chip :=
  if spaceOf p = 4 then
    let k := addrOf p / 8
    c.onMems fun m => { m with mramFlaws := Store.put 0 m.mramFlaws k (Store.get 0 m.mramFlaws k + (e.map bitsSet).sum) }
  else if spaceOf p = 3 ∧ c.ddrReached p = false then c
  else
  let old := octetsTo 13 (c.flaw p)
  let new := old.zipWith Nat.xor (octetsTo 13 e)
  c.onMems fun m => { m with flaws := Store.put [] m.flaws (evenOf p) (if new.all (· == 0) then [] else new) }

/-- Several codewords are hit by faults. -/
def addFlaws (es : List (Nat × List Nat)) (c : Chip) : Chip := es.foldl (fun c e => addFlaw e.1 e.2 c) c

/-- The scrubber reads a codeword and rewrites it corrected (R168). -/
def scrubPair (p : Nat) (c : Chip) : Chip :=
  let (r, c1) := readPair p c
  if r.bad then c1 else storePair p r.even r.odd c1

/-- The place of a codeword within its bank, counted in codewords (R160). -/
def bankPlace (p : Nat) : Nat :=
  let a := addrOf p
  match spaceOf p with
  | 0 => a % 32768 / 2
  | 1 => a % 4096 / 2
  | 2 => a % 2 ^ 18 / 8
  | _ => a / 2

/-- Codewords per bank of a space (R168). -/
def Chip.bankCodewords (c : Chip) (space : Nat) : Nat :=
  match space with
  | 0 => 16384 | 1 => 2048 | 2 => 32768 | 3 => c.ddrWords / 2 | _ => 512

/-- The enable bit and the interval register of the scrubber of a space (R168, R187). -/
def scrubControl (space : Nat) : Field × Nat :=
  match space with
  | 0 => (Fld.MEM_ECC_CTRL_SCRUB_DATA, Reg.MEM_SCRUB_SRAM_INTERVAL)
  | 1 => (Fld.MEM_ECC_CTRL_SCRUB_DP, Reg.MEM_SCRUB_SRAM_INTERVAL)
  | 2 => (Fld.MEM_ECC_CTRL_SCRUB_TABLE, Reg.MEM_SCRUB_TABLE_INTERVAL)
  | 3 => (Fld.MEM_ECC_CTRL_SCRUB_DDR, Reg.MEM_SCRUB_DDR_INTERVAL)
  | _ => (Fld.MEM_ECC_CTRL_SCRUB_DATA, Reg.MEM_SCRUB_SRAM_INTERVAL)

/-- Decode and repair every flawed codeword a test names. -/
def scrubWhere (sel : Nat → Bool) (c : Chip) : Chip :=
  (c.mems.flaws.filter fun e => sel e.1).foldl (fun c e => scrubPair e.1 c) c

/-- The scrubber takes one codeword of each bank of a memory, its interval over (R168). A flawless codeword is
rewritten as it was. DEDUCED: log entry 58. -/
def scrubRead (space : Nat) (c : Chip) : Chip :=
  let (en, iv) := scrubControl space
  let interval := c.regN iv
  let due := Store.get 0 c.mems.scrubDue space
  let pos := Store.get 0 c.mems.scrubPos space
  let size := c.bankCodewords space
  if c.spaceAccess space == .served && c.b en && decide (due ≤ c.now) && c.awake then
    let c1 := scrubWhere (fun p => spaceOf p == space && bankPlace p % size == pos) c
    c1.onMems fun m => { m with
      scrubDue := Store.put 0 m.scrubDue space (c.now + interval)
      scrubPos := Store.put 0 m.scrubPos space (if pos + 1 < size then pos + 1 else 0) }
  else c

/-- The space of a scrubbed memory. -/
def scrubSpace : ScrubMemory → Nat
  | .data => 0 | .dualPort => 1 | .table => 2 | .dram => 3 | .retention => 6 | .instruction => 7

/-- An upset as a codeword address and an error pattern. -/
def upsetFlaw (u : Upset) : Nat × List Nat := (ptrOf u.space.toNat u.addr.toNat, u.bytes.map BitVec.toNat)

/-- The full scrub of a restarting memory island ends and its words are served (R13, R169). -/
def memoryScrubDone (i : Island) (c : Chip) : Chip :=
  if c.island i = .restarting then
    let sel : Nat → Bool := fun p => match i with
      | .memD => spaceOf p == 0 || spaceOf p == 1
      | .memT => spaceOf p == 2
      | .ddr => spaceOf p == 3
      | _ => false
    (scrubWhere sel c).setIsland i .on
  else c

/-! ### The march test (R170, R171) -/

/-- Segments of data SRAM, and of both memories. -/
abbrev dataSegments : Nat := 2048
abbrev allSegments : Nat := 10240

/-- The bank whose spare serves segment `g`: a table segment takes the spares of the bank its number selects among the
four of its group. DEDUCED: log entry 60. -/
def segmentBank (g : Nat) : Nat :=
  if g < dataSegments then g / 128 else 16 + 4 * ((g - dataSegments) / 1024) + (g - dataSegments) % 4

/-- The first address of segment `g`. -/
def segmentAddr (g : Nat) : Nat := if g < dataSegments then ptrOf 0 (256 * g) else ptrOf 2 (256 * (g - dataSegments))

/-- Whether the memory of segment `g` is enabled for the test and served. -/
def Chip.marchEnabled (c : Chip) (g : Nat) : Bool :=
  if g < dataSegments then c.b Fld.MEM_MARCH_CTRL_DATA && c.spaceAccess 0 == .served
  else c.b Fld.MEM_MARCH_CTRL_TABLE && c.spaceAccess 2 == .served

/-- The segment to visit: the next one, or the first of the other memory where its own is not enabled (R170). -/
def Chip.marchSegment (c : Chip) : Option Nat :=
  let g := if c.mems.march < allSegments then c.mems.march else 0
  if c.marchEnabled g then some g
  else if c.marchEnabled 0 then some 0
  else if c.marchEnabled dataSegments then some dataSegments else none

/-- How many spares of a bank hold retired segments. -/
def Chip.sparesUsed (c : Chip) (bank : Nat) : Nat := (c.mems.redirected.filter fun g => segmentBank g == bank).length

/-- The octets of the MRAM log that record a retirement (R355). -/
abbrev retireRecord (k : Nat) : Nat := 0xE04000 + 8 * (k % 192)

/-- A segment that failed its test is retired to its spare, and recorded in the MRAM log (R171, R355); the spec does not lay
out the log's entries, so what an entry holds is two free values. DESIGN CHOICE: log entry 51. -/
def retireSegment (g : Nat) (c : Chip) : Chip :=
  let (x, ca) := takeFree (2 ^ 32) c
  let (y, cb) := takeFree (2 ^ 32) ca
  let slot := retireRecord c.mems.retired.length / 4
  let c1 := ((writeMram (slot + 1) y (writeMram slot x cb)).onMems fun m => { m with
    retired := m.retired ++ [g]
    redirected := m.redirected ++ [g] }).setRegN Reg.MEM_MARCH_LAST_RETIRED (segmentAddr g)
  (c1.setF Fld.MEM_MARCH_STATUS_RETIRED c1.mems.redirected.length).raise .mem 4

/-- A bank whose spares all hold retired segments is not tested again (R171): it is counted and reported once. -/
def exhaustBank (b : Nat) (c : Chip) : Chip :=
  if c.mems.exhausted.contains b then c
  else
    let c1 := c.onMems fun m => { m with exhausted := m.exhausted ++ [b] }
    (c1.setF Fld.MEM_MARCH_STATUS_EXHAUSTED_BANKS c1.mems.exhausted.length).raise .mem 5

/-- The counts of retired segments and of exhausted banks, as the registers show them. -/
def refreshMarch (c : Chip) : Chip :=
  (c.setF Fld.MEM_MARCH_STATUS_RETIRED c.mems.redirected.length).setF Fld.MEM_MARCH_STATUS_EXHAUSTED_BANKS c.mems.exhausted.length

/-- The retirements that the MRAM records are restored (R171); a record on an uncorrectable line is not read.
DESIGN CHOICE: log entry 51. -/
def restoreRetired (c : Chip) : Chip :=
  let good := ((c.mems.retired.zip (List.range c.mems.retired.length)).filter fun e => ! c.mramBad (retireRecord e.2) 8).map Prod.fst
  let c1 := c.onMems fun m => { m with redirected := good }
  refreshMarch (c1.onMems fun m => { m with exhausted := (List.range 48).filter fun b => decide (4 ≤ c1.sparesUsed b) })

/-- The march tester takes a segment: its COPY begins, unless its bank has no free spare (R170, R171); a segment retired before
is passed over. -/
def marchSegmentStep (fails : Bool) (c : Chip) : Chip :=
  match c.marchSegment with
  | none => c
  | some g =>
    if c.mems.marchDue ≤ c.now ∧ c.awake = true ∧ c.mems.marchRun = none then
      let c1 := (c.onMems fun m => { m with march := g + 1, marchDue := c.now + c.regN Reg.MEM_MARCH_INTERVAL })
      if c1.mems.redirected.contains g then c1
      else if 4 ≤ c1.sparesUsed (segmentBank g) then exhaustBank (segmentBank g) c1
      else
        (((c1.setB Fld.MEM_MARCH_STATUS_IN_TABLE (decide (dataSegments ≤ g))).setF Fld.MEM_MARCH_STATUS_SEGMENT
          (if g < dataSegments then g else g - dataSegments)).setF Fld.MEM_MARCH_STATUS_PHASE 1).onMems fun m => { m with
            marchRun := some { segment := g, fails := fails, phase := 1, done_ := 0 } }
    else c

/-- The tester copies codeword `k` of a segment, out or back: it is decoded as any read is (R164, R170). -/
def marchCopy (g k : Nat) (c : Chip) : Chip := scrubWhere (fun p => evenOf p == segmentAddr g + 2 * k) c

/-- The steps of a phase: 128 codewords are copied out or back, and a test is 1280 codeword operations (R170). -/
def marchSteps (phase : Nat) : Nat := if phase = 2 then 1280 else 128

/-- A phase of a segment's test is over (R170, R171): COPY leads to TEST; TEST to COPY_BACK, or to retirement where it failed;
COPY_BACK to IDLE. -/
def marchNext (r : MarchRun) (c : Chip) : Chip :=
  if r.phase = 1 then (c.setF Fld.MEM_MARCH_STATUS_PHASE 2).onMems fun m => { m with marchRun := some { r with phase := 2, done_ := 0 } }
  else if r.phase = 2 ∧ r.fails = false then
    (c.setF Fld.MEM_MARCH_STATUS_PHASE 3).onMems fun m => { m with marchRun := some { r with phase := 3, done_ := 0 } }
  else
    let c1 := (c.setF Fld.MEM_MARCH_STATUS_PHASE 0).onMems fun m => { m with marchRun := none }
    if r.phase = 2 then
      let c2 := retireSegment r.segment c1
      if 4 ≤ c2.sparesUsed (segmentBank r.segment) then exhaustBank (segmentBank r.segment) c2 else c2
    else c1

/-- A grain of the march tester: it comes on by as many codewords or operations as the banks served it, which the spec leaves
to timing. DESIGN CHOICE: log entry 59. -/
def marchGrain (c : Chip) : Chip :=
  match c.mems.marchRun with
  | none => c
  | some r =>
    let (n, c1) := takeFree 8 c
    let r1 : MarchRun := { r with done_ := min (marchSteps r.phase) (r.done_ + n) }
    let c2 := if r.phase = 2 then c1
      else (List.range (r1.done_ - r.done_)).foldl (fun c i => marchCopy r.segment (r.done_ + i) c) c1
    if r1.done_ = marchSteps r.phase then marchNext r1 c2 else c2.onMems fun m => { m with marchRun := some r1 }

/-- The test of a segment of a memory whose island stops is given up. -/
def marchStop (sel : Nat → Bool) (c : Chip) : Chip :=
  match c.mems.marchRun with
  | some r => if sel r.segment then (c.setF Fld.MEM_MARCH_STATUS_PHASE 0).onMems fun m => { m with marchRun := none } else c
  | none => c

/-- MARCH_SEGMENT (R170). -/
def execMarchSegment (fails : Bool) (s : State) : Host.Outcome State Fault Refusal := onChip (marchSegmentStep fails) s

/-! ### Retention (R172, R173) -/

/-- The contents of a memory are lost: its words read INT zero until written (R172, R346). -/
def loseWords (sel : Nat → Bool) (c : Chip) : Chip :=
  c.onMems fun m => { m with words := Store.drop m.words sel, flaws := Store.drop m.flaws sel }

/-- Whether a retained word lies in a data bank or in retention SRAM. -/
def retainedWord (mask p : Nat) : Bool := (spaceOf p == 0 && mask.testBit (addrOf p / 32768)) || spaceOf p == 6

/-- Decode every retained codeword at a wake, poisoning and flagging the bad ones (R173). DEDUCED: log entry 56. -/
def retainCheck (mask : Nat) (c : Chip) : Chip :=
  (c.mems.flaws.filter fun e => retainedWord mask e.1).foldl (fun c e =>
    let (r, c1) := readPair e.1 c
    if r.bad then
      let c2 := if spaceOf e.1 = 6 then c1.setB Fld.MEM_RETAIN_STATUS_RETAIN_SRAM_LOST true
        else c1.setF ⟨Reg.MEM_RETAIN_STATUS, addrOf e.1 / 32768 % 16, 1⟩ 1
      (c2.setB Fld.PWR_WAKE_STATUS_RETAIN true).raise .mem 1
    else storePair e.1 r.even r.odd c1) c

/-- The memories that were lost in a sleep are written with INT zero at the wake, so no fault of the sleep is left in them
(R172). -/
def clearLost (keep : Nat → Bool) (c : Chip) : Chip := loseWords (fun p => decide (spaceOf p ≤ 3) && ! keep p) c

/-- RETENTION_SUPPLY_DIP (R173): the dip is latched; nothing is poisoned by it. -/
def retentionSupplyDip (c : Chip) : Chip :=
  if 5 ≤ c.power ∧ c.power ≤ 6 then (c.setB Fld.MEM_RETAIN_STATUS_SUPPLY_DIP true).raise .mem 2 else c

/-- The faults a dip let in, and its latch (R163, R173). -/
def supplyDip (upsets : List Upset) (c : Chip) : Chip := retentionSupplyDip (addFlaws (upsets.map upsetFlaw) c)

/-- RETENTION_SUPPLY_DIP (R173). -/
def execRetentionSupplyDip (upsets : List Upset) (s : State) : Host.Outcome State Fault Refusal := onChip (supplyDip upsets) s

/-! ### DRAM (R175, R176) -/

/-- MEM_ENDPOINT_LIMIT as R182 gives it; until a training has read the installed size, its reset value.
DEDUCED: log entry 193. -/
def Chip.endpointLimit (c : Chip) : Nat :=
  match c.f Fld.MEM_PARTITION_ENDPOINT_HOME with
  | 0 => 0
  | 1 => c.regN Reg.MEM_ENDPOINT_SRAM
  | _ =>
    if c.mems.ddrFailed then c.regN Reg.MEM_ENDPOINT_SRAM
    else match c.mems.dramSize with
      | 0 => 0 | 1 => 16777216 | _ => 33554432

/-- MEM_ENDPOINT_LIMIT and MEM_FEATURE.MIRROR follow the state of DRAM (R182, R186). -/
def refreshMem (c : Chip) : Chip :=
  (c.setRegN Reg.MEM_ENDPOINT_LIMIT c.endpointLimit).setB Fld.MEM_FEATURE_MIRROR
    (c.island .chain != .absent && c.b Fld.MEM_DDR_STATUS_TRAINED && ! c.b Fld.MEM_DDR_STATUS_TRAIN_FAILED
      && c.f Fld.MEM_DDR_STATUS_SIZE == 3)

/-- Every rate failed, or S11 was skipped (R175). -/
def ddrFailed (c : Chip) : Chip :=
  refreshMem ((((c.setB Fld.MEM_DDR_STATUS_TRAINED false).setB Fld.MEM_DDR_STATUS_TRAIN_FAILED true).setF
    Fld.MEM_DDR_STATUS_TRAIN_RESULT Status.timeout.code).onMems fun m => { m with ddrFailed := true, ddrFillAt := none })

/-- DDR_PWR_EN rises, unless it is high (R413). -/
def ddrPowered (c : Chip) : Chip :=
  if c.isOn .ddr && c.mems.ddrPower.isNone then c.onMems fun m => { m with ddrPower := some c.now } else c

/-- The highest rate code that training tries: that of the recipe (R174, R175). -/
def Chip.ddrTopRate (c : Chip) : Nat :=
  match c.recipe with
  | some r => r.ddrRate
  | none => 3

/-- DRAM is trained at a rate code, never above the recipe's, an installed size code known: after a cold start its words read
INT zero and the fill begins (R174, R175, R176). -/
def ddrTrained (size rate : Nat) (cold : Bool) (c : Chip) : Chip :=
  let c1 := (((((c.setF Fld.MEM_DDR_STATUS_SIZE size).setF Fld.MEM_DDR_STATUS_RATE (min rate c.ddrTopRate)).setB
    Fld.MEM_DDR_STATUS_TRAINED true).setB Fld.MEM_DDR_STATUS_TRAIN_FAILED false).setF Fld.MEM_DDR_STATUS_TRAIN_RESULT 0).onMems
      fun m => { m with
        dramSize := size
        ddrFailed := false
        ddrFillAt := if cold then some c.now else m.ddrFillAt
        ddrWritten := if cold then [] else m.ddrWritten }
  refreshMem (if cold then (loseWords (fun p => spaceOf p == 3) c1).setB Fld.MEM_DDR_STATUS_INIT_DONE false else c1)

/-- DDR_FILL_DONE (R176): the fill reaches the end of the installed size. -/
def ddrFillDone (c : Chip) : Chip :=
  if c.isOn .ddr && c.b Fld.MEM_DDR_STATUS_TRAINED && ! c.b Fld.MEM_DDR_STATUS_TRAIN_FAILED
  then (c.setB Fld.MEM_DDR_STATUS_INIT_DONE true).onMems fun m => { m with ddrFillAt := none, ddrWritten := [] } else c

/-- DDR_FILL_DONE (R176). -/
def execDdrFillDone (s : State) : Host.Outcome State Fault Refusal := onChip ddrFillDone s

/-- DRAM transactions outstanding (R177, R248): an operation on a record in DRAM holds one, and a SWEEP its step's, from the step until
they end. What other accesses take of DRAM begins and ends within their command. DESIGN CHOICE: log entry 53. -/
def Chip.dramHeld (c : Chip) : Nat :=
  ((c.tk.orphans ++ c.tk.held).map fun t => if t.state < 3 then (t.dram.map Prod.snd).getD 0 else 0).sum

/-- RETRAIN (R175): discarded with REG_REJECT while transactions are outstanding, or while the DDR island does not
serve. -/
def retrain (c : Chip) : Chip :=
  if ! c.isOn .ddr || c.dramHeld != 0 then c.regReject
  else c.onMems fun m => { m with training := true }

/-- RETRAIN (R175). -/
def execRetrain (s : State) : Host.Outcome State Fault Refusal := onChip retrain s

/-- DRAM_TRAIN_DONE (R175): the size and rate found, or none where every rate failed. -/
def dramTrainDone (found : Option (Nat × Nat)) (c : Chip) : Chip :=
  if c.mems.training && c.isOn .ddr then
    let c0 := c.onMems fun m => { m with training := false }
    match found with
    | some (size, rate) => (ddrTrained size rate (c.b Fld.MEM_DDR_STATUS_TRAIN_FAILED) c0).raise .mem 6
    | none => (ddrFailed c0).raise .mem 6
  else c

/-- DRAM_TRAIN_DONE (R175). -/
def execDramTrainDone (found : Option DdrFound) (s : State) : Host.Outcome State Fault Refusal :=
  onChip (dramTrainDone (found.map fun d => (d.size.val, d.rate.val))) s

/-! ### Endpoint records (R182 to R184) -/

/-- The pointer of endpoint `h`'s record (R182). -/
def Chip.recordPtr (c : Chip) (h : Nat) : Nat :=
  if h < c.regN Reg.MEM_ENDPOINT_SRAM then ptrOf 2 (4 * h) else ptrOf 3 (4 * h)

/-- The first index that names no record: the limit of R182, or, where training has failed, that of the DRAM last read, whose handles
are homed in DRAM still and answer STATE_REFUSED (R175). DEDUCED: log entry 221. -/
def Chip.endpointTop (c : Chip) : Nat :=
  if c.f Fld.MEM_PARTITION_ENDPOINT_HOME = 2 ∧ c.mems.ddrFailed = true then (if c.mems.dramSize = 1 then 16777216 else 33554432)
  else c.regN Reg.MEM_ENDPOINT_LIMIT

/-- The endpoint index an argument names: a HANDLE of kind 1 below the limit (R182). -/
def Chip.endpointOf (c : Chip) (w : Word) : Option Nat :=
  if w.tag = .handle ∧ w.field 34 2 = 1 ∧ w.field 0 34 < c.endpointTop then some (w.field 0 34) else none

/-- The tags of a record's words (R183). -/
abbrev recordTags : List Tag := [.bits, .bits, .int, .bits]

/-- A write of record words takes effect and, with SEND 1, is forwarded (R186). -/
def forwardRecord (h : Nat) (words : List (Nat × Word)) (c : Chip) : Chip :=
  if c.b Fld.MEM_MIRROR_CTRL_SEND then
    if c.mems.forwards.length < 1024 then
      let c1 := c.onMems fun m => { m with forwards := m.forwards ++ [⟨h, words⟩] }
      c1.setF Fld.MEM_MIRROR_STATUS_QUEUED c1.mems.forwards.length
    else ((c.bump Fld.MEM_MIRROR_COUNTS_DROPPED).setB Fld.MEM_MIRROR_STATUS_GAP true).raise .mem 7
  else c

/-- A space-0 buffer of four words at an even address. -/
def Chip.recordBuffer (c : Chip) (w : Word) : Bool :=
  w.tag == .ptr && spaceOf w.nat == 0 && w.nat % 2 == 0 && c.ptrValid w.nat && c.ptrValid (w.nat + 3)

/-- The refusal of a table operation whose memories do not serve, if so (R12, R175). -/
def Chip.recordStopped (c : Chip) (p : Nat) : Bool := c.spaceAccess (spaceOf p) != .served

/-- REC_READ (R184). -/
def recRead (h b : Word) (c : Chip) : Word × Chip :=
  match c.endpointOf h with
  | none => (refused .badArg, c)
  | some i =>
    let p := c.recordPtr i
    if ! c.recordBuffer b || (List.range 4).any (fun k => c.inPartners (b.nat + k)) then (refused .badArg, c)
    else if c.recordStopped p || c.recordStopped b.nat then (c.stateRefused, c)
    else
      let (r0, c1) := readPair p c
      let (r1, c2) := readPair (p + 2) c1
      if r0.bad || r1.bad then (refused .poisoned, c2)
      else (.int 0, writePair (b.nat + 2) r1.even r1.odd (writePair b.nat r0.even r0.odd c2))

/-- REC_WRITE (R184). -/
def recWrite (h b : Word) (c : Chip) : Word × Chip :=
  match c.endpointOf h with
  | none => (refused .badArg, c)
  | some i =>
    let p := c.recordPtr i
    if ! c.recordBuffer b then (refused .badArg, c)
    else if c.recordStopped p || c.recordStopped b.nat then (c.stateRefused, c)
    else
      let (r0, c1) := readPair b.nat c
      let (r1, c2) := readPair (b.nat + 2) c1
      if r0.bad || r1.bad then (refused .poisoned, c2)
      else if [r0.even.tag, r0.odd.tag, r1.even.tag, r1.odd.tag] ≠ recordTags then (refused .badArg, c2)
      else (.int 0, forwardRecord i [(0, r0.even), (1, r0.odd), (2, r1.even), (3, r1.odd)]
        (writePair (p + 2) r1.even r1.odd (writePair p r0.even r0.odd c2)))

/-- REC_TOUCH (R184). -/
def recTouch (h heard w3 : Word) (c : Chip) : Word × Chip :=
  match c.endpointOf h with
  | none => (refused .badArg, c)
  | some i =>
    let p := c.recordPtr i
    if heard.tag ≠ .int ∨ w3.tag ≠ .bits then (refused .badArg, c)
    else if c.recordStopped p then (c.stateRefused, c)
    else (.int 0, forwardRecord i [(2, heard), (3, w3)] (writePair (p + 2) heard w3 c))

/-- REC_ADVANCE (R184). -/
def recAdvance (h heard w3 : Word) (c : Chip) : Word × Chip :=
  match c.endpointOf h with
  | none => (refused .badArg, c)
  | some i =>
    let p := c.recordPtr i
    if heard.tag ≠ .int ∨ w3.tag ≠ .bits then (refused .badArg, c)
    else if c.recordStopped p then (c.stateRefused, c)
    else
      let (r, c1) := readPair (p + 2) c
      let old := r.odd
      if r.bad || old.tag == .poison then (refused .poisoned, c1)
      else if old.tag ≠ .bits then (refused .badArg, c1)
      else if old.field 35 1 = 0 ∨ old.field 0 32 < w3.field 0 32 then
        (.int 1, forwardRecord i [(2, heard), (3, w3)] (writePair (p + 2) heard w3 c1))
      else (.int 0, c1)

/-! ### Sweeps (R185) -/

/-- A HANDLE word of kind 1. -/
def endpointHandle (i : Nat) : Word := .mk' .handle (2 ^ 34 + i)

/-- A master of a port reads words one after another. -/
def readWordsBy (x : DpPort) (p : Nat) : Nat → Chip → List Word × Chip
  | 0, c => ([], c)
  | n + 1, c =>
    let (w, c1) := readWordBy x p c
    let (ws, c2) := readWordsBy x (p + 1) n c1
    (w :: ws, c2)

/-- A ticket engine reads words one after another, such as a descriptor. -/
abbrev readWords (p n : Nat) (c : Chip) : List Word × Chip := readWordsBy .a p n c

/-- Whether a sweep descriptor is well formed (R185). -/
def Chip.sweepOk (c : Chip) (d : List Word) : Bool :=
  let w (k : Nat) := d.getD k .absent
  let filter := (w 2).field 32 4
  let action := (w 2).field 28 4
  (c.endpointOf (w 0)).isSome && (w 1).tag == .int && decide (1 ≤ (w 1).toInt) && decide ((w 1).toInt ≤ 33554432)
    && decide ((w 0).field 0 34 + (w 1).nat ≤ c.endpointTop)
    && (w 2).tag == .bits && decide (filter ≤ 4) && decide (action ≤ 3) && (w 2).field 8 20 == 0
    && (filter != 2 || (w 3).tag == .int)
    && (action != 1 || ((w 4).tag == .ptr && spaceOf (w 4).nat == 0 && c.ptrValid (w 4).nat && (w 5).tag == .int
      && decide (0 ≤ (w 5).toInt) && (decide ((w 5).nat = 0) || (c.ptrValid ((w 4).nat + (w 5).nat - 1) &&
        ! c.spanInPartners (w 4).nat (w 5).nat))))

/-- Whether a record matches a filter (R185). -/
def sweepMatch (filter epoch : Nat) (secs : Payload) (w0 w2 : Word) : Bool :=
  let valid := w0.field 35 1 == 1
  match filter with
  | 0 => true
  | 1 => valid
  | 2 => valid && decide ((w2.payload - secs).toInt < 0)
  | 3 => valid && (w0.field 25 8 != epoch)
  | _ => false

/-- One record of a sweep (R185). -/
def sweepRecord (d : List Word) (s : Sweep) (c : Chip) : Sweep × Chip :=
  let w (k : Nat) := d.getD k .absent
  let filter := (w 2).field 32 4
  let action := (w 2).field 28 4
  let p := c.recordPtr s.next
  let (r0, c1) := readPair p c
  let (r1, c2) := readPair (p + 2) c1
  let poisoned := r0.bad || r1.bad || [r0.even, r0.odd, r1.even, r1.odd].any (fun x => x.tag == .poison)
  let hit := if poisoned then filter == 4 else sweepMatch filter ((w 2).field 0 8) (w 3).payload r0.even r1.even
  if hit && action == 1 && decide ((w 5).nat ≤ s.listed) then ({ s with full := true }, c2)
  else
    let c3 := if ! hit then c2
      else if action = 1 then writeMem ((w 4).nat + s.listed) (endpointHandle s.next) c2
      else if action = 2 then
        let w0 := r0.even.withField 35 1 0
        forwardRecord s.next [(0, w0), (1, r0.odd)] (writePair p w0 r0.odd c2)
      else if action = 3 then forwardRecord s.next [(0, r0.even), (1, r0.odd), (2, r1.even), (3, r1.odd)] c2
      else c2
    ({ s with next := s.next + 1, left := s.left - 1, matched := s.matched + b2n hit,
              poisoned := s.poisoned + b2n (poisoned && ! hit), listed := s.listed + b2n (hit && action == 1),
              full := hit && action == 1 && decide ((w 5).nat ≤ s.listed + 1) }, c3)

/-- The records of one step (R185): at most 4096 in table SRAM or 2048 in DRAM, never across the boundary; a MIRROR
sweep stops at a full forward queue and goes on when there is room. -/
def sweepRecords (d : List Word) : Nat → Sweep → Chip → Sweep × Chip
  | 0, s, c => (s, c)
  | n + 1, s, c =>
    if s.left = 0 ∨ s.full = true ∨ ((d.getD 2 .absent).field 28 4 = 3 ∧ 1024 ≤ c.mems.forwards.length ∧
        c.b Fld.MEM_MIRROR_CTRL_SEND = true) then (s, c)
    else
      let (s1, c1) := sweepRecord d s c
      sweepRecords d n s1 c1

/-- How many records the next step may take. -/
def Chip.sweepStepSize (c : Chip) (s : Sweep) : Nat :=
  let edge := c.regN Reg.MEM_ENDPOINT_SRAM
  if s.next < edge then min 4096 (edge - s.next) else 2048

/-- The end of a sweep: the resume handle and the counts are written back (R185). -/
def sweepFinish (p : Nat) (s : Sweep) (c : Chip) : Word × Chip :=
  let c1 := writeMem (p + 7) (.int s.poisoned) (writeMem (p + 6) (.int s.matched) (writeMem p (endpointHandle s.next) c))
  (if s.full then refused .busy else .int 0, c1)

/-- The words of a descriptor that its FILTER and ACTION need (R185). -/
def sweepNeeds (d : List Word) : List Word :=
  let w (k : Nat) := d.getD k .absent
  d.take 3 ++ (if (w 2).field 32 4 = 2 then [w 3] else []) ++ (if (w 2).field 28 4 = 1 then [w 4, w 5] else [])

/-- One step of a SWEEP from its progress; none of progress at its first step (R185). The result is none while more
steps are needed. -/
def sweepStep (desc : Word) (prog : Option Sweep) (c : Chip) : Option Word × Option Sweep × Chip :=
  if ! (desc.tag == .ptr && spaceOf desc.nat == 0 && c.ptrValid desc.nat && c.ptrValid (desc.nat + 7))
      || c.inPartners desc.nat || c.inPartners (desc.nat + 7) then (some (refused .badArg), none, c)
  else if c.spaceAccess 0 ≠ .served then (some c.stateRefused, none, c)
  else
    let (d, c1) := readWords desc.nat 6 c
    let start : Sweep := { next := (d.getD 0 .absent).field 0 34, left := (d.getD 1 .absent).nat, matched := 0, poisoned := 0,
                           listed := 0, full := false }
    let s0 := prog.getD start
    if (sweepNeeds d).any (fun w => w.tag == .poison) then (some (refused .poisoned), none, c1)
    else if ! c1.sweepOk d then (some (refused .badArg), none, c1)
    else if c1.recordStopped (c1.recordPtr s0.next) then (some c1.stateRefused, none, c1)
    else
      let (s1, c2) := sweepRecords d (c1.sweepStepSize s0) s0 c1
      if s1.left = 0 || s1.full then
        let (w, c3) := sweepFinish desc.nat s1 c2
        (some w, none, c3)
      else (none, some s1, c2)

/-- A whole sweep, its steps one after another. -/
def sweepAll (desc : Word) : Nat → Option Sweep → Chip → Word × Chip
  | 0, _, c => (refused .busy, c)
  | n + 1, prog, c =>
    match sweepStep desc prog c with
    | (some w, _, c1) => (w, c1)
    | (none, prog1, c1) => sweepAll desc n prog1 c1

/-! ### MRAM_WRITE (R181) -/

/-- The first byte of the user area. -/
abbrev userArea : Nat := 0xF00000

/-- One step of MRAM_WRITE: at most 256 octets; `done` octets were written before (R181). -/
def mramWriteStep (src off len : Word) (done_ : Nat) (c : Chip) : Option Word × Nat × Chip :=
  if ! (off.tag == .int && len.tag == .int && decide (0 ≤ off.toInt) && decide (0 ≤ len.toInt)
      && off.nat % 4 == 0 && len.nat % 4 == 0 && decide (4 ≤ len.nat) && decide (len.nat ≤ 65536)
      && decide (off.nat + len.nat ≤ 0x100000) && c.bufferOk src len.nat [0]) then (some (refused .badArg), done_, c)
  else if c.spaceAccess 0 ≠ .served ∨ c.spaceAccess 4 ≠ .served then (some c.stateRefused, done_, c)
  else
    let n := min 256 (len.nat - done_)
    match readOctets (src.nat + done_ / 4) n c with
    | (.fail w, c1) => (some w, done_, c1)
    | (.ok xs, c1) =>
      let c2 := writeMramBytes (userArea + off.nat + done_) xs c1
      if len.nat ≤ done_ + n then (some (.int 0), done_ + n, c2) else (none, done_ + n, c2)

/-- A whole MRAM_WRITE. -/
def mramWriteAll (src off len : Word) : Nat → Nat → Chip → Word × Chip
  | 0, _, c => (refused .badArg, c)
  | n + 1, done_, c =>
    match mramWriteStep src off len done_ c with
    | (some w, _, c1) => (w, c1)
    | (none, d, c1) => mramWriteAll src off len n d c1

/-! ### Mirroring (R186) -/

/-- A forward received over the chain (R186): from SOURCE it is written into the mirror region, from another chip it is
discarded and counted. -/
def mirrorIn (from_ h : Nat) (words : List (Nat × Word)) (c : Chip) : Chip :=
  if ! c.b Fld.MEM_MIRROR_CTRL_ACCEPT then c
  else if c.f Fld.MEM_MIRROR_CTRL_SOURCE ≠ from_ then (c.bump Fld.MEM_MIRROR_COUNTS_REJECTED).raise .mem 8
  else if c.spaceAccess 3 ≠ .served ∨ ¬ c.ptrValid (ptrOf 3 (0x8000000 + 4 * h + 3)) then c
  else
    let at_ (k : Nat) : Nat := ptrOf 3 (0x8000000 + 4 * h + k)
    [0, 2].foldl (fun c k =>
      match words.find? (fun w => w.1 == k), words.find? (fun w => w.1 == k + 1) with
      | some x, some y => writePair (at_ k) x.2 y.2 c
      | some x, none => writeWord (at_ k) x.2 c
      | none, some y => writeWord (at_ (k + 1)) y.2 c
      | none, none => c) c

end Sys2Proof.Machine
end

