-- ==== Sys2Proof/Machine/Mac.lean ====
section
/-! DEFINITION. IEEE 802.15.4-2020 MAC frames as the link controller and the security engine read and build them: the
header, its information elements, the frame check sequence and CCM* (R109 to R117, R124, R151, R196). The layout of the
header is the standard's, which the spec names and does not repeat. -/

namespace Sys2Proof.Machine

/-! ### The header -/

/-- An auxiliary security header. -/
structure Aux where
  /-- offset of the security control octet. -/
  at_ : Nat
  level : Nat
  kidMode : Nat
  /-- the frame counter; none where it is suppressed. -/
  fc : Option Nat
  keyIndex : Nat
  deriving DecidableEq, Repr

/-- A MAC header. -/
structure Mhr where
  type : Nat
  secured : Bool
  pending : Bool
  ar : Bool
  version : Nat
  seq : Option Nat
  dstPan : Option Nat
  /-- addressing mode: 0 none, 2 short, 3 extended; and the address. -/
  dstMode : Nat
  dst : Nat
  srcMode : Nat
  src : Nat
  aux : Option Aux
  /-- header IEs: element identifier and content. -/
  ies : List (Nat × List Nat)
  /-- a header termination 1 IE says that payload IEs follow. -/
  payloadIes : Bool
  /-- octets of the header before its IEs, and of the whole header. -/
  fixedLen : Nat
  hdrLen : Nat
  deriving DecidableEq, Repr

/-- Octets of an address of a mode. -/
def addrLen (mode : Nat) : Nat := if mode = 2 then 2 else if mode = 3 then 8 else 0

/-- Octets of a key identifier of a mode. -/
def kidLen (mode : Nat) : Nat := match mode with
  | 0 => 0 | 1 => 1 | 2 => 5 | _ => 9

/-- Octets of a MIC at a security level. -/
def micLen (level : Nat) : Nat := match level % 4 with
  | 0 => 0 | 1 => 4 | 2 => 8 | _ => 16

/-- A little-endian number of `k` octets at an offset. -/
def octetsLe (o : List Nat) (at_ k : Nat) : Nat := leNat ((o.drop at_).take k)

/-- The octets of a number, least significant first. -/
def leOctets : Nat → Nat → List Nat
  | 0, _ => []
  | k + 1, n => n % 256 :: leOctets k (n / 256)

/-- Whether a destination and a source PAN identifier are present, for a frame version, modes and PAN ID
Compression. -/
def panPresent (version dm sm : Nat) (comp : Bool) : Bool × Bool :=
  if version < 2 then (dm != 0, sm != 0 && ! (comp && dm != 0))
  else if dm == 0 && sm == 0 then (comp, false)
  else if sm == 0 then (! comp, false)
  else if dm == 0 then (false, ! comp)
  else if dm == 3 && sm == 3 then (! comp, false)
  else (true, ! comp)

/-- Whether the standard allows a combination of addressing modes with PAN ID Compression: mode 1 is reserved; in versions 0 and
1 only two addresses compress, a beacon has a source alone, an acknowledgement no address, and data and commands one at least.
PRESUMED: log entry 107. -/
def modesAllowed (type version dm sm : Nat) (comp : Bool) : Bool :=
  dm != 1 && sm != 1 && (decide (2 ≤ version) || (! (comp && (dm == 0 || sm == 0)) &&
    (match type with
      | 0 => dm == 0 && sm != 0
      | 2 => dm == 0 && sm == 0
      | _ => dm != 0 || sm != 0)))

/-- Header IEs from an offset to a termination IE or the end: the IEs, whether payload IEs follow, and the offset after;
none where an IE runs past the end or is no header IE. -/
def parseIes (o : List Nat) : Nat → Nat → Option (List (Nat × List Nat) × Bool × Nat)
  | 0, _ => none
  | k + 1, at_ =>
    if at_ = o.length then some ([], false, at_)
    else if o.length < at_ + 2 then none
    else
      let d := octetsLe o at_ 2
      let len := d % 128
      let id := d / 128 % 256
      if d / 32768 = 1 then none
      else if o.length < at_ + 2 + len then none
      else if id = 0x7E then some ([], true, at_ + 2)
      else if id = 0x7F then some ([], false, at_ + 2)
      else
        match parseIes o k (at_ + 2 + len) with
        | some (ies, pay, e) => some ((id, (o.drop (at_ + 2)).take len) :: ies, pay, e)
        | none => none

/-- Header IEs that run no further than the MIC, where a frame carries one. -/
def parseIesTo (o : List Nat) (mic at_ : Nat) : Option (List (Nat × List Nat) × Bool × Nat) :=
  if o.length < at_ + mic then none else parseIes (o.take (o.length - mic)) (o.length + 1) at_

/-- An auxiliary security header at an offset, and the offset after it. -/
def parseAux (o : List Nat) (at_ : Nat) (mayOmit : Bool) : Aux × Nat :=
  let sc := o.getD at_ 0
  let omitted := mayOmit && bitOf sc 5
  let kid := bitsOf sc 3 2
  let e := at_ + 1 + (if omitted then 0 else 4) + kidLen kid
  ({ at_ := at_, level := sc % 8, kidMode := kid, fc := if omitted then none else some (octetsLe o (at_ + 1) 4),
     keyIndex := if kid = 0 then 0 else o.getD (e - 1) 0 }, e)

/-- The header of a multipurpose frame, short or long. PRESUMED: log entry 107. -/
def parseMulti (micIn : Bool) (o : List Nat) : Option Mhr :=
  let long := bitOf (o.getD 0 0) 3
  let fcf := if long then octetsLe o 0 2 else o.getD 0 0
  let flag (k : Nat) : Bool := long && bitOf fcf k
  let dm := bitsOf fcf 4 2
  let sm := bitsOf fcf 6 2
  let a0 := if long then 2 else 1
  let a1 := a0 + (if flag 10 then 0 else 1)
  let a2 := a1 + (if flag 8 then 2 else 0)
  let a4 := a2 + addrLen dm
  let a5 := a4 + addrLen sm
  let (aux, e) := parseAux o a5 true
  let a6 := if flag 9 then e else a5
  if o.length < a6 || dm == 1 || sm == 1 || (long && bitsOf fcf 12 2 != 0) then none
  else
    let ies := if flag 15 then parseIesTo o (if flag 9 && micIn then micLen aux.level else 0) a6 else some ([], false, a6)
    ies.map fun x => {
      type := 5, secured := flag 9, pending := flag 11, ar := flag 14, version := 0
      seq := if flag 10 then none else some (o.getD a0 0), dstPan := if flag 8 then some (octetsLe o a1 2) else none
      dstMode := dm, dst := octetsLe o a2 (addrLen dm), srcMode := sm, src := octetsLe o a4 (addrLen sm)
      aux := if flag 9 then some aux else none, ies := x.1, payloadIes := x.2.1, fixedLen := a6, hdrLen := x.2.2 }

/-- The header of a fragment or an extended frame: no more than its frame type is told apart. PRESUMED: log entry 107. -/
def parseBare (type : Nat) (o : List Nat) : Mhr := {
  type := type, secured := false, pending := false, ar := false, version := 0, seq := none, dstPan := none, dstMode := 0, dst := 0
  srcMode := 0, src := 0, aux := none, ies := [], payloadIes := false, fixedLen := min 2 o.length, hdrLen := min 2 o.length }

/-- The header of a frame of types 0 to 3. PRESUMED: log entry 107. -/
def parseGeneral (micIn : Bool) (o : List Nat) : Option Mhr :=
  let fcf := octetsLe o 0 2
  let type := fcf % 8
  let secured := bitOf fcf 3
  let comp := bitOf fcf 6
  let supp := bitOf fcf 8
  let iePresent := bitOf fcf 9
  let dm := bitsOf fcf 10 2
  let version := bitsOf fcf 12 2
  let sm := bitsOf fcf 14 2
  if o.length < 2 || 2 < version || ! modesAllowed type version dm sm comp || (version < 2 && (supp || iePresent))
  then none
  else
    let a1 := 2 + (if supp then 0 else 1)
    let (dp, sp) := panPresent version dm sm comp
    let a2 := a1 + (if dp then 2 else 0)
    let a3 := a2 + addrLen dm
    let a4 := a3 + (if sp then 2 else 0)
    let a5 := a4 + addrLen sm
    let (x, e) := parseAux o a5 (version == 2)
    let a6 := if secured then e else a5
    if o.length < a6 then none
    else
      let aux : Option Aux := if secured then some x else none
      let ies := if iePresent then parseIesTo o (if secured && micIn then micLen x.level else 0) a6 else some ([], false, a6)
      match ies with
      | none => none
      | some (l, pay, e) => some {
          type := type, secured := secured, pending := bitOf fcf 4, ar := bitOf fcf 5, version := version,
          seq := if supp then none else some (o.getD 2 0), dstPan := if dp then some (octetsLe o a1 2) else none,
          dstMode := dm, dst := octetsLe o a2 (addrLen dm), srcMode := sm, src := octetsLe o a4 (addrLen sm),
          aux := aux, ies := l, payloadIes := pay, fixedLen := a6, hdrLen := e }

/-- The header of a frame without its FCS, its MIC at its end (`micIn`) or still to come; none where it cannot be parsed, or uses
a frame type, version or addressing the standard forbids. PRESUMED: log entry 107. -/
def parseMhrAs (micIn : Bool) (o : List Nat) : Option Mhr :=
  match o.getD 0 0 % 8 with
  | 4 => none
  | 5 => parseMulti micIn o
  | 6 => if o = [] then none else some (parseBare 6 o)
  | 7 => if o = [] then none else some (parseBare 7 o)
  | _ => parseGeneral micIn o

/-- The header of a frame with its MIC, as it is received. PRESUMED: log entry 107. -/
abbrev parseMhr (o : List Nat) : Option Mhr := parseMhrAs true o

/-! ### The frame check sequence -/

/-- The 2-octet FCS: the standard's CRC-16 of x^16 + x^12 + x^5 + 1, reflected, from zero. -/
def fcs16 (o : List Nat) : Nat := reverseBits 16 (o.foldl (crcOctet 16 0x1021 true) 0)

/-- The 4-octet FCS: the standard's CRC-32, reflected, from all ones and inverted, a short frame extended with zeros to
four octets. -/
def fcs32 (o : List Nat) : Nat :=
  let m := o ++ List.replicate (4 - o.length) 0
  Nat.xor (reverseBits 32 (m.foldl (crcOctet 32 0x04C11DB7 true) 0xFFFFFFFF)) 0xFFFFFFFF

/-- Octets of an FCS. -/
def fcsLen (two : Bool) : Nat := if two then 2 else 4

/-- A frame with its FCS appended. -/
def withFcs (two : Bool) (o : List Nat) : List Nat :=
  o ++ (if two then leOctets 2 (fcs16 o) else leOctets 4 (fcs32 o))

/-- Whether the FCS at the end of a frame is good. -/
def fcsGood (two : Bool) (o : List Nat) : Bool :=
  decide (fcsLen two ≤ o.length) && withFcs two (o.take (o.length - fcsLen two)) == o

/-! ### CCM* (R196) -/

/-- The nonce: extended address, most significant octet first, frame counter, level. PRESUMED: log entry 108. -/
def ccmNonce (ext fc level : Nat) : List Nat :=
  (leOctets 8 ext).reverse ++ (leOctets 4 fc).reverse ++ [level]

/-- The nonce of a frame whose counter is suppressed: extended address, then the five octets of the ASN. -/
def asnNonce (ext asn : Nat) : List Nat := (leOctets 8 ext).reverse ++ (leOctets 5 asn).reverse

/-- The frame `h ++ m` secured at a level: its payload enciphered where the level says, its MIC appended. -/
def sealFrame (key nonce : List Nat) (level : Nat) (h m : List Nat) : List Nat :=
  if 4 ≤ level then h ++ Config.ccmSeal key nonce h m (micLen level)
  else h ++ m ++ Config.ccmSeal key nonce (h ++ m) [] (micLen level)

/-- The payload of a secured frame without its FCS, opened; none where its MIC does not check. -/
def openFrame (key nonce : List Nat) (level hdr : Nat) (o : List Nat) : Option (List Nat) :=
  let mic := micLen level
  if o.length < hdr + mic then none
  else
    let h := o.take hdr
    let m := (o.drop hdr).take (o.length - hdr - mic)
    let t := o.drop (o.length - mic)
    if 4 ≤ level then Config.ccmOpen key nonce h m t
    else if mic = 0 then some m
    else (Config.ccmOpen key nonce (h ++ m) [] t).map fun _ => m

/-- A frame with the counter of its auxiliary security header filled in. -/
def fillCounter (h : Mhr) (fc : Nat) (o : List Nat) : List Nat :=
  match h.aux with
  | some a => if a.fc.isSome then o.take (a.at_ + 1) ++ leOctets 4 fc ++ o.drop (a.at_ + 5) else o
  | none => o

/-! ### Information elements (R116, R117, R151) -/

/-- A header IE. -/
def headerIe (id : Nat) (content : List Nat) : List Nat := leOctets 2 (content.length + 128 * id) ++ content

/-- A Time Correction IE of a value in microseconds, its NACK bit 0. -/
def timeCorrectionIe (us : Int) : List Nat := headerIe 0x1E (leOctets 2 (unsigned 12 us))

/-- The value of a received Time Correction IE. -/
def timeCorrection (h : Mhr) : Option Int :=
  match h.ies.find? fun e => e.1 == 0x1E && e.2.length == 2 with
  | some (_, xs) => some (signed 12 (leNat xs))
  | none => none

/-- A partner-schedule IE (R151). -/
structure PschedIe where
  type : Nat
  authority : Bool
  n : Nat
  period : Nat
  seed : Nat
  dwell : Nat
  time : Nat
  deriving DecidableEq, Repr

/-- A partner-schedule IE built under an OUI. -/
def buildPsched (oui : Nat) (p : PschedIe) : List Nat :=
  headerIe 0 (leOctets 3 oui ++ [p.type, b2n p.authority] ++ leOctets 4 p.n ++ leOctets 4 p.period ++ leOctets 4 p.seed ++
    leOctets 2 p.dwell ++ leOctets 8 (if p.authority then p.time else 0))

/-- Whether a header IE is a partner-schedule IE of an OUI and a recognised type. -/
def isPsched (oui : Nat) (e : Nat × List Nat) : Bool :=
  e.1 == 0 && e.2.length == 27 && oui != 0 && octetsLe e.2 0 3 == oui && (1 ≤ e.2.getD 3 0 && e.2.getD 3 0 ≤ 3)

/-- The partner-schedule IE of a frame, if it carries one. -/
def pschedIe (oui : Nat) (h : Mhr) : Option PschedIe :=
  match h.ies.find? (isPsched oui) with
  | some (_, x) => some {
      type := x.getD 3 0, authority := bitOf (x.getD 4 0) 0, n := octetsLe x 5 4, period := octetsLe x 9 4,
      seed := octetsLe x 13 4, dwell := octetsLe x 17 2 % 1024, time := octetsLe x 19 8 }
  | none => none

/-! ### Acknowledgements (R116) -/

/-- An Imm-Ack without its FCS. -/
def immAck (seq : Nat) (pending : Bool) : List Nat := leOctets 2 (2 + 16 * b2n pending) ++ [seq % 256]

/-- The header of an Enh-Ack that answers a frame (R116): type 2, version 2, PAN ID Compression 1, the destination in
the received frame's source mode; with no address that compression value puts the destination PAN in. The ASN in Nonce bit of the
security control octet, of which the rule says nothing, is 0. PRESUMED: log entry 107. -/
def enhAckHeader (h : Mhr) (pan : Nat) (fc : Nat) (pending : Bool) (tc : Option Int) : List Nat :=
  let fcf := 2 + 8 * b2n h.secured + 16 * b2n pending + 64 + 256 * b2n h.seq.isNone + 512 * b2n tc.isSome
    + 1024 * h.srcMode + 4096 * 2
  leOctets 2 fcf ++ (match h.seq with
    | some s => [s % 256]
    | none => []) ++
    (if h.srcMode = 0 then leOctets 2 pan else leOctets (addrLen h.srcMode) h.src) ++
    (match h.aux with
      | some a => [a.level + 8 * a.kidMode + 32 * b2n a.fc.isNone] ++
          (if a.fc.isSome then leOctets 4 fc else []) ++ (if a.kidMode = 1 then [a.keyIndex % 256] else [])
      | none => []) ++
    (match tc with
      | some us => timeCorrectionIe us
      | none => [])

end Sys2Proof.Machine
end

