-- ==== Sys2Proof/Machine/Reset.lean ====
section
/-! DEFINITION. Device resets (R22), and a restart of the CORE island (R13, R230, R253): what is lost and what is kept. -/

namespace Sys2Proof.Machine

/-- The power-on reset's bits of PWR_RESET_CAUSE (R351). -/
abbrev causePowerUp : Nat := 0
abbrev causePin : Nat := 1
abbrev causeBrownout : Nat := 2
abbrev causeSmallHours : Nat := 3
abbrev causeWakeFail : Nat := 4

/-- LINK_STATUS.OSC_STOP follows the RTC, and reads 1 while the RTC cannot be read (R118). -/
def linkOscFollow (c : Chip) : Chip :=
  c.setB Fld.LINK_STATUS_OSC_STOP (c.rtc.lockout || c.b Fld.RTC_STATUS_OSC_STOP)

/-- A device reset into BOOT (R22): a brown-out that is in force (R339), boundary scan (R349), the RTC domain, the MRAM and the fuses are kept, and retention SRAM unless its supply
was `lost`; everything else returns to reset. `cause` is the bit of PWR_RESET_CAUSE; a reset by the ROM itself, or by a
command, records none and leaves the register as it was. -/
def deviceReset (cause : Option Nat) (lost : Bool) (c : Chip) : Chip :=
  let kept : Chip := { Chip.reset with
    regs := Store.drop c.regs (fun a => islandOf a != Island.rtc)
    rtc := { c.rtc with refArmed := false }
    pins := c.pins
    free := c.free
    out := c.out
    scan := c.scan
    pwr := { Pwr.reset with vsys := c.pwr.vsys, brownout := c.pwr.brownout, heldInReset := c.pwr.heldInReset }
    mems := { Mems.reset with
      words := if lost then [] else Store.drop c.mems.words (fun p => p / 2 ^ 32 != 6)
      flaws := if lost then [] else Store.drop c.mems.flaws (fun p => p / 2 ^ 32 != 6)
      mram := c.mems.mram
      mramFlaws := c.mems.mramFlaws
      retired := c.mems.retired
      calRecords := c.mems.calRecords }
    sec := { Sec.reset with sealed := c.sec.sealed, lock := c.sec.lock, tokenCounter := c.sec.tokenCounter, draws := c.sec.draws }
    upd := { Upd.reset with
      aonFails := c.upd.aonFails
      startSeq := c.upd.startSeq
      failed := c.upd.failed
      unreadable := c.upd.unreadable }
    islands := if c.rtc.lockout then [(Island.rtc.num, .isolated)] else [] }
  linkOscFollow (((kept.setRegN Reg.RTC_REF_PPB 0).setReg Reg.PAD_FEATURE (c.reg Reg.PAD_FEATURE)).setRegN Reg.PWR_RESET_CAUSE (match cause with
    | some b => 2 ^ b
    | none => c.regN Reg.PWR_RESET_CAUSE))

/-- The engine in whose queue an operation stands, a re-mash with its verification and a takeover as table-class work among them
(R385, R406): 0 the hash engine, 1 the ML-DSA unit, 2 the ML-KEM unit, 3 the table
engine, 4 the MRAM writer, 5 the link controller (R244, R255). -/
def engineOf (code : Nat) : Nat :=
  if code = 0x01 then 5
  else if 0x10 ≤ code && code ≤ 0x18 then 3
  else if code = 0x20 || (0x50 ≤ code && code ≤ 0x5F) then 4
  else if code = 0x32 || code = 0x33 || code = 0x41 || code = 0x43 then 1
  else if 0x3C ≤ code && code ≤ 0x3E then 2
  else if code = 0x05 then 1 else if code = 0x09 then 3 else 0

/-- Numbers from here on name no ticket: what a restart of the CORE island leaves behind bears one, so that the ticket of that
number may be issued again (R253). -/
abbrev deadTicket : Nat := 1024

/-- What a stop of the CORE island loses (R13, R197, R230, R253): the core's state but its instruction memory, the ticket
table, the key cells and the KEM store; a transmit request not yet committed is withdrawn, and operations left in other
islands post nothing. Its registers return to reset. DEDUCED: log entry 90. -/
def coreDown (c : Chip) : Chip :=
  let c1 := c.resetRegs .core
  let left := (c.tk.orphans ++ c.tk.held).filter fun t => decide (t.state < 3) && (engineOf t.code == 3 || engineOf t.code == 4)
  let armed (t : Ticket) : Bool := c.upd.armed.any fun a => a.posts && a.via == .ticket (BitVec.ofNat 9 t.number)
  { c1 with
    core := { Core.reset with im := c.core.im, bank := c.core.bank, shadowValid := c.core.shadowValid }
    tk := { Tickets.reset with orphans := left.filter fun t => ! armed t }
    sec := { c.sec with cells := [], kem := none, nmk := [], testing := none }
    upd := { c.upd with armed := c.upd.armed.map fun a => match a.via with
      | .ticket _ => { a with posts := false }
      | .mailbox p => { a with posts := a.posts && p != 0 } }
    radio := { c.radio with
      op := c.radio.op.map fun p => { p with ticket := p.ticket.map fun _ => deadTicket }
      jobs := (c.radio.jobs.filter fun j => j.phase == .committed || j.phase == .awaiting).map fun j => { j with
        dead := true
        ticket := j.ticket + deadTicket } } }

/-- Firmware starts at bundle 0 of the active bank with a start cause (R239): ports, guards and level at their reset
values; the instruction memory and the event inputs stay, and the cause of a second trap where that is why it starts (R235). -/
def coreStart (cause : Nat) (c : Chip) : Chip :=
  { c with core := { Core.reset with
    running := true
    startCause := cause
    trapCause2 := if cause = 4 then c.core.trapCause2 else 0
    inputs := c.core.inputs
    im := c.core.im
    bank := c.core.bank
    shadowValid := c.core.shadowValid } }

/-- The CORE island stops and begins to restart (R13); the mailbox of path 0 lies in its core ports (R382). -/
def coreRestart (startCause trapCause : Nat) (c : Chip) : Chip :=
  let c1 := coreDown c
  ({ c1 with
    core := { c1.core with startCause := startCause, trapCause2 := trapCause }
    mbx := Store.put .idle c1.mbx 0 .idle }).setIsland .core .restarting

end Sys2Proof.Machine
end

