-- ==== Sys2Proof/Machine/Phoza.lean ====
section
/-! DEFINITION. The Phoza core: its ports, functional units, traps, interrupts and event inputs (09_phoza_core.md). The
issue of bundles is in Bundle.lean. -/

namespace Sys2Proof.Machine

/-! ### Ports that hold a word -/

/-- The word a core port holds at every core start (R219, R220, R224, R226, R235, R242). -/
def portReset (p : Nat) : Word :=
  if p < 0x804 then .int 0
  else if p = 0x804 then .mk' .code 0
  else if p = 0x811 then .bits 1
  else if 0x828 ≤ p && p ≤ 0x82B then .mk' .code 0
  else if 0x838 ≤ p && p ≤ 0x847 then
    (if (p - 0x838) % 4 = 0 then .mk' .code 0 else if (p - 0x838) % 4 = 1 then .bits 0 else .int 0)
  else if p = 0x822 || p = 0x823 || p = 0xA11 || p = 0x860 || p = 0x861 || p = 0x869 || (0x880 ≤ p && p ≤ 0x89F) || p = 0x914 || p = 0x921 then .bits 0
  else if p = 0x910 then .mk' .ptr 0
  else .int 0

/-- The word in a core port. -/
def Chip.port (c : Chip) (p : Nat) : Word := Store.get (portReset p) c.core.ports p

/-- Put a word in a core port. -/
def Chip.setPort (c : Chip) (p : Nat) (w : Word) : Chip :=
  { c with core := { c.core with ports := Store.put (portReset p) c.core.ports p w } }

/-- CORE_MODE.PRIV (R235). -/
def Chip.priv (c : Chip) : Bool := (c.port 0x811).field 0 1 == 1

/-- The value of guard `g`: g0 is always 1 (R215, R219). -/
def Chip.guard (c : Chip) (g : Nat) : Bool := g == 0 || c.core.guards.testBit g

/-- Set guard `g`, 1 to 7. -/
def setGuard (c : Chip) (g : Nat) (v : Bool) : Chip :=
  { c with core := { c.core with guards := putBits c.core.guards g 1 (b2n v) } }

/-! ### Windows of the socket map -/

/-- The empty window. -/
def Window.empty : Window := { type := 0, writeBuses := 0, readBuses := 0 }

/-- Window `w` of the socket map in force (R220, R264). -/
def Chip.window (c : Chip) (w : Nat) : Window :=
  match c.recipe with
  | some r => r.windows.getD w .empty
  | none => .empty

/-- The first port of window `w` (R217). -/
abbrev windowBase (w : Nat) : Nat := 0x100 + 0x40 * w

abbrev unitAlu : Nat := 1
abbrev unitMul : Nat := 2
abbrev unitLsu : Nat := 3
abbrev unitBit : Nat := 4
abbrev unitTag : Nat := 5

/-! ### Traps -/

/-- The trap causes of R228, in order of precedence. -/
inductive TrapCause
  | fetchPoison | illegalForm | reservedBits | noPort | portLimit | privilege | repeatNest | delayBranch
  | tag | value | address | soft
  deriving DecidableEq, Repr

/-- The code of a trap cause (R228). -/
def TrapCause.code : TrapCause → Nat
  | .fetchPoison => 1 | .illegalForm => 2 | .reservedBits => 3 | .noPort => 4 | .portLimit => 5 | .privilege => 6
  | .repeatNest => 7 | .delayBranch => 8 | .tag => 9 | .value => 10 | .address => 11 | .soft => 12

/-- A trap: its cause, the slot of the trapping move, the slot's 40 bits and the word the move carried. -/
structure Trap where
  cause : TrapCause
  slot : Nat
  bits : Nat
  word : Word
  /-- the trapping move is a load or store (for TRAP_WORD of PRIVILEGE). -/
  access : Bool
  deriving DecidableEq, Repr

/-- TRAP_CAUSE (R229). -/
def trapCauseWord (t : Trap) (inRepeat : Bool) : Word :=
  .bits (t.cause.code * 2 ^ 8 + (if t.cause = .fetchPoison then 0 else t.slot) * 2 ^ 6 + b2n inRepeat * 2 ^ 4 + t.bits / 2 ^ 36 % 16)

/-- TRAP_WORD (R229). -/
def trapWord (t : Trap) : Word :=
  match t.cause with
  | .tag | .value | .address | .soft => t.word
  | .privilege => if t.access then t.word else .bits t.bits
  | _ => .bits t.bits

/-! ### Entry, return and saved state -/

/-- The ports of the saved state of level `l`, 1 to 4 (R235). -/
abbrev savePort (l k : Nat) : Nat := 0x838 + 4 * (l - 1) + k

/-- EV_SAVE_STATE of the core as it stands (R233). -/
def Chip.saveState (c : Chip) : Word :=
  .bits ((if c.core.transfer then c.core.delayLeft % 4 else 0) * 2 ^ 34
    + b2n (c.core.transfer && c.core.delayIsReti) * 2 ^ 33
    + (if c.core.transfer then c.core.brTarget % 2 ^ 16 else 0) * 2 ^ 17
    + c.core.guards / 2 % 128 * 2 ^ 10 + c.core.cur * 2 ^ 7 + b2n c.priv * 2 ^ 6)

/-- The vector of level `l`. -/
def Chip.vector (c : Chip) (l : Nat) : Nat := if l = 4 then (c.port 0x82B).nat else (c.port (0x827 + l)).nat

/-- Enter level `l` with the next bundle to execute saved (R232): the state is saved, CUR and PRIV change and fetch
restarts at the vector. -/
def enterLevel (l pc : Nat) (c : Chip) : Chip :=
  let c1 := (((c.setPort (savePort l 0) (.mk' .code pc)).setPort (savePort l 1) c.saveState).setPort
    (savePort l 2) (.int c.core.rptLeft)).setPort (savePort l 3) (.int c.core.rptIndex)
  let c2 := c1.setPort 0x811 (.bits 1)
  { c2 with core := { c2.core with cur := l, pc := c.vector l, delayLeft := 0, transfer := false, delayIsReti := false,
                                   rptGo := none, rptLeft := 0 } }

/-- A double trap: the core stops and the CORE island restarts alone (R230). -/
def doubleTrap (t : Trap) (c : Chip) : Chip := coreRestart 4 t.cause.code c

/-- Take a precise trap (R229, R230). -/
def takeTrap (t : Trap) (c : Chip) : Chip :=
  if c.core.cur = 4 then doubleTrap t c
  else
    let c1 := (c.setPort 0x860 (trapCauseWord t (decide (0 < c.core.rptLeft)))).setPort 0x861 (trapWord t)
    enterLevel 4 c1.core.pc c1

/-- Complete an EV_RETI: the PC, pending branch, repeat state, guards, level and PRIV come back from the slot of level
CUR (R233). -/
def completeReti (c : Chip) : Chip :=
  let l := c.core.cur
  let st := c.port (savePort l 1)
  let left := (c.port (savePort l 2)).nat
  let dl := st.field 34 2
  let c1 := c.setPort 0x811 (.bits (st.field 6 1))
  { c1 with core := { c1.core with
      pc := (c.port (savePort l 0)).nat % 2 ^ 16, cur := st.field 7 3, guards := st.field 10 7 * 2,
      delayLeft := dl, transfer := dl != 0, delayIsReti := st.field 33 1 == 1, brTarget := st.field 17 16,
      rptLeft := left, rptIndex := (c.port (savePort l 3)).toInt } }

/-! ### Event inputs -/

/-- An input with nothing pending. -/
def EvInput.none : EvInput := { word := .absent, count := 0 }

/-- Core event input `j`. -/
def Chip.input (c : Chip) (j : Nat) : EvInput := Store.get .none c.core.inputs j

/-- Set core event input `j`. -/
def setInput (c : Chip) (j : Nat) (x : EvInput) : Chip :=
  { c with core := { c.core with inputs := Store.put .none c.core.inputs j x } }

/-- EV_CFG_j fields (R231). -/
def Chip.evEnable (c : Chip) (j : Nat) : Bool := (c.port (0x880 + j)).field 0 1 == 1
def Chip.evLevel (c : Chip) (j : Nat) : Nat := (c.port (0x880 + j)).field 2 2
def Chip.evCount (c : Chip) (j : Nat) : Bool := (c.port (0x880 + j)).field 4 1 == 1

/-- An event delivered to core event input `j` (R231): latched or counted, or dropped with OVERRUN. During an
activation pause every input counts, a latch input keeping its first payload. An input whose island is not on is busy
(R283). DEDUCED: log entry 86. -/
def coreEvent (j : Nat) (w : Word) (c : Chip) : Chip :=
  let x := c.input j
  if ! c.isOn .core then c.overrun j
  else if c.evCount j then
    if x.count < 65535 then setInput c j ⟨w, x.count + 1⟩ else c.overrun j
  else if x.count = 0 then setInput c j ⟨w, 1⟩
  else if c.core.paused && decide (x.count < 65535) then setInput c j ⟨x.word, x.count + 1⟩
  else c.overrun j

/-- CORE_EVENT_INPUT (R231). -/
def execCoreEventInput (j : Fin 32) (source : BitVec 8) (payload : BitVec 28) (s : State) : Host.Outcome State Fault Refusal :=
  onChip (coreEvent j.val (.mk' .event (source.toNat * 2 ^ 28 + payload.toNat))) s

/-- The thirty-two inputs. -/
def evInputs : List Nat := List.range 32

/-- Whether input `j` is pending and enabled. -/
def Chip.evReady (c : Chip) (j : Nat) : Bool := c.evEnable j && decide (0 < (c.input j).count)

/-- Whether any enabled input is pending (CORE_WAIT, Dusk). -/
def Chip.anyReady (c : Chip) : Bool := evInputs.any c.evReady

/-- Whether level `l` has an enabled pending input and is not masked. -/
def Chip.levelReady (c : Chip) (l : Nat) : Bool :=
  ! (c.port 0x823).nat.testBit l && evInputs.any fun j => c.evReady j && c.evLevel j == l

/-- The level an interrupt would enter: the highest ready level above CUR; 0 if none (R232). -/
def Chip.interruptLevel (c : Chip) : Nat :=
  if c.core.cur < 3 && c.levelReady 3 then 3
  else if c.core.cur < 2 && c.levelReady 2 then 2
  else if c.core.cur < 1 && c.levelReady 1 then 1 else 0

/-- Whether the core fetches: firmware started, not waiting, not paused, its island on and its clock not gated. -/
def Chip.canIssue (c : Chip) : Bool :=
  c.core.running && ! c.core.waiting && ! c.core.paused && c.isOn .core && decide (c.power ≤ 3)

/-- Interrupt entry at a bundle boundary (R232). -/
def interruptEntry (c : Chip) : Chip :=
  if c.canIssue && c.core.stalled == none && c.interruptLevel != 0 then enterLevel c.interruptLevel c.core.pc c else c

/-- INTERRUPT_ENTRY (R232). -/
def execInterruptEntry (s : State) : Host.Outcome State Fault Refusal := onChip interruptEntry s

/-- Take what input `j` holds: the EVENT word, with the count in its low 16 bits in count mode (R234). -/
def consumeInput (c : Chip) (j : Nat) : Word × Chip :=
  let x := c.input j
  if x.count = 0 then (refused .busy, c)
  else (if c.evCount j then x.word.withField 0 16 x.count else x.word, setInput c j .none)

/-- A read of EV_CAUSE_l (R234). -/
def readCause (c : Chip) (l : Nat) : Word × Chip :=
  match evInputs.find? fun j => c.evReady j && c.evLevel j == l with
  | some j => consumeInput c j
  | none => (refused .busy, c)

/-- The wake condition or the time-out of CORE_WAIT (R235). -/
def coreWaitEnd (c : Chip) : Chip :=
  let timedOut := match c.core.waitUntil with
    | some g => decide (g ≤ c.now)
    | none => false
  if c.core.waiting && (c.anyReady || timedOut) then
    { c with core := { c.core with waiting := false, waitUntil := none } }
  else c

/-- CORE_WAIT_END (R235). -/
def execCoreWaitEnd (s : State) : Host.Outcome State Fault Refusal := onChip coreWaitEnd s

/-! ### Tag algebra (R221) -/

/-- The operations of the ALU, in the order of their triggers. -/
inductive AluOp
  | add | sub | and | or | xor | andn | shl | shr | sar | eq | ne | lt | le | ltu | min | max | cat16
  deriving DecidableEq, Repr

/-- The triggers of the MUL unit. -/
inductive MulOp
  | mul | mulh | cmul | scale | mag2 | div
  deriving DecidableEq, Repr

/-- The triggers of the BIT unit. -/
inductive BitOp
  | ext | ins | clz | popc
  deriving DecidableEq, Repr

/-- Offsets of the triggers within their window (R220). -/
def AluOp.offset : AluOp → Nat
  | .add => 0x08 | .sub => 0x09 | .and => 0x0A | .or => 0x0B | .xor => 0x0C | .andn => 0x0D | .shl => 0x0E | .shr => 0x0F
  | .sar => 0x10 | .eq => 0x11 | .ne => 0x12 | .lt => 0x13 | .le => 0x14 | .ltu => 0x15 | .min => 0x16 | .max => 0x17 | .cat16 => 0x18
def MulOp.offset : MulOp → Nat
  | .mul => 0x08 | .mulh => 0x09 | .cmul => 0x0A | .scale => 0x0B | .mag2 => 0x0C | .div => 0x0D
def BitOp.offset : BitOp → Nat
  | .ext => 0x08 | .ins => 0x09 | .clz => 0x0A | .popc => 0x0B
def LsuKind.offset : LsuKind → Nat
  | .ld => 0x08 | .ld2 => 0x09 | .st => 0x0A | .st2 => 0x0B | .aadd => 0x0C | .swap => 0x0D

/-- What a unit answers: a word, or the trap it raises. -/
inductive UnitResult
  | ok (w : Word)
  | trap (t : TrapCause)
  deriving DecidableEq, Repr

/-- The two components of a SAMPLE, each a signed Q1.17 count. -/
def sampleI (w : Word) : Int := signed 18 (w.field 18 18)
def sampleQ (w : Word) : Int := signed 18 (w.field 0 18)

/-- Saturate a component to −1 … 1 − 2^-17. -/
def sat18 (z : Int) : Int := max (-131072) (min 131071 z)

/-- A SAMPLE of two components, saturated. -/
def mkSample (i q : Int) : Word := .mk' .sample (unsigned 18 (sat18 i) * 2 ^ 18 + unsigned 18 (sat18 q))

/-- A PTR whose word address moves by a signed number of words, modulo 2^32, its space unchanged. -/
def ptrAdd (p : Word) (z : Int) : Word := .mk' .ptr (p.nat / 2 ^ 32 * 2 ^ 32 + unsigned 32 (p.field 0 32 + z))

/-- Whether a word is INT or BITS. -/
def isIB (w : Word) : Bool := w.tag == .int || w.tag == .bits

/-- ADD (R221, R32). -/
def addWords (a b : Word) : UnitResult :=
  match a.tag, b.tag with
  | .int, .int => .ok ⟨.int, a.payload + b.payload⟩
  | .grain, .int => .ok ⟨.grain, a.payload + b.payload⟩
  | .int, .grain => .ok ⟨.grain, a.payload + b.payload⟩
  | .ptr, .int => .ok (ptrAdd a b.toInt)
  | .int, .ptr => .ok (ptrAdd b a.toInt)
  | .code, .int => .ok ⟨.code, a.payload + b.payload⟩
  | .int, .code => .ok ⟨.code, a.payload + b.payload⟩
  | .sample, .sample => .ok (mkSample (sampleI a + sampleI b) (sampleQ a + sampleQ b))
  | _, _ => .trap .tag

/-- SUB (R221, R32). -/
def subWords (a b : Word) : UnitResult :=
  match a.tag, b.tag with
  | .int, .int => .ok ⟨.int, a.payload - b.payload⟩
  | .grain, .int => .ok ⟨.grain, a.payload - b.payload⟩
  | .grain, .grain => .ok ⟨.int, a.payload - b.payload⟩
  | .ptr, .int => .ok (ptrAdd a (- b.toInt))
  | .ptr, .ptr =>
    if a.field 32 4 = b.field 32 4 then .ok (.int ((a.field 0 32 : Int) - b.field 0 32)) else .trap .tag
  | .code, .int => .ok ⟨.code, a.payload - b.payload⟩
  | .code, .code => .ok ⟨.int, a.payload - b.payload⟩
  | .sample, .sample => .ok (mkSample (sampleI a - sampleI b) (sampleQ a - sampleQ b))
  | _, _ => .trap .tag

/-- A bitwise operation (R221). -/
def logicWords (g : Payload → Payload → Payload) (a b : Word) : UnitResult :=
  if isIB a && isIB b then
    .ok ⟨if a.tag = .int && b.tag = .int then .int else .bits, g a.payload b.payload⟩
  else .trap .tag

/-- A shift (R221): the count is an INT from 0 to 35. -/
def shiftWords (g : Payload → Nat → Payload) (a b : Word) : UnitResult :=
  if isIB a && b.tag == .int then
    (if b.nat ≤ 35 then .ok ⟨a.tag, g a.payload b.nat⟩ else .trap .value)
  else .trap .tag

/-- A truth value as the unit returns it. -/
def truth (p : Bool) : UnitResult := .ok (.bits (b2n p))

/-- EQ and NE (R221): words of one tag among 0x0 to 0x8. -/
def equalWords (want : Bool) (a b : Word) : UnitResult :=
  if a.tag = b.tag && ! a.exceptional then truth ((a.payload == b.payload) == want) else .trap .tag

/-- Whether A is before B, and whether they are equal, for LT and LE (R221, R31); none where the tags do not order. -/
def orderWords (a b : Word) : Option (Bool × Bool) :=
  match a.tag, b.tag with
  | .int, .int => some (decide (a.toInt < b.toInt), a.payload == b.payload)
  | .grain, .grain => some (! grainAfter a.payload b.payload && a.payload != b.payload, a.payload == b.payload)
  | .ptr, .ptr => if a.field 32 4 = b.field 32 4 then some (decide (a.field 0 32 < b.field 0 32), a.payload == b.payload) else none
  | .code, .code => some (decide (a.nat < b.nat), a.payload == b.payload)
  | _, _ => none

/-- MIN and MAX (R221): INT or GRAIN words. -/
def pickWords (takeMin : Bool) (a b : Word) : UnitResult :=
  if a.tag = b.tag && (a.tag == .int || a.tag == .grain) then
    match orderWords a b with
    | some (lt, _) => .ok (if lt == takeMin then a else b)
    | none => .trap .tag
  else .trap .tag

/-- The ALU (R221). -/
def alu : AluOp → Word → Word → UnitResult
  | .add, a, b => addWords a b
  | .sub, a, b => subWords a b
  | .and, a, b => logicWords (· &&& ·) a b
  | .or, a, b => logicWords (· ||| ·) a b
  | .xor, a, b => logicWords (· ^^^ ·) a b
  | .andn, a, b => logicWords (fun x y => x &&& ~~~ y) a b
  | .shl, a, b => shiftWords (fun x n => x <<< n) a b
  | .shr, a, b => shiftWords (fun x n => x >>> n) a b
  | .sar, a, b => shiftWords (fun x n => x.sshiftRight n) a b
  | .eq, a, b => equalWords true a b
  | .ne, a, b => equalWords false a b
  | .lt, a, b => match orderWords a b with
    | some (lt, _) => truth lt
    | none => .trap .tag
  | .le, a, b => match orderWords a b with
    | some (lt, eq) => truth (lt || eq)
    | none => .trap .tag
  | .ltu, a, b => if isIB a && isIB b then truth (decide (a.nat < b.nat)) else .trap .tag
  | .min, a, b => pickWords true a b
  | .max, a, b => pickWords false a b
  | .cat16, a, b => if isIB a && isIB b then .ok (.bits (a.nat * 2 ^ 16 + b.nat % 2 ^ 16)) else .trap .tag

/-- A component of SCALE (R221): the product of two Q1.17 counts, an inexact one rounded either way; −1 × −1, which the format
does not hold, gives a free component. DESIGN CHOICE: log entry 164. -/
def scalePart (x k : Int) : Int :=
  if x * k % 2 ^ 17 ≠ 0 then x * k / 2 ^ 17 + b2n (Config.roundsUp 1 (x * k))
  else if x * k / 2 ^ 17 ≤ 131071 then x * k / 2 ^ 17
  else signed 18 (unsigned 18 Config.scaleBeyond)

/-- The result of a multiply trigger but DIV (R221). -/
def mulUnit : MulOp → Word → Word → UnitResult
  | .mul, a, b => if a.tag = .int && b.tag = .int then .ok (.int (a.toInt * b.toInt)) else .trap .tag
  | .mulh, a, b => if a.tag = .int && b.tag = .int then .ok (.int (a.toInt * b.toInt / 2 ^ 36)) else .trap .tag
  | .cmul, a, b =>
    if a.tag = .sample && b.tag = .sample then
      .ok (mkSample (Config.roundHalf 0 (sampleI a * sampleI b - sampleQ a * sampleQ b) (2 ^ 17))
        (Config.roundHalf 0 (sampleI a * sampleQ b + sampleQ a * sampleI b) (2 ^ 17)))
    else .trap .tag
  | .scale, a, b =>
    let go (s k : Word) : UnitResult :=
      if - 131072 ≤ k.toInt && k.toInt ≤ 131071 then
        .ok (mkSample (scalePart (sampleI s) k.toInt) (scalePart (sampleQ s) k.toInt))
      else .trap .value
    if a.tag = .sample && b.tag = .int then go a b
    else if a.tag = .int && b.tag = .sample then go b a else .trap .tag
  | .mag2, _, b =>
    if b.tag = .sample then .ok (.int (min (2 ^ 35 - 1) (sampleI b * sampleI b + sampleQ b * sampleQ b))) else .trap .tag
  | .div, a, b => if a.tag = .int && b.tag = .int then (if b.payload = 0 then .trap .value else .ok (.int (a.toInt.tdiv b.toInt))) else .trap .tag

/-- The remainder that goes with a DIV: A − QUO × B (R221). -/
def divRem (a b : Word) : Word := .int (a.toInt - a.toInt.tdiv b.toInt * b.toInt)

/-- Leading zeros of a payload. -/
def clzFrom : Nat → Nat → Nat
  | 0, _ => 0
  | k + 1, n => if n.testBit k then 0 else 1 + clzFrom k n

/-- Set bits among the low `k` of a payload. -/
def popFrom : Nat → Nat → Nat
  | 0, _ => 0
  | k + 1, n => b2n (n.testBit k) + popFrom k n

/-- The BIT unit (R221): `fld` is FIELD, POS in bits 11:6 and LEN in bits 5:0. -/
def bitUnit (op : BitOp) (a fld b : Word) : UnitResult :=
  let pos := fld.field 6 6
  let len := fld.field 0 6
  let bad := len == 0 || decide (36 < pos + len)
  match op with
  | .ext => if isIB b then (if bad then .trap .value else .ok (.bits (b.field pos len))) else .trap .tag
  | .ins => if isIB a && isIB b then (if bad then .trap .value else .ok (a.withField pos len b.nat)) else .trap .tag
  | .clz => if isIB b then .ok (.int (clzFrom 36 b.nat)) else .trap .tag
  | .popc => if isIB b then .ok (.int (popFrom 36 b.nat)) else .trap .tag

/-- RETAG (R221): the tag TAGSEL names, among 0x0 to 0x5, 0x7 and 0x8. -/
def retag (sel b : Word) : UnitResult :=
  if isIB b then
    match Tag.ofNum sel.nat with
    | some t => if t = .ticket || t = .poison || t = .refused || t = .absent then .trap .value else .ok ⟨t, b.payload⟩
    | none => .trap .value
  else .trap .tag

/-- UNTAG (R221). -/
def untag (b : Word) : UnitResult := if b.exceptional then .trap .tag else .ok ⟨.bits, b.payload⟩

/-! ### Results in flight (R212) -/

/-- An operation of latency `l` will place a word in a result port. -/
def Chip.inFlight (c : Chip) (l port : Nat) (w : Word) : Chip :=
  { c with core := { c.core with inflight := c.core.inflight ++ [⟨l, port, w⟩] } }

/-- One core cycle passes: results whose latency ends are placed, oldest first. -/
def stepInFlight (c : Chip) : Chip :=
  let c1 := c.core.inflight.foldl (fun c x => if x.left ≤ 1 then c.setPort x.port x.word else c) c
  { c1 with core := { c1.core with inflight :=
      (c.core.inflight.filter fun x => decide (1 < x.left)).map fun x => { x with left := x.left - 1 } } }

/-- Whether a division is in progress in window `w` (R214). -/
def Chip.dividing (c : Chip) (w : Nat) : Bool :=
  c.core.inflight.any fun x => x.port == windowBase w + 0x3A

/-! ### The end of a bundle (R225, R226) -/

/-- Where fetch goes after a bundle that started with the repeat and delay state of `b` (R225, R226): the bundle is
repeated, or the delay count falls and a pending transfer completes after its last delay bundle. -/
def advanceOnce (b c : Chip) : Chip :=
  if 1 < b.core.rptLeft then
    { c with core := { c.core with rptLeft := b.core.rptLeft - 1, rptIndex := b.core.rptIndex + 1 } }
  else
    let c1 := { c with core := { c.core with rptLeft := 0 } }
    if b.core.transfer && b.core.delayLeft ≤ 1 then
      let c2 := { c1 with core := { c1.core with delayLeft := 0, transfer := false } }
      if b.core.delayIsReti then completeReti c2 else { c2 with core := { c2.core with pc := b.core.brTarget } }
    else if b.core.transfer then
      { c1 with core := { c1.core with delayLeft := b.core.delayLeft - 1, pc := c1.core.pc + 1 } }
    else { c1 with core := { c1.core with pc := c1.core.pc + 1 } }

/-- The end of a bundle: fetch moves on, and an RPT_GO of the bundle takes hold of the next one; with a count of 0 that
next bundle is skipped (R226). -/
def advance (b c : Chip) : Chip :=
  let c1 := advanceOnce b c
  match c1.core.rptGo with
  | none => c1
  | some (n, base) =>
    let c2 := { c1 with core := { c1.core with rptGo := none } }
    if n = 0 then advanceOnce c2 c2 else { c2 with core := { c2.core with rptLeft := n, rptIndex := base } }

end Sys2Proof.Machine
end

