-- ==== Sys2Proof/Machine/Tk.lean ====
section
/-! DEFINITION. Tickets held: their number, state, and how an operation finishes (R245, R249, R250). -/

namespace Sys2Proof.Machine

/-- Change the ticket unit. -/
def Chip.onTk (c : Chip) (g : Tickets → Tickets) : Chip := { c with tk := g c.tk }

/-- The ticket of a number, if held. -/
def Chip.ticket (c : Chip) (n : Nat) : Option Ticket := c.tk.held.find? fun t => t.number == n

/-- Replace a held ticket. -/
def putTicket (t : Ticket) (c : Chip) : Chip :=
  c.onTk fun k => { k with held := k.held.map fun x => if x.number = t.number then t else x }

/-- The operation of a ticket finishes with a result word (R249, R250): the entry waits to be posted. -/
def finishTicket (n : Nat) (w : Word) (c : Chip) : Chip :=
  match c.ticket n with
  | some t => if t.state = 3 then c else putTicket { t with state := 3, result := w, doneAt := c.now } c
  | none => c

/-- The TICKET word of a ticket (R245). -/
def ticketWord (t : Ticket) : Word := .mk' .ticket (t.number * 2 ^ 27 + t.cls * 2 ^ 24 + t.gen)

/-- The long time of a grain: the one nearest the present (R31). -/
def Chip.longOf (c : Chip) (g : Payload) : Int := c.now + (g - c.grain).toInt

/-- The grain, as long time, at which an action armed for a grain is due: a grain already past is due at the next tick
(R31, R49, R77). -/
def Chip.dueAt (c : Chip) (g : Payload) : Nat := max (c.now + 1) (c.longOf g).toNat

end Sys2Proof.Machine
end

