-- ==== Sys2Proof/Machine/Radio.lean ====
section
/-! DEFINITION. What the radio front end offers the rest: synthesizers and their lock, blanking, the active coefficient
set, the allowance and the level (03_radio_front_end.md, R49, R50, R57 to R62, R64, R65, R428). -/

namespace Sys2Proof.Machine

/-- Change the radio state. -/
def Chip.onRadio (c : Chip) (g : Radio → Radio) : Chip := { c with radio := g c.radio }

/-! ### Synthesizers -/

/-- A synthesizer with nothing armed or in progress. -/
def Synth.idle : Synth := { armed := none, target := 0, lockAt := none, calUntil := none, lastStep := none }

/-- Synthesizer `x`: 0 chain A, 1 chain B, 2 the transmitter. -/
def Chip.synth (c : Chip) (x : Nat) : Synth := Store.get .idle c.radio.synths x

/-- Set a synthesizer. -/
def setSynth (x : Nat) (s : Synth) (c : Chip) : Chip := c.onRadio fun r => { r with synths := Store.put .idle r.synths x s }

/-- The FREQ, FREQ_NOW and RETUNE_AT registers and the ENABLE bit of a synthesizer. -/
def synthFreq (x : Nat) : Nat := if x = 2 then Reg.RF_TX_FREQ else Reg.RF_CHAIN_FREQ x
def synthNow (x : Nat) : Nat := if x = 2 then Reg.RF_TX_FREQ_NOW else Reg.RF_CHAIN_FREQ_NOW x
def synthAt (x : Nat) : Nat := if x = 2 then Reg.RF_TX_RETUNE_AT else Reg.RF_CHAIN_RETUNE_AT x
def synthEnable (x : Nat) : Field := if x = 2 then Fld.RF_TX_CTRL_ENABLE else Fld.RF_CHAIN_CTRL_ENABLE x

/-- The island of a synthesizer (R73). -/
def synthIsland (x : Nat) : Island := match x with
  | 0 => .rfRxA | 1 => .rfRxB | _ => .rfTx

/-- Settling of a step from one centre to another (R49). -/
def settling (old new : Nat) : Nat := if old ≠ 0 ∧ ((old : Int) - new).natAbs ≤ 32000000 then 1342 else 5369

/-- Whether a synthesizer is LOCKED: enabled and not settling (R50). Blanking and calibration leave it so. DESIGN CHOICE: log
entry 189. -/
def Chip.locked (c : Chip) (x : Nat) : Bool :=
  c.isOn (synthIsland x) && c.b (synthEnable x) && (c.synth x).lockAt.isNone && c.regN (synthNow x) != 0

/-- Write the RETUNE_ARMED, RETUNING and LOCKED bits of a receive chain. -/
def refreshChain (x : Nat) (c : Chip) : Chip :=
  if x = 2 then c
  else
    ((c.setB (Fld.RF_CHAIN_STATUS_RETUNE_ARMED x) (c.synth x).armed.isSome).setB (Fld.RF_CHAIN_STATUS_RETUNING x)
      (c.synth x).lockAt.isSome).setB (Fld.RF_CHAIN_STATUS_LOCKED x) (c.locked x)

/-- Whether any carrier is on air. -/
def Chip.onAir (c : Chip) : Bool := c.radio.carriers.any fun k => k.onAir

/-- Whether any carrier is on air or committed. -/
def Chip.anyCarrier (c : Chip) : Bool := ! c.radio.carriers.isEmpty

/-- Whether a receive chain is blanked (R57). -/
def Chip.blanked (c : Chip) (x : Nat) : Bool :=
  c.onAir && ((x == 0 && ! c.b Fld.RF_TX_CTRL_OUT_PORT) || c.b (Fld.RF_CHAIN_CTRL_TX_BLANK x))

/-- Whether a receive chain delivers samples (R50, R57, R72). -/
def Chip.delivers (c : Chip) (x : Nat) : Bool :=
  c.locked x && ! c.blanked x && (c.synth x).calUntil.all fun e => decide (e ≤ c.now)

/-! ### The coefficient store and the active set (R64, R65, R70) -/

/-- The reset word of place `k` of the coefficient store: an UNTRAINED header with the group and bin of its set. -/
def dpdReset (k : Nat) : Word :=
  match k % 24 with
  | 0 => .bits (k / 24 / 4 * 2 ^ 31 + k / 24 % 4 * 2 ^ 29)
  | 1 => .grain 0
  | 22 => .int 0
  | 23 => .int 0
  | _ => .mk' .sample 0

/-- A word of the coefficient store. -/
def Chip.dpdWord (c : Chip) (k : Nat) : Word := Store.get (dpdReset k) c.radio.dpd k

/-- Write a word of the coefficient store. -/
def setDpd (k : Nat) (w : Word) (c : Chip) : Chip := c.onRadio fun r => { r with dpd := Store.put (dpdReset k) r.dpd k w }

abbrev dpdUntrained : Nat := 0
abbrev dpdCurrent : Nat := 1
abbrev dpdStale : Nat := 2

/-- The state and the TRAIN_TEMP of a set (R70). -/
def Chip.dpdState (c : Chip) (s : Nat) : Nat := (c.dpdWord (24 * s)).field 34 2
def Chip.dpdTemp (c : Chip) (s : Nat) : Int := signed 8 ((c.dpdWord (24 * s)).field 21 8)

/-- The seven group edges. -/
def groupEdges : List Nat :=
  [Reg.RF_DPD_GROUP_EDGE0, Reg.RF_DPD_GROUP_EDGE1, Reg.RF_DPD_GROUP_EDGE2, Reg.RF_DPD_GROUP_EDGE3,
    Reg.RF_DPD_GROUP_EDGE4, Reg.RF_DPD_GROUP_EDGE5, Reg.RF_DPD_GROUP_EDGE6]

/-- GROUP (R64). -/
def Chip.dpdGroup (c : Chip) : Nat := (groupEdges.filter fun e => decide (c.regN e ≤ c.regN Reg.RF_TX_FREQ_NOW)).length

/-- The active set (R64). -/
def Chip.activeSet (c : Chip) : Nat := 4 * c.dpdGroup + c.radio.tempBin.getD 0

/-- The state of the active set, UNTRAINED while DPD is bypassed (R62). -/
def Chip.activeState (c : Chip) : Nat := if c.b Fld.RF_DPD_CTRL_ENABLE then c.dpdState c.activeSet else dpdUntrained

/-- The carriers allowed at once (R62). -/
def Chip.allowed (c : Chip) : Nat :=
  match c.activeState with
  | 1 => c.radio.effMax
  | 2 => min c.radio.effMax 2
  | _ => 1

/-- The per-carrier level in effect, quarter-dBm (R59, R62). -/
def Chip.carrierLevel (c : Chip) : Int :=
  let l := c.radio.effTotal - (match c.radio.effMax with
    | 1 => 0 | 2 => 12 | 3 => 19 | _ => 24)
  if c.activeState = 0 then min l 68 else l

/-- Write the state of every set where software reads it, the active set and the capacity (R62, R64, R73). -/
def refreshTx (c : Chip) : Chip :=
  let c1 := (List.range 32).foldl (fun c s =>
    c.setF ⟨Reg.RF_DPD_STATE_LO + s / 16, 2 * (s % 16), 2⟩ (c.dpdState s)) c
  let c2 := (c1.setF Fld.RF_DPD_STATUS_ACTIVE_SET c1.activeSet).setF Fld.RF_DPD_STATUS_ACTIVE_STATE (c1.dpdState c1.activeSet)
  (((c2.setF Fld.RF_TX_CAPACITY_PER_CARRIER_QDBM (unsigned 8 c2.carrierLevel)).setF Fld.RF_TX_CAPACITY_CARRIER_MAX_NOW
    c2.radio.effMax).setF Fld.RF_TX_CAPACITY_CARRIERS_ALLOWED c2.allowed).setF Fld.RF_TX_CAPACITY_SET_STATE
    (c2.dpdState c2.activeSet)

/-- Put a set in a state. -/
def setDpdState (s st : Nat) (c : Chip) : Chip := setDpd (24 * s) ((c.dpdWord (24 * s)).withField 34 2 st) c

/-- Sets whose training temperature is too far from the die's become STALE (R65). -/
def staleSets (c : Chip) : Chip :=
  let t := c.fI Fld.RF_DPD_STATUS_DIE_TEMP
  let span := c.f Fld.RF_DPD_TEMP_EDGES_TEMP_SPAN
  if c.radio.tempBin.isNone then c
  else (List.range 32).foldl (fun c s =>
    if c.dpdState s == dpdCurrent && decide (span < (t - c.dpdTemp s).natAbs) then (setDpdState s dpdStale c).raise .rf 7
    else c) c

/-! ### The carrier window and the transmit chain (R58, R428) -/

/-- Whether a channel lies wholly within the carrier window, judged about the centre in use (R58). -/
def Chip.inWindow (c : Chip) (f bw : Nat) : Bool :=
  c.regN Reg.RF_TX_FREQ_NOW != 0 && withinSpan f bw (c.regN Reg.RF_TX_FREQ_NOW) 13000000

/-- Whether the transmit chain is available over an interval: enabled, and neither settling nor due to retune in it (R428). A retune
that is armed starts no sooner than one in progress ends, and from its centre (R49). -/
def Chip.txFree (c : Chip) (start last : Nat) : Bool :=
  let s := c.synth 2
  c.isOn .rfTx && c.b Fld.RF_TX_CTRL_ENABLE && c.dev != devDead &&
    (match s.lockAt with
      | none => c.regN Reg.RF_TX_FREQ_NOW != 0
      | some g => decide (g ≤ start)) &&
    (match s.armed with
      | none => true
      | some a =>
        let g := max a (s.lockAt.getD a)
        let old := if s.lockAt.isSome then s.target else c.regN Reg.RF_TX_FREQ_NOW
        decide (last ≤ g) || decide (g + settling old (c.regN Reg.RF_TX_FREQ) ≤ start)) &&
    (match c.radio.burst with
      | none => true
      | some (_, e) => decide (e ≤ start)) &&
    (match c.radio.cal with
      | some (t, e) => decide (t < 2) || decide (e ≤ start)
      | none => true)

end Sys2Proof.Machine
end

