-- ==== Sys2Proof/Machine/Air.lean ====
section
/-! DEFINITION. Carriers, budgets, the carrier contest, and how transmit requests finish (05_link_controller.md, R58, R60,
R119 to R124, R428). -/

namespace Sys2Proof.Machine

/-- The payload of a plain word, 0 for a word tagged POISON, REFUSED or ABSENT. -/
def wordPlain (w : Word) : Nat := if w.exceptional then 0 else w.nat

/-! ### Port B (R166) -/

/-- The link controller writes words of one codeword of dual-port SRAM: a word that port A writes otherwise in the same
cycle is not stored (R166). -/
def linkWrite (p : Nat) (ws : List Word) (c : Chip) : Chip :=
  let k := evenOf p
  let a := c.portUse .a
  let mine : List (Nat × Word × Word) := (List.range ws.length).map fun i => (p + i, c.stored (p + i), ws.getD i (.int 0))
  let (met, c1) := sameCycle a k Fld.MEM_DP_CONFLICT_PORT_B c
  let theirs := if met then (a.writesIn k).map fun y => (y.1, y.2.2) else []
  let kept : List (Nat × Word × Word) := mine.filter fun y => ! theirs.any fun x => x.1 == y.1
  let c2 := if met then portsMeet theirs (mine.map fun y => (y.1, y.2.2)) c1 else c1
  let c3 : Chip := match kept with
    | [x, y] => if c.spaceAccess 1 = .served then writePair x.1 x.2.2 y.2.2 c2 else c2.regReject
    | _ => kept.foldl (fun c y => writeMem y.1 y.2.2 c) c2
  portNote .b [] kept c3

/-- The link controller reads words one after another (R160). -/
abbrev linkWords (p n : Nat) (c : Chip) : List Word × Chip := readWordsBy .b p n c

/-! ### Transmit requests -/

/-- Replace a transmit request. -/
def putJob (j : TxJob) (c : Chip) : Chip :=
  c.onRadio fun r => { r with jobs := r.jobs.map fun x => if x.ticket = j.ticket then j else x }

/-- Forget a transmit request. -/
def dropJob (t : Nat) (c : Chip) : Chip := c.onRadio fun r => { r with jobs := r.jobs.filter fun x => x.ticket != t }

/-- The transmit request of a carrier. -/
def Chip.jobOf (c : Chip) (id : Nat) : Option TxJob :=
  c.radio.jobs.find? fun j => j.carrier == id && j.phase == .committed

/-- Word 7 of a request block (R124). -/
def resultWord7 (status attempts : Nat) (acked : Bool) (tc : Option Int) : Word :=
  .bits (unsigned 12 (tc.getD 0) * 2 ^ 24 + attempts % 16 * 2 ^ 20 + b2n acked * 2 ^ 19 + b2n tc.isSome * 2 ^ 18
    + status % 4096)

/-- A transmit request completes: words 6 and 7 of its block, then its ticket (R124, R250). A request withdrawn by a
CORE restart posts nothing (R253). -/
def finishJob (j : TxJob) (w : Word) (acked : Bool) (tc : Option Int) (c : Chip) : Chip :=
  let c1 := dropJob j.ticket c
  if j.dead then c1
  else
    let w6 := match j.first with
      | some g => Word.grain g
      | none => Word.bits 0
    finishTicket j.ticket w
      (linkWrite (j.block + 7) [resultWord7 (resultStatus w) j.attempts acked tc] (linkWrite (j.block + 6) [w6] c1))

/-- The result word of a request that was sent: the spec states none, so its payload is free. DESIGN CHOICE: log entry 109. -/
def txDone (j : TxJob) (acked : Bool) (tc : Option Int) (c : Chip) : Chip :=
  let (v, c1) := takeFree (2 ^ 36) c
  finishJob j (.mk' .int v) acked tc c1

/-- A request completes REFUSED. -/
def txRefused (j : TxJob) (st : Status) (c : Chip) : Chip := finishJob j (refused st) false none c

/-- A request completes REFUSED with STATE_REFUSED. -/
def txStateRefused (j : TxJob) (c : Chip) : Chip := finishJob j c.stateRefused false none c

/-- Every request a test names completes in one way. -/
def finishWhere (p : TxJob → Bool) (g : TxJob → Chip → Chip) (c : Chip) : Chip :=
  (c.radio.jobs.filter p).foldl (fun c j => g j c) c

/-- A backoff of a CSMA request (R127): the CCA ends at its commit grain. One that a CORE restart has left is withdrawn, its next
carrier being uncommitted (R253). DESIGN CHOICE: log entry 110. -/
def startBackoff (j : TxJob) (c : Chip) : Chip :=
  if j.dead then dropJob j.ticket c else
  let (k, c1) := takeFree (2 ^ j.be) c
  putJob { j with
    phase := .backoff, carrier := 0, plan := none
    due := c.now + k * c.f Fld.LINK_CSMA_BACKOFF_GR + c.f Fld.LINK_CCA_DURATION_GR } c1

/-! ### Budgets (R122, R123) -/

/-- Grains of a bucket of a window of `w` ms. -/
def bucketLen (w : Nat) : Nat := max 1 (roundNear ((w * 4194304 : Nat) : Int) 1000).toNat

/-- The window of a budget key: 256 channels, then eight sub-bands. -/
def Chip.budgetWindow (c : Chip) (key : Nat) : Nat :=
  if key < 256 then c.f Fld.LINK_DWELL_WINDOW_WINDOW_MS else c.regN (Reg.LINK_DUTY_WINDOW (key - 256))

/-- The budget of a key, in grains a window. -/
def Chip.budgetOf (c : Chip) (key : Nat) : Nat :=
  if key < 256 then c.regN Reg.LINK_DWELL_BUDGET else c.regN (Reg.LINK_DUTY_BUDGET (key - 256))

/-- The planned channel nearest a frequency, the lower where two are equally near; none where it lies more than half a
spacing from every one (R123). DEDUCED: log entry 116. -/
def Chip.channelOf (c : Chip) (f : Nat) : Option Nat :=
  let base := c.regN Reg.LINK_DWELL_BASE
  let sp := c.regN Reg.LINK_DWELL_SPACING
  (List.range (c.f Fld.LINK_DWELL_WINDOW_CHANNELS_M1 + 1)).find? fun k =>
    decide (2 * ((f : Int) - (base + k * sp : Nat)).natAbs ≤ sp)

/-- The centre of planned channel `k`. -/
def Chip.channelFreq (c : Chip) (k : Nat) : Nat := c.regN Reg.LINK_DWELL_BASE + k * c.regN Reg.LINK_DWELL_SPACING

/-- The budgets that apply to a carrier centre; none where no carrier is admitted there. -/
def Chip.budgetKeys (c : Chip) (f : Nat) : Option (List Nat) :=
  let low (n : Nat) : Int := signed 36 (c.regN (Reg.LINK_DUTY_LOW n))
  let high (n : Nat) : Int := signed 36 (c.regN (Reg.LINK_DUTY_HIGH n))
  let duty := ((List.range 8).filter fun n =>
    c.regN (Reg.LINK_DUTY_WINDOW n) != 0 && decide (low n ≤ f) && decide ((f : Int) < high n)).map (· + 256)
  if c.f Fld.LINK_DWELL_WINDOW_WINDOW_MS = 0 then some duty
  else (c.channelOf f).map fun k => k :: duty

/-- The charge of a budget in a bucket and the sixteen before it. -/
def Chip.charge (c : Chip) (key bucket : Nat) : Nat :=
  let len := bucketLen (c.budgetWindow key)
  (c.radio.charges.filter fun x =>
    x.key == key && decide (x.at_ / len ≤ bucket) && decide (bucket ≤ x.at_ / len + 16)).foldl (fun n x => n + x.air) 0

/-- Whether the budgets admit a carrier of an air time that starts its ramp at a grain (R123). -/
def Chip.budgetAdmits (c : Chip) (f ramp air : Nat) : Bool :=
  match c.budgetKeys f with
  | some ks => ks.all fun k => decide (c.charge k (ramp / bucketLen (c.budgetWindow k)) + air ≤ c.budgetOf k)
  | none => false

/-- A budget's charge over the present seventeen buckets. -/
def Chip.chargeNow (c : Chip) (key : Nat) : Nat := c.charge key (c.now / bucketLen (c.budgetWindow key))

/-- Write the USED registers of the sub-band budgets (R134). -/
def refreshUsed (c : Chip) : Chip :=
  (List.range 8).foldl (fun c n => c.setRegN (Reg.LINK_DUTY_USED n) (c.chargeNow (256 + n))) c

/-- Charge a carrier to its budgets (R122). -/
def chargeCarrier (id f ramp air : Nat) (c : Chip) : Chip :=
  refreshUsed (c.onRadio fun r => { r with
    charges := r.charges ++ ((c.budgetKeys f).getD []).map fun k => { key := k, at_ := ramp, air := air, id := id } })

/-- Release what a carrier was charged (R119). -/
def releaseCharge (id : Nat) (c : Chip) : Chip :=
  refreshUsed (c.onRadio fun r => { r with charges := r.charges.filter fun x => x.id != id })

/-! ### Carriers -/

/-- Write ON_AIR and COMMITTED of LINK_STATUS, the wake-up receiver's BLANKED (R134, R158). -/
def refreshAir (c : Chip) : Chip :=
  let air := (c.radio.carriers.filter fun k => k.onAir).length
  let com := (c.radio.carriers.filter fun k => ! k.onAir).length
  ((c.setF Fld.LINK_STATUS_ON_AIR air).setF Fld.LINK_STATUS_COMMITTED com).setB Fld.LINK_WUR_STATUS_BLANKED (decide (0 < air))

/-- Replace a carrier. -/
def putCarrier (k : Carrier) (c : Chip) : Chip :=
  c.onRadio fun r => { r with carriers := r.carriers.map fun x => if x.id = k.id then k else x }

/-- Forget a carrier. -/
def dropCarrier (id : Nat) (c : Chip) : Chip :=
  refreshAir (c.onRadio fun r => { r with carriers := r.carriers.filter fun x => x.id != id })

/-- The plan bandwidth of a carrier: a page keys one carrier within the wake-up receiver's step. PRESUMED: log entry 112. -/
def Carrier.bandwidth (k : Carrier) : Nat := if k.kind = .page then 50000 else planBandwidth k.phy

/-- Whether a carrier is an acknowledgement. -/
def Carrier.isAck (k : Carrier) : Bool := k.kind == .ack || k.kind == .fwAck

/-- The rank of R120, lower first. -/
def Carrier.rank (k : Carrier) : List Nat :=
  if k.isAck then [0, k.commit, k.priority, k.lane, k.ticket] else [1, k.commit, k.ticket]

/-- Lexicographic order of ranks. -/
def rankLt : List Nat → List Nat → Bool
  | x :: xs, y :: ys => if x = y then rankLt xs ys else decide (x < y)
  | [], _ :: _ => true
  | _, [] => false

/-- Insert a carrier in rank order. -/
def insertRank (k : Carrier) : List Carrier → List Carrier
  | [] => [k]
  | x :: xs => if rankLt k.rank x.rank then k :: x :: xs else x :: insertRank k xs

/-- Whether a carrier occupies a slot at a grain (R60). -/
def Carrier.covers (k : Carrier) (t : Nat) : Bool := decide (k.ramp ≤ t) && decide (t < k.last)

/-- Whether a carrier fits among those kept, under an allowance, at every grain of its interval. -/
def fitsSlots (n : Nat) (kept : List Carrier) (k : Carrier) : Bool :=
  (k.ramp :: ((kept.map fun x => x.ramp).filter k.covers)).all fun t =>
    decide ((kept.filter fun x => x.covers t).length < n)

/-- Work down the ranking (R120): the carriers that lose their slots. -/
def rankLosers (n : Nat) : List Carrier → List Carrier → List Carrier
  | _, [] => []
  | kept, k :: ks => if fitsSlots n kept k then rankLosers n (k :: kept) ks else k :: rankLosers n kept ks

/-- The losers of a contest against the present allowance. -/
def Chip.losers (c : Chip) : List Carrier :=
  rankLosers c.allowed (c.radio.carriers.filter fun k => k.onAir)
    ((c.radio.carriers.filter fun k => ! k.onAir).foldl (fun l k => insertRank k l) [])

/-- A carrier is withdrawn: its slot and its charge are released (R119). -/
def withdraw (id : Nat) (c : Chip) : Chip := releaseCharge id (dropCarrier id c)

/-- The grain at which a retune that AUTO_RETUNE starts at the next tick settles (R58). DESIGN CHOICE: log entry 100. -/
def Chip.autoLock (c : Chip) (f : Nat) : Nat := c.now + 1 + settling (c.regN Reg.RF_TX_FREQ_NOW) f

/-- Whether AUTO_RETUNE may retune to a channel: no carrier on air or committed until the end of settling plus the ramp
(R58), and the transmit chain can retune. -/
def Chip.autoMay (c : Chip) (f : Nat) : Bool :=
  c.b Fld.RF_TX_CTRL_AUTO_RETUNE && c.isOn .rfTx && c.b Fld.RF_TX_CTRL_ENABLE && (c.synth 2).lockAt.isNone &&
    (c.synth 2).armed.isNone &&
    c.radio.carriers.all fun k => decide (c.autoLock f + 64 ≤ k.ramp) || decide (k.last ≤ c.now)

/-- ACK_CAUSE codes of a lost carrier (R133). -/
abbrev lostCarrier : Nat := 1
abbrev lostDwell : Nat := 2
abbrev lostWindow : Nat := 3
abbrev lostAllowance : Nat := 4

/-- A carrier is judged at its commit grain (R119, R121, R428): window, then budgets, then the transmit chain. It is
committed and charged, or the cause of its loss is answered. DEDUCED: log entry 115. -/
def offerCarrier (k : Carrier) (c : Chip) : Option Nat × Chip :=
  let inside := c.inWindow k.freq k.bandwidth
  if ! inside && ! c.autoMay k.freq then (some lostWindow, c)
  else
    let c1 := if inside then c
      else (setSynth 2 { (c.synth 2) with armed := some (c.now + 1) } (c.setRegN Reg.RF_TX_FREQ k.freq)).onRadio fun r =>
        { r with autoFor := some k.id }
    if ! c1.budgetAdmits k.freq k.ramp (k.last - k.ramp) then (some lostDwell, c1)
    else if ! c1.txFree k.ramp k.last then (some lostCarrier, c1)
    else
      (none, refreshAir (chargeCarrier k.id k.freq k.ramp (k.last - k.ramp)
        (c1.onRadio fun r => { r with carriers := r.carriers ++ [k] })))

/-- A fresh carrier number. -/
def freshId (c : Chip) : Nat × Chip := (c.radio.nextId, c.onRadio fun r => { r with nextId := r.nextId + 1 })

/-- Grains on air of a frame, its pad octet of R101 included. -/
def Chip.padded (c : Chip) (phy len : Nat) : Nat :=
  if phyFamily phy == famZhr && c.regN Reg.LINK_ZHR_PAD_FIX % 2 == 1 && phyFaults phy len then len + 1 else len

/-- The symbols of a frame that the transmitter sends (R90, R91, R94, R124), with its pad octet where it has one. The seed of
its scrambler and the pad octet are values the spec does not state. DESIGN CHOICE: log entry 174. -/
def Chip.frameWave (c : Chip) (id phy : Nat) (fcs2 : Bool) (octets : List Nat) : List AirSymbol :=
  let pad := octets.length != c.padded phy octets.length
  phyFrame phy (Config.sendSeed id) fcs2 pad (if pad then octets ++ [Config.padOctet id % 256] else octets)

/-- The carrier of a frame: first symbol at `first`, ramps of 64 gr about it (R60). -/
def Chip.frameCarrier (c : Chip) (id : Nat) (kind : CarrierKind) (commit first freq phy : Nat) (fcs2 : Bool)
    (octets : List Nat) : Carrier := {
  id := id, kind := kind, commit := commit, ramp := first - 64, first := first,
  last := first + airGrains phy (c.padded phy octets.length) + 64, freq := freq, phy := phy, powerDb := 0, lane := 64,
  priority := 3, ticket := 512, handle := none, onAir := false, cut := false, octets := octets,
  wave := c.frameWave id phy fcs2 octets, heard := none }

end Sys2Proof.Machine
end

