-- ==== Sys2Proof/Machine/Lane.lean ====
section
/-! DEFINITION. Lanes: channels, switches, detection, headers and reports (04_lanes.md). -/

namespace Sys2Proof.Machine

/-! ### Lane states (R105) -/

abbrev laneOff : Nat := 0
abbrev laneIdle : Nat := 1
abbrev laneDetect : Nat := 2
abbrev laneReceive : Nat := 3
abbrev laneFlush : Nat := 4
abbrev laneSwitching : Nat := 5
abbrev laneOutOfBand : Nat := 6
abbrev laneQuiesced : Nat := 7
abbrev laneHeld : Nat := 8

/-- A lane at reset. -/
def LaneSt.idle : LaneSt :=
  { freq := 0, phy := 0, switchAt := none, late := false, until_ := none, done_ := false, owner := none, quiesce := none,
    hold := none, combined := false, agcA := none, agcB := none, awaitLock := false }

/-- The hidden state of lane `n`. -/
def Chip.laneSt (c : Chip) (n : Nat) : LaneSt := Store.get .idle c.radio.lanes n

/-- Set the hidden state of lane `n`. -/
def setLaneSt (n : Nat) (s : LaneSt) (c : Chip) : Chip := c.onRadio fun r => { r with lanes := Store.put .idle r.lanes n s }

/-- STATE of lane `n`, and setting it. -/
def Chip.laneState (c : Chip) (n : Nat) : Nat := c.f (Fld.LANE_STATUS_STATE n)
def setLaneState (n v : Nat) (c : Chip) : Chip := c.setF (Fld.LANE_STATUS_STATE n) v

/-- A lane enters IDLE, and the AGC of each of its parts is released (R83). -/
def setLaneIdle (n : Nat) (c : Chip) : Chip :=
  setLaneState n laneIdle (setLaneSt n { (c.laneSt n) with agcA := none, agcB := none } c)

/-- The lane plan in force. -/
def Chip.plan (c : Chip) : Option LanePlan := c.recipe.map fun r => r.plan

/-- The plan entry of lane `n`, if the plan declares it. -/
def Chip.laneEntry (c : Chip) (n : Nat) : Option LaneEntry :=
  match c.plan with
  | some p => p.lanes.find? fun e => e.lane == n
  | none => none

/-- Whether lane `n` is declared, and its island serves. -/
def Chip.laneDeclared (c : Chip) (n : Nat) : Bool := (c.laneEntry n).isSome
def Chip.laneUp (c : Chip) (n : Nat) : Bool := c.laneDeclared n && c.isOn .lane

/-- The declared lanes, by number. -/
def Chip.laneNumbers (c : Chip) : List Nat := (List.range 64).filter c.laneDeclared

/-- The chain of a lane's plan entry: 0 A, 1 B, 2 both. -/
def Chip.laneChain (c : Chip) (n : Nat) : Nat := ((c.laneEntry n).map fun e => e.chain).getD 0

/-- The families of a lane's plan entry. -/
def Chip.laneFamilies (c : Chip) (n : Nat) : Nat := ((c.laneEntry n).map fun e => e.families).getD 0

/-- Whether a lane of chain `a` hears a chain that a lane of chain `b` hears. -/
def shareChain (a b : Nat) : Bool := a == 2 || b == 2 || a == b

/-! ### Placement (R75, R78, R80, R81, R82) -/

/-- The chain whose centre places a lane: chain A for a diversity lane. -/
def Chip.placeChain (c : Chip) (n : Nat) : Nat := if c.laneChain n = 1 then 1 else 0

/-- Whether a lane's present channel lies within its chain's usable bandwidth (R46). -/
def Chip.laneInBand (c : Chip) (n : Nat) : Bool :=
  let x := c.placeChain n
  let centre := c.regN (Reg.RF_CHAIN_FREQ_NOW x)
  let s := c.laneSt n
  centre != 0 && withinSpan s.freq (planBandwidth s.phy) centre (usableHalf (c.b (Fld.RF_CHAIN_CTRL_SETTING x)))

/-- Whether a diversity lane combines both chains (R81). -/
def Chip.laneCombines (c : Chip) (n : Nat) : Bool :=
  c.laneChain n == 2 && c.b (Fld.RF_CHAIN_CTRL_FOLLOW 1) && c.locked 0 && c.locked 1

/-- A lane recomputes its sub-band, SPUR flag and CHAIN_IN_USE, and DIV_LOST is set once per loss, by whichever chain (R75, R80,
R81, R82); a lane that has had no channel yet has no spur. DEDUCED: log entry 175. -/
def laneGeo (n : Nat) (c : Chip) : Chip :=
  let x := c.placeChain n
  let s := c.laneSt n
  let centre := c.regN (Reg.RF_CHAIN_FREQ_NOW x)
  let narrow := c.b (Fld.RF_CHAIN_CTRL_SETTING x)
  let c0 := c.setB (Fld.LANE_STATUS_SPUR n) (s.freq != 0 && spurred s.freq (planBandwidth s.phy) centre)
  let c1 := if c.laneInBand n then c0.setF (Fld.LANE_STATUS_SUB_BAND n) (subBand narrow ((s.freq : Int) - centre)) else c0
  let comb := c.laneCombines n
  let c2 := c1.setF (Fld.LANE_STATUS_CHAIN_IN_USE n) (if comb then 2 else if c.laneChain n = 1 then 1 else 0)
  let c3 := setLaneSt n { s with combined := comb } c2
  if s.combined && ! comb then (c3.setB (Fld.LANE_STATUS_DIV_LOST n) true).raise (.lane n) 4 else c3

/-- A lane enters IDLE, HELD or OUT_OF_BAND as its settings dictate (R77). -/
def laneRest (n : Nat) (c : Chip) : Chip :=
  if c.laneInBand n then (if c.b (Fld.LANE_CTRL_LISTEN n) then setLaneIdle n c else setLaneState n laneHeld c)
  else
    let c1 := setLaneState n laneOutOfBand c
    if c.laneState n = laneOutOfBand then c1 else c1.raise (.lane n) 3

/-- Whether values would break rule 6 of R76 against another lane's present channel and mode (R78). -/
def Chip.laneClash (c : Chip) (n f p : Nat) : Bool :=
  c.laneNumbers.any fun m =>
    m != n && c.laneState m != laneOff && phyFamily (c.laneSt m).phy == phyFamily p &&
      shareChain (c.laneChain m) (c.laneChain n) &&
      overlaps (c.laneSt m).freq (planBandwidth (c.laneSt m).phy) f (planBandwidth p)

/-! ### Frames of a lane (R88) -/

/-- The frame a lane is detecting or receiving. -/
def Chip.laneFrame (c : Chip) (n : Nat) : Option Frame :=
  c.radio.frames.find? fun f => f.lane == n && f.endAt.isNone

/-- Replace a frame. -/
def putFrame (f : Frame) (c : Chip) : Chip :=
  c.onRadio fun r => { r with frames := r.frames.map fun x => if x.id = f.id then f else x }

/-- Forget a frame. -/
def dropFrame (id : Nat) (c : Chip) : Chip :=
  c.onRadio fun r => { r with frames := r.frames.filter fun x => x.id != id }

/-- A frame is abandoned (R88): counted, recorded and raised; once its first byte has reached the link controller it is
closed by an abandon mark, whose grain is its end grain (R107). -/
def dropWithMark (n cause : Nat) (c : Chip) : Chip :=
  match c.laneFrame n with
  | none => c
  | some f =>
    let c1 := (((c.bump (Fld.LANE_COUNTS_B_ABANDONED n)).setF (Fld.LANE_STATUS_LAST_ABANDON n) cause).raise (.lane n) 0)
    if f.started then
      let c2 := chkLaneClose n f.psdu true c1
      if f.taken then putFrame { f with endAt := some c.now, abandoned := true, report := none } c2 else dropFrame f.id c2
    else dropFrame f.id c1

/-- A lane takes its next channel and mode (R77). -/
def laneTake (n : Nat) (c : Chip) : Chip :=
  laneGeo n (setLaneSt n { (c.laneSt n) with
    freq := c.regN (Reg.LANE_FREQ n)
    phy := c.regN (Reg.LANE_PHY n) } c)

/-- A lane is in SWITCHING for some grains (R77). -/
def laneSwitching_ (n dur : Nat) (done : Bool) (c : Chip) : Chip :=
  setLaneState n laneSwitching (setLaneSt n { (c.laneSt n) with until_ := some (c.now + dur), done_ := done } c)

/-- The switch is disarmed. -/
def laneDisarm (n : Nat) (c : Chip) : Chip :=
  (setLaneSt n { (c.laneSt n) with switchAt := none, late := false } c).setB (Fld.LANE_STATUS_SWITCH_ARMED n) false

/-- A switch is not applied (R78). -/
def laneRefuse (n : Nat) (c : Chip) : Chip :=
  (c.setB (Fld.LANE_STATUS_SWITCH_REFUSED n) true).raise (.lane n) 5

/-- The switch is made at this grain (R77, R78). -/
def laneDoSwitch (n : Nat) (c : Chip) : Chip :=
  let f := c.regN (Reg.LANE_FREQ n)
  let p := c.regN (Reg.LANE_PHY n)
  let st := c.laneState n
  if st = laneOff then (laneTake n (laneDisarm n c)).raise (.lane n) 2
  else if c.laneClash n f p then laneRefuse n (laneDisarm n c)
  else if (st = laneReceive ∨ st = laneFlush) ∧ ¬ c.b (Fld.LANE_CTRL_FORCE_SWITCH n) = true then
    (setLaneSt n { (c.laneSt n) with late := true } c).setB (Fld.LANE_STATUS_SWITCH_LATE n) true
  else laneSwitching_ n 32 true (laneTake n (laneDisarm n (dropWithMark n 2 c)))

/-- A lane whose frame has ended or been abandoned: it becomes QUIESCED if a re-mash waits for it and no reservation covers it, makes a switch that
waited, or returns to rest (R77, R274). DEDUCED: log entry 159. -/
def laneFree (n : Nat) (c : Chip) : Chip :=
  let s := c.laneSt n
  if s.quiesce.isSome && s.owner.isNone then setLaneState n laneQuiesced (setLaneSt n { s with quiesce := none, hold := some (c.now + 64) } c)
  else if s.late then
    (if c.laneClash n (c.regN (Reg.LANE_FREQ n)) (c.regN (Reg.LANE_PHY n)) then laneRefuse n (laneRest n (laneDisarm n c))
     else laneSwitching_ n 32 true (laneTake n (laneDisarm n c)))
  else laneRest n c

/-- The frame of a lane is abandoned and the lane freed (R88). DEDUCED: log entry 105. -/
def laneAbandon (n cause : Nat) (c : Chip) : Chip := laneFree n (dropWithMark n cause c)

/-- Whether a frame loses its samples when chain `x` stops: its one chain, or both of a combined frame's (R81). -/
def Chip.frameHit (c : Chip) (f : Frame) (x : Nat) : Bool :=
  if f.chain = 2 then phyFamily f.phy != famFsk && ! c.delivers (1 - x) else f.chain == x

/-- A chain stops delivering samples (R50, R57, R72, R80, R81): frames in RECEIVE or FLUSH on it are abandoned with a
cause, but for a diversity frame whose other chain still delivers; a detection finds no delimiter in the zero-valued
samples of a retune. -/
def chainStops (x cause : Nat) (c : Chip) : Chip :=
  c.laneNumbers.foldl (fun c n =>
    match c.laneFrame n with
    | none => c
    | some f =>
      if ! c.frameHit f x then c
      else if c.laneState n = laneReceive ∨ c.laneState n = laneFlush then laneAbandon n cause c
      else if cause = 1 then putFrame { f with blind := true } c
      else c) c

/-- Every lane of a chain recomputes its placement when the chain reports LOCKED (R80); one that seeks a delimiter or receives
goes on until that ends. DEDUCED: log entry 176. -/
def chainLocked (x : Nat) (c : Chip) : Chip :=
  c.laneNumbers.foldl (fun c n =>
    if c.placeChain n = x ∨ c.laneChain n = 2 then
      let c1 := laneGeo n c
      if c1.laneState n = laneOutOfBand ∨ c1.laneState n = laneIdle ∨ c1.laneState n = laneHeld then laneRest n c1 else c1
    else c) c

/-- Every diversity lane judges again whether it combines (R81). -/
def lanesCombine (c : Chip) : Chip :=
  c.laneNumbers.foldl (fun c n => if c.laneChain n = 2 then laneGeo n c else c) c

/-! ### Commands on a lane's registers -/

/-- ENABLE goes from 0 to 1 (R77, R78): the lane takes the next channel and mode and is in SWITCHING for 64 gr, or is
refused under rule 6. -/
def laneEnable (n : Nat) (c : Chip) : Chip :=
  if ! c.laneUp n then c.regReject
  else if c.b (Fld.LANE_CTRL_ENABLE n) then c
  else
    let f := c.regN (Reg.LANE_FREQ n)
    let p := c.regN (Reg.LANE_PHY n)
    if c.laneClash n f p then laneRefuse n c
    else laneSwitching_ n 64 false ((laneTake n (c.setB (Fld.LANE_CTRL_ENABLE n) true)).setF (Fld.LANE_STATUS_LAST_ABANDON n) 0)

/-- The lanes that the recipe enables wait for their chain to lock; those of a chain are enabled (R266). -/
def lanesAwaited (x : Nat) (c : Chip) : Chip :=
  c.laneNumbers.foldl (fun c n =>
    if (c.laneSt n).awaitLock ∧ c.placeChain n = x then laneEnable n (setLaneSt n { (c.laneSt n) with awaitLock := false } c)
    else c) c

/-- ENABLE is cleared (R88): any frame is abandoned with cause DISABLED and the lane is OFF. -/
def laneDisable (n : Nat) (c : Chip) : Chip :=
  if ! c.laneUp n then c.regReject
  else if ! c.b (Fld.LANE_CTRL_ENABLE n) then c
  else
    let c1 := dropWithMark n 6 (c.setB (Fld.LANE_CTRL_ENABLE n) false)
    setLaneState n laneOff (setLaneSt n { (c1.laneSt n) with until_ := none, done_ := false, late := false } c1)

/-- LISTEN as the lane follows it: it stops or arms new detections (R88). -/
def laneListen (n : Nat) (v : Bool) (c : Chip) : Chip :=
  let c1 := c.setB (Fld.LANE_CTRL_LISTEN n) v
  if c1.laneState n = laneIdle ∨ c1.laneState n = laneHeld then (if v then setLaneIdle n c1 else setLaneState n laneHeld c1)
  else c1

/-- A write of LISTEN by firmware or the host: discarded while the scheduler drives the lane (R79). -/
def listenWrite (n : Nat) (v : Bool) (c : Chip) : Chip :=
  if ! c.laneUp n || c.b (Fld.LANE_STATUS_SCHEDULED n) then c.regReject else laneListen n v c

/-- A write of a lane's control registers by firmware or the host: discarded while the lane is QUIESCED (R274). -/
def laneWrite (n : Nat) (g : Chip → Chip) (c : Chip) : Chip := if c.laneState n = laneQuiesced then c.regReject else g c

/-- A switch is armed for a grain (R77): one made during SWITCHING waits for its end. -/
def laneArm (n at_ : Nat) (c : Chip) : Chip :=
  let s := c.laneSt n
  let g := match s.until_ with
    | some e => max at_ e
    | none => at_
  (setLaneSt n { s with switchAt := some g, late := false } c).setB (Fld.LANE_STATUS_SWITCH_ARMED n) true

/-- A write of LANE_SWITCH_AT (R77, R79). -/
def laneSwitchAtWrite (n : Nat) (g : Payload) (c : Chip) : Chip :=
  if ! c.laneUp n || c.b (Fld.LANE_STATUS_SCHEDULED n) then c.regReject
  else laneArm n (c.dueAt g) (c.setRegN (Reg.LANE_SWITCH_AT n) g.toNat)

/-- The scheduler writes a lane's registers (R79). -/
def laneSchedule (n f p at_ : Nat) (listen : Bool) (c : Chip) : Chip :=
  laneArm n at_ (laneListen n listen (((c.setRegN (Reg.LANE_FREQ n) f).setRegN (Reg.LANE_PHY n) p).setRegN (Reg.LANE_SWITCH_AT n)
    (at_ % 2 ^ 36)))

/-- LANE_SWITCH (R77): the armed grain has come. -/
def laneSwitchDue (n : Nat) (c : Chip) : Chip :=
  match (c.laneSt n).switchAt with
  | some g =>
    if c.laneUp n && decide (g ≤ c.now) && (c.laneSt n).until_.isNone && ! (c.laneSt n).late && c.laneState n != laneQuiesced
    then laneDoSwitch n c else c
  | none => c

/-- SWITCH_DONE (R77): SWITCHING ends. -/
def laneSwitchDone (n : Nat) (c : Chip) : Chip :=
  match (c.laneSt n).until_ with
  | some g =>
    if c.laneUp n && decide (g ≤ c.now) && c.laneState n == laneSwitching then
      let c1 := laneRest n (setLaneSt n { (c.laneSt n) with until_ := none, done_ := false } c)
      if (c.laneSt n).done_ then c1.raise (.lane n) 2 else c1
    else c
  | none => c

/-! ### Detection and headers (R83 to R87) -/

/-- Whether the chain or chains a lane uses deliver samples. -/
def Chip.laneHears (c : Chip) (n : Nat) : Bool :=
  if c.laneCombines n then c.delivers 0 || c.delivers 1 else c.delivers (c.placeChain n)

/-- Whether the chain a frame was detected on delivers samples, or either of a combined frame's (R81). -/
def Chip.frameHears (c : Chip) (f : Frame) : Bool := if f.chain = 2 then c.delivers 0 || c.delivers 1 else c.delivers f.chain

/-- Whether an offset lies within 40 parts per million of a frequency (R97). -/
def within40ppm (f : Nat) (offset : Int) : Bool := decide (1000000 * offset.natAbs ≤ 40 * f)

/-- Whether a lane's detector takes a preamble (R85, R97): its correlation, its length where it is MR-FSK's, and its carrier and
clock offsets. -/
def Chip.preambleTaken (c : Chip) (n : Nat) (p : Preamble) : Bool :=
  decide (c.f (Fld.LANE_DETECT_THRESHOLD n) ≤ p.corr.toNat) &&
    (phyFamily (c.laneSt n).phy != famFsk || decide (c.f (Fld.LANE_DETECT_PREAMBLE_MIN n) ≤ p.octets)) &&
    within40ppm (c.laneSt n).freq p.offset && decide (p.clock.natAbs ≤ 40000)

/-- A lane takes a preamble: MR-FSK diversity uses the chain with the higher power, A where they are equal, the other families
combine (R81, R85). Each chain's part freezes its AGC (R83). -/
def laneDetect_ (n : Nat) (p : Preamble) (c : Chip) : Chip :=
  let s := c.laneSt n
  let comb := c.laneCombines n
  let chain := if comb then (if phyFamily s.phy = famFsk then b2n (decide (p.powerA < p.powerB)) else 2) else c.placeChain n
  let f : Frame := {
    id := c.radio.nextId, lane := n, chain := chain, freq := s.freq, phy := s.phy, detectAt := c.now,
    startAt := none, length := 0, onAir := 0, seed := 0, power := if chain = 1 then p.powerB else if chain = 0 then p.powerA else max p.powerA p.powerB
    offset := p.offset, clock := p.clock, fcs2 := false, psdu := [], started := false, taken := false, tsch := none, looked := false,
    handle := none, entry := [], slot := none, triedRing := none, clipped := false, stepped := none, endAt := none,
    abandoned := false, faulted := false, blind := false, report := none }
  let c1 := c.onRadio fun r => { r with frames := r.frames ++ [f], nextId := r.nextId + 1 }
  let c2 := setLaneSt n { (c1.laneSt n) with
    agcA := if comb || c.placeChain n == 0 then some p.powerA else none
    agcB := if comb || c.placeChain n == 1 then some p.powerB else none } c1
  setLaneState n laneDetect (c2.bump (Fld.LANE_COUNTS_A_DETECTS n))

/-- Whether a re-mash has stopped detection on a lane: it waits to become QUIESCED, and no reservation covers it (R274). -/
def Chip.laneStopped (c : Chip) (n : Nat) : Bool := (c.laneSt n).quiesce.isSome && (c.laneSt n).owner.isNone

/-- PREAMBLE_DETECT (R83, R85, R97). -/
def preambleDetect (n : Nat) (p : Preamble) (c : Chip) : Chip :=
  if c.laneUp n && c.laneState n == laneIdle && ! c.laneStopped n && c.laneHears n && c.preambleTaken n p then laneDetect_ n p c
  else c

/-- Grains of a number of symbols of a mode (R85). -/
def symbolSpan (p k : Nat) : Nat :=
  match phyFamily p with
  | 0 => symbolGrains k (fskSymbols (fskRate p))
  | 1 => symbolGrains (120 * k) 1000000
  | _ => symbolGrains ((zhrFft + zhrPrefix) * k) zhrRateHz

/-- SFD_TIMEOUT (R85): no delimiter within SFD_TIMEOUT symbols. -/
def sfdTimeout (n : Nat) (c : Chip) : Chip :=
  match c.laneFrame n with
  | some f =>
    if c.laneUp n && c.laneState n == laneDetect &&
        decide (f.detectAt + symbolSpan f.phy (c.f (Fld.LANE_DETECT_SFD_TIMEOUT n)) ≤ c.now) then
      laneFree n ((dropFrame f.id c).bump (Fld.LANE_COUNTS_A_FALSE_DETECTS n))
    else c
  | none => c

/-- The mode-select bit of a mode a header names: MR-FSK shows ACCEPT_UNCODED in bit 1 and ACCEPT_CODED in bit 0 (R105). -/
def modeBit (p : Nat) (h : PhyHeader) : Nat := if phyFamily p = famFsk then 1 - h.mode % 2 else h.mode

/-- Whether a PHY header is good for a lane's settings (R86). -/
def headerGood (p : Nat) (h : PhyHeader) : Bool :=
  h.checked && (phyModes p).testBit (modeBit p h) &&
    (match phyFamily p with
      | 0 => ! h.modeSwitch && decide ((if h.fcs2 then 2 else 4) ≤ h.length)
      | 1 => (ofdmDefined (ofdmOption p)).testBit h.mode
      | _ => h.seed != 0 && h.reserved == 0 && decide (0 < h.length) && decide (h.mode < 6))

/-- A mode word with one mode selected: the mode as received (R102). -/
def receivedMode (p : Nat) (h : PhyHeader) : Nat :=
  match phyFamily p with
  | 0 => putBits p 6 2 (2 - h.mode % 2)
  | 1 => putBits p 5 7 (2 ^ h.mode)
  | _ => putBits p 8 6 (2 ^ h.mode)

/-- A frame whose header is good: its PSDU follows, the pad octet not part of it (R95, R101). -/
def Frame.begin_ (f : Frame) (h : PhyHeader) (now : Nat) : Frame :=
  { f with
    startAt := some now
    phy := receivedMode f.phy h
    fcs2 := h.fcs2
    onAir := h.length
    seed := h.seed
    length := h.length - b2n h.pad
    faulted := phyFamily f.phy == famZhr && zhrFaults h.mode h.length }

/-- DELIMITER_FOUND (R86): the PHY header is decoded and checked; what is no delimiter of the lane's SFD_SET changes nothing. -/
def delimiterFound (n sfd : Nat) (soft : List Int) (c : Chip) : Chip :=
  match c.laneFrame n with
  | some f =>
    if c.laneUp n && c.laneState n == laneDetect && c.frameHears f && ! f.blind then
      match phyHeader f.phy sfd soft with
      | none => c
      | some h =>
        if headerGood f.phy h then setLaneState n laneReceive (putFrame (f.begin_ h c.now) c)
        else laneFree n (((dropFrame f.id c).bump (Fld.LANE_COUNTS_B_HEADER_ERRORS n)).raise (.lane n) 1)
    else c
  | none => c

/-- CAPTURE (R87): a preamble that stands CAPTURE_DB above the present frame's RSSI abandons it and is taken, unless the abandoned
frame was what a switch or a re-mash waited for. The second detector runs whatever LISTEN says. DESIGN CHOICE: log entry 177. -/
def laneCapture (n : Nat) (p : Preamble) (rssi : Int) (c : Chip) : Chip :=
  let power := if c.laneCombines n then max p.powerA p.powerB else if c.placeChain n = 1 then p.powerB else p.powerA
  if c.laneUp n && c.b (Fld.LANE_CTRL_CAPTURE n) && (c.laneState n == laneDetect || c.laneState n == laneReceive) && c.laneHears n
      && c.preambleTaken n p && decide (rssi + 4 * c.f (Fld.LANE_CTRL_CAPTURE_DB n) ≤ power) then
    let c1 := laneAbandon n 4 c
    if c1.laneState n = laneIdle ∨ c1.laneState n = laneHeld then laneDetect_ n p c1 else c1
  else c

/-- Headroom of the frozen gain, quarter-dB (R84). -/
def headroom (p : Nat) : Int := if phyFamily p = famFsk then 72 else 48

/-- Whether an in-channel power clips the word of a lane whose gain is frozen (R83, R84). -/
def Chip.laneClips (c : Chip) (n : Nat) (power : Int) : Bool :=
  let s := c.laneSt n
  [s.agcA, s.agcB].any fun a => a.any fun x => decide (x + headroom s.phy < power)

/-- SATURATION (R84): eight consecutive clipped lane samples, at an in-channel power beyond the headroom. -/
def laneSaturation (n : Nat) (power : Int) (c : Chip) : Chip :=
  if c.laneUp n && (c.laneState n == laneDetect || c.laneState n == laneReceive || c.laneState n == laneFlush)
      && c.laneClips n power then
    laneAbandon n 3 c else c

/-! ### The end of a frame (R56, R98 to R103) -/

/-- Noise figure of a gain index above that of index 0, quarter-dB. -/
def noiseRise (index : Nat) : Nat :=
  match index with
  | 0 => 0 | 1 => 2 | 2 => 6 | 3 => 14 | 4 => 26 | 5 => 44 | 6 => 64 | _ => 88

/-- Whether a frame is marked GAIN_EVENT (R56). -/
def Chip.gainMarked (c : Chip) (f : Frame) (clipped : Bool) (rssi : Int) : Bool :=
  f.clipped || clipped || (match f.stepped with
    | some d => decide (rssi < c.fI Fld.RF_GAIN_EVENT_LEVEL_REF_QDBM + d + c.f Fld.RF_GAIN_EVENT_LEVEL_MARGIN_QDB)
    | none => false)

/-- The lane report of a frame (R98, R102, R103). -/
def Chip.laneReport (c : Chip) (f : Frame) (m : LaneMeasure) : LaneReport :=
  let rssi := max (-560) (min 40 m.rssi)
  { rssi := rssi, evm := max (-800) (min 0 m.evm), lqi := max 0 (min 255 (64 + m.margin)), offset := m.offset
    drift := Config.roundHalf 4 (m.offset * 1000000000) f.freq, gainEvent := c.gainMarked f m.clipped rssi
    spur := c.b (Fld.LANE_STATUS_SPUR f.lane) }

/-- The chains a frame used: a marked frame of a combined lane moves the counts and flags of both, on whichever the event was.
DESIGN CHOICE: log entry 209. -/
def frameChains (f : Frame) : List Nat := if f.chain = 2 then [0, 1] else [f.chain]

/-- The end of a frame's last symbol, as its header foretells it (R94, R100). -/
def Frame.lastSymbol (f : Frame) : Option Nat := f.startAt.map fun g => g + (airGrains f.phy f.onAir - headGrains f.phy)

/-- A lane whose frame's last symbol has ended is in FLUSH until the frame is handed over (R100, R105). DEDUCED: log entry 178. -/
def laneFlushes (c : Chip) : Chip :=
  (c.radio.frames.filter fun f => f.started && f.endAt.isNone && f.lastSymbol.any fun g => decide (g ≤ c.now)).foldl (fun c f =>
    if c.laneState f.lane = laneReceive then setLaneState f.lane laneFlush c else c) c

/-- A lane measures: every 256 gr LANE_RSSI_NOW takes the in-channel power, which no state holds (R105).
DESIGN CHOICE: log entry 22. -/
def laneMeasures (n : Nat) (c : Chip) : Chip :=
  if c.laneState n = laneOff ∨ c.laneState n = laneSwitching then c
  else
    let (v, c1) := takeFree (2 ^ 36) c
    c1.setRegN (Reg.LANE_RSSI_NOW n) v

/-- What a grain does in the lanes: ends of frames, and every 256 gr the powers. -/
def lanesGrain (c : Chip) : Chip :=
  let c1 := if c.radio.frames.isEmpty then c else laneFlushes c
  if c1.now % 256 = 0 ∧ c1.isOn .lane = true then c1.laneNumbers.foldl (fun c n => laneMeasures n c) c1 else c1

/-- FRAME_END (R100 to R103): the last bytes and the report are handed over and the lane returns to rest. A frame is tracked only
within 40 ppm (R97). -/
def frameEnd (n : Nat) (m : LaneMeasure) (c : Chip) : Chip :=
  match c.laneFrame n with
  | some f =>
    if c.laneUp n && (c.laneState n == laneReceive || c.laneState n == laneFlush) && f.started && within40ppm f.freq m.offset then
      let stamp := if c.laneState n = laneFlush then f.lastSymbol.getD c.now else c.now
      let rep := c.laneReport f m
      let c1 := if rep.gainEvent then (frameChains f).foldl (fun c x =>
          (c.bump (Fld.RF_CHAIN_COUNTS_GAIN_EVENTS x)).raise .rf (2 + x)) c else c
      let c2 := if f.faulted then c1.raise (.lane n) 6 else c1
      let c3 := chkLaneClose n f.psdu false (c2.bump (Fld.LANE_COUNTS_B_DELIVERED n))
      let c4 := if f.taken then putFrame { f with endAt := some stamp, report := some rep } c3
        else dropFrame f.id c3
      laneFree n c4
    else c
  | none => c

/-! ### Meanings -/

/-- LANE_ENABLE (R77). -/
def execLaneEnable (n : Fin 64) (s : State) : Host.Outcome State Fault Refusal := onChip (laneWrite n.val (laneEnable n.val)) s
/-- LANE_DISABLE (R88). -/
def execLaneDisable (n : Fin 64) (s : State) : Host.Outcome State Fault Refusal := onChip (laneWrite n.val (laneDisable n.val)) s
/-- LISTEN_WRITE (R88). -/
def execListenWrite (n : Fin 64) (v : Bool) (s : State) : Host.Outcome State Fault Refusal := onChip (laneWrite n.val (listenWrite n.val v)) s
/-- LANE_SWITCH_AT_WRITE (R77). -/
def execLaneSwitchAtWrite (n : Fin 64) (g : Payload) (s : State) : Host.Outcome State Fault Refusal :=
  onChip (laneWrite n.val (laneSwitchAtWrite n.val g)) s
/-- LANE_SWITCH (R77). -/
def execLaneSwitch (n : Fin 64) (s : State) : Host.Outcome State Fault Refusal := onChip (laneSwitchDue n.val) s
/-- SWITCH_DONE (R77). -/
def execSwitchDone (n : Fin 64) (s : State) : Host.Outcome State Fault Refusal := onChip (laneSwitchDone n.val) s
/-- PREAMBLE_DETECT (R85). -/
def execPreambleDetect (n : Fin 64) (p : Preamble) (s : State) : Host.Outcome State Fault Refusal :=
  onChip (preambleDetect n.val p) s
/-- SFD_TIMEOUT (R85). -/
def execSfdTimeout (n : Fin 64) (s : State) : Host.Outcome State Fault Refusal := onChip (sfdTimeout n.val) s
/-- DELIMITER_FOUND (R86). -/
def execDelimiterFound (n : Fin 64) (d : Delimiter) (s : State) : Host.Outcome State Fault Refusal :=
  onChip (delimiterFound n.val d.sfd.toNat (d.header.map BitVec.toInt)) s
/-- CAPTURE (R87). -/
def execCapture (n : Fin 64) (p : Stronger) (s : State) : Host.Outcome State Fault Refusal :=
  onChip (laneCapture n.val p.preamble p.rssi) s
/-- SATURATION (R84). -/
def execSaturation (k : Clipping) (s : State) : Host.Outcome State Fault Refusal :=
  onChip (laneSaturation k.lane.val k.power) s
/-- FRAME_END (R100). -/
def execFrameEnd (n : Fin 64) (m : LaneMeasure) (s : State) : Host.Outcome State Fault Refusal :=
  onChip (frameEnd n.val m) s

end Sys2Proof.Machine
end

