-- ==== Sys2Proof/Machine/Rtc.lean ====
section
/-! DEFINITION. The real-time clock, calendar, alarms, compensation and backup switchover (14_time_of_day.md). -/

namespace Sys2Proof.Machine

/-! ### The counter and the calendar -/

/-- The last second of the range, 2399-12-31 23:59:59 (R314). -/
abbrev rtcLastSecond : Nat := 12622780799

/-- RTC_CAL_DATE of a count of seconds (R315). -/
def calDate (s : Nat) : Nat :=
  let days := s / 86400
  let z := days + 730425
  let era := z / 146097
  let doe := z % 146097
  let yoe := (doe - doe / 1460 + doe / 36524 - doe / 146096) / 365
  let doy := doe - (365 * yoe + yoe / 4 - yoe / 100)
  let mp := (5 * doy + 2) / 153
  let d := doy - (153 * mp + 2) / 5 + 1
  let m := if mp < 10 then mp + 3 else mp - 9
  let y := yoe + era * 400 + (if m ≤ 2 then 1 else 0)
  (y - 2000) * 2 ^ 15 + m * 2 ^ 11 + d * 2 ^ 6 + (days + 6) % 7 * 2 ^ 3

/-- RTC_CAL_TIME of a count of seconds (R315). -/
def calTime (s : Nat) : Nat :=
  let t := s % 86400
  t / 3600 * 2 ^ 12 + t / 60 % 60 * 2 ^ 6 + t % 60

/-- The counter in fractions of 1/32768 s. -/
def Chip.rtcNow (c : Chip) : Nat := c.regN Reg.RTC_SECONDS * 32768 + c.regN Reg.RTC_FRAC

/-- The RTC-derived long time (R314). -/
def Chip.rtcLong (c : Chip) : Nat := c.rtcNow * 2048

/-- Put a count of fractions into the counter and the calendar registers (R315, R321). -/
def rtcSetCounter (c : Chip) (t : Nat) : Chip :=
  (((c.setRegN Reg.RTC_SECONDS (t / 32768)).setRegN Reg.RTC_FRAC (t % 32768)).setRegN Reg.RTC_CAL_DATE
    (calDate (t / 32768))).setRegN Reg.RTC_CAL_TIME (calTime (t / 32768))

/-- The time of an alarm, in fractions (R324). -/
def Chip.alarmTime (c : Chip) (a : Nat) : Int :=
  c.regI (Reg.RTC_ALARM_SECONDS a) * 32768 + c.regN (Reg.RTC_ALARM_FRAC a)

/-- Whether an alarm is armed. -/
def Chip.alarmArmed (c : Chip) (a : Nat) : Bool := c.b (Fld.RTC_ALARM_CTRL_ARMED a)

/-- The four alarms. -/
def alarms : List Nat := [0, 1, 2, 3]

/-- OSC_STOP takes a value; LINK_STATUS.OSC_STOP follows it, but not while the RTC domain is locked out (R118, R326). -/
def setOscStop (c : Chip) (v : Bool) : Chip :=
  let c1 := c.setB Fld.RTC_STATUS_OSC_STOP v
  if c.rtc.lockout then c1 else c1.setB Fld.LINK_STATUS_OSC_STOP v

/-- OSC_STOP becomes set, and is raised in RTC_INT_STATUS (R326, R330). -/
def raiseOscStop (c : Chip) : Chip := (setOscStop c true).raise .rtc 0

/-- Latch a wake source, in its place of PWR_WAKE_STATUS, while an entry runs or the chip sleeps, up to the wake edge (R342).
DEDUCED: log entry 31. -/
def latchWake (c : Chip) (bit : Nat) : Chip :=
  if c.pwr.doneAt.isNone && (decide (5 ≤ c.power) || c.entering) then
    { c with pwr := { c.pwr with latched := c.pwr.latched ||| 2 ^ bit } }
  else c

/-- An alarm fires: FIRED set, ARMED cleared, its source fired, and the wake source latched (R324, R325, R342). -/
def fireAlarm (c : Chip) (a : Nat) (skipped : Bool) : Chip :=
  let c1 := (c.setB (Fld.RTC_ALARM_CTRL_ARMED a) false).setB (Fld.RTC_ALARM_CTRL_FIRED a) true
  let c2 := if skipped then c1.setB (Fld.RTC_ALARM_CTRL_SKIPPED a) true else c1
  let c3 := { c2 with rtc := { c2.rtc with alarmDue := c2.rtc.alarmDue.filter (· != a),
                                           alarmSkipped := c2.rtc.alarmSkipped.filter (· != a),
                                           alarmLate := c2.rtc.alarmLate.filter (· != a) } }
  latchWake (c3.fire (0xC8 + a) (some (b2n skipped))) 1

/-- Armed alarms whose time the counter has just reached fall due (R324). -/
def markAlarms (c : Chip) : Chip :=
  { c with rtc := { c.rtc with alarmDue :=
      c.rtc.alarmDue ++ alarms.filter fun a => c.alarmArmed a && c.alarmTime a == c.rtcNow
        && ! c.rtc.alarmDue.contains a && ! c.rtc.alarmSkipped.contains a } }

/-- A move of the counter from one time to another: alarms it passes fire skipped, and an alarm at the new time fires
on time (R325). DEDUCED: log entry 47. -/
def alarmsAfterMove (c : Chip) (old new : Nat) : Chip :=
  alarms.foldl (fun c a =>
    if c.alarmArmed a then
      if decide (old < c.alarmTime a) && decide (c.alarmTime a < new) then fireAlarm c a true
      else if c.alarmTime a == new then fireAlarm c a false else c
    else c) c

/-! ### The 32.768 kHz tick -/

/-- The number of adjustments of the present period, signed (RTC_COMP_STATUS.TICKS). -/
def Chip.compTicks (c : Chip) : Int := c.fI Fld.RTC_COMP_STATUS_TICKS

/-- Whether sub-period `k` of the present period carries an adjustment (R319). -/
def Chip.subAdjusted (c : Chip) (k : Nat) : Bool :=
  c.b Fld.RTC_CTRL_COMP_ENABLE && decide (k < c.compTicks.natAbs)

/-- Whether the period is within 2 ticks of its end, where the adjustments of the next are not yet formed (R319). -/
def Chip.periodEnds (c : Chip) : Bool := c.b Fld.RTC_CTRL_COMP_ENABLE && decide (1048574 ≤ c.rtc.periodTick)

/-- RTC_STATUS.COMP_PENDING: within 2 ticks of an adjustment (R319); a free bit where the adjustment to come is not yet formed.
DESIGN CHOICE: log entry 168. -/
def refreshCompPending (c : Chip) : Chip :=
  let sub := c.rtc.periodTick % 4096
  let k := c.rtc.periodTick / 4096
  if c.periodEnds then
    let (v, c1) := takeFree 2 c
    c1.setB Fld.RTC_STATUS_COMP_PENDING (v == 1)
  else c.setB Fld.RTC_STATUS_COMP_PENDING
    ((decide (sub ≤ 2) && c.subAdjusted k) || (decide (4094 ≤ sub) && decide (k < 255) && c.subAdjusted (k + 1)))

/-! ### Commands: SET, SHIFT, SNAP and their tick -/

/-- The effect of a SNAP request: two before one tick make one snapshot (R317). -/
def rtcSnap (c : Chip) : Chip :=
  if c.isOn .rtc then { c with rtc := { c.rtc with snap := true } } else c.regReject

/-- SNAP (R317). -/
def execSnap (s : State) : Host.Outcome State Fault Refusal := onChip rtcSnap s

/-- The counter leaves the end of its range (R314). -/
def rtcOffEnd (c : Chip) : Chip := ({ c with rtc := { c.rtc with endDue := false } }).setB Fld.RTC_STATUS_RANGE_END false

/-- The counter moves to a new time by SET or network set: RANGE_END clears, OSC_STOP clears, TIME_SOURCE is set, and
the alarms are judged (R314, R320, R323, R325). -/
def rtcLoad (c : Chip) (t source : Nat) : Chip :=
  let old := c.rtcNow
  let c1 := (setOscStop (rtcSetCounter c t) false).setF Fld.RTC_STATUS_TIME_SOURCE source
  alarmsAfterMove (rtcOffEnd c1) old t

/-- One tick added or dropped (R319), unless a SHIFT lost it (R322) or the counter holds at its end (R314). At the last
fraction an added tick would carry past the range, and a dropped one leaves the counter where it is. -/
def compAdjust (c : Chip) : Chip :=
  if c.rtc.adjDue then
    let c1 := { c with rtc := { c.rtc with adjDue := false, adjLost := false } }
    if c.rtc.adjLost || c.b Fld.RTC_STATUS_RANGE_END then c1
    else if 0 < c.compTicks then
      let c2 := { c1 with rtc := { c1.rtc with adjMade := 1 } }
      if c2.rtcNow + 1 < (rtcLastSecond + 1) * 32768 then markAlarms (rtcSetCounter c2 (c2.rtcNow + 1))
      else { c2 with rtc := { c2.rtc with endDue := true } }
    else
      let c2 := { c1 with rtc := { c1.rtc with adjMade := -1, endDue := false } }
      let c3 := if c1.rtc.endDue then c2 else rtcSetCounter c2 (c2.rtcNow - 1)
      { c3 with rtc := { c3.rtc with alarmDue := c3.rtc.alarmDue.filter fun a => decide (c3.alarmTime a ≤ c3.rtcNow) } }
  else c

/-- A SHIFT within 2 ticks of an adjustment loses that adjustment on A1 (R322, A1 erratum E5): one to come is dropped,
one just made is undone, once, by the count the shift starts from. DEDUCED: log entry 48. -/
def rtcShiftBase (c : Chip) : Chip × Int :=
  let lost := decide (4094 ≤ c.rtc.periodTick % 4096) || c.rtc.adjDue || (c.rtc.periodDue && c.b Fld.RTC_CTRL_COMP_ENABLE)
  ({ c with rtc := { c.rtc with adjLost := c.rtc.adjLost || lost, adjMade := 0 } }, (c.rtcNow : Int) - c.rtc.adjMade)

/-- A SET or network set overwrites an adjustment of its tick, made or to come (R321). -/
def rtcOverwrite (c : Chip) : Chip := { c with rtc := { c.rtc with adjDue := false, adjMade := 0, setNow := true } }

/-- An enabled alarm that has fired in Small Hours entered by request is a wake, which is a cold start (R22, R325, R342); in
brown-out it is not (R339). -/
def alarmWakes (c : Chip) : Chip :=
  if c.power == 7 && ! c.pwr.brownout && c.pwr.latched.testBit 1 && c.b Fld.PWR_WAKE_ENABLE_ALARM then
    deviceReset (some causeSmallHours) true c
  else c

/-- The completion of the pending command once its tick has come: the status and the effect (R320). While the crystal stands
still no tick comes, and it is answered at once. A SET moves the counter from what the adjustment of its tick left, and
overwrites that adjustment (R321). DEDUCED: log entry 202. -/
def rtcCommandDone (c : Chip) : Chip :=
  match c.rtc.pending with
  | none => c
  | some p =>
    if c.b Fld.RTC_STATUS_OSC_RUNNING && ! c.rtc.cmdDue then c else
    let c0 := ({ c with rtc := { c.rtc with pending := none, cmdDue := false } }).setB Fld.RTC_STATUS_CMD_PENDING false
    let finish (c : Chip) (s : Status) : Chip := (c.setF Fld.RTC_STATUS_CMD_RESULT s.code).raise .rtc 3
    if ! c0.b Fld.RTC_STATUS_OSC_RUNNING then finish c0 .stateRefused
    else match p with
      | .set =>
        if 0 ≤ c0.regI Reg.RTC_SET_SECONDS && c0.regI Reg.RTC_SET_SECONDS ≤ rtcLastSecond then
          finish (rtcLoad (rtcOverwrite (compAdjust c0)) (c0.regN Reg.RTC_SET_SECONDS * 32768 + c0.regN Reg.RTC_SET_FRAC) 1) .ok
        else finish c0 .badArg
      | .shift z =>
        if z = 0 then finish c0 .ok
        else
          let b := rtcShiftBase c0
          let t := b.2 + z
          if 0 ≤ t && t < ((rtcLastSecond + 1) * 32768 : Nat) then
            finish (alarmsAfterMove (rtcOffEnd (rtcSetCounter b.1 t.toNat)) c0.rtcNow t.toNat) .ok
          else finish c0 .badArg

/-- The pending command completes, and an alarm that it passes in Small Hours is a wake (R325). -/
def rtcApply (c : Chip) : Chip := if c.rtc.pending.isSome && (rtcCommandDone c).rtc.pending.isNone then alarmWakes (rtcCommandDone c) else c

/-- RTC_CMD_APPLY (R321). -/
def execRtcCmdApply (s : State) : Host.Outcome State Fault Refusal := onChip rtcApply s

/-- A write of RTC_CMD with a time command: one that is pending is answered SUPERSEDED, unless its tick has come, at which it
takes effect (R320). A block locked out discards the write (R12, R328). -/
def rtcCommand (p : RtcPending) (c : Chip) : Chip :=
  if c.isOn .rtc then
    let c1 := if ! c.rtc.pending.isSome then c
      else if c.rtc.cmdDue then rtcApply c
      else (c.setF Fld.RTC_STATUS_CMD_RESULT Status.superseded.code).raise .rtc 3
    ({ c1 with rtc := { c1.rtc with pending := some p, cmdDue := false } }).setB Fld.RTC_STATUS_CMD_PENDING true
  else c.regReject

/-- SET (R320). -/
def execSet (s : State) : Host.Outcome State Fault Refusal := onChip (rtcCommand .set) s

/-- The effect of a SHIFT by the value of the 16-bit field; 0x8000 is reserved (R37, R320, R330). -/
def rtcShift (field : BitVec 16) (c : Chip) : Chip :=
  if field = 0x8000#16 then c.regReject else rtcCommand (.shift field.toInt) c

/-- SHIFT (R320). -/
def execShift (field : BitVec 16) (s : State) : Host.Outcome State Fault Refusal := onChip (rtcShift field) s

/-- The snapshot of one tick edge, after the adjustment and the command of that tick (R317, R321): the grain is free within one
of the grain of the edge. DESIGN CHOICE: log entry 169. -/
def rtcSnapTaken (c : Chip) : Chip :=
  if c.rtc.snapDue then
    let c0 := compAdjust (if c.rtc.cmdDue then rtcApply c else c)
    let (v, c1) := takeFree 3 { c0 with rtc := { c0.rtc with snap := false, snapDue := false } }
    (((c1.setRegN Reg.RTC_SNAP_SECONDS (c1.regN Reg.RTC_SECONDS)).setRegN Reg.RTC_SNAP_FRAC (c1.regN Reg.RTC_FRAC)).setRegN
      Reg.RTC_SNAP_GRAIN ((c1.now - c1.now % 2048 + v + 2 ^ 36 - 1) % 2 ^ 36)).raise .rtc 4
  else c

/-- SNAP_TAKEN (R317). -/
def execSnapTaken (s : State) : Host.Outcome State Fault Refusal := onChip rtcSnapTaken s

/-- A network set (R323) waits for the next tick, if NET_SET is 1 and there is one to come: TIME, and the grain it stands for.
DEDUCED: log entry 167. -/
def rtcNetSet (time start : Nat) (c : Chip) : Chip :=
  if c.b Fld.RTC_CTRL_NET_SET && c.isOn .rtc && c.b Fld.RTC_STATUS_OSC_RUNNING then
    { c with rtc := { c.rtc with net := some (time, start) } }
  else c

/-- At a tick a network set takes effect (R321, R323): TIME plus the grains elapsed since, in whole fractions; it overwrites an
adjustment of the same tick. -/
def rtcNetApply (c : Chip) : Chip :=
  match c.rtc.net with
  | none => c
  | some (time, start) =>
    let c1 := { c with rtc := { c.rtc with net := none } }
    let t := (time + (c.now - start)) / 2048
    if t < (rtcLastSecond + 1) * 32768 then alarmWakes (rtcLoad (rtcOverwrite (compAdjust c1)) t 2) else c1

/-- Count one tick (R314, R319, step 1 of R321 without its adjustment, which is COMP_ADJUST): the counter advances one
fraction or holds at the end of its range, SUB_TICK advances, and what falls due with the tick is marked: the pending command, the
SNAP and alarms armed too late among it; then a network set that waits is applied (R323). DEDUCED: log entry 202. -/
def rtcTick (c : Chip) : Chip :=
  if c.b Fld.RTC_STATUS_OSC_RUNNING then
    let pt := (c.rtc.periodTick + 1) % 1048576
    let c1 := { c with rtc := { c.rtc with
      periodTick := pt
      periodDue := c.rtc.periodDue || pt == 0
      cmdDue := c.rtc.pending.isSome
      snapDue := c.rtc.snap
      setNow := false
      adjLost := c.rtc.adjLost && (pt % 4096 != 1 || c.rtc.periodDue)
      adjMade := if pt % 4096 == 3 then 0 else c.rtc.adjMade
      alarmSkipped := c.rtc.alarmSkipped ++ c.rtc.alarmLate
      alarmLate := [] } }
    let c2 := c1.setF Fld.RTC_STATUS_SUB_TICK (pt % 4096)
    let c3 := if c2.b Fld.RTC_STATUS_RANGE_END then c2
      else if c2.rtcNow + 1 < (rtcLastSecond + 1) * 32768 then markAlarms (rtcSetCounter c2 (c2.rtcNow + 1))
      else { c2 with rtc := { c2.rtc with endDue := true } }
    let c4 := if pt % 4096 == 0 && pt != 0 && c3.subAdjusted (pt / 4096) then
        { c3 with rtc := { c3.rtc with adjDue := true } } else c3
    rtcNetApply (refreshCompPending c4)
  else c

/-! ### Compensation -/

/-- ERROR_PPB at a temperature (R319). -/
def Chip.errorPpb (c : Chip) (t : Int) : Int :=
  let d := t - c.regI Reg.RTC_COMP_T0
  c.regI Reg.RTC_COMP_C0 + c.regI Reg.RTC_COMP_C1 * d + c.regI Reg.RTC_COMP_C2 * d * d
    + Config.roundHalf 2 (c.regI Reg.RTC_COMP_C3 * d * d * d) 256

/-- Clamp a value to ±255. -/
def clamp255 (z : Int) : Int := max (-255) (min 255 z)

/-- The period's adjustment formed from the accumulator (R319). -/
def compForm (t : Int) (c : Chip) : Chip :=
  let e := c.errorPpb t
  let acc := c.rtc.acc - e * 1048576
  let want := roundNear acc 1000000000
  let n := clamp255 want
  let c1 := { c with rtc := { c.rtc with acc := acc - n * 1000000000, adjDue := n != 0 && ! c.rtc.setNow, adjLost := c.rtc.adjLost && n != 0 } }
  let c2 := (((c1.setF Fld.RTC_COMP_STATUS_TEMP (unsigned 8 t)).setF Fld.RTC_COMP_STATUS_TICKS (unsigned 9 n)).setB
    Fld.RTC_COMP_STATUS_CLAMPED (n != want)).setRegI Reg.RTC_COMP_ERROR e
  if n != want then c2.raise .rtc 6 else c2

/-- The VBAT measurement and LOW_BACKUP (R327). -/
def backupMeasure (mv : Nat) (c : Chip) : Chip :=
  if c.rtc.onVbat || c.b Fld.RTC_CTRL_NO_BACKUP then c
  else
    let c1 := c.setRegN Reg.RTC_BACKUP_NOW mv
    if mv < c1.regN Reg.RTC_BACKUP_LEVEL then (c1.setB Fld.RTC_STATUS_LOW_BACKUP true).raise .rtc 1
    else if c1.regN Reg.RTC_BACKUP_LEVEL + 100 ≤ mv then c1.setB Fld.RTC_STATUS_LOW_BACKUP false else c1

/-- The start of a 32 s period (R317, R319, R327): die temperature, VBAT and the measured rate are given. DEDUCED: log entry 49. -/
def compPeriod (temp : Int) (vbatMv : Nat) (refPpb : Int) (c : Chip) : Chip :=
  if c.rtc.periodDue then
    let t := if c.rtc.onVbat then c.rtc.lastTemp else temp
    let c1 := if c.rtc.refArmed then c.setRegI Reg.RTC_REF_PPB refPpb else c
    let c2 := { c1 with rtc := { c1.rtc with periodDue := false, lastTemp := t, refArmed := true } }
    let c3 := if c2.b Fld.RTC_CTRL_COMP_ENABLE then compForm t c2
      else ({ c2 with rtc := { c2.rtc with adjLost := false } }.setF Fld.RTC_COMP_STATUS_TICKS 0).setB Fld.RTC_COMP_STATUS_CLAMPED false
    backupMeasure vbatMv (refreshCompPending c3)
  else c

/-- COMP_PERIOD (R319). -/
def execCompPeriod (temp : Int) (vbatMv : Nat) (refPpb : Int) (s : State) : Host.Outcome State Fault Refusal :=
  onChip (compPeriod temp vbatMv refPpb) s

/-- COMP_ADJUST (R319). -/
def execCompAdjust (s : State) : Host.Outcome State Fault Refusal := onChip compAdjust s

/-- The counter holds at the end of its range, where the adjustment of the tick leaves it due (R314, R319). -/
def rtcRangeEnd (c : Chip) : Chip :=
  let c1 := compAdjust c
  if c1.rtc.endDue then
    (({ c1 with rtc := { c1.rtc with endDue := false } }).setB Fld.RTC_STATUS_RANGE_END true).raise .rtc 5
  else c1

/-- RANGE_END (R314). -/
def execRangeEnd (s : State) : Host.Outcome State Fault Refusal := onChip rtcRangeEnd s

/-! ### Alarms -/

/-- Arm an alarm: a time after the counter waits, one at or before it falls due, skipped, at the next tick (R324). -/
def alarmArm (a : Nat) (c : Chip) : Chip :=
  if c.isOn .rtc then
    let c1 := c.setB (Fld.RTC_ALARM_CTRL_ARMED a) true
    let r := { c1.rtc with alarmDue := c1.rtc.alarmDue.filter (· != a),
                           alarmSkipped := c1.rtc.alarmSkipped.filter (· != a),
                           alarmLate := c1.rtc.alarmLate.filter (· != a) }
    if c1.rtcNow < c1.alarmTime a then { c1 with rtc := r }
    else { c1 with rtc := { r with alarmLate := r.alarmLate ++ [a] } }
  else c.regReject

/-- ALARM_ARM (R324). -/
def execAlarmArm (a : Fin 4) (s : State) : Host.Outcome State Fault Refusal := onChip (alarmArm a.val) s

/-- Disarm an alarm (R324, RTC_ALARMa_CTRL). -/
def alarmDisarm (a : Nat) (c : Chip) : Chip :=
  let c1 := c.setB (Fld.RTC_ALARM_CTRL_ARMED a) false
  { c1 with rtc := { c1.rtc with alarmDue := c1.rtc.alarmDue.filter (· != a),
                                 alarmSkipped := c1.rtc.alarmSkipped.filter (· != a),
                                 alarmLate := c1.rtc.alarmLate.filter (· != a) } }

/-- An armed alarm that is due fires (R324), once the adjustment and the command of its tick have acted (R321). While the
counter holds at its end no alarm fires (R314). -/
def alarmFire (a : Nat) (c : Chip) : Chip :=
  let c0 := compAdjust c
  let c1 := if c0.rtc.cmdDue then rtcApply c0 else c0
  if c1.alarmArmed a && (c1.rtc.alarmDue.contains a || c1.rtc.alarmSkipped.contains a)
      && ! c1.b Fld.RTC_STATUS_RANGE_END then alarmWakes (fireAlarm c1 a (c1.rtc.alarmSkipped.contains a))
  else c1

/-- ALARM_FIRE (R324). -/
def execAlarmFire (a : Fin 4) (s : State) : Host.Outcome State Fault Refusal := onChip (alarmFire a.val) s

/-! ### Trust flags and supply -/

/-- The crystal gives no edge for 1 ms: OSC_STOP is set, and raised if it was not (R326). -/
def oscStopped (c : Chip) : Chip :=
  let c1 := setOscStop (c.setB Fld.RTC_STATUS_OSC_RUNNING false) true
  if c.b Fld.RTC_STATUS_OSC_STOP then c1 else c1.raise .rtc 0

/-- OSC_STOPPED (R326). -/
def execOscStopped (s : State) : Host.Outcome State Fault Refusal := onChip oscStopped s

/-- OSC_RECOVERED (R326): counting resumes; OSC_STOP is not cleared. -/
def oscRecovered (c : Chip) : Chip := c.setB Fld.RTC_STATUS_OSC_RUNNING true

/-- OSC_RECOVERED (R326). -/
def execOscRecovered (s : State) : Host.Outcome State Fault Refusal := onChip oscRecovered s

/-- The RTC block is isolated (R328). -/
def rtcLockout (c : Chip) : Chip :=
  ({ c with rtc := { c.rtc with lockout := true } }).setIsland .rtc .isolated

/-- RTC_LOCKOUT (R328). -/
def execRtcLockout (s : State) : Host.Outcome State Fault Refusal := onChip rtcLockout s

/-- The supply log takes an event (R328, R329, R330). -/
def supplyLog (c : Chip) (event : Nat) : Chip :=
  ((c.setF Fld.RTC_SUPPLY_LOG_LAST_EVENT event).setRegN Reg.RTC_SUPPLY_LOG_AT (c.regN Reg.RTC_SECONDS)).raise .rtc 2

/-- The domain switches to VBAT (R328); the log records TO_BACKUP, or TO_BACKUP_SLEEP on entry to Small Hours. -/
def switchToVbat (c : Chip) : Chip :=
  if c.rtc.onVbat then c
  else
    let c1 := rtcLockout { c with rtc := { c.rtc with onVbat := true } }
    (supplyLog c1 (if c1.power == 7 then 2 else 1)).bump Fld.RTC_SUPPLY_LOG_SWITCHES

/-- SWITCH_TO_VBAT (R328). -/
def execSwitchToVbat (s : State) : Host.Outcome State Fault Refusal := onChip switchToVbat s

/-- The RTC domain is lost: every RTC register returns to its reset value and OSC_STOP is set (R329). -/
def rtcLoss (c : Chip) : Chip :=
  let c1 := { c with regs := Store.drop c.regs (fun a => islandOf a == Island.rtc),
                     rtc := { Rtc.reset with onVbat := c.rtc.onVbat, lockout := c.rtc.lockout } }
  setOscStop c1 true

/-- The lockout is released (R328): the link controller takes the flag again (R118). -/
def rtcRelease (c : Chip) : Chip :=
  linkOscFollow (({ c with rtc := { c.rtc with onVbat := false, lockout := false } }).setIsland .rtc .on)

/-- Main has been valid for 2 ms (R329): `held` says VBAT stayed above the backup floor; a board with no cell loses
its domain at every VSYS loss (R327). A loss leaves the log and RTC_INT_STATUS at their reset values, BACKUP_LOST and OSC_STOP, as
at first power-up (R329, R330). -/
def mainValid (held : Bool) (c : Chip) : Chip :=
  if c.rtc.onVbat then
    if held && ! c.b Fld.RTC_CTRL_NO_BACKUP then rtcRelease (supplyLog c 3)
    else raiseOscStop (rtcRelease (rtcLoss c))
  else c

/-- MAIN_VALID (R329). -/
def execMainValid (held : Bool) (s : State) : Host.Outcome State Fault Refusal := onChip (mainValid held) s

/-- A dip that turned back before 1.68 V releases the lockout without a switch (R328). -/
def lockoutRelease (c : Chip) : Chip := if c.rtc.lockout && ! c.rtc.onVbat then rtcRelease c else c

/-- LOCKOUT_RELEASE (R328). -/
def execLockoutRelease (s : State) : Host.Outcome State Fault Refusal := onChip lockoutRelease s

end Sys2Proof.Machine
end

