-- ==== Sys2Proof/Machine/Partner.lean ====
section
/-! DEFINITION. The partner table, schedule records, rendezvous arithmetic, partner operations, and the page queue
(06_partners_and_sleep.md). -/

namespace Sys2Proof.Machine

/-! ### Entries (R135 to R137) -/

/-- PARTNER_ENTRIES. -/
def Chip.partners (c : Chip) : Nat := c.f Fld.LINK_FEATURE_PARTNER_ENTRIES

/-- The first word of entry `i`, and of its schedule record (R143). -/
def Chip.entryPtr (c : Chip) (i : Nat) : Nat := c.regN Reg.LINK_PARTNER_BASE + 8 * i
def Chip.recordPtr8 (c : Chip) (i : Nat) : Nat := c.regN Reg.LINK_PSCHED_BASE + 8 * i

/-- A partner entry's fields. -/
structure Entry where
  valid : Bool
  keyValid : Bool
  timeParent : Bool
  lostSync : Bool
  paging : Bool
  priority : Nat
  keyIndex : Nat
  short : Nat
  ext : Nat
  lastSeq : Nat
  lastFc : Nat
  /-- the 128-bit key value. -/
  key : Nat
  fcValid : Bool
  seqValid : Bool
  deriving DecidableEq, Repr

/-- The fields of eight entry words. A word tagged POISON, REFUSED or ABSENT counts as zero. -/
def entryOf (ws : List Word) : Entry :=
  let n := fun i => wordPlain (ws.getD i .absent)
  { valid := bitOf (n 0) 35, keyValid := bitOf (n 0) 34, timeParent := bitOf (n 0) 33, lostSync := bitOf (n 0) 32,
    paging := bitOf (n 0) 31, priority := bitsOf (n 0) 26 2, keyIndex := bitsOf (n 0) 16 8, short := bitsOf (n 0) 0 16,
    ext := n 1 + bitsOf (n 2) 0 28 * 2 ^ 36, lastSeq := bitsOf (n 2) 28 8, lastFc := bitsOf (n 3) 0 32,
    key := n 4 + n 5 * 2 ^ 36 + n 6 * 2 ^ 72 + bitsOf (n 7) 0 20 * 2 ^ 108, fcValid := bitOf (n 7) 35,
    seqValid := bitOf (n 7) 34 }

/-- The sixteen octets of an entry's key (R137). -/
def Entry.keyOctets (e : Entry) : List Nat := leOctets 16 e.key

/-- Whether an entry's key counts as valid (R196). -/
def Entry.keyUsable (e : Entry) : Bool := e.keyValid && e.ext != 0

/-- Eight words at a pointer, as their codewords decode. -/
def Chip.peek8 (c : Chip) (p : Nat) : List Word := (List.range 8).map fun i => c.peek (p + i)

/-- Entry `i` as it stands. -/
def Chip.entry (c : Chip) (i : Nat) : Entry :=
  if c.spaceAccess (spaceOf (c.entryPtr i)) == .served && decide (i < c.partners) then entryOf (c.peek8 (c.entryPtr i))
  else entryOf []

/-- Put a bit of word 0 of entry `i`. -/
def setEntryBit (i bit : Nat) (v : Bool) (c : Chip) : Chip :=
  let p := c.entryPtr i
  writeMem p (.bits (putBits (wordPlain (c.peek p)) bit 1 (b2n v))) c

abbrev entryValid : Nat := 35
abbrev entryLost : Nat := 32
abbrev entryPaging : Nat := 31

/-- The link controller reads entry `i` (R164). DESIGN CHOICE: log entry 219. -/
def readEntry (i : Nat) (c : Chip) : Chip :=
  if c.spaceAccess 0 == .served && decide (i < c.partners) then readSpan (c.entryPtr i) 8 c else c

/-- The link controller reads entry `i` and its schedule record (R164). DESIGN CHOICE: log entry 219. -/
def readPartner (i : Nat) (c : Chip) : Chip :=
  if c.spaceAccess 0 == .served && decide (i < c.partners) then readSpan (c.recordPtr8 i) 8 (readEntry i c) else c

/-- The link controller goes through all entries, or all schedule records, from their first word on: codewords that cannot be corrected
are found (R164). DESIGN CHOICE: log entry 219. -/
def readAll (base : Nat) (c : Chip) : Chip :=
  if c.spaceAccess 0 == .served then findPoison base (8 * c.partners) c else c

/-- Write words from a pointer. -/
def writeWords (p : Nat) : List Word → Chip → Chip
  | [], c => c
  | w :: ws, c => writeWords (p + 1) ws (writeMem p w c)

/-- The entry whose address a frame's source names (R107, R111). -/
def Chip.findPartner (c : Chip) (mode addr : Nat) : Option Nat :=
  (List.range c.partners).find? fun i =>
    let e := c.entry i
    e.valid && (if mode = 2 then addr != 0xFFFE && e.short == addr else mode == 3 && e.ext != 0 && e.ext == addr)

/-- The index a word names as a partner handle: tagged HANDLE, kind 0 (R135). -/
def Chip.partnerOf (c : Chip) (w : Word) : Option Nat :=
  if w.tag = .handle ∧ w.nat / 2 ^ 34 = 0 ∧ w.nat < c.partners then some w.nat else none

/-! ### Schedule records (R143) -/

/-- A schedule record. -/
structure Sched where
  active : Bool
  role : Nat
  channel : Nat
  dwell : Nat
  phy : Nat
  seed : Nat
  period : Nat
  syncN : Nat
  sync : Nat
  drift : Int
  wakeId : Nat
  step : Nat
  deriving DecidableEq, Repr

/-- The record of eight words. -/
def schedOf (ws : List Word) : Sched :=
  let n := fun i => wordPlain (ws.getD i .absent)
  { active := bitOf (n 0) 35, role := bitsOf (n 0) 34 1, channel := bitsOf (n 0) 26 8, dwell := bitsOf (n 0) 16 10,
    phy := bitsOf (n 0) 0 16, seed := n 1 % 2 ^ 32, period := n 2 % 2 ^ 32, syncN := n 3 % 2 ^ 32,
    sync := n 4 + n 5 * 2 ^ 36, drift := signed 36 (n 6), wakeId := bitsOf (n 7) 12 24, step := bitsOf (n 7) 0 12 }

/-- The words of a record, each with its tag. -/
def schedWords (r : Sched) : List Word :=
  [.bits (b2n r.active * 2 ^ 35 + r.role * 2 ^ 34 + r.channel * 2 ^ 26 + r.dwell * 2 ^ 16 + r.phy), .bits r.seed,
    .bits r.period, .bits r.syncN, .grain r.sync, .grain (r.sync / 2 ^ 36), .int r.drift,
    .bits (r.wakeId * 2 ^ 12 + r.step)]

/-- The record of partner `i` in force. -/
def Chip.sched (c : Chip) (i : Nat) : Sched :=
  if c.spaceAccess (spaceOf (c.recordPtr8 i)) == .served && decide (i < c.partners) then
    schedOf (c.peek8 (c.recordPtr8 i))
  else schedOf []

/-- Write the record of partner `i`. -/
def putSched (i : Nat) (r : Sched) (c : Chip) : Chip := writeWords (c.recordPtr8 i) (schedWords r) c

/-! ### Rendezvous (R142, R144, R146) -/

/-- Whether partner-schedule mode runs (R142). DEDUCED: log entry 113. -/
def Chip.schedRuns (c : Chip) : Bool :=
  c.isOn .link && c.f Fld.LINK_CTRL_SCHED_MODE == 2 && c.b Fld.LINK_PSCHED_CTRL_RUN &&
    c.regN Reg.LINK_PSCHED_OUI != 0

/-- The hop function. -/
def hop (seed n channels : Nat) : Nat :=
  let m := 2 ^ 32
  let x0 := Nat.xor (seed % m) (n * 0x9E3779B9 % m)
  let x1 := Nat.xor x0 (x0 / 2 ^ 16) * 0x85EBCA6B % m
  let x2 := Nat.xor x1 (x1 / 2 ^ 13) * 0xC2B2AE35 % m
  let x3 := Nat.xor x2 (x2 / 2 ^ 16)
  x3 * channels / m

/-- N(n), for the rendezvous `k` after the last sync. -/
def Sched.at_ (r : Sched) (k : Nat) : Nat := r.sync + k * r.period * 2048

/-- The number of the rendezvous `k` after the last sync, and the place of a number. -/
def Sched.number (r : Sched) (k : Nat) : Nat := (r.syncN + k) % 2 ^ 32
def Sched.place (r : Sched) (n : Nat) : Nat := (n + 2 ^ 32 - r.syncN) % 2 ^ 32

/-- The frequency of rendezvous number `n`. -/
def Chip.rdvFreq (c : Chip) (r : Sched) (n : Nat) : Nat :=
  c.channelFreq (hop r.seed n (c.f Fld.LINK_DWELL_WINDOW_CHANNELS_M1 + 1))

/-- W of the rendezvous `k` after the last sync. -/
def Sched.widening (r : Sched) (k : Nat) : Nat := ceilDiv (r.drift.natAbs * (k * r.period * 2048)) 1000000000

/-- H (R146). -/
def Chip.halfWindow (c : Chip) (r : Sched) (k : Nat) : Nat := c.regN Reg.LINK_PSCHED_GUARD + r.widening k

/-- The smallest place whose rendezvous lies at or after a grain. -/
def Sched.seek (r : Sched) (t : Nat) : Nat := if t ≤ r.sync then 0 else ceilDiv (t - r.sync) (max 1 (r.period * 2048))

/-- The earliest ROLE 1 rendezvous after the present grain (R145). -/
def Chip.nextRendezvous (c : Chip) : Option Nat :=
  (List.range c.partners).foldl (fun b i =>
    let r := c.sched i
    if r.active && r.role == 1 && r.period != 0 && (c.entry i).valid then
      let t := r.at_ (r.seek (c.now + 1))
      match b with
      | some x => some (min x t)
      | none => some t
    else b) none

/-- Write LINK_PSCHED_NEXT_LO and LINK_PSCHED_NEXT_HI. -/
def refreshNext (c : Chip) : Chip :=
  match c.nextRendezvous with
  | some t => (c.setReg Reg.LINK_PSCHED_NEXT_LO (.grain t)).setReg Reg.LINK_PSCHED_NEXT_HI (.grain (t / 2 ^ 36))
  | none => (c.setReg Reg.LINK_PSCHED_NEXT_LO (.bits 0)).setReg Reg.LINK_PSCHED_NEXT_HI (.bits 0)

/-- Quotient rounded to nearest, halves away from zero (R148). -/
def roundAway (n : Int) (d : Nat) : Int :=
  let q : Int := ((2 * n.natAbs + d) / (2 * d) : Nat)
  if d = 0 then 0 else if n < 0 then - q else q

/-- DRIFT as a rendezvous frame updates it (R148). -/
def newDrift (old d : Int) (shift : Nat) : Int :=
  max (-1000000) (min 1000000 (old + roundAway (d - old) (2 ^ shift)))

/-! ### The page queue (R150, R154) -/

/-- Whether a page is on air, or its resync wait runs (R159). -/
def Chip.pageActive (c : Chip) : Bool :=
  c.radio.page.any fun g => g.waitUntil.isSome || c.radio.carriers.any fun k => k.id == g.carrier && k.onAir

/-- Write QUEUED, ACTIVE and HANDLE of LINK_PAGE_STATUS (R159). -/
def refreshPage (c : Chip) : Chip :=
  let c1 := (c.setF Fld.LINK_PAGE_STATUS_QUEUED c.radio.pages.length).setB Fld.LINK_PAGE_STATUS_ACTIVE c.pageActive
  if c.pageActive then c1.setF Fld.LINK_PAGE_STATUS_HANDLE ((c.radio.page.map fun g => g.handle).getD 0) else c1

/-- A partner leaves the page queue. -/
def pageLeave (i : Nat) (c : Chip) : Chip :=
  refreshPage (c.onRadio fun r => { r with pages := r.pages.filter fun x => x.1 != i })

/-- A partner is appended to the page queue, keeping its place if it is there (R150, R154). -/
def pageJoin (i : Nat) (c : Chip) : Chip :=
  if c.radio.pages.any fun x => x.1 == i then c
  else refreshPage (c.onRadio fun r => { r with pages := r.pages ++ [(i, 0)] })

/-- An attempt on a partner fails (R154): counted, and the partner moves to the back or leaves. -/
def pageFailed (i : Nat) (c : Chip) : Chip :=
  match c.radio.pages.find? fun x => x.1 == i with
  | none => c
  | some (_, n) =>
    let c1 := pageLeave i c
    if c.f Fld.LINK_PAGE_CTRL_PAGE_RETRIES ≤ n + 1 then
      ((setEntryBit i entryPaging false c1).bump Fld.LINK_PSCHED_COUNTS_2_PAGE_FAILED).raise .psched 1
    else refreshPage (c1.onRadio fun r => { r with pages := r.pages ++ [(i, n + 1)] })

/-- Queued KIND 3 requests to a partner complete in one way. -/
def failPartner (i : Nat) (g : TxJob → Chip → Chip) (c : Chip) : Chip :=
  finishWhere (fun j => j.kind == 3 && j.handle == some i && j.phase == .queued && c.f Fld.LINK_CTRL_SCHED_MODE == 2) g c

/-! ### Windows (R147) -/

/-- Whether a partner has a window reserved. -/
def Chip.hasWindow (c : Chip) (i : Nat) : Bool := c.radio.windows.any fun w => w.handle == i

/-- Scheduler lanes named by the recipe. -/
def Chip.schedLane (c : Chip) (n : Nat) : Bool :=
  match c.plan with
  | some p => p.schedLanes.testBit n && c.laneDeclared n
  | none => false

/-- The lowest scheduler lane that covers a mode, whose chain's usable bandwidth holds a channel and which is free (R147);
a lane that waits for a re-mash takes no new reservation (R274). DESIGN CHOICE: log entry 111. -/
def Chip.pickLane (c : Chip) (phy freq : Nat) : Option Nat :=
  (List.range 64).find? fun n =>
    let x := c.placeChain n
    let centre := c.regN (Reg.RF_CHAIN_FREQ_NOW x)
    c.schedLane n && (c.laneFamilies n).testBit (phyFamily phy) && (c.laneSt n).owner.isNone &&
      c.laneState n != laneQuiesced && (c.laneSt n).quiesce.isNone && (c.laneSt n).hold.isNone && centre != 0 &&
      withinSpan freq (planBandwidth phy) centre (usableHalf (c.b (Fld.RF_CHAIN_CTRL_SETTING x)))

/-- Whether some scheduler lane covers a family (R143). -/
def Chip.laneCovers (c : Chip) (phy : Nat) : Bool :=
  (List.range 64).any fun n => c.schedLane n && (c.laneFamilies n).testBit (phyFamily phy)

/-- A lane is reserved for a window (R79, R147). -/
def reserveLane (w : RdvWindow) (at_ phy : Nat) (c : Chip) : Chip :=
  let c1 := setLaneSt w.lane { (c.laneSt w.lane) with owner := some w.handle } c
  laneSchedule w.lane w.freq phy at_ true
    ((c1.setB (Fld.LANE_STATUS_SCHEDULED w.lane) true).onRadio fun r => { r with windows := r.windows ++ [w] })

/-- A record takes effect (R139, R143): LOST_SYNC and PAGING are cleared, and the grid starts anew. -/
def installSched (i : Nat) (ws : List Word) (c : Chip) : Chip :=
  let c1 := writeWords (c.recordPtr8 i) ws c
  let c2 := pageLeave i (setEntryBit i entryPaging false (setEntryBit i entryLost false c1))
  let c3 := c2.onRadio fun r => { r with lastRdv := Store.put 0 r.lastRdv i 0, pendingRecs := Store.put [] r.pendingRecs i [] }
  refreshNext (if (schedOf ws).active then c3 else failPartner i (fun j => txRefused j .timeout) c3)

/-- A lane is no longer reserved (R79, R147). -/
def freeLane (n : Nat) (c : Chip) : Chip :=
  (setLaneSt n { (c.laneSt n) with owner := none } c).setB (Fld.LANE_STATUS_SCHEDULED n) false

/-- A window that has not opened is given up: its lane's switch is disarmed and the lane free (R142, R150). DEDUCED: log
entry 183. -/
def dropWindow (w : RdvWindow) (c : Chip) : Chip :=
  let c1 := laneDisarm w.lane (laneListen w.lane false (freeLane w.lane c))
  let c2 := c1.onRadio fun r => { r with windows := r.windows.filter fun x => x != w }
  match Store.get [] c2.radio.pendingRecs w.handle with
  | [] => c2
  | ws => if c2.hasWindow w.handle then c2 else installSched w.handle ws c2

/-- The rendezvous windows a test names that have not opened are given up. -/
def dropWindows (sel : RdvWindow → Bool) (c : Chip) : Chip :=
  (c.radio.windows.filter fun w => w.kind == 0 && sel w && decide (c.now < w.at_ - w.half)).foldl (fun c w => dropWindow w c) c

/-- A partner is marked LOST_SYNC (R150). DEDUCED: log entry 119. -/
def loseSync (i : Nat) (c : Chip) : Chip :=
  let c1 := ((setEntryBit i entryLost true (dropWindows (fun w => w.handle == i) c)).bump
    Fld.LINK_PSCHED_COUNTS_1_LOST_SYNC).raise .psched 0
  let c2 := failPartner i (fun j => txRefused j .timeout) c1
  if (c.sched i).wakeId = 0 then c2.raise .psched 1
  else if c.b Fld.LINK_PSCHED_CTRL_PAGE_ENABLE then pageJoin i (setEntryBit i entryPaging true c2)
  else c2

/-- Whether anything of a partner's exchange is still under way (R143, R147). -/
def Chip.exchanging (c : Chip) (w : RdvWindow) : Bool :=
  (c.radio.frames.any fun f => f.lane == w.lane || f.handle == some w.handle) ||
    (c.radio.carriers.any fun k => k.handle == some w.handle) ||
    (c.radio.acks.any fun a => a.handle == some w.handle) ||
    (c.radio.jobs.any fun j => j.handle == some w.handle && (j.phase == .committed || j.phase == .awaiting)) ||
    (c.radio.downlinks.any fun d => d.handle == w.handle) ||
    (c.radio.resyncs.any fun r => r.handle == w.handle)

/-- A window and its exchange have ended: the lane is free, an empty rendezvous is counted, and a pending record takes
effect (R143, R147, R148). -/
def releaseWindow (w : RdvWindow) (c : Chip) : Chip :=
  let c1 := laneListen w.lane false (freeLane w.lane c)
  let c2 := c1.onRadio fun r => { r with windows := r.windows.filter fun x => x != w }
  let c3 := if w.kind = 0 && ! w.heard then c2.bump Fld.LINK_PSCHED_COUNTS_0_RDV_EMPTY else c2
  match Store.get [] c3.radio.pendingRecs w.handle with
  | [] => c3
  | ws => if c3.hasWindow w.handle then c3 else installSched w.handle ws c3

/-- Every window that has closed and whose exchange has ended is released. -/
def releaseWindows (c : Chip) : Chip :=
  (c.radio.windows.filter fun w => w.closed && decide (w.until_ ≤ c.now) && ! c.exchanging w).foldl
    (fun c w => releaseWindow w c) c

/-! ### Partner operations (R139 to R141) -/

/-- Whether a frame of a handle awaits its verdict (R140). -/
def Chip.handleHeld (c : Chip) (i : Nat) : Bool := c.radio.frames.any fun f => f.looked && f.handle == some i

/-- The word of a stage register. -/
def Chip.stage (c : Chip) (k : Nat) : Word := c.reg (Reg.LINK_PARTNER_STAGE k)

/-- WRITE and WRITE_KEEP of eight words (R139, R141): the reserved bits are zero, LOST_SYNC and PAGING stay. -/
def writeEntry (i : Nat) (keep : Bool) (st : List Word) (c0 : Chip) : Status × Chip :=
  let c := readAll (c0.regN Reg.LINK_PARTNER_BASE) c0
  let old := c.peek8 (c.entryPtr i)
  let o := fun k => wordPlain (old.getD k .absent)
  let n := fun k => wordPlain (st.getD k .absent)
  let w0 := putBits (putBits (putBits (n 0) 31 2 (bitsOf (o 0) 31 2)) 28 3 0) 24 2 0
  let e := entryOf st
  let clash := (List.range c.partners).any fun k =>
    let x := c.entry k
    k != i && x.valid && ((e.short != 0xFFFE && x.short == e.short) || (e.ext != 0 && x.ext == e.ext))
  if e.valid && (clash || (e.short == 0xFFFE && e.ext == 0)) then (.badArg, c)
  else
    let w2 := if keep then putBits (n 2) 28 8 (bitsOf (o 2) 28 8) else n 2
    let w3 := if keep then o 3 else n 3 % 2 ^ 32
    let w7 := putBits (n 7) 20 14 0
    let w7' := if keep then putBits w7 34 2 (bitsOf (o 7) 34 2) else w7
    (.ok, refreshNext (writeWords (c.entryPtr i)
      ([w0, n 1, w2, w3, n 4, n 5, n 6, w7'].map Word.bits) c))

/-- Whether a staged record holds no reserved value (R143). -/
def schedLegal (ws : List Word) : Bool :=
  let n := fun i => wordPlain (ws.getD i .absent)
  let r := schedOf ws
  decide (n 1 < 2 ^ 32) && decide (n 2 < 2 ^ 32) && decide (n 3 < 2 ^ 32) && r.period != 0 &&
    decide (-1000000 ≤ r.drift) && decide (r.drift ≤ 1000000) && decide (r.step ≤ 1400) &&
    phyLegal 7 r.phy && phySingle r.phy

/-- The record's ACTIVE bit is cleared, and a pending record discarded (R143, R145). -/
def clearSched (i : Nat) (c : Chip) : Chip :=
  let c1 := putSched i { c.sched i with active := false } c
  let c2 := c1.onRadio fun r => { r with pendingRecs := Store.put [] r.pendingRecs i [] }
  refreshNext (failPartner i (fun j => txRefused j .timeout) c2)

/-- The staged schedule record. -/
def Chip.schedStage (c : Chip) : List Word := (List.range 8).map fun k => c.reg (Reg.LINK_PSCHED_STAGE k)

/-- SCHED_WRITE (R139, R143). -/
def schedWrite (i : Nat) (c : Chip) : Status × Chip :=
  let ws := schedWords (schedOf c.schedStage)
  let r := schedOf ws
  if ! schedLegal c.schedStage || (r.active && r.role == 0 && ! c.laneCovers r.phy) then (.badArg, c)
  else if c.hasWindow i then (.ok, c.onRadio fun x => { x with pendingRecs := Store.put [] x.pendingRecs i ws })
  else (.ok, installSched i ws c)

/-- The effect of a partner operation at its grain E (R139). -/
def partnerEffect (p : PartnerOp) (c0 : Chip) : Status × Chip :=
  let i := p.handle
  let c := if p.op = 0 then c0 else readPartner i c0
  if c.spaceAccess 0 ≠ .served ∧ p.ticket.isSome = true then (.stateRefused, c)
  else if c.partners ≤ i ∨ c.spaceAccess 0 ≠ .served then (.badArg, c)
  else if (p.op = 4 ∨ p.op = 6 ∨ p.ticket.isSome = true) ∧ (c.entry i).valid = false then (.badArg, c)
  else if p.ticket.isSome = true ∧ (c.entry i).ext = 0 then (.badArg, c)
  else
    match p.op with
    | 0 =>
      let (es, c1) := readWords (c.entryPtr i) 8 c
      let (rs, c2) := readWords (c.recordPtr8 i) 8 c1
      (.ok, (List.range 8).foldl (fun c k =>
        (c.setReg (Reg.LINK_PARTNER_STAGE k) (es.getD k .absent)).setReg (Reg.LINK_PSCHED_STAGE k) (rs.getD k .absent)) c2)
    | 1 => writeEntry i false (p.entry.getD ((List.range 8).map c.stage)) c
    | 2 => writeEntry i true (p.entry.getD ((List.range 8).map c.stage)) c
    | 3 => (.ok, pageLeave i (clearSched i (setEntryBit i entryPaging false (setEntryBit i entryValid false c))))
    | 4 => schedWrite i c
    | 5 => (.ok, clearSched i c)
    | 6 => (.ok, loseSync i c)
    | _ => (.ok, pageLeave i (setEntryBit i entryPaging false c))

/-- PARTNER_OP_EFFECT (R140): at E the operation takes effect and completes. The ticket of a PARTNER_KEY finishes with
it. -/
def partnerOpEffect (c : Chip) : Chip :=
  match c.radio.op with
  | none => c
  | some p =>
    if c.handleHeld p.handle || ! c.isOn .link then c
    else
      let (st, c1) := partnerEffect p c
      let c2 := c1.onRadio fun r => { r with op := none }
      let c3 := ((c2.setB Fld.LINK_PARTNER_STATUS_BUSY false).setF Fld.LINK_PARTNER_STATUS_RESULT st.code).raise .psched 4
      match p.ticket with
      | some t => finishTicket t (if st = .ok then .int 0 else if st = .stateRefused then c3.stateRefused else refused st) c3
      | none => c3

/-- A partner operation starts (R139, R140): refused while one is in progress, and with E the present grain where no
frame of the handle awaits its verdict. -/
def partnerStart (op h : Nat) (c : Chip) : Chip :=
  if ! c.isOn .link || c.b Fld.LINK_PARTNER_STATUS_BUSY then c.regReject
  else
    let c1 := c.onRadio fun r => { r with op := some { op := op, handle := h, entry := none, ticket := none } }
    (c1.setB Fld.LINK_PARTNER_STATUS_BUSY true).setF Fld.LINK_PARTNER_STATUS_LAST_HANDLE h

/-- A write of LINK_PARTNER_CMD; OP 8 to 15 is a reserved encoding (R37, R139). -/
def partnerCmdWrite (v : Nat) (c : Chip) : Chip :=
  if 8 ≤ bitsOf v 28 4 then c.regReject else partnerStart (bitsOf v 28 4) (bitsOf v 0 12) c

/-! ### The wake-up receiver (R156 to R158) -/

/-- The CRC of a wake pattern over 40 bits (R156). -/
def wakeCheck (n : Nat) : Nat :=
  ((List.range 40).map fun i => n.testBit (39 - i)).foldl (crcBit 8 0x07) 0xFF

/-- The 48 bits of a wake pattern. -/
def wakePattern (net id : Nat) : Nat := (net % 65536 * 2 ^ 24 + id % 2 ^ 24) * 256 + wakeCheck (net % 65536 * 2 ^ 24 + id % 2 ^ 24)

/-- How many bits of a received pattern differ from one expected. -/
def wakeErrors (a b : Nat) : Nat := countBits 48 (Nat.xor (a % 2 ^ 48) b)

/-- The wake-up receiver decodes 48 bits (R158): whether they match and whether on the broadcast identity alone. -/
def Chip.wakeMatches (c : Chip) (bits : Nat) : Option Bool :=
  let net := c.regN Reg.LINK_WUR_NET
  let tol := c.f Fld.LINK_WUR_CTRL_TOLERANCE
  if wakeErrors bits (wakePattern net (c.regN Reg.LINK_WUR_ID)) ≤ tol then some false
  else if c.b Fld.LINK_WUR_CTRL_ACCEPT_BCAST && decide (wakeErrors bits (wakePattern net 0xFFFFFF) ≤ tol) then some true
  else none

/-- WUR_MATCH (R158): in Night and Midnight the match is a wake source, else an event source. DEDUCED: log entry 120. -/
def wurMatch (bits : Nat) (c : Chip) : Chip :=
  if ! c.isOn .wur || ! c.b Fld.LINK_WUR_CTRL_ENABLE || c.onAir || c.power == 7 || c.pwr.heldInReset then c
  else
    match c.wakeMatches bits with
    | none => c
    | some b =>
      if c.b Fld.LINK_WUR_STATUS_HOLDOFF then c.bump Fld.LINK_WUR_COUNTS_HELD_OFF
      else
        let c1 := ((c.bump Fld.LINK_WUR_COUNTS_MATCHES).setB Fld.LINK_WUR_STATUS_MATCH true).setB
          Fld.LINK_WUR_STATUS_LAST_BCAST b
        let c2 := (c1.setB Fld.LINK_WUR_STATUS_HOLDOFF (c1.f Fld.LINK_WUR_CTRL_HOLDOFF_S != 0)).onRadio fun r =>
          { r with wurHold := some (c1.now + c1.f Fld.LINK_WUR_CTRL_HOLDOFF_S * 67108864) }
        latchWake (if c.awake then c2.fire 0xC3 (some 0) else c2) 0

/-- WUR_HOLDOFF_END (R158). -/
def wurHoldoffEnd (c : Chip) : Chip :=
  match c.radio.wurHold with
  | some g =>
    if g ≤ c.now then (c.setB Fld.LINK_WUR_STATUS_HOLDOFF false).onRadio fun r => { r with wurHold := none } else c
  | none => c

/-! ### Meanings -/

/-- A partner operation commanded by its row: the write of LINK_PARTNER_CMD that names it (R139). -/
def partnerRow (op : Nat) (h : BitVec 12) (s : State) : Host.Outcome State Fault Refusal := onChip (partnerStart op h.toNat) s

/-- READ (R139). -/
def execRead (h : BitVec 12) (s : State) : Host.Outcome State Fault Refusal := partnerRow 0 h s
/-- WRITE (R139). -/
def execWrite (h : BitVec 12) (s : State) : Host.Outcome State Fault Refusal := partnerRow 1 h s
/-- WRITE_KEEP (R139). -/
def execWriteKeep (h : BitVec 12) (s : State) : Host.Outcome State Fault Refusal := partnerRow 2 h s
/-- INVALIDATE (R139). -/
def execInvalidate (h : BitVec 12) (s : State) : Host.Outcome State Fault Refusal := partnerRow 3 h s
/-- SCHED_WRITE (R143). -/
def execSchedWrite (h : BitVec 12) (s : State) : Host.Outcome State Fault Refusal := partnerRow 4 h s
/-- SCHED_CLEAR (R139). -/
def execSchedClear (h : BitVec 12) (s : State) : Host.Outcome State Fault Refusal := partnerRow 5 h s
/-- PAGE (R150). -/
def execPage (h : BitVec 12) (s : State) : Host.Outcome State Fault Refusal := partnerRow 6 h s
/-- PAGE_CANCEL (R139). -/
def execPageCancel (h : BitVec 12) (s : State) : Host.Outcome State Fault Refusal := partnerRow 7 h s
/-- PARTNER_OP_EFFECT (R140). -/
def execPartnerOpEffect (s : State) : Host.Outcome State Fault Refusal := onChip partnerOpEffect s
/-- WUR_MATCH (R158). -/
def execWurMatch (bits : BitVec 48) (s : State) : Host.Outcome State Fault Refusal := onChip (wurMatch bits.toNat) s
/-- WUR_HOLDOFF_END (R158). -/
def execWurHoldoffEnd (s : State) : Host.Outcome State Fault Refusal := onChip wurHoldoffEnd s

end Sys2Proof.Machine
end

