-- ==== Sys2Proof/Machine/Link.lean ====
section
/-! DEFINITION. The link controller: verdicts, the hardware acknowledgement, rings and descriptors
(05_link_controller.md, R106 to R121, R130 to R133), with the record updates that follow an acknowledgement
(06_partners_and_sleep.md, R148, R149, R153). -/

namespace Sys2Proof.Machine

/-! ### Verdict codes (R108) -/

abbrev vAccept : Nat := 0
abbrev vUnverified : Nat := 1
abbrev vFcsFail : Nat := 2
abbrev vFiltered : Nat := 3
abbrev vMicFail : Nat := 4
abbrev vReplay : Nat := 5
abbrev vDuplicate : Nat := 6
abbrev vAbandoned : Nat := 7
abbrev vRingFull : Nat := 8

/-- This chip's extended address. -/
def Chip.ownExt (c : Chip) : Nat := c.regN Reg.LINK_EXT_ADDR_HI % 2 ^ 32 * 2 ^ 32 + c.regN Reg.LINK_EXT_ADDR_LO % 2 ^ 32

/-- Whether an address is this chip's own: 0xFFFE means that it has no short address, and 0xFFFF is the broadcast address (R114). -/
def Chip.isOwn (c : Chip) (mode addr : Nat) : Bool :=
  (mode == 2 && addr != 0xFFFE && addr != 0xFFFF && addr == c.f Fld.LINK_PAN_SHORT_SHORT_ADDR) ||
    (mode == 3 && addr == c.ownExt)

/-- The ASN (R129). -/
def Chip.asn (c : Chip) : Nat := c.regN Reg.LINK_TSCH_ASN_LO + c.regN Reg.LINK_TSCH_ASN_HI % 16 * 2 ^ 36

/-- OSC_STOP as the link controller applies it (R118). -/
def Chip.linkOsc (c : Chip) : Bool := c.b Fld.LINK_STATUS_OSC_STOP

/-! ### Rings (R130 to R132) -/

/-- Write PAY_FREE of a ring. -/
def refreshRing (r : Nat) (c : Chip) : Chip :=
  c.setRegN (Reg.LINK_RING_PAY_FREE r) (c.regN (Reg.LINK_RING_PAY_SIZE r) -
    ((c.radio.slots.filter fun s => s.ring == r).foldl (fun n s => n + s.words) 0))

/-- The first place in a payload area with room for `w` words: the spec asks for an even word and says no more (R130).
DESIGN CHOICE: log entry 179. -/
def payPlace (size w : Nat) (ss : List Slot) : Option Nat :=
  (0 :: ss.map fun s => s.off + s.words).find? fun o =>
    decide (o + w ≤ size) && ss.all fun s => decide (o + w ≤ s.off) || decide (s.off + s.words ≤ o)

/-- Reserve a slot and payload space in a ring for a frame of a length (R131); a slot whose ACK_FINAL is 0 is not
reused (R132). -/
def reserveSlot (r len : Nat) (c : Chip) : Option Slot × Chip :=
  let ss := c.radio.slots.filter fun s => s.ring == r
  let size := c.regN (Reg.LINK_RING_SIZE r)
  let w := max 2 (2 * ceilDiv len 8)
  let next := (c.regN (Reg.LINK_RING_PROD r) + (ss.filter fun s => ! s.published).length) % 65536
  if size = 0 || decide (size ≤ (ss.filter fun s => ! s.published || s.words != 0).length) ||
      (ss.any fun s => s.published && s.number % size == next % size) then (none, c)
  else
    match payPlace (c.regN (Reg.LINK_RING_PAY_SIZE r)) w ss with
    | none => (none, c)
    | some o =>
      let s : Slot := { ring := r, number := 0, off := o, words := w, published := false, final := true }
      (some s, refreshRing r (c.onRadio fun x => { x with slots := x.slots ++ [s] }))

/-- A reservation is released (R131). -/
def releaseSlot (s : Slot) (c : Chip) : Chip :=
  refreshRing s.ring (c.onRadio fun x => { x with slots := x.slots.filter fun y => y != s })

/-- The ring a verdict is delivered to (R109, R130). -/
def Chip.ringOf (c : Chip) (v : Nat) : Option Nat :=
  if v = vAccept then some 0
  else if v = vUnverified then some 1
  else if v = vFiltered && c.b Fld.LINK_CTRL_PROMISCUOUS then some 1
  else if v ≤ vAbandoned && c.b Fld.LINK_CTRL_DELIVER_REJECTS then some 1
  else none

/-- The slot whose word 0 has been rewritten for good may be used again once CONS has passed it (R132). -/
def finalSlot (r n : Nat) (c : Chip) : Chip :=
  refreshRing r (c.onRadio fun x => { x with
    slots := (x.slots.map fun s => if s.ring = r ∧ s.published ∧ s.number = n then { s with final := true } else s).filter
      fun s => ! (s.published && s.words == 0 && s.final) })

/-! ### After an acknowledgement (R132, R148, R149, R153) -/

/-- Whether a start grain on a channel lies in the window of the rendezvous `k` after the last sync (R146, R148). -/
def Chip.inWindowOf (c : Chip) (r : Sched) (start freq k : Nat) : Bool :=
  decide (r.widening k ≤ c.regN Reg.LINK_PSCHED_MAX_WINDOW) &&
    decide (((start : Int) - r.at_ k).natAbs ≤ c.halfWindow r k) && c.rdvFreq r (r.number k) == freq

/-- The rendezvous of a record within whose window a start grain lies on a channel: its place (R146, R148). Where windows overlap, it
is the nearest of those on the channel, the earlier of two as near. DEDUCED: log entry 210. -/
def Chip.rendezvousOf (c : Chip) (r : Sched) (start freq : Nat) : Option Nat :=
  let p := max 1 (r.period * 2048)
  let reach := c.regN Reg.LINK_PSCHED_GUARD + c.regN Reg.LINK_PSCHED_MAX_WINDOW
  let first := (start - reach - r.sync) / p
  if r.active && r.role == 0 && r.period != 0 then
    (((List.range (2 * reach / p + 2)).map (first + ·)).filter (c.inWindowOf r start freq)).foldl (fun b k =>
      match b with
      | some x => if ((start : Int) - r.at_ k).natAbs < ((start : Int) - r.at_ x).natAbs then some k else b
      | none => some k) none
  else none

/-- The record update of R148. -/
def rendezvousUpdate (i : Nat) (a : AckRec) (sent : Bool) (c : Chip) : Chip :=
  let r := c.sched i
  match c.rendezvousOf r a.start a.freq with
  | none => c
  | some k =>
    if ! c.schedRuns then c
    else
      let n := r.at_ k
      let e := n - r.sync
      let d := if 2 ^ 26 ≤ e then roundAway (- (((a.start : Int) - n) * 1000000000)) e else a.drift
      let r' := { r with
        syncN := r.number k, sync := if sent && a.tc.isSome then n else a.start,
        drift := newDrift r.drift d (c.f Fld.LINK_PSCHED_CTRL_DRIFT_SHIFT) }
      let c1 := (putSched i r' c).bump Fld.LINK_PSCHED_COUNTS_0_RDV_HEARD
      refreshNext (c1.onRadio fun x => { x with lastRdv := Store.put 0 x.lastRdv i (r.number k + 1) })

/-- A frame of a partner, or on the lane of its window, whose start lies in a rendezvous window: the rendezvous is not empty
(R148). DEDUCED: log entry 180. -/
def windowHeard (f : Frame) (c : Chip) : Chip :=
  match f.startAt with
  | some s => c.onRadio fun x => { x with windows := x.windows.map fun w =>
      if w.kind = 0 ∧ w.freq = f.freq ∧ ((s : Int) - w.at_).natAbs ≤ w.half ∧ (w.lane = f.lane ∨ f.handle = some w.handle)
      then { w with heard := true } else w }
  | none => c

/-- A partner's resync exchange is forgotten. -/
def dropResync (i : Nat) (c : Chip) : Chip := c.onRadio fun x => { x with resyncs := x.resyncs.filter fun r => r.handle != i }

/-- A partner's resync exchange goes on. -/
def putResync (r : Resync) (c : Chip) : Chip :=
  c.onRadio fun x => { x with resyncs := x.resyncs.map fun y => if y.handle = r.handle then r else y }

/-- A resync request's ACK has been sent: the grant follows it (R153). -/
def askGrant (i : Nat) (a : AckRec) (last : Nat) (c : Chip) : Chip :=
  (dropResync i c).onRadio fun x => { x with
    asked := Store.put 0 x.asked i 0
    resyncs := x.resyncs ++ [{
      handle := i, phy := a.phy, freq := a.freq, goAt := last + c.regN Reg.LINK_ACK_GAP, carrier := none, m := 0, mark := 0,
      seq := 0, level := (a.resync.getD (0, 0, 0)).1, kidMode := (a.resync.getD (0, 0, 0)).2.1,
      keyIndex := (a.resync.getD (0, 0, 0)).2.2, waitUntil := none }] }

/-- What follows once the frame's ACK is SENT or NOT_ACKED, or was never asked for: the record update, the downlink and
the grant. `last` is the end of the ACK's ramp down. -/
def settleFrame (a : AckRec) (sent : Bool) (last : Nat) (c : Chip) : Chip :=
  match a.handle with
  | none => c
  | some i =>
    let r := c.sched i
    let c1 := if a.accepted then rendezvousUpdate i a sent c else c
    let c2 := if sent && a.pending && c.schedRuns && r.active && r.role == 0 && r.dwell != 0 &&
        decide (last + c.regN Reg.LINK_ACK_GAP ≤ a.frameEnd + r.dwell * 2048) then
        c1.onRadio fun x => { x with downlinks := x.downlinks ++
          [{ handle := i, freq := a.freq, goAt := last + c.regN Reg.LINK_ACK_GAP, limit := a.frameEnd + r.dwell * 2048 }] }
      else c1
    if a.resync.isSome && c.schedRuns then
      (if sent then (if a.accepted || Store.get 0 c.radio.asked i == a.fc + 1 then askGrant i a last c2 else c2)
       else if a.accepted then c2.onRadio fun x => { x with asked := Store.put 0 x.asked i (a.fc + 1) } else c2)
    else c2

/-- An ACK is final (R132): word 0 of its slot is rewritten, a loss after the descriptor is complete raises ACK_LOST, and what follows
is done. -/
def ackFinish (a : AckRec) (st cause last : Nat) (c : Chip) : Chip :=
  let c1 := c.onRadio fun x => { x with acks := x.acks.filter fun y => y.carrier != a.carrier }
  let c2 := match a.addr with
    | some p =>
      let d := finalSlot a.ring a.number (linkWrite p [.bits (putBits (putBits a.word0 25 1 1) 26 6 (cause + 8 * st))] c1)
      if st = 3 ∧ a.shown ≤ c.now then d.raise .link 3 else d
    | none => c1
  settleFrame a (st == 2) last c2

/-! ### Losing a slot (R58, R119 to R121, R123, R155) -/

/-- An ACK is lost: counted, and kept until its frame's descriptor is settled. -/
def ackLost (k : Carrier) (cause : Nat) (c : Chip) : Chip :=
  let c1 := c.onRadio fun x => { x with acks := x.acks.map fun a => if a.carrier = k.id then { a with lost := some cause } else a }
  match cause with
  | 2 => (c1.bump Fld.LINK_COUNTS_5_ACK_DWELL).raise .link 4
  | 3 => (c1.bump Fld.LINK_COUNTS_5_ACK_WINDOW).raise .rf 10
  | 4 => c1.bump Fld.LINK_COUNTS_7_ACK_ALLOWANCE
  | _ => c1.bump Fld.LINK_COUNTS_4_ACK_CARRIER

/-- The flag of what stopped a beacon or a grant: WINDOW_MISS outside the carrier window, DWELL at a budget (R58, R123, R134). -/
def missed (cause : Nat) (c : Chip) : Chip :=
  if cause = lostWindow then c.raise .rf 10 else if cause = lostDwell then c.raise .link 4 else c

/-- A transmit request's carrier is lost. -/
def jobLost (k : Carrier) (cause : Nat) (c : Chip) : Chip :=
  match c.jobOf k.id with
  | none => c
  | some j =>
    if k.kind = .beacon then ((dropJob j.ticket (missed cause c)).bump Fld.LINK_COUNTS_7_BEACON_SKIPPED).raise .link 8
    else if cause = lostWindow then txRefused j .badArg (c.raise .rf 10)
    else if cause = lostDwell then txRefused j .dwellExceeded ((c.bump Fld.LINK_COUNTS_6_TX_DWELL).raise .link 4)
    else if k.kind = .csma then startBackoff j (c.bump Fld.LINK_COUNTS_6_TX_DEFERRED)
    else if k.kind = .fwAck then txRefused j .busy (c.bump Fld.LINK_COUNTS_4_ACK_CARRIER)
    else txRefused j .busy c

/-- A page is lost: tried again after LINK_PAGE_INTERVAL, or, outside the window, a failed attempt (R155). -/
def pageLost (k : Carrier) (cause : Nat) (c : Chip) : Chip :=
  let i := k.handle.getD 0
  let c1 := refreshPage (c.onRadio fun x => { x with page := none, pageNext := c.now + c.regN Reg.LINK_PAGE_INTERVAL })
  if cause = lostWindow then pageFailed i (c1.raise .rf 10)
  else if cause = lostDwell then (c1.bump Fld.LINK_PSCHED_COUNTS_3_PAGE_DWELL).raise .link 4
  else c1

/-- A carrier is lost with a cause. -/
def loseCarrier (k : Carrier) (cause : Nat) (c : Chip) : Chip :=
  match k.kind with
  | .ack => ackLost k cause c
  | .page => pageLost k cause c
  | .grant => dropResync (k.handle.getD 0) (missed cause c)
  | .training => c
  | _ => jobLost k cause c

/-- A carrier loses its slot in a contest, until the contests of the grain are decided as one (R120). DEDUCED: log entry 115. -/
def loseSlot (cause : Nat) (c : Chip) (k : Carrier) : Chip :=
  (withdraw k.id c).onRadio fun x => { x with losing := x.losing ++ [(k, cause)] }

/-- A carrier contest (R120): the losers are withdrawn. `cause` is that of the ACKs that lose. -/
def contest (cause : Nat) (c : Chip) : Chip := c.losers.foldl (loseSlot cause) c

/-- ACKs lost after their frames were settled become NOT_ACKED. -/
def settleLost (c : Chip) : Chip :=
  c.radio.acks.foldl (fun c a =>
    match a.lost with
    | some cause => ackFinish a 3 cause c.now c
    | none => c) c

/-- A contest outside a verdict. -/
def contestNow (cause : Nat) (c : Chip) : Chip := settleLost (contest cause c)

/-- A carrier that lost its slot in this grain stands for it again. -/
def standAgain (c : Chip) (k : Carrier) : Chip :=
  refreshAir (chargeCarrier k.id k.freq k.ramp (k.last - k.ramp) (c.onRadio fun x => { x with carriers := x.carriers ++ [k] }))

/-- The grain's verdicts, commits and falls of the allowance are decided in one contest as the grain ends (R120): what lost to a
carrier that lost in its turn keeps its slot. DEDUCED: log entry 115. -/
def contestDecided (c : Chip) : Chip :=
  if c.radio.losing = [] then c
  else
    let causes := c.radio.losing.map fun x => (x.1.id, x.2)
    let c1 := c.radio.losing.foldl (fun c x => standAgain c x.1) (c.onRadio fun x => { x with losing := [] })
    settleLost (c1.losers.foldl (fun c k =>
      loseCarrier k (((causes.find? fun x => x.1 == k.id).map fun x => x.2).getD lostCarrier) (withdraw k.id c)) c1)

/-- A carrier is judged at its commit grain and committed, or lost. -/
def commitCarrier (k : Carrier) (c : Chip) : Chip :=
  match offerCarrier k c with
  | (none, c1) => c1
  | (some cause, c1) => loseCarrier k cause c1

/-! ### Frames into the link controller -/

/-- The header of a frame, from its octets before the FCS. -/
def Frame.mhr (f : Frame) : Option Mhr := parseMhr (f.psdu.take (f.psdu.length - fcsLen f.fcs2))

/-- The partner lookup (R107): the entry is read and held for the frame. -/
def lookupFrame (f : Frame) (c0 : Chip) : Frame × Chip :=
  match f.mhr with
  | none => ({ f with looked := true }, c0)
  | some h =>
    let c := readAll (c0.regN Reg.LINK_PARTNER_BASE) c0
    match c.findPartner h.srcMode h.src with
    | none => ({ f with looked := true }, c)
    | some i =>
      let (ws, c1) := readWords (c.entryPtr i) 8 c
      if (entryOf ws).valid then ({ f with looked := true, handle := some i, entry := ws }, c1)
      else ({ f with looked := true }, c1)

/-- R109: the address filter. -/
def Chip.addressPasses (c : Chip) (h : Mhr) : Bool :=
  (match h.dstPan with
    | some p => p == c.f Fld.LINK_PAN_SHORT_PAN_ID || p == 0xFFFF
    | none => true) &&
    (if h.dstMode = 2 then h.dst == 0xFFFF || c.isOwn 2 h.dst
     else if h.dstMode = 3 then c.isOwn 3 h.dst
     else h.type == 0 || c.b Fld.LINK_CTRL_ACCEPT_NO_DST)

/-- Steps 3 and 4 of R108: the verdict of a frame that fails one. -/
def Chip.screen (c : Chip) (f : Frame) : Option Nat :=
  match f.mhr with
  | none => some vFiltered
  | some h =>
    if ! c.addressPasses h || h.type == 2 || decide (3 < h.type) then some vFiltered
    else
      match h.aux with
      | none => if c.b Fld.LINK_CTRL_ALLOW_UNSECURED then none else some vFiltered
      | some a =>
        let e := entryOf f.entry
        if f.handle.isNone || ! e.keyUsable || decide (2 ≤ a.kidMode) || a.level == 4 || (a.fc.isNone && f.tsch.isNone) ||
            (a.kidMode == 1 && a.keyIndex != e.keyIndex) then some vUnverified
        else none

/-- The nonce of a received frame (R196). -/
def rxNonce (e : Entry) (a : Aux) (tsch : Option (Nat × Nat × Bool)) : List Nat :=
  match a.fc with
  | some fc => ccmNonce e.ext fc a.level
  | none => asnNonce e.ext ((tsch.map fun t => t.1).getD 0)

/-- The value step 6 compares for a secured frame (R113): its counter, or the ASN of its timeslot, off TSCH the present one. -/
def rxCounter (asn : Nat) (a : Aux) (tsch : Option (Nat × Nat × Bool)) : Nat :=
  a.fc.getD (((tsch.map fun t => t.1).getD asn) % 2 ^ 32)

/-- Step 6 of R108 (R113). -/
def Chip.counterCheck (c : Chip) (f : Frame) (h : Mhr) : Nat :=
  match f.handle with
  | none => vAccept
  | some i =>
    let e := c.entry i
    match h.aux with
    | some a =>
      let v := rxCounter c.asn a f.tsch
      if ! e.fcValid then vAccept else if v = e.lastFc then vDuplicate else if v < e.lastFc then vReplay else vAccept
    | none =>
      match h.seq with
      | some s => if e.seqValid && s == e.lastSeq then vDuplicate else vAccept
      | none => vAccept

/-- The verdict of a frame before room in a ring is asked for, and its payload where it was opened (R108). -/
def Chip.judge (c : Chip) (f : Frame) : Nat × Option (List Nat) :=
  if f.abandoned then (vAbandoned, none)
  else if f.faulted || ! fcsGood f.fcs2 f.psdu then (vFcsFail, none)
  else if c.b Fld.LINK_CTRL_PROMISCUOUS then (vFiltered, none)
  else
    match c.screen f with
    | some v => (v, none)
    | none =>
      match f.mhr with
      | none => (vFiltered, none)
      | some h =>
        match h.aux with
        | none => (c.counterCheck f h, none)
        | some a =>
          let e := entryOf f.entry
          match openFrame e.keyOctets (rxNonce e a f.tsch) a.level h.hdrLen
              (f.psdu.take (f.psdu.length - fcsLen f.fcs2)) with
          | none => (vMicFail, none)
          | some m => (c.counterCheck f h, some m)

/-- The last accepted value is updated (R113). DEDUCED: log entry 117. -/
def storeCounter (i : Nat) (h : Mhr) (tsch : Option (Nat × Nat × Bool)) (c : Chip) : Chip :=
  let p := c.entryPtr i
  let n := fun k => wordPlain (c.peek (p + k))
  match h.aux with
  | some a => writeMem (p + 7) (.bits (putBits (n 7) 35 1 1)) (writeMem (p + 3) (.bits (putBits (n 3) 0 32 (rxCounter c.asn a tsch))) c)
  | none =>
    match h.seq with
    | some s => writeMem (p + 7) (.bits (putBits (n 7) 34 1 1)) (writeMem (p + 2) (.bits (putBits (n 2) 28 8 s)) c)
    | none => c

/-- Free octets, for a payload the trellis spoiled. DESIGN CHOICE: log entry 106. -/
def freeOctets (n : Nat) (c : Chip) : List Nat × Chip :=
  ((List.range n).map fun i => Config.freeNat (c.free + i) % 256, { c with free := c.free + n })

/-- The octets of a frame as its lane hands them over (R100, R101). -/
def frameOctets (f : Frame) (soft : List Int) (c : Chip) : List Nat × Chip :=
  if f.faulted then freeOctets f.length c else (octetsTo f.length (phyOctets f.phy f.seed f.onAir soft), c)

/-- PSDU_START (R131): the first byte reaches the link controller, which reserves a slot and payload space in the ring
of the verdict it expects. -/
def psduStart (n : Nat) (soft : List Int) (c : Chip) : Chip :=
  match c.laneFrame n with
  | some f =>
    if c.laneUp n && c.laneState n == laneReceive && f.startAt.isSome && ! f.started then
      let tsch := match c.radio.tschRx with
        | some (l, asn, due, keep, _) => if l = n then some (asn, due, keep) else none
        | none => none
      let (octets, c0) := frameOctets f soft c
      let f1 := { f with started := true, psdu := octets, tsch := tsch }
      let c1 := chkLaneFold n octets 1 (chkFrameStart n c0)
      if c.isOn .link && c.b Fld.LINK_CTRL_ENABLE then
        let f2 := { f1 with taken := true }
        let e := (lookupFrame f2 c1).1
        let v := if c.b Fld.LINK_CTRL_PROMISCUOUS then vFiltered else (c1.screen e).getD vAccept
        match c.ringOf v with
        | none => putFrame f2 c1
        | some r =>
          let (s, c2) := reserveSlot r f.length c1
          putFrame { f2 with slot := s, triedRing := some r } c2
      else putFrame f1 c1
    else c
  | none => c

/-- PARTNER_LOOKUP (R107). -/
def partnerLookup (n : Nat) (c : Chip) : Chip :=
  match c.radio.frames.find? fun f => f.lane == n && f.taken && ! f.looked with
  | some f =>
    let (f1, c1) := lookupFrame f c
    putFrame f1 c1
  | none => c

/-! ### Acknowledgements received (R110, R128) -/

/-- Whether an acknowledgement matches what a sender of ours awaits: channel and family, grain, sequence number, source
and MIC. -/
def Chip.ackMatches (c : Chip) (f : Frame) (h : Mhr) (freq phy : Nat) (due : Nat) (seq : Option Nat) (dst : Nat × Nat)
    (handle : Option Nat) (asn : Option Nat) : Bool :=
  f.freq == freq && phyFamily f.phy == phyFamily phy &&
    (match f.startAt with
      | some s => decide (s ≤ due)
      | none => false) &&
    (seq.isNone || h.seq == seq) && (h.srcMode == 0 || (h.srcMode, h.src) == dst) &&
    (match h.aux with
      | none => true
      | some a =>
        match handle with
        | none => false
        | some i =>
          let e := c.entry i
          e.keyUsable && (openFrame e.keyOctets (match a.fc with
            | some fc => ccmNonce e.ext fc a.level
            | none => asnNonce e.ext (asn.getD c.asn)) a.level h.hdrLen (f.psdu.take (f.psdu.length - fcsLen f.fcs2))).isSome)

/-- Time that a partner offers may be applied (R118): from a time parent, or while OSC_STOP is clear. -/
def Chip.mayTakeTime (c : Chip) (i : Nat) : Bool := (c.entry i).timeParent || ! c.linkOsc

/-- A frame of a partner carries a time, an ASN or a schedule: TIME_REFUSED where OSC_STOP is set and the partner is no time parent,
whatever the mode would do with it (R118). -/
def timeOffered (i : Nat) (c : Chip) : Chip := if c.mayTakeTime i then c else c.raise .link 7

/-- A Time Correction moves the grid of a ROLE 1 record onto its parent's (R149), or a TSCH timekeeper's slots (R129). -/
def applyCorrection (j : TxJob) (us : Int) (c : Chip) : Chip :=
  match j.handle with
  | none => c
  | some i =>
    let r := c.sched i
    if c.f Fld.LINK_CTRL_SCHED_MODE = 2 then
      match j.rdv with
      | some n =>
        if r.active && r.role == 1 && c.mayTakeTime i then
          refreshNext (putSched i { r with sync := ((r.at_ (r.place n) : Int) + usToGrains us).toNat, syncN := n } c)
        else c
      | none => c
    else if c.f Fld.LINK_CTRL_SCHED_MODE = 1 && ! c.b Fld.LINK_TSCH_CTRL_COORD && j.keep then
      (if (c.entry i).timeParent then
        (c.onRadio fun x => { x with tschNext := x.tschNext.map fun g => ((g : Int) + usToGrains us).toNat }).setB
          Fld.LINK_STATUS_TSCH_SYNCED true
       else c)
    else c

/-- A received acknowledgement is consumed by the transmission or the grant it answers (R110, R128, R149, R153). -/
def consumeAck (f : Frame) (h : Mhr) (c : Chip) : Option Chip :=
  match c.radio.jobs.find? fun j => j.phase == .awaiting && c.ackMatches f h j.freq j.phy j.due j.seq j.dst j.handle j.asn with
  | some j =>
    let tc := timeCorrection h
    let c1 := match tc with
      | some us => applyCorrection j us (match j.handle with
        | some i => timeOffered i c
        | none => c)
      | none => c
    let dwell := match j.handle with
      | some i => (c.sched i).dwell
      | none => 0
    let own := j.due - c.regN Reg.LINK_ACK_WAIT
    let stays := fun w : RdvWindow => w.kind == 1 && j.handle == some w.handle
    let c2 := if h.pending && decide (c1.now < own + dwell * 2048) then
        (c1.radio.windows.filter stays).foldl (fun c w => laneListen w.lane true c)
          (c1.onRadio fun x => { x with
            windows := x.windows.map fun w => if stays w then { w with until_ := max w.until_ (own + dwell * 2048) } else w })
      else c1
    let c3 := if j.shared then
        c2.onRadio fun x => { x with
          tschBackoff := Store.put 0 x.tschBackoff (j.handle.getD 4096) 0
          tschExp := Store.put 0 x.tschExp (j.handle.getD 4096) 0 }
      else c2
    some (txDone j true tc c3)
  | none =>
    (c.radio.resyncs.find? fun r => r.waitUntil.any fun due =>
      let e := c.entry r.handle
      c.ackMatches f h r.freq r.phy due (some r.seq) (if e.ext = 0 then (2, e.short) else (3, e.ext)) (some r.handle) none).map fun r =>
        let c1 := putSched r.handle { c.sched r.handle with sync := r.mark, syncN := r.m } (dropResync r.handle c)
        let c2 := setEntryBit r.handle entryPaging false (setEntryBit r.handle entryLost false c1)
        let c3 := pageLeave r.handle (c2.onRadio fun x => { x with lastRdv := Store.put 0 x.lastRdv r.handle 0 })
        refreshNext ((c3.bump Fld.LINK_PSCHED_COUNTS_3_RESYNCS).raise .psched 2)

/-! ### The hardware ACK (R114 to R116) -/

/-- The grains between a frame's end and its ACK (R115). -/
def Chip.ackGap (c : Chip) (f : Frame) : Nat :=
  if f.tsch.isSome then c.regN (Reg.LINK_TS 5) else c.regN Reg.LINK_ACK_GAP

/-- Whether a frame asks this chip for an ACK (R133). -/
def Chip.ackAsked (c : Chip) (h : Option Mhr) : Bool :=
  match h with
  | some h => h.ar && c.isOwn h.dstMode h.dst
  | none => false

/-- The resync request a frame carries: a secured data frame with AR 1 to this chip on the partner's resync channel (R153). -/
def Chip.resyncRequest (c : Chip) (f : Frame) (h : Mhr) : Option (Nat × Nat × Nat) :=
  match f.handle, h.aux, pschedIe (c.regN Reg.LINK_PSCHED_OUI) h with
  | some i, some a, some p =>
    let r := c.sched i
    if p.type = 2 ∧ h.type = 1 ∧ h.ar ∧ c.isOwn h.dstMode h.dst ∧ c.schedRuns ∧ r.active ∧ r.role = 0 ∧ r.period ≠ 0 ∧ f.freq = c.channelFreq r.channel
    then some (a.level, a.kidMode, a.keyIndex) else none
  | _, _, _ => none

/-- The Time Correction of a frame's Enh-Ack, in microseconds (R116, R118, R153). -/
def Chip.ackCorrection (c : Chip) (f : Frame) (h : Mhr) (start : Nat) : Option Int :=
  if c.linkOsc || (c.resyncRequest f h).isSome then none
  else
    let due : Option Nat := match f.tsch with
      | some (_, g, _) => some g
      | none =>
        match f.handle with
        | some i =>
          if c.schedRuns then
            (c.rendezvousOf (c.sched i) start f.freq).map fun k => (c.sched i).at_ k
          else none
        | none => none
    due.map fun g => max (-2047) (min 2047 (grainsToUs ((g : Int) - start)))

/-- Whether a frame's ACK has the 2-octet FCS: an Imm-Ack always, an Enh-Ack as the frame had it (R116). -/
def ackFcs2 (f : Frame) (h : Mhr) : Bool := decide (h.version < 2) || f.fcs2

/-- The octets of a frame's ACK, taking the frame counter it uses (R116). -/
def buildAck (f : Frame) (h : Mhr) (tc : Option Int) (pending : Bool) (c : Chip) : List Nat × Chip :=
  if h.version < 2 then (withFcs true (immAck (h.seq.getD 0) false), c)
  else
    let fc := c.regN Reg.LINK_TX_FRAME_COUNTER
    let hd := enhAckHeader h (c.f Fld.LINK_PAN_SHORT_PAN_ID) fc pending tc
    match h.aux with
    | none => (withFcs f.fcs2 hd, c)
    | some a =>
      let key := (entryOf f.entry).keyOctets
      if a.fc.isSome then
        (withFcs f.fcs2 (sealFrame key (ccmNonce c.ownExt fc a.level) a.level hd []),
          c.setRegN Reg.LINK_TX_FRAME_COUNTER (fc + 1))
      else (withFcs f.fcs2 (sealFrame key (asnNonce c.ownExt ((f.tsch.map fun t => t.1).getD 0)) a.level hd []), c)

/-- A frame with its verdict, on its way to its descriptor. -/
structure Judged where
  frame : Frame
  code : Nat
  plain : Option (List Nat)
  slot : Option Slot
  asked : Bool
  cause : Nat
  ack : Option Nat
  tail : AckRec
  deriving DecidableEq, Repr

/-- The counter and the interrupt of a verdict (R134). -/
def countVerdict (v : Nat) (c : Chip) : Chip :=
  match v with
  | 0 => c.bump Fld.LINK_COUNTS_0_ACCEPTED
  | 1 => c.bump Fld.LINK_COUNTS_0_UNVERIFIED
  | 2 => c.bump Fld.LINK_COUNTS_1_FCS_FAIL
  | 3 => c.bump Fld.LINK_COUNTS_1_FILTERED
  | 4 => (c.bump Fld.LINK_COUNTS_2_MIC_FAIL).raise .link 6
  | 5 => (c.bump Fld.LINK_COUNTS_2_REPLAY).raise .link 5
  | 6 => c.bump Fld.LINK_COUNTS_3_DUP
  | 8 => (c.bump Fld.LINK_COUNTS_3_RING_FULL).raise .link 2
  | _ => c

/-- Room for a frame in the ring of its verdict (R131): what was reserved for it, or, where its ring turned out another, a reservation
now; a frame that found no room at its first byte is not delivered. -/
def claimSlot (f : Frame) (v : Nat) (c : Chip) : Option Slot × Chip :=
  match c.ringOf v with
  | none =>
    match f.slot with
    | some s => (none, releaseSlot s c)
    | none => (none, c)
  | some r =>
    match f.slot with
    | some s => if s.ring = r then (some s, c) else reserveSlot r f.length (releaseSlot s c)
    | none => if f.triedRing.isSome then (none, c) else reserveSlot r f.length c

/-- A grant accepted from a time parent re-anchors a ROLE 1 record and may set the RTC (R153, R323). -/
def acceptGrant (f : Frame) (h : Mhr) (c : Chip) : Chip :=
  match f.handle, f.startAt, pschedIe (c.regN Reg.LINK_PSCHED_OUI) h with
  | some i, some s, some p =>
    let r := c.sched i
    if p.type = 3 ∧ h.type = 1 ∧ h.secured ∧ h.ar ∧ r.active ∧ r.role = 1 then
      (if (c.entry i).timeParent then
        let c1 := refreshNext (putSched i { r with sync := s, syncN := (p.n + 2 ^ 32 - 1) % 2 ^ 32 } c)
        if p.authority then rtcNetSet p.time s c1 else c1
       else c)
    else c
  | _, _, _ => c

/-- The MLME sub-IEs of a payload IE list: sub-identifier and content of the short ones. -/
def shortSubIes : Nat → List Nat → List (Nat × List Nat)
  | 0, _ => []
  | k + 1, o =>
    if o.length < 2 then []
    else
      let d := octetsLe o 0 2
      if d / 32768 = 1 then shortSubIes k (o.drop (2 + d % 2048))
      else (d / 256 % 128, (o.drop 2).take (d % 256)) :: shortSubIes k (o.drop (2 + d % 256))

/-- Whether a payload IE list holds a long sub-IE, such as Channel Hopping. -/
def longSubIe : Nat → List Nat → Bool
  | 0, _ => false
  | k + 1, o =>
    let d := octetsLe o 0 2
    if o.length < 2 then false
    else d / 32768 == 1 || longSubIe k (o.drop (2 + d % 256))

/-- The contents of the MLME payload IEs of a payload, up to its Payload Termination. -/
def mlmeIes : Nat → List Nat → List (List Nat)
  | 0, _ => []
  | k + 1, o =>
    let d := octetsLe o 0 2
    if o.length < 2 || d / 32768 == 0 || d / 2048 % 16 == 15 then []
    else (if d / 2048 % 16 = 1 then [(o.drop 2).take (d % 2048)] else []) ++ mlmeIes k (o.drop (2 + d % 2048))

/-- The TSCH Synchronization sub-IE of a payload's MLME IEs: its ASN (R117). -/
def syncAsn (payload : List Nat) : Option Nat :=
  (((mlmeIes payload.length payload).flatMap fun x => shortSubIes x.length x).find? fun e =>
    e.1 == 0x1A && e.2.length == 6).map fun e => octetsLe e.2 0 5

/-- A frame accepted on a TSCH link moves this chip's timeslots: a beacon from a time parent while joining loads the ASN,
and a TIMEKEEPING link's arrival offset corrects the next start (R117, R118, R129). -/
def acceptTsch (f : Frame) (h : Mhr) (payload : List Nat) (c : Chip) : Chip :=
  if c.f Fld.LINK_CTRL_SCHED_MODE != 1 || ! c.b Fld.LINK_TSCH_CTRL_RUN || c.b Fld.LINK_TSCH_CTRL_COORD then c
  else
    match f.handle, f.startAt with
    | some i, some s =>
      let parent := (c.entry i).timeParent
      let asn := if h.type = 0 && h.payloadIes then syncAsn payload else none
      match asn, f.tsch with
      | some a, _ =>
        if ! parent || c.b Fld.LINK_STATUS_TSCH_SYNCED then c
        else
          let start := s - headGrains f.phy - c.regN (Reg.LINK_TS 2)
          (((c.setRegN Reg.LINK_TSCH_ASN_LO (a % 2 ^ 36)).setRegN Reg.LINK_TSCH_ASN_HI (a / 2 ^ 36)).onRadio fun x =>
            { x with tschNext := some (start + c.regN (Reg.LINK_TS 11)), tschIn := true }).setB Fld.LINK_STATUS_TSCH_SYNCED true
      | none, some (_, due, true) =>
        if parent then
          (c.onRadio fun x => { x with tschNext := x.tschNext.map fun g => ((g : Int) + s - due).toNat }).setB
            Fld.LINK_STATUS_TSCH_SYNCED true
        else if c.linkOsc then c.raise .link 7 else c
      | none, _ => c
    | _, _ => c

/-- A page's attempt succeeds when its partner's resync request is accepted before the wait ends; a page on air runs to its end
(R154). -/
def pageAnswered (i : Nat) (c : Chip) : Chip :=
  match c.radio.page with
  | some g =>
    if g.handle ≠ i then c
    else if g.waitUntil.isNone then c.onRadio fun x => { x with page := some { g with answered := true } }
    else refreshPage (c.onRadio fun x => { x with page := none })
  | none => c

/-- The ACK of a frame is built and offered to the contest (R114 to R116, R119); one that cannot start at its grain is lost with
cause CARRIER. DESIGN CHOICE: log entry 181. -/
def offerAck (f : Frame) (h : Mhr) (tail : AckRec) (e : Nat) (c : Chip) : AckRec × Chip :=
  let tc := c.ackCorrection f h (f.startAt.getD 0)
  let pending := h.version == 2 && c.schedRuns && (match f.handle with
    | some i => c.radio.jobs.any fun j => j.kind == 3 && j.handle == some i && j.phase == .queued
    | none => false)
  let (octets, c1) := buildAck f h tc pending c
  let (id, c2) := freshId c1
  let first := e + c.ackGap f
  let k := { c2.frameCarrier id .ack c.now first f.freq f.phy (ackFcs2 f h) octets with
    commit := e + 67, lane := f.lane, priority := if f.handle.isSome then (entryOf f.entry).priority else 3, handle := f.handle }
  let a := { tail with carrier := id, tc := tc, pending := pending }
  let c3 := c2.onRadio fun x => { x with acks := x.acks ++ [a] }
  if first < c.now + 64 then (a, ackLost k lostCarrier c3) else (a, commitCarrier k c3)

/-- The verdict of one frame (R108, R113, R114, R131): everything but the contest and the descriptor. -/
def judgeFrame (f0 : Frame) (e : Nat) (c0 : Chip) : Judged × Chip :=
  let (f, c) := if f0.looked then (f0, c0) else lookupFrame f0 c0
  let h := f.mhr
  let (v0, plain) := c.judge f
  let (slot, c1) := claimSlot f v0 (windowHeard f c)
  let full := slot.isNone && (v0 == vAccept || v0 == vUnverified)
  let v := if full then vRingFull else v0
  let c2 := countVerdict v c1
  let asked := c.ackAsked h
  let acc := v == vAccept
  let tail : AckRec := {
    carrier := 0, lane := f.lane, addr := none, ring := 0, number := 0, word0 := 0, handle := f.handle, accepted := acc,
    start := f.startAt.getD 0, freq := f.freq, drift := (f.report.map fun r => r.drift).getD 0, tc := none, phy := f.phy,
    frameEnd := e, resync := h.bind fun h => c.resyncRequest f h, lost := none,
    fc := ((h.bind fun h => h.aux).bind fun a => a.fc).getD 0, pending := false, shown := max (e + 75) (c0.now + 8) }
  let c3 := match h, f.handle with
    | some h, some i =>
      if acc then
        let d := storeCounter i h f.tsch c2
        let body := plain.getD ((f.psdu.take (f.psdu.length - fcsLen f.fcs2)).drop h.hdrLen)
        let offers := (h.payloadIes && h.type == 0 && (syncAsn body).isSome) ||
          (pschedIe (c.regN Reg.LINK_PSCHED_OUI) h).any fun p => p.type != 2
        let d1 := acceptTsch f h body (acceptGrant f h (if offers then timeOffered i d else d))
        if tail.resync.isSome then pageAnswered i d1 else d1
      else c2
    | _, _ => c2
  let j : Judged := { frame := f, code := v, plain := plain, slot := slot, asked := asked, cause := 0, ack := none, tail := tail }
  match h with
  | none => (j, c3)
  | some h =>
    if ! asked then (j, c3)
    else if v != vAccept && v != vDuplicate then ({ j with cause := if v = vUnverified then 5 else 0 }, c3)
    else if ! c.b Fld.LINK_CTRL_HW_ACK || (! h.secured && ! c.b Fld.LINK_CTRL_ACK_UNSECURED) then ({ j with cause := 6 }, c3)
    else if h.version == 2 && h.secured && c3.regN Reg.LINK_TX_FRAME_COUNTER == 2 ^ 32 - 1 then
      ({ j with cause := 7 }, c3)
    else
      let (a, c4) := offerAck f h tail e c3
      ({ j with ack := some a.carrier, tail := a }, c4)

/-- What a descriptor shows of a frame's header where it cannot be parsed: its frame control field alone (R133). DEDUCED:
log entry 182. -/
def bareHeader (o : List Nat) : Mhr :=
  let fcf := octetsLe o 0 2
  { type := fcf % 8, secured := bitOf fcf 3, pending := bitOf fcf 4, ar := bitOf fcf 5, version := bitsOf fcf 12 2, seq := none,
    dstPan := none, dstMode := bitsOf fcf 10 2, dst := 0xFFFF, srcMode := bitsOf fcf 14 2, src := 0, aux := none, ies := [],
    payloadIes := false, fixedLen := 0, hdrLen := 0 }

/-- The header a descriptor shows. -/
def Frame.shown (f : Frame) : Mhr := f.mhr.getD (bareHeader f.psdu)

/-- Whether payload IEs hold one that the link controller passes to firmware: any but the TSCH Synchronization sub-IE of an MLME IE and
the Payload Termination (R117). -/
def iesPassed : Nat → List Nat → Bool
  | 0, _ => false
  | k + 1, o =>
    let d := octetsLe o 0 2
    if o.length < 2 || d / 2048 % 16 == 15 && d / 32768 == 1 then false
    else d / 32768 != 1 || d / 2048 % 16 != 1 || ((shortSubIes (d % 2048) ((o.drop 2).take (d % 2048))).any fun e => e.1 != 0x1A) ||
      longSubIe (d % 2048) ((o.drop 2).take (d % 2048)) || iesPassed k (o.drop (2 + d % 2048))

/-- Whether a frame's payload IEs hold one passed to firmware; of a payload that was not opened it cannot be told, and all are.
DEDUCED: log entry 211. -/
def Judged.passesIes (j : Judged) (h : Mhr) : Bool :=
  let body := (j.frame.psdu.take (j.frame.psdu.length - fcsLen j.frame.fcs2)).drop h.hdrLen
  h.payloadIes && (match j.plain, h.aux with
    | some m, _ => iesPassed m.length m
    | none, none => iesPassed body.length body
    | none, some a => decide (4 ≤ a.level) || iesPassed body.length (body.take (body.length - micLen a.level)))

/-- Word 0 of a descriptor (R133). -/
def descWord0 (oui : Nat) (j : Judged) (st cause : Nat) (final : Bool) : Nat :=
  let f := j.frame
  let h := f.shown
  let ies := j.passesIes h || h.ies.any fun e => ! (isPsched oui e && 2 ≤ e.2.getD 3 0) && e.1 != 0x1E
  let r := f.report
  j.code * 2 ^ 32 + st * 2 ^ 29 + cause * 2 ^ 26 + b2n final * 2 ^ 25 + b2n ((r.map fun r => r.gainEvent).getD false) * 2 ^ 24
    + b2n ((r.map fun r => r.spur).getD false) * 2 ^ 23 + b2n ies * 2 ^ 22 + b2n h.ar * 2 ^ 21
    + b2n h.pending * 2 ^ 20 + f.chain % 4 * 2 ^ 18 + f.lane % 64 * 2 ^ 12 + f.length % 2048

/-- Words 1 to 15 of a descriptor (R133). -/
def Chip.descWords (c : Chip) (j : Judged) (e pay : Nat) : List Word :=
  let f := j.frame
  let h := f.shown
  let due := if h.ar && h.dstMode != 0 && ! (h.dstMode == 2 && h.dst == 0xFFFF) then Word.grain (e + c.ackGap f) else .bits 0
  let lane := match f.report with
    | some r => [.int r.rssi, .int r.evm, .int r.lqi, .int r.offset, .int r.drift, .bits f.phy]
    | none => [.int 0, .int 0, .int 0, .int 0, .int 0, .int 0]
  let a := h.aux
  let w13 := match a with
    | some a => a.level * 2 ^ 33 + b2n a.fc.isNone * 2 ^ 32 + rxCounter c.asn a f.tsch
    | none => 0
  let w14 := (a.map fun a => a.keyIndex % 256 * 2 ^ 28 + a.kidMode * 2 ^ 26).getD 0 + h.version * 2 ^ 24 + h.type * 2 ^ 21
    + h.dstMode * 2 ^ 19 + h.srcMode * 2 ^ 17 + h.seq.getD 0 % 256 * 2 ^ 9 + h.hdrLen % 512
  [(match f.handle with
      | some i => .mk' .handle i
      | none => .bits 0), .grain (f.startAt.getD 0), .grain e, .grain (e + 67), due] ++ lane ++
    [.int f.freq, .bits w13, .bits w14, .mk' .ptr pay]

/-- The octets stored in a ring: opened where the frame was accepted, as received otherwise (R130); of an abandoned frame all that
PSDU_START gave, whatever had arrived before the mark. DESIGN CHOICE: log entry 212. -/
def Judged.stored (j : Judged) : List Nat :=
  match j.frame.mhr, j.plain with
  | some h, some m =>
    if j.code = vAccept then j.frame.psdu.take h.hdrLen ++ m ++ j.frame.psdu.drop (h.hdrLen + m.length) else j.frame.psdu
  | _, _ => j.frame.psdu

/-- Write octets four a word from a pointer, a codeword at a time. -/
def storeOctets (p : Nat) : Nat → List Nat → Chip → Chip
  | 0, _, c => c
  | k + 1, xs, c =>
    if xs = [] then c
    else storeOctets (p + 2) k (xs.drop 8) (linkWrite p [.bits (leNat (xs.take 4)), .bits (leNat ((xs.drop 4).take 4))] c)

/-- Write words a codeword at a time. -/
def storePairs (p : Nat) : List Word → Chip → Chip
  | a :: b :: ws, c => storePairs (p + 2) ws (linkWrite p [a, b] c)
  | [a], c => linkWrite p [a] c
  | [], c => c

/-- The descriptor of a frame is written and PROD advances (R130 to R133); a frame whose ACK is settled or was never asked
for is settled. -/
def publish (j : Judged) (e : Nat) (c : Chip) : Chip :=
  let lost := match j.ack with
    | some id => (c.radio.acks.find? fun a => a.carrier == id).bind fun a => a.lost
    | none => none
  let (st, cause) := if ! j.asked then (0, 0)
    else match j.ack with
      | none => (3, j.cause)
      | some _ => (match lost with
        | some x => (3, x)
        | none => (1, 0))
  let final := st != 1
  let w0 := descWord0 (c.regN Reg.LINK_PSCHED_OUI) j st cause final
  let c1 := match j.slot with
    | none => c
    | some s =>
      let r := s.ring
      let n := c.regN (Reg.LINK_RING_PROD r)
      let p := c.regN (Reg.LINK_RING_BASE r) + 16 * (n % max 1 (c.regN (Reg.LINK_RING_SIZE r)))
      let pay := c.regN (Reg.LINK_RING_PAY_BASE r) + s.off
      let d := storePairs p (.bits w0 :: c.descWords j e pay) (storeOctets pay (j.stored.length + 1) j.stored c)
      let d1 := d.onRadio fun x => { x with
        slots := x.slots.map fun y => if y = s then { s with number := n, published := true, final := final } else y
        acks := x.acks.map fun a => if some a.carrier = j.ack ∧ a.lost = none then
          { a with addr := some p, ring := r, number := n, word0 := w0 } else a }
      (d1.setRegN (Reg.LINK_RING_PROD r) ((n + 1) % 65536)).raise .link r
  match j.ack, lost with
  | none, _ => settleFrame j.tail false c.now c1
  | some _, some _ => c1
  | some _, none => c1

/-- FRAME_VERDICT (R107, R108, R120): every frame whose verdict is due is judged, in lane order; their ACKs take part in
one contest; their descriptors are written. DESIGN CHOICE: log entry 4. -/
def frameVerdict (c : Chip) : Chip :=
  let ready := fun f : Frame => f.taken && (match f.endAt with
    | some e => decide (e + 67 ≤ c.now)
    | none => false)
  let due := (List.range 64).flatMap fun n => c.radio.frames.filter fun f => f.lane == n && ready f
  let c0 := c.onRadio fun x => { x with frames := x.frames.filter fun f => ! ready f }
  if ! c.isOn .link || due.isEmpty then c
  else
    let (js, c1) := due.foldl (fun (js, d) f =>
      let eaten := if f.abandoned || f.faulted || ! fcsGood f.fcs2 f.psdu then none
        else match f.mhr with
          | some h => if h.type = 2 then consumeAck f h d else none
          | none => none
      match eaten with
      | some d1 => (js, match f.slot with
          | some s => releaseSlot s d1
          | none => d1)
      | none =>
        let (j, d1) := judgeFrame f (f.endAt.getD 0) d
        (js ++ [j], d1)) (([] : List Judged), c0)
    let c2 := contest lostCarrier c1
    let c3 := js.foldl (fun d j => publish j (j.frame.endAt.getD 0) d) c2
    releaseWindows (settleLost c3)

/-- ACK_SENT (R132): ACKs whose first symbol has gone out. -/
def ackSent (c : Chip) : Chip :=
  (c.radio.acks.filter fun a => a.lost.isNone).foldl (fun c a =>
    match c.radio.carriers.find? fun k => k.id == a.carrier with
    | some k => if k.onAir && decide (k.first ≤ c.now) then ackFinish a 2 0 k.last (c.bump Fld.LINK_COUNTS_4_ACK_SENT) else c
    | none => c) c

/-! ### LINK_DISABLE and CONS (R131) -/

/-- LINK_DISABLE (R131, R134): ENABLE is cleared; frames without a verdict are discarded and reservations released. -/
def linkDisable (c : Chip) : Chip :=
  if ! c.isOn .link then c.regReject
  else if ! c.b Fld.LINK_CTRL_ENABLE then c
  else
    let c1 := c.onRadio fun x => { x with
      frames := (x.frames.filter fun f => f.endAt.isNone).map fun f =>
        { f with taken := false, looked := false, handle := none, entry := [], slot := none, triedRing := none }
      slots := x.slots.filter fun s => s.published }
    refreshRing 0 (refreshRing 1 (c1.setB Fld.LINK_CTRL_ENABLE false))

/-- LINK_RING_CONS_WRITE (R130, R131): slots and payload return to the link controller. A value implying more than SIZE
outstanding, or behind the present CONS, is reserved (R134). -/
def ringConsWrite (r v : Nat) (c : Chip) : Chip :=
  let prod := c.regN (Reg.LINK_RING_PROD r)
  let old := c.regN (Reg.LINK_RING_CONS r)
  let out := (prod + 65536 - v % 65536) % 65536
  let was := (prod + 65536 - old) % 65536
  if ! c.isOn .link || decide (65536 ≤ v) || decide (was < out) || decide (c.regN (Reg.LINK_RING_SIZE r) < out) then c.regReject
  else
    let passed := fun s : Slot => s.ring == r && s.published && decide ((s.number + 65536 - old) % 65536 < was - out)
    let c1 := c.onRadio fun x => { x with
      slots := (x.slots.map fun s => if passed s then { s with words := 0 } else s).filter fun s =>
        ! (s.published && s.words == 0 && s.final) }
    refreshRing r (c1.setRegN (Reg.LINK_RING_CONS r) v)

/-! ### Meanings -/

/-- PSDU_START (R131). -/
def execPsduStart (n : Fin 64) (soft : List Soft) (s : State) : Host.Outcome State Fault Refusal :=
  onChip (psduStart n.val (soft.map BitVec.toInt)) s
/-- PARTNER_LOOKUP (R107). -/
def execPartnerLookup (n : Fin 64) (s : State) : Host.Outcome State Fault Refusal := onChip (partnerLookup n.val) s
/-- FRAME_VERDICT (R107). -/
def execFrameVerdict (s : State) : Host.Outcome State Fault Refusal := onChip frameVerdict s
/-- ACK_SENT (R132). -/
def execAckSent (s : State) : Host.Outcome State Fault Refusal := onChip ackSent s
/-- LINK_DISABLE (R131). -/
def execLinkDisable (s : State) : Host.Outcome State Fault Refusal := onChip linkDisable s
/-- LINK_RING_CONS_WRITE (R131). -/
def execLinkRingConsWrite (r : Fin 2) (v : Payload) (s : State) : Host.Outcome State Fault Refusal :=
  onChip (ringConsWrite r.val v.toNat) s

end Sys2Proof.Machine
end

