-- ==== Sys2Proof/Machine/Send.lean ====
section
/-! DEFINITION. Transmit requests and carriers from commit to end (05_link_controller.md, R60, R121 to R128). -/

namespace Sys2Proof.Machine

/-! ### The request block (R124, R125) -/

/-- A request with nothing known of it but its ticket and block. -/
def blankJob (t block : Nat) : TxJob := {
  ticket := t, block := block, kind := 0, freq := 0, phy := 0, octets := [], ar := false, seq := none, dst := (0, 0),
  handle := none, powerDb := 0, fcs2 := false, phase := .queued, carrier := 0, attempts := 0, retries := 0, nb := 0, be := 0,
  due := 0, plan := none, first := none, sec := none, shared := false, keep := false, rdv := none, asn := none, dead := false }

/-- Whether a mode word may be sent: legal, one mode, and one of the families (R124). -/
def txMode (p : Nat) : Bool := phyLegal 7 p && phySingle p

/-- The partner that word 1 names; none where it is malformed. -/
def Chip.txPartner (c : Chip) (w : Word) : Option (Option Nat) :=
  if w.tag = .bits ∧ w.nat = 0 then some none
  else match c.partnerOf w with
    | some i => some (some i)
    | none => none

/-- The buffer of a request: octets, four a word, bits 35:32 zero. -/
def readFrame (p n : Nat) (c : Chip) : Except Status (List Nat) × Chip :=
  match readOctetsBy .b p n c with
  | (.ok xs, c1) => (.ok xs, c1)
  | (.fail w, c1) => (.error (if resultStatus w = Status.poisoned.code then .poisoned else .badArg), c1)

/-- Whether a request's security operands are well formed (R124, R135). -/
def Chip.txSecurityOk (c : Chip) (h : Mhr) (partner : Option Nat) : Bool :=
  match h.aux, partner with
  | some a, some i =>
    let e := c.entry i
    a.level != 0 && decide (a.kidMode < 2) && e.valid && e.keyUsable && (a.kidMode == 0 || a.keyIndex == e.keyIndex)
  | _, _ => false

/-- Octets on air of a request's frame: header and payload, MIC and FCS. -/
def txAirLength (n level : Nat) (secure fcs2 : Bool) : Nat := n + (if secure then micLen level else 0) + fcsLen fcs2

/-- Secure a request's frame, taking a frame counter; one whose counter is suppressed is secured when it is sent. -/
def secureJob (j : TxJob) (h : Mhr) (o : List Nat) (i : Nat) (c : Chip) : TxJob × Chip :=
  match h.aux with
  | none => (j, c)
  | some a =>
    let key := (c.entry i).keyOctets
    match a.fc with
    | none => ({ j with octets := o, sec := some (key, a.level, h.hdrLen) }, c)
    | some _ =>
      let fc := c.regN Reg.LINK_TX_FRAME_COUNTER
      let o1 := fillCounter h fc o
      let sealed := sealFrame key (ccmNonce c.ownExt fc a.level) a.level (o1.take h.hdrLen) (o1.drop h.hdrLen)
      ({ j with octets := withFcs j.fcs2 sealed }, c.setRegN Reg.LINK_TX_FRAME_COUNTER (fc + 1))

/-- Read and check a request block (R124): the request, or the status it is refused with. -/
def parseRequest (t p : Nat) (c : Chip) : Except Status TxJob × Chip :=
  let (ws, c1) := linkWords p 8 c
  let w := fun i => ws.getD i .absent
  if (ws.take 6).any fun x => x.tag == .poison then (.error .poisoned, c1)
  else
    let w0 := (w 0).nat
    let kind := bitsOf w0 32 4
    let secure := bitOf w0 31
    let ar := bitOf w0 30 && kind != 2
    let fcs2 := bitOf w0 25
    let len := bitsOf w0 0 11
    let psched := kind == 3 && c.f Fld.LINK_CTRL_SCHED_MODE == 2
    let freq := (w 3).nat
    let badChannel := kind != 3 && ((w 3).tag != .int || decide (freq < 410000000) || decide (960000000 < freq))
    let badMode := ! psched && ((w 4).tag != .bits || decide (65536 ≤ (w 4).nat) || ! txMode (w 4).nat)
    let badGrain := (kind == 0 || kind == 2) && (w 2).tag != .grain
    match c.txPartner (w 1) with
    | none => (.error .badArg, c1)
    | some partner =>
      if (w 0).tag != .bits || decide (3 < kind) || bitsOf w0 11 14 != 0 || len == 0 || badChannel || badMode || badGrain ||
          ! c1.bufferOk (w 5) len [1] then (.error .badArg, c1)
      else
        match readFrame (w 5).nat len c1 with
        | (.error st, c2) => (.error st, c2)
        | (.ok o, c2) =>
          match parseMhrAs (! secure) o with
          | none => (.error .badArg, c2)
          | some h =>
            let level := (h.aux.map fun a => a.level).getD 0
            let phy := if psched then (c.sched (partner.getD 4096)).phy else (w 4).nat
            let air := txAirLength len level secure fcs2
            if (secure && ! c.txSecurityOk h partner) || decide (2047 < air) || decide (2047 < c2.padded phy air) then
              (.error .badArg, c2)
            else if secure && c2.regN Reg.LINK_TX_FRAME_COUNTER == 2 ^ 32 - 1 then
              (.error .authFail, c2)
            else
              let j := { blankJob t p with
                kind := kind, freq := freq, phy := phy, ar := ar, seq := h.seq
                dst := (h.dstMode, h.dst), handle := partner, powerDb := bitsOf w0 26 4, fcs2 := fcs2
                plan := if kind = 0 ∨ kind = 2 then some (c.longOf (w 2).payload).toNat else none, be := c.f Fld.LINK_CSMA_MIN_BE }
              if secure then
                let (j1, c3) := secureJob j h o (partner.getD 0) c2
                (.ok j1, c3)
              else (.ok { j with octets := withFcs fcs2 o }, c2)

/-- A request that was read is queued by its KIND, or refused (R124, R125, R127, R142, R145, R150). -/
def queueRequest (j : TxJob) (c : Chip) : Chip :=
  let c1 := c.onRadio fun x => { x with jobs := x.jobs ++ [j] }
  match j.kind with
  | 1 => startBackoff j c1
  | 3 =>
    match c.f Fld.LINK_CTRL_SCHED_MODE with
    | 1 => if c.b Fld.LINK_TSCH_CTRL_RUN then c1 else txStateRefused j c1
    | 2 =>
      if ! c.schedRuns then txStateRefused j c1
      else
        match j.handle with
        | none => txRefused j .badArg c1
        | some i =>
          if ! (c.entry i).valid || ! (c.sched i).active then txRefused j .badArg c1
          else if (c.entry i).lostSync then txRefused j .timeout c1
          else c1
    | _ => txStateRefused j c1
  | _ => if (j.plan.getD 0 : Int) - c.now < 4160 then txRefused j .timeout c1 else c1

/-- TX (R124): the ticket's request block is checked and queued by its KIND. Words 6 and 7 of a block that is well placed are
written before any completion; a LINK island that does not serve writes none. DEDUCED: log entry 184. -/
def txLaunch (t : Nat) (c : Chip) : Chip :=
  match c.ticket t with
  | none => c
  | some k =>
    if k.code != 1 || k.state != 1 then c
    else
      let p := k.args.getD 0 .absent
      let c1 := putTicket { k with state := 2 } c
      let placed := p.tag == .ptr && spaceOf p.nat == 1 && c.ptrValid p.nat && c.ptrValid (p.nat + 7)
      let refuse (st : Status) (c : Chip) : Chip :=
        txRefused (blankJob t p.nat) st (c.onRadio fun x => { x with jobs := x.jobs ++ [blankJob t p.nat] })
      if ! c.isOn .link then finishTicket t c.stateRefused c1
      else if ! c.b Fld.LINK_CTRL_ENABLE then (if placed then refuse .stateRefused c1 else finishTicket t c.stateRefused c1)
      else if ! placed then finishTicket t (refused .badArg) c1
      else if c1.spaceAccess 1 ≠ .served then finishTicket t c.stateRefused c1
      else
        match parseRequest t p.nat c1 with
        | (.error st, c2) => refuse st c2
        | (.ok j, c2) =>
          queueRequest j (match j.handle with
            | some i => readPartner i c2
            | none => c2)

/-! ### Commit (R119 to R121, R145) -/

/-- The carrier kind of a request. -/
def Chip.jobKind (c : Chip) (j : TxJob) : CarrierKind :=
  match j.kind with
  | 0 => .at | 1 => .csma | 2 => .fwAck
  | 3 => if c.f Fld.LINK_CTRL_SCHED_MODE = 1 then .tsch else .psched
  | _ => .beacon

/-- Where and when a queued request goes: first symbol, channel, mode and rendezvous number. -/
def Chip.jobPlan (c : Chip) (j : TxJob) : Option (Nat × Nat × Nat × Option Nat) :=
  match j.plan with
  | some f => if f ≤ c.now + 2112 then some (f, j.freq, j.phy, none) else none
  | none =>
    match j.handle with
    | some i =>
      let r := c.sched i
      let head := headGrains r.phy
      let k := r.seek (c.now + 2112 + head)
      if j.kind == 3 && c.schedRuns && r.active && r.role == 1 && r.period != 0 && r.at_ k == c.now + 2112 + head &&
          (c.radio.jobs.find? fun x => x.kind == 3 && x.handle == some i) == some j then
        some (c.now + 2112, c.rdvFreq r (r.number k), r.phy, some (r.number k))
      else none
    | none => none

/-- The octets of a request as they are sent now. -/
def Chip.jobOctets (c : Chip) (j : TxJob) : List Nat :=
  match j.sec with
  | some (key, level, hdr) =>
    withFcs j.fcs2 (sealFrame key (asnNonce c.ownExt (j.asn.getD c.asn)) level (j.octets.take hdr) (j.octets.drop hdr))
  | none => j.octets

/-- A request's carrier takes part in a contest at its commit grain. -/
def commitJob (j : TxJob) (first freq phy : Nat) (rdv : Option Nat) (c0 : Chip) : Chip :=
  let c := match j.handle with
    | some i => readPartner i c0
    | none => c0
  let (id, c1) := freshId c
  let k := { c1.frameCarrier id (c1.jobKind j) c.now first freq phy j.fcs2 (c1.jobOctets j) with
    powerDb := j.powerDb, ticket := j.ticket, handle := j.handle
    priority := match j.handle with
      | some i => if (c.entry i).valid then (c.entry i).priority else 3
      | none => 3 }
  let j1 := { j with phase := .committed, carrier := id, freq := freq, phy := phy, plan := some first, rdv := rdv }
  let c2 := putJob j1 c1
  if first < c.now + 64 then loseCarrier k lostCarrier c2 else contestNow lostCarrier (commitCarrier k c2)

/-- A ROLE 1 request that awaits an ACK gets a scheduler lane on its channel for it (R128). -/
def ackLane (j : TxJob) (freq phy first last : Nat) (c : Chip) : Chip :=
  match j.handle with
  | some i =>
    if ! j.ar then c
    else
      match c.pickLane phy freq with
      | some n => reserveLane {
          kind := 1, handle := i, n := j.rdv.getD 0, lane := n, at_ := first, half := last + c.regN Reg.LINK_ACK_WAIT - first,
          freq := freq, closed := false, heard := false, until_ := last + c.regN Reg.LINK_ACK_WAIT } (c.now + 1) phy c
      | none => c
  | none => c

/-- An enhanced beacon is skipped (R118, R123, R129). -/
def beaconSkip (c : Chip) : Chip := (c.bump Fld.LINK_COUNTS_7_BEACON_SKIPPED).raise .link 8

/-- TX_COMMIT (R121): every request whose commit grain has come is committed or lost, in rank order of commit; while OSC_STOP is set no
beacon is (R118). -/
def txCommit (c : Chip) : Chip :=
  if ! c.isOn .link || c.entering then c
  else
    (c.radio.jobs.filter fun j => j.phase == .queued).foldl (fun c j =>
      if ! c.radio.jobs.contains j then c
      else if j.kind = 16 && c.linkOsc && (c.jobPlan j).isSome then beaconSkip (dropJob j.ticket c)
      else
        match c.jobPlan j with
        | some (first, freq, phy, rdv) =>
          let c1 := commitJob j first freq phy rdv c
          match rdv, c1.radio.carriers.find? fun k => k.ticket == j.ticket with
          | some _, some k => ackLane { j with rdv := rdv } freq phy first (k.last - 64) c1
          | _, _ => c1
        | none => c) c

/-! ### Ramp, end and wait -/

/-- The stream of a TX frame starts at the check units (R307, R308). -/
def chkTxStart (k : Carrier) (c : Chip) : Chip :=
  if k.kind = .page ∨ k.kind = .training then c
  else
    chkUnits.foldl (fun c n =>
      if c.chkWatches n 2 (b2n k.isAck) then
        match (c.chkUnit n).txCarrier with
        | none => c.setChk n { (c.chkUnit n) with txCarrier := some k.id, waitFrame := false, seen := 0 }
        | some _ => c.bump (Fld.CHK_COUNTS_SKIPPED n)
      else c) c

/-- The stream of a TX frame ends, its octets folded. One that was cut has no last FCS octet and no end marker, and what was sent of
it has been folded. DESIGN CHOICE: log entry 206. -/
def chkTxEnd (k : Carrier) (c : Chip) : Chip :=
  chkUnits.foldl (fun c n =>
    if (c.chkUnit n).txCarrier = some k.id then
      let c1 := if k.cut || ! c.chkWatches n 2 (b2n k.isAck) then c
        else
          let c2 := chkFold n k.octets k.octets.length c
          if c2.f (Fld.CHK_CTRL_END_MODE n) == 0 then chkEnd n false c2 else c2
      c1.setChk n { (c1.chkUnit n) with txCarrier := none, seen := 0 }
    else c) c

/-- The octets that a lane has handed over, and a carrier has sent, by the present grain reach a unit (R307, R308): the spec
bounds the last octet only (R100), and which have passed before it is Config.octetsBy. DESIGN CHOICE: log entry 206. -/
def chkUnitGrain (n : Nat) (c : Chip) : Chip :=
  if c.f (Fld.CHK_CTRL_SRC n) = 1 then
    match c.laneFrame (c.f (Fld.CHK_CTRL_SEL n)) with
    | some f => if f.started && ! (c.chkUnit n).waitFrame then
        chkFold n f.psdu (Config.octetsBy f.id (c.now - f.startAt.getD c.now)) c else c
    | none => c
  else if c.f (Fld.CHK_CTRL_SRC n) = 2 then
    match c.radio.carriers.find? fun k => (c.chkUnit n).txCarrier == some k.id with
    | some k => if k.cut || decide (c.now < k.first) then c else chkFold n k.octets (Config.octetsBy k.id (c.now - k.first)) c
    | none => c
  else c
@[inherit_doc chkUnitGrain] def chkGrain (c : Chip) : Chip :=
  if c.isOn .link then chkUnits.foldl (fun c n => if c.b (Fld.CHK_CTRL_ENABLE n) then chkUnitGrain n c else c) c else c

/-- One carrier goes on air (R57, R60): blanked chains abandon their frames. -/
def rampStart (k : Carrier) (c : Chip) : Chip :=
  let c1 := refreshAir (putCarrier { k with onAir := true } c)
  let c2 := c1.onRadio fun x => { x with ramps := (x.ramps.filter fun g => decide (c.now ≤ g + 4096)) ++ [c.now] }
  let c3 := [0, 1].foldl (fun d x => if d.blanked x then chainStops x 5 d else d) c2
  let c4 := match c3.jobOf k.id with
    | some j => putJob { j with attempts := min 15 (j.attempts + 1), first := some k.first } c3
    | none => c3
  chkTxStart k (if k.kind = .page then refreshPage c4 else c4)

/-- CARRIER_RAMP_START (R60): every committed carrier whose ramp is due; a beacon is not sent while OSC_STOP is set (R118). -/
def carrierRampStart (c : Chip) : Chip :=
  (c.radio.carriers.filter fun k => ! k.onAir && decide (k.ramp ≤ c.now)).foldl (fun c k =>
    if k.kind = .beacon && c.linkOsc then
      beaconSkip (withdraw k.id (match c.jobOf k.id with
        | some j => dropJob j.ticket c
        | none => c))
    else rampStart k c) c

/-- A retry in TSCH (R129): on a shared link after a backoff; none of one that a CORE restart has left (R253). -/
def tschRetry (j : TxJob) (c : Chip) : Chip :=
  if j.dead then dropJob j.ticket c else
  let j1 := { j with phase := .queued, carrier := 0, plan := none, retries := j.retries + 1 }
  if j.shared then
    let key := j.handle.getD 4096
    let be := min (c.f Fld.LINK_CSMA_MAX_BE) (max (c.f Fld.LINK_CSMA_MIN_BE) (Store.get 0 c.radio.tschExp key) + 1)
    let (b, c1) := takeFree (2 ^ be) c
    putJob j1 (c1.onRadio fun x => { x with
      tschExp := Store.put 0 x.tschExp key be, tschBackoff := Store.put 0 x.tschBackoff key b })
  else putJob j1 c

/-- An attempt went unacknowledged (R127, R128). -/
def unacked (j : TxJob) (c : Chip) : Chip :=
  if j.kind = 1 ∧ j.retries < c.f Fld.LINK_CSMA_MAX_RETRIES then
    startBackoff { j with retries := j.retries + 1, nb := 0, be := c.f Fld.LINK_CSMA_MIN_BE } c
  else if j.kind = 3 ∧ c.f Fld.LINK_CTRL_SCHED_MODE = 1 ∧ c.b Fld.LINK_TSCH_CTRL_RUN ∧
      j.retries < c.f Fld.LINK_CSMA_MAX_RETRIES then tschRetry j c
  else txRefused j .timeout c

/-- Whether some lane is IDLE on a channel and family (R128); a CSMA request's is not a scheduler lane (R129). -/
def Chip.ackLaneIdle (c : Chip) (csma : Bool) (freq phy : Nat) : Bool :=
  c.laneNumbers.any fun n => c.laneUp n && c.laneState n == laneIdle && (c.laneSt n).freq == freq &&
    phyFamily (c.laneSt n).phy == phyFamily phy && ! (csma && c.schedLane n)

/-- At the end of a carrier's last symbol it is known whether a lane awaits its acknowledgement (R128), and the check units have its
last octet (R310). -/
def symbolsEnd (c : Chip) : Chip :=
  (c.radio.carriers.filter fun k => k.onAir && k.heard.isNone && decide (k.last ≤ c.now + 64)).foldl (fun c k =>
    chkTxEnd k (putCarrier { k with heard := some (c.ackLaneIdle (k.kind == .csma) k.freq k.phy) } c)) (chkGrain c)

/-- Whether a lane awaits the acknowledgement of a carrier that has ended. -/
def Chip.carrierHeard (c : Chip) (k : Carrier) : Bool := k.heard.getD (c.ackLaneIdle (k.kind == .csma) k.freq k.phy)

/-- A request's carrier has ended. -/
def jobEnd (k : Carrier) (j : TxJob) (c : Chip) : Chip :=
  if k.kind = .beacon then dropJob j.ticket c
  else if k.cut then txRefused j .busy c
  else if ! j.ar then txDone j false none c
  else if c.carrierHeard k then
    putJob { j with phase := .awaiting, due := k.last - 64 + c.regN Reg.LINK_ACK_WAIT } c
  else unacked j c

/-- A page's carrier has ended (R153 to R155): a lane is held for the resync request, but while an entry to sleep drains the radio
(R341); where partner-schedule mode has stopped the attempt is forgotten, and PAGING keeps its value (R142). -/
def pageEnd (k : Carrier) (c : Chip) : Chip :=
  let i := k.handle.getD 0
  let c1 := (c.bump Fld.LINK_PSCHED_COUNTS_2_PAGES_SENT).onRadio fun x => { x with
    pageNext := c.now + c.regN Reg.LINK_PAGE_INTERVAL }
  match c1.radio.page with
  | none => c1
  | some g =>
    if g.answered then refreshPage (c1.onRadio fun x => { x with page := none })
    else if ! c1.schedRuns then refreshPage (c1.onRadio fun x => { x with page := none })
    else if k.cut then pageFailed i (refreshPage (c1.onRadio fun x => { x with page := none }))
    else
      let stop := c.now + c.regN Reg.LINK_RESYNC_WAIT
      let c2 := refreshPage (c1.onRadio fun x => { x with page := some { g with waitUntil := some stop } })
      let r := c2.sched i
      let f := c2.channelFreq r.channel
      match if c2.entering then none else c2.pickLane r.phy f with
      | some n => reserveLane {
          kind := 2, handle := i, n := 0, lane := n, at_ := c.now, half := stop - c.now, freq := f, closed := false, heard := true,
          until_ := stop } (c.now + 1) r.phy c2
      | none => c2

/-- One carrier ends its ramp down. -/
def carrierEnd1 (k : Carrier) (c : Chip) : Chip :=
  let c1 := chkTxEnd k (dropCarrier k.id c)
  match k.kind with
  | .ack => c1
  | .page => pageEnd k c1
  | .training => c1
  | .grant =>
    match c1.radio.resyncs.find? fun r => r.carrier == some k.id with
    | some r =>
      if k.cut || ! c1.carrierHeard k then dropResync r.handle c1
      else putResync { r with waitUntil := some (k.last - 64 + c.regN Reg.LINK_ACK_WAIT) } c1
    | none => c1
  | _ =>
    match c.jobOf k.id with
    | some j => jobEnd k j c1
    | none => c1

/-- CARRIER_END (R60): every carrier whose ramp down has ended. -/
def carrierEnd (c : Chip) : Chip :=
  releaseWindows ((c.radio.carriers.filter fun k => k.onAir && decide (k.last ≤ c.now)).foldl (fun c k => carrierEnd1 k c) c)

/-- The transmit chain becomes unavailable (R428): carriers not started are lost, but the one that an automatic retune is for
(R58); those on air ramp down at once. DESIGN CHOICE: log entry 100. -/
def cutCarriers (c : Chip) : Chip :=
  let c0 := c.radio.losing.foldl (fun c x => loseCarrier x.1 lostCarrier c) (c.onRadio fun x => { x with losing := [] })
  let c1 := settleLost ((c0.radio.carriers.filter fun k => ! k.onAir && c.radio.autoFor != some k.id).foldl
    (fun c k => loseCarrier k lostCarrier (withdraw k.id c)) c0)
  (c1.radio.carriers.filter fun k => k.onAir && decide (c.now + 64 < k.last)).foldl (fun c k =>
    refreshUsed ((putCarrier { k with last := c.now + 64, cut := true } c).onRadio fun x => { x with charges := x.charges.map fun g => if g.id = k.id then { g with air := c.now + 64 - k.ramp } else g })) c1

/-- Whether a frame that might be the acknowledgement awaited is still on its way. -/
def Chip.ackComing (c : Chip) (freq phy due : Nat) : Bool :=
  c.radio.frames.any fun f => f.freq == freq && phyFamily f.phy == phyFamily phy && (f.taken || ! f.started) &&
    (match f.startAt with
      | some s => decide (s ≤ due)
      | none => false)

/-- ACK_WAIT_EXPIRY (R128, R153): the wait has passed without a match. -/
def ackWaitExpiry (c : Chip) : Chip :=
  let c1 := (c.radio.jobs.filter fun j => j.phase == .awaiting && decide (j.due ≤ c.now) && ! c.ackComing j.freq j.phy j.due).foldl
    (fun c j => unacked j c) c
  let ended := fun r : Resync => r.waitUntil.any fun g => decide (g ≤ c.now) && ! c.ackComing r.freq r.phy g
  releaseWindows (c1.onRadio fun x => { x with resyncs := x.resyncs.filter fun r => ! ended r })

/-! ### CSMA (R127) -/

/-- Whether a chain's usable bandwidth holds a channel, chain A first. -/
def Chip.chainHolds (c : Chip) (f bw : Nat) : Bool :=
  [0, 1].any fun x => c.regN (Reg.RF_CHAIN_FREQ_NOW x) != 0 &&
    withinSpan f bw (c.regN (Reg.RF_CHAIN_FREQ_NOW x)) (usableHalf (c.b (Fld.RF_CHAIN_CTRL_SETTING x)))

/-- A CCA's judgement: the energy measured in quarter-dBm, and the lanes on the channel, scheduler lanes apart (R127, R129). -/
def Chip.ccaBusy (c : Chip) (f : Nat) (energy : Int) : Bool :=
  let loud := decide (c.fI Fld.LINK_CCA_THRESHOLD_QDBM < energy)
  let heard := c.laneNumbers.any fun n => (c.laneSt n).freq == f && ! c.schedLane n && (c.laneState n == laneDetect || c.laneState n == laneReceive)
  match c.f Fld.LINK_CCA_MODE with
  | 0 => loud
  | 1 => heard
  | _ => loud || heard

/-- CSMA_CCA (R127): a request's CCA ends at its commit grain. -/
def csmaCca (t : Nat) (energy : Int) (c : Chip) : Chip :=
  match c.radio.jobs.find? fun j => j.ticket == t && j.phase == .backoff with
  | none => c
  | some j =>
    if c.now < j.due || ! c.isOn .link || c.entering then c
    else if ! c.chainHolds j.freq (planBandwidth j.phy) then txRefused j .badArg c
    else if c.ccaBusy j.freq energy then
      (if c.f Fld.LINK_CSMA_MAX_BACKOFFS < j.nb + 1 then txRefused j .busy c
       else startBackoff { j with nb := j.nb + 1, be := min (c.f Fld.LINK_CSMA_MAX_BE) (j.be + 1) } c)
    else commitJob j (c.now + 2112) j.freq j.phy none c

/-! ### Budgets (R122) -/

/-- DWELL_BUCKET_BOUNDARY (R122, R123): charges older than every span are forgotten. -/
def bucketBoundary (c : Chip) : Chip :=
  let young := fun g : Charge => decide (c.now / bucketLen (c.budgetWindow g.key) ≤ g.at_ / bucketLen (c.budgetWindow g.key) + 16)
  refreshUsed (c.onRadio fun x => { x with charges := x.charges.filter young })

/-- A write that changes a budget's window clears that budget's charges (R122). -/
def clearCharges (p : Nat → Bool) (c : Chip) : Chip :=
  refreshUsed (c.onRadio fun x => { x with charges := x.charges.filter fun g => ! p g.key })

/-- Whether a window in ms is one a budget accepts. -/
def windowLegal (w : Nat) : Bool := w == 0 || (decide (16 ≤ w) && decide (w ≤ 3600000))

/-- A write of a budget's window: budget 8 is the dwell plan (R122, R134). -/
def budgetWindowWrite (b w : Nat) (c : Chip) : Chip :=
  if ! c.isOn .link || ! windowLegal w then c.regReject
  else if b = 8 then
    (if c.f Fld.LINK_DWELL_WINDOW_WINDOW_MS = w then c
     else clearCharges (fun k => decide (k < 256)) (c.setF Fld.LINK_DWELL_WINDOW_WINDOW_MS w))
  else if c.regN (Reg.LINK_DUTY_WINDOW b) = w then c
  else clearCharges (fun k => k == 256 + b) (c.setRegN (Reg.LINK_DUTY_WINDOW b) w)

/-! ### Meanings -/

/-- TX (R124). -/
def execTx (t : BitVec 9) (s : State) : Host.Outcome State Fault Refusal := onChip (txLaunch t.toNat) s
/-- TX_COMMIT (R121). -/
def execTxCommit (s : State) : Host.Outcome State Fault Refusal := onChip txCommit s
/-- CARRIER_RAMP_START (R60). -/
def execCarrierRampStart (s : State) : Host.Outcome State Fault Refusal := onChip carrierRampStart s
/-- CARRIER_END (R60). -/
def execCarrierEnd (s : State) : Host.Outcome State Fault Refusal := onChip carrierEnd s
/-- ACK_WAIT_EXPIRY (R128). -/
def execAckWaitExpiry (s : State) : Host.Outcome State Fault Refusal := onChip ackWaitExpiry s
/-- CSMA_CCA (R127). -/
def execCsmaCca (t : BitVec 9) (energy : Int) (s : State) : Host.Outcome State Fault Refusal :=
  onChip (csmaCca t.toNat energy) s
/-- DWELL_BUCKET_BOUNDARY (R122). -/
def execDwellBucketBoundary (s : State) : Host.Outcome State Fault Refusal := onChip bucketBoundary s
/-- BUDGET_WINDOW_WRITE (R122). -/
def execBudgetWindowWrite (b : Fin 9) (w : BitVec 22) (s : State) : Host.Outcome State Fault Refusal :=
  onChip (budgetWindowWrite b.val w.toNat) s

end Sys2Proof.Machine
end

