-- ==== Sys2Proof/Machine/Sched.lean ====
section
/-! DEFINITION. TSCH (05_link_controller.md, R129) and the partner scheduler: rendezvous, downlinks, pages and resync
(06_partners_and_sleep.md, R145 to R155). -/

namespace Sys2Proof.Machine

/-! ### TSCH (R129) -/

/-- A link of the table: its words, and its place. -/
structure TschLink where
  slot : Nat
  offset : Nat
  advertising : Bool
  tx : Bool
  rx : Bool
  shared : Bool
  keep : Bool
  /-- the partner; none for a broadcast link. -/
  handle : Option Nat
  deriving DecidableEq, Repr

/-- The timeslot that is due, or the present grain. -/
def Chip.tschStart (c : Chip) : Nat := c.radio.tschNext.getD c.now

/-- A word of the link table as the timeslot that is due sees it: writes less than 2048 gr before its start do not count (R129). -/
def Chip.tschWord (c : Chip) (p : Nat) : Word :=
  match c.radio.tschOld.find? fun x => x.1 == p && decide (c.tschStart < x.2.2 + 2048) with
  | some (_, w, _) => w
  | none => c.stored p

/-- Entry `k` of the link table. -/
def Chip.tschLink (c : Chip) (k : Nat) : TschLink :=
  let p := c.regN Reg.LINK_TSCH_TABLE + 2 * k
  let n := wordPlain (c.tschWord p)
  { slot := bitsOf n 20 16, offset := bitsOf n 8 12, advertising := bitOf n 4, tx := bitOf n 3, rx := bitOf n 2, shared := bitOf n 1,
    keep := bitOf n 0, handle := c.partnerOf (c.tschWord (p + 1)) }

/-- The links of the slotframes that fall on an ASN, the lower slotframe first. -/
def Chip.tschLinks (c : Chip) (asn : Nat) : List TschLink :=
  (List.range 8).flatMap fun i =>
    let size := c.f (Fld.LINK_TSCH_SF_SIZE i)
    let first := c.f (Fld.LINK_TSCH_SF_FIRST i)
    if size = 0 then []
    else ((List.range (c.f (Fld.LINK_TSCH_SF_LAST i) + 1 - first)).map fun k => c.tschLink (first + k)).filter fun l =>
      l.slot == asn % size

/-- Whether some slotframe holds a dedicated TX link to a partner. -/
def Chip.tschDedicated (c : Chip) (h : Nat) : Bool :=
  (List.range 8).any fun i =>
    c.f (Fld.LINK_TSCH_SF_SIZE i) != 0 &&
      (List.range (c.f (Fld.LINK_TSCH_SF_LAST i) + 1 - c.f (Fld.LINK_TSCH_SF_FIRST i))).any fun k =>
        let l := c.tschLink (c.f (Fld.LINK_TSCH_SF_FIRST i) + k)
        l.tx && ! l.shared && l.handle == some h

/-- Whether a link serves a request (R125). -/
def Chip.tschServes (c : Chip) (l : TschLink) (j : TxJob) : Bool :=
  j.kind == 3 && j.phase == .queued && j.plan.isNone && l.tx &&
    (match j.handle with
      | some h => (! l.shared && l.handle == some h) ||
          (l.shared && ! c.tschDedicated h && (l.handle == some h || l.handle.isNone))
      | none => l.shared || l.handle.isNone)

/-- The first request a link serves. -/
def Chip.tschRequest (c : Chip) (l : TschLink) : Option TxJob := c.radio.jobs.find? fun j => c.tschServes l j

/-- HOP[(ASN + CHANNEL_OFFSET) mod HOP_LEN]. -/
def Chip.tschFreq (c : Chip) (asn offset : Nat) : Nat :=
  wordPlain (c.stored (c.regN Reg.LINK_TSCH_HOP_BASE + (asn + offset) % max 1 (c.regN Reg.LINK_TSCH_HOP_LEN)))

/-- The link a timeslot serves: a TX link with something to send before an RX link, and the lower slotframe among those of one
sort (R129). DEDUCED: log entry 185. -/
def Chip.tschPick (c : Chip) (asn : Nat) : Option TschLink :=
  let ls := c.tschLinks asn
  match ls.find? fun l => (c.tschRequest l).isSome || (l.advertising && c.b Fld.LINK_TSCH_CTRL_EB_ENABLE) with
  | some l => some l
  | none => ls.find? fun l => l.rx

/-- The lane TSCH uses: the lowest scheduler lane that is not OFF and whose chain holds the channel. -/
def Chip.tschLane (c : Chip) (freq : Nat) : Option Nat :=
  (List.range 64).find? fun n =>
    let centre := c.regN (Reg.RF_CHAIN_FREQ_NOW (c.placeChain n))
    c.schedLane n && c.laneState n != laneOff && c.laneState n != laneQuiesced && (c.laneSt n).quiesce.isNone && (c.laneSt n).hold.isNone && centre != 0 &&
      withinSpan freq (planBandwidth (c.regN (Reg.LANE_PHY n))) centre
        (usableHalf (c.b (Fld.RF_CHAIN_CTRL_SETTING (c.placeChain n))))

/-- The ASN advances as a timeslot starts after another (R129). -/
def asnNext (c : Chip) : Chip :=
  let a := (c.asn + 1) % 2 ^ 40
  (c.setRegN Reg.LINK_TSCH_ASN_LO (a % 2 ^ 36)).setRegN Reg.LINK_TSCH_ASN_HI (a / 2 ^ 36)

/-- A timeslot starts: its ASN is the next one, but for the first since RUN was set. -/
def tschAdvance (c : Chip) : Chip :=
  (if c.radio.tschIn then asnNext c else c).onRadio fun x => { x with tschIn := true }

/-- The Channel Hopping sub-IE of the active sequence: its identifier, channel page, number of channels, PHY configuration, its
length, its channels by place in the dwell plan, and the current hop. DEDUCED: log entry 118. -/
def Chip.hoppingIe (c : Chip) : List Nat :=
  let n := c.regN Reg.LINK_TSCH_HOP_LEN
  let xs := (List.range n).flatMap fun k => leOctets 2
    ((c.channelOf (wordPlain (c.stored (c.regN Reg.LINK_TSCH_HOP_BASE + k)))).getD 0)
  [Config.hopSequence.1 % 256, Config.hopSequence.2.1 % 256] ++ leOctets 2 (c.f Fld.LINK_DWELL_WINDOW_CHANNELS_M1 + 1)
    ++ leOctets 4 Config.hopSequence.2.2 ++ leOctets 2 n ++ xs ++ leOctets 2 (c.asn % max 1 n)

/-- An MLME payload IE with the TSCH Synchronization and Channel Hopping sub-IEs (R117, R129). -/
def Chip.beaconIes (c : Chip) : List Nat :=
  let sync := leOctets 2 (6 + 256 * 0x1A) ++ leOctets 5 c.asn ++ [c.f Fld.LINK_TSCH_CTRL_JOIN_METRIC]
  let hopping := leOctets 2 (c.hoppingIe.length % 2048 + 2048 * 9 + 32768) ++ c.hoppingIe
  leOctets 2 ((sync ++ hopping).length % 2048 + 2048 + 32768) ++ sync ++ hopping

/-- A beacon template with the IEs inserted after its header, with the terminations that this needs: a Header Termination 2 gives way
to Header Termination 1 (R117). DEDUCED: log entry 118. -/
def Chip.beaconOctets (c : Chip) (o : List Nat) (h : Mhr) : List Nat × Nat :=
  if h.payloadIes then (o.take h.hdrLen ++ c.beaconIes ++ o.drop h.hdrLen, h.hdrLen)
  else
    let fcf := octetsLe o 0 2
    let bare := h.ies.foldl (fun n e => n + 2 + e.2.length) h.fixedLen
    let hd := leOctets 2 (putBits fcf 9 1 1) ++ (o.take (min bare h.hdrLen)).drop 2 ++ leOctets 2 (128 * 0x7E)
    (hd ++ c.beaconIes ++ (if o.drop h.hdrLen = [] then [] else leOctets 2 (2048 * 15 + 32768)) ++ o.drop h.hdrLen, hd.length)

/-- An enhanced beacon is made from the request block at LINK_TSCH_EB and waits for its commit grain (R129). -/
def beaconMake (first freq : Nat) (c : Chip) : Chip :=
  if c.linkOsc then beaconSkip c
  else
    let p := c.regN Reg.LINK_TSCH_EB
    let (ws, c1) := readWords p 8 c
    let w := fun i => ws.getD i .absent
    let len := bitsOf (w 0).nat 0 11
    let secure := bitOf (w 0).nat 31
    if (w 0).tag != .bits || len == 0 || (w 4).tag != .bits || ! txMode (w 4).nat || ! c1.bufferOk (w 5) len [1] then beaconSkip c1
    else
      match readFrame (w 5).nat len c1, c1.txPartner (w 1) with
      | (.ok o, c2), some partner =>
        match parseMhrAs (! secure) o with
        | none => beaconSkip c2
        | some h0 =>
          let o1 := (c2.beaconOctets o h0).1
          match parseMhrAs (! secure) o1 with
          | none => beaconSkip c2
          | some h =>
            if secure && (! c2.txSecurityOk h partner || c2.regN Reg.LINK_TX_FRAME_COUNTER == 2 ^ 32 - 1) then beaconSkip c2
            else
              let j := { blankJob 512 p with
                kind := 16, freq := freq, phy := (w 4).nat, seq := h.seq, handle := partner
                powerDb := bitsOf (w 0).nat 26 4, fcs2 := bitOf (w 0).nat 25, plan := some first, dead := true }
              let (j1, c3) := if secure then secureJob j h o1 (partner.getD 0) c2 else ({ j with octets := withFcs j.fcs2 o1 }, c2)
              let c4 := dropJob 512 c3
              c4.onRadio fun x => { x with jobs := x.jobs ++ [j1] }
      | (_, c2), _ => beaconSkip c2

/-- Stop listening in the timeslot that has ended, for a frame or for an acknowledgement. -/
def tschStopRx (c : Chip) : Chip :=
  let c1 := match c.radio.tschAck with
    | some n => (laneListen n false c).onRadio fun x => { x with tschAck := none }
    | none => c
  match c1.radio.tschRx with
  | some (n, _, _, _, _) => (laneListen n false c1).onRadio fun x => { x with tschRx := none }
  | none => c1

/-- A TX link serves a request (R129): a shared link waits out its backoff. No CCA is made by TS_CCA_OFFSET and TS_CCA, and
LINK_ACK_WAIT alone bounds the wait for the acknowledgement. DEDUCED: log entry 213. -/
def tschSend (l : TschLink) (j : TxJob) (start asn : Nat) (c : Chip) : Chip :=
  let key := j.handle.getD 4096
  let b := Store.get 0 c.radio.tschBackoff key
  if l.shared && b != 0 then c.onRadio fun x => { x with tschBackoff := Store.put 0 x.tschBackoff key (b - 1) }
  else
    let f := c.tschFreq asn l.offset
    let c1 := putJob { j with freq := f, plan := some (start + c.regN (Reg.LINK_TS 2)), shared := l.shared, keep := l.keep, asn := some asn } c
    match j.ar, c1.tschLane f with
    | true, some n => (laneSchedule n f j.phy (c.now + 1) true c1).onRadio fun x => { x with tschAck := some n }
    | _, _ => c1

/-- TSCH_TIMESLOT (R129): a timeslot starts and its link is served; the next one is due a timeslot later. -/
def tschTimeslot (c : Chip) : Chip :=
  match c.radio.tschNext with
  | none => c
  | some start =>
    if c.now < start || ! c.isOn .link || c.f Fld.LINK_CTRL_SCHED_MODE != 1 || ! c.b Fld.LINK_TSCH_CTRL_RUN then c
    else
      let len := max 1 (c.regN (Reg.LINK_TS 11))
      let c0 := tschStopRx (tschAdvance c)
      let asn := c0.asn
      let c1 := match (if c0.entering then none else c0.tschPick asn) with
        | none => c0
        | some l =>
          let f := c0.tschFreq asn l.offset
          match c0.tschRequest l with
          | some j => tschSend l j start asn c0
          | none =>
            if l.advertising && c0.b Fld.LINK_TSCH_CTRL_EB_ENABLE then beaconMake (start + c0.regN (Reg.LINK_TS 2)) f c0
            else
              match c0.tschLane f with
              | some n =>
                let phy := c0.regN (Reg.LANE_PHY n)
                (laneSchedule n f phy (max (c0.now + 1) (start + c0.regN (Reg.LINK_TS 3) - 32)) true c0).onRadio fun x => { x with
                  tschRx := some (n, asn, start + c0.regN (Reg.LINK_TS 2) + headGrains phy, l.keep,
                    start + c0.regN (Reg.LINK_TS 3) + c0.regN (Reg.LINK_TS 6)) }
              | none => c0
      c1.onRadio fun x => { x with tschNext := some (start + len) }

/-- The scheduler lanes are driven, or let go (R79). -/
def tschDrive (v : Bool) (c : Chip) : Chip :=
  (List.range 64).foldl (fun c n => if c.schedLane n then c.setB (Fld.LANE_STATUS_SCHEDULED n) v else c) c

/-- RUN is set in LINK_TSCH_CTRL: timeslots start at the next grain. -/
def tschRunSet (c : Chip) : Chip :=
  let c1 := (c.setB Fld.LINK_TSCH_CTRL_RUN true).onRadio fun x => { x with
    tschNext := some (c.now + 1), tschIn := false }
  (tschDrive true c1).setB Fld.LINK_STATUS_TSCH_SYNCED (c1.b Fld.LINK_TSCH_CTRL_COORD)

/-- TSCH_RUN_CLEAR (R125, R134): TSCH_SYNCED keeps what COORD says, and every waiting KIND 3 request completes REFUSED with STATE_REFUSED. -/
def tschRunClear (c : Chip) : Chip :=
  if ! c.isOn .link then c.regReject
  else if ! c.b Fld.LINK_TSCH_CTRL_RUN then c
  else
    let c1 := tschDrive false (tschStopRx (c.setB Fld.LINK_TSCH_CTRL_RUN false))
    let c2 := (c1.onRadio fun x => { x with tschNext := none, tschIn := false }).setB Fld.LINK_STATUS_TSCH_SYNCED (c.b Fld.LINK_TSCH_CTRL_COORD)
    finishWhere (fun j => j.kind == 3 && j.phase == .queued) txStateRefused c2

/-- Partner-schedule mode stops: windows that have not opened are given up, and a page not yet on air is not sent (R142).
DEDUCED: log entry 183. -/
def pschedStop (c : Chip) : Chip :=
  let c1 := dropWindows (fun _ => true) c
  (c1.radio.carriers.filter fun k => k.kind == .page && ! k.onAir).foldl (fun c k =>
    refreshPage ((withdraw k.id c).onRadio fun x => { x with page := none })) c1

/-- PSCHED_RUN_CLEAR (R142). -/
def pschedRunClear (c : Chip) : Chip :=
  if ! c.isOn .link then c.regReject
  else if ! c.b Fld.LINK_PSCHED_CTRL_RUN then c
  else
    finishWhere (fun j => j.kind == 3 && j.phase == .queued && c.f Fld.LINK_CTRL_SCHED_MODE == 2) txStateRefused
      (pschedStop (c.setB Fld.LINK_PSCHED_CTRL_RUN false))

/-! ### Rendezvous windows (R146, R147) -/

/-- The next rendezvous of a ROLE 0 record to be dealt with: its place. -/
def Chip.rdvPlace (c : Chip) (i : Nat) (r : Sched) : Nat :=
  let last := Store.get 0 c.radio.lastRdv i
  let k0 := if last = 0 then 0 else r.place last
  let p := max 1 (r.period * 2048)
  let k1 := max k0 ((c.now - r.sync) / p)
  if r.at_ k1 + c.halfWindow r k1 ≤ c.now then k1 + 1 else k1

/-- The grain at which a rendezvous' lane must switch (R147). -/
def Chip.rdvSwitch (c : Chip) (r : Sched) (k : Nat) : Nat := r.at_ k - c.halfWindow r k - 32

/-- The rendezvous due for reservation: switch grain, priority, handle, place. -/
def Chip.rdvDue (c : Chip) : List (Nat × Nat × Nat × Nat) :=
  (List.range c.partners).filterMap fun i =>
    let r := c.sched i
    let e := c.entry i
    if r.active && r.role == 0 && r.period != 0 && e.valid && ! e.lostSync then
      let k := c.rdvPlace i r
      if c.rdvSwitch r k ≤ c.now + 2048 then some (c.rdvSwitch r k, e.priority, i, k) else none
    else none

/-- Insert in order of switch grain, priority and handle. -/
def insertDue (x : Nat × Nat × Nat × Nat) : List (Nat × Nat × Nat × Nat) → List (Nat × Nat × Nat × Nat)
  | [] => [x]
  | y :: ys => if rankLt [x.1, x.2.1, x.2.2.1] [y.1, y.2.1, y.2.2.1] then x :: y :: ys else y :: insertDue x ys

/-- One rendezvous is reserved, skipped, or finds its partner lost (R146, R147, R150). -/
def reserveOne (i k : Nat) (c0 : Chip) : Chip :=
  let c := readPartner i c0
  let r := c.sched i
  let c1 := c.onRadio fun x => { x with lastRdv := Store.put 0 x.lastRdv i (r.number k + 1) }
  if c.regN Reg.LINK_PSCHED_MAX_WINDOW < r.widening k then loseSync i c1
  else
    let f := c.rdvFreq r (r.number k)
    match c1.pickLane r.phy f with
    | none => (c1.bump Fld.LINK_PSCHED_COUNTS_1_RDV_NO_LANE).raise .psched 3
    | some n => reserveLane {
        kind := 0, handle := i, n := r.number k, lane := n, at_ := r.at_ k, half := c.halfWindow r k, freq := f, closed := false,
        heard := false, until_ := r.at_ k + c.halfWindow r k } (max (c.now + 1) (c.rdvSwitch r k)) r.phy c1

/-- RENDEZVOUS_RESERVE (R147): every rendezvous due, in order of switch grain, priority class and handle; none while an
entry to sleep drains the radio (R341). -/
def rendezvousReserve (c0 : Chip) : Chip :=
  if ! c0.schedRuns || c0.entering then c0
  else
    let c := readAll (c0.regN Reg.LINK_PSCHED_BASE) c0
    (c.rdvDue.foldl (fun l x => insertDue x l) []).foldl (fun c x => reserveOne x.2.2.1 x.2.2.2 c) c

/-- Whether an acknowledgement that a window's lane was reserved for is on its way: the lane listens on until its verdict, which may ask
for more (R149). -/
def Chip.ackHeardFor (c : Chip) (w : RdvWindow) : Bool :=
  w.kind == 1 && c.radio.jobs.any fun j => j.phase == .awaiting && j.handle == some w.handle && c.ackComing j.freq j.phy j.due

/-- WINDOW_CLOSE (R146): at N + H, and at the end of a TSCH wait, the scheduler clears the lane's LISTEN. -/
def windowClose (c : Chip) : Chip :=
  let c1 := (c.radio.windows.filter fun w => ! w.closed && decide (w.at_ + w.half ≤ c.now)).foldl (fun c w =>
    let d := c.onRadio fun x => { x with windows := x.windows.map fun y => if y = w then { w with closed := true } else y }
    if c.now < w.until_ || c.ackHeardFor w then d else laneListen w.lane false d) c
  let c2 := match c1.radio.tschRx with
    | some (n, _, _, _, stop) => if stop ≤ c1.now then laneListen n false c1 else c1
    | none => c1
  releaseWindows c2

/-! ### Downlinks (R149) -/

/-- DOWNLINK_SEND (R149): the queued KIND 3 request goes out after an ACK with Frame Pending. -/
def downlinkSend (c : Chip) : Chip :=
  (c.radio.downlinks.filter fun d => decide (d.goAt ≤ c.now + 2112)).foldl (fun c d =>
    let c1 := c.onRadio fun x => { x with downlinks := x.downlinks.filter fun y => y != d }
    if ! c1.schedRuns || c1.entering then c1
    else
      match c1.radio.jobs.find? fun j => j.kind == 3 && j.handle == some d.handle && j.phase == .queued with
      | some j =>
        let c2 := commitJob j d.goAt d.freq (c1.sched d.handle).phy none c1
        match c2.radio.windows.find? fun w => w.handle == d.handle with
        | some w => laneListen w.lane true (c2.onRadio fun x => { x with windows := x.windows.map fun y =>
            if y = w then { w with until_ := max w.until_ d.limit } else y })
        | none => c2
      | none => c1) c

/-! ### Pages (R154 to R156) -/

/-- PAGE_START (R154, R155): the first partner of the queue is paged. -/
def pageStart (c : Chip) : Chip :=
  match c.radio.pages with
  | [] => c
  | (i, _) :: _ =>
    if ! c.schedRuns || c.radio.page.isSome || decide (c.now < c.radio.pageNext) || c.entering then c
    else
      let r := c.sched i
      let (id, c1) := freshId c
      let ramp := c.now + 2048
      let k : Carrier := {
        id := id, kind := .page, commit := c.now, ramp := ramp, first := ramp + 64, last := ramp + 3221353,
        freq := 860000000 + 50000 * r.step, phy := 0, powerDb := 0, lane := 64, priority := (c.entry i).priority, ticket := 512,
        handle := some i, onAir := false, cut := false
        octets := (leOctets 6 (wakePattern (c.regN Reg.LINK_WUR_NET) r.wakeId)).reverse
        wave := pageWave (wakePattern (c.regN Reg.LINK_WUR_NET) r.wakeId), heard := none }
      let c2 := refreshPage (c1.onRadio fun x => { x with page := some { handle := i, carrier := id, waitUntil := none, answered := false } })
      contestNow lostCarrier (commitCarrier k c2)

/-- RESYNC_WAIT_EXPIRY (R154): the wait has passed without a request, so the attempt fails, but where partner-schedule mode has stopped
(R142). -/
def resyncWaitExpiry (c : Chip) : Chip :=
  match c.radio.page with
  | some g =>
    match g.waitUntil with
    | some t =>
      if t ≤ c.now then
        let c1 := refreshPage (c.onRadio fun x => { x with page := none })
        releaseWindows (if c.schedRuns then pageFailed g.handle c1 else c1)
      else c
    | none => c
  | none => c

/-! ### The grant (R151 to R153) -/

/-- The grant's octets (R151, R153): a secured data frame, version 2, AR 1, with the request's security level, key identifier mode and
key index, this chip's PAN ID, and extended addresses where there are such. DESIGN CHOICE: log entry 154. -/
def Chip.grantOctets (c : Chip) (r : Resync) (dsn m mark fc : Nat) : List Nat :=
  let s := c.sched r.handle
  let e := c.entry r.handle
  let dm := if e.ext = 0 then 2 else 3
  let own := c.f Fld.LINK_PAN_SHORT_SHORT_ADDR
  let sm := if own = 0xFFFE then 3 else 2
  let comp := ! (dm == 3 && sm == 3)
  let ie : PschedIe := {
    type := 3, authority := ! c.linkOsc, n := (m + 1) % 2 ^ 32, period := s.period, seed := s.seed, dwell := s.dwell,
    time := (c.rtcLong + c.now % 2048 + (mark - c.now)) % 2 ^ 64 }
  let fcf := 1 + 8 + 32 + 64 * b2n comp + 512 + 1024 * dm + 4096 * 2 + 16384 * sm
  let hd := leOctets 2 fcf ++ [dsn % 256] ++ leOctets 2 (c.f Fld.LINK_PAN_SHORT_PAN_ID) ++
    (if dm = 3 then leOctets 8 e.ext else leOctets 2 e.short) ++ (if sm = 3 then leOctets 8 c.ownExt else leOctets 2 own) ++
    [r.level + 8 * r.kidMode] ++ leOctets 4 fc ++ (if r.kidMode = 1 then [r.keyIndex % 256] else []) ++
    buildPsched (c.regN Reg.LINK_PSCHED_OUI) ie
  withFcs false (sealFrame e.keyOctets (ccmNonce c.ownExt fc r.level) r.level hd [])

/-- The scheduler provides the lane on which the grant's acknowledgement is awaited: one that already listens there for this
partner, or one reserved for it (R128, R153). DESIGN CHOICE: log entry 154. -/
def grantLane (r : Resync) (stop : Nat) (c : Chip) : Chip :=
  match c.radio.windows.find? fun w => w.handle == r.handle && w.freq == r.freq with
  | some w => laneListen w.lane true (c.onRadio fun x => { x with windows := x.windows.map fun y =>
      if y = w then { w with until_ := max w.until_ stop } else y })
  | none =>
    match c.pickLane r.phy r.freq with
    | some n => reserveLane {
        kind := 1, handle := r.handle, n := 0, lane := n, at_ := r.goAt, half := stop - r.goAt, freq := r.freq, closed := false,
        heard := false, until_ := stop } (c.now + 1) r.phy c
    | none => c

/-- One grant is built and committed, or its exchange ends where it cannot be (R153). -/
def grantOne (r : Resync) (c : Chip) : Chip :=
  let fc := c.regN Reg.LINK_TX_FRAME_COUNTER
  if ! c.schedRuns || c.entering || fc == 2 ^ 32 - 1 then dropResync r.handle c
  else
    let mark := r.goAt + headGrains r.phy
    let s := c.sched r.handle
    let m := s.number (s.seek mark)
    let (dsn, c1) := takeFree 256 c
    let (id, c2) := freshId c1
    let octets := c2.grantOctets r dsn m mark fc
    let k := { c2.frameCarrier id .grant c.now r.goAt r.freq r.phy false octets with
      handle := some r.handle, priority := (c.entry r.handle).priority }
    let c3 := putResync { r with carrier := some id, m := m, mark := mark, seq := dsn }
      (c2.setRegN Reg.LINK_TX_FRAME_COUNTER (fc + 1))
    contestNow lostCarrier (commitCarrier k (grantLane r (k.last - 64 + c.regN Reg.LINK_ACK_WAIT) c3))

/-- RESYNC_GRANT (R153): every grant whose commit grain has come. DESIGN CHOICE: log entry 154. -/
def resyncGrant (c : Chip) : Chip :=
  (c.radio.resyncs.filter fun r => r.carrier.isNone && decide (r.goAt ≤ c.now + 2112)).foldl (fun c r => grantOne r c) c

/-! ### Meanings -/

/-- TSCH_TIMESLOT (R129). -/
def execTschTimeslot (s : State) : Host.Outcome State Fault Refusal := onChip tschTimeslot s
/-- TSCH_RUN_CLEAR (R125). -/
def execTschRunClear (s : State) : Host.Outcome State Fault Refusal := onChip tschRunClear s
/-- PSCHED_RUN_CLEAR (R142). -/
def execPschedRunClear (s : State) : Host.Outcome State Fault Refusal := onChip pschedRunClear s
/-- RENDEZVOUS_RESERVE (R147). -/
def execRendezvousReserve (s : State) : Host.Outcome State Fault Refusal := onChip rendezvousReserve s
/-- WINDOW_CLOSE (R146). -/
def execWindowClose (s : State) : Host.Outcome State Fault Refusal := onChip windowClose s
/-- DOWNLINK_SEND (R149). -/
def execDownlinkSend (s : State) : Host.Outcome State Fault Refusal := onChip downlinkSend s
/-- PAGE_START (R154). -/
def execPageStart (s : State) : Host.Outcome State Fault Refusal := onChip pageStart s
/-- RESYNC_WAIT_EXPIRY (R154). -/
def execResyncWaitExpiry (s : State) : Host.Outcome State Fault Refusal := onChip resyncWaitExpiry s
/-- RESYNC_GRANT (R153). -/
def execResyncGrant (s : State) : Host.Outcome State Fault Refusal := onChip resyncGrant s

end Sys2Proof.Machine
end

