-- ==== Sys2Proof/Machine/Rf.lean ====
section
/-! DEFINITION. The radio front end's commands: retunes, gain, transmit settings, pre-distortion and calibration
(03_radio_front_end.md). -/

namespace Sys2Proof.Machine

/-! ### Retunes (R48 to R50, R428) -/

/-- Chain B takes what chain A takes (R48). -/
def Chip.follows (c : Chip) : Bool := c.b (Fld.RF_CHAIN_CTRL_FOLLOW 1)

/-- Whether a synthesizer's registers are chain B's while it follows. -/
def Chip.followed (c : Chip) (x : Nat) : Bool := x == 1 && c.follows

/-- RETUNE_AT_WRITE (R49): a retune is armed; one in progress ends first. -/
def retuneAtWrite (x : Nat) (g : Payload) (c : Chip) : Chip :=
  if ! c.isOn (synthIsland x) || c.followed x then c.regReject
  else
    let s := c.synth x
    let due := match s.lockAt with
      | some e => max (c.dueAt g) e
      | none => c.dueAt g
    let c1 := if x = 2 then c.onRadio fun r => { r with autoFor := none } else c
    refreshChain x (setSynth x { s with armed := some due } (c1.setRegN (synthAt x) g.toNat))

/-- A synthesizer starts to settle at a target for some grains. -/
def beginRetune (x target dur : Nat) (c : Chip) : Chip :=
  let s := c.synth x
  let c1 := refreshChain x (setSynth x { s with armed := none, target := target, lockAt := some (c.now + dur) } c)
  if x = 2 then (cutCarriers c1).onRadio fun r => { r with autoFor := none }
  else lanesCombine (chainStops x 1 (if x = 1 then c1.onRadio fun r => { r with followDue := false } else c1))

/-- RETUNE_START (R49, R50): at its grain the retune starts, or is discarded while ENABLE is 0. Chain B follows. -/
def retuneStart (x : Nat) (c : Chip) : Chip :=
  match (c.synth x).armed with
  | none => c
  | some g =>
    if c.now < g || (c.synth x).lockAt.isSome || ! c.isOn (synthIsland x) then c
    else if ! c.b (synthEnable x) then refreshChain x (setSynth x { (c.synth x) with armed := none } c)
    else
      let f := c.regN (synthFreq x)
      let c1 := beginRetune x f (settling (c.regN (synthNow x)) f) c
      if x = 0 && c.follows && c1.isOn .rfRxB && c1.b (synthEnable 1) then
        beginRetune 1 f (settling (c.regN (synthNow 1)) f) c1
      else c1

/-- A change that may alter the active set, its state or its level: the registers follow, and a fall in the allowance is
decided by a contest (R62, R120). -/
def activeChanged (before : Nat) (c : Chip) : Chip :=
  let c1 := refreshTx (staleSets c)
  if c1.allowed < before then contestNow lostAllowance c1 else c1

/-! ### The temperature bin (R64) -/

/-- The three temperature edges. -/
def Chip.tempEdges (c : Chip) : List Int :=
  [c.fI Fld.RF_DPD_TEMP_EDGES_EDGE0, c.fI Fld.RF_DPD_TEMP_EDGES_EDGE1, c.fI Fld.RF_DPD_TEMP_EDGES_EDGE2]

/-- TEMP_BIN after a measurement (R64): 2 °C of hysteresis downward; the first measurement has none. Edges count as
they stand at a measurement. DEDUCED: log entry 103. -/
def Chip.binAfter (c : Chip) (t : Int) : Nat :=
  let up := (c.tempEdges.filter fun e => decide (e ≤ t)).length
  let down := (c.tempEdges.filter fun e => decide (e - 2 < t)).length
  match c.radio.tempBin with
  | none => up
  | some b => if b < up then up else if down < b then down else b

/-- DIE_TEMP_MEASURE (R64, R65). -/
def dieTempMeasure (t : Int) (c : Chip) : Chip :=
  if ! c.isOn .rfTx then c
  else
    let bin := c.binAfter t
    activeChanged c.allowed ((c.setF Fld.RF_DPD_STATUS_DIE_TEMP (unsigned 8 t)).onRadio fun r => { r with tempBin := some bin })

/-- The first measurement, where none has been made since the RF-TX island came out of reset: what it finds is free (R64).
DESIGN CHOICE: log entry 190. -/
def firstTemp (c : Chip) : Chip :=
  if c.radio.tempBin.isSome then c
  else
    let (t, c1) := takeFree 256 c
    dieTempMeasure (signed 8 t) c1

/-- RETUNE_LOCKED (R49, R50): LOCKED returns, FREQ_NOW takes the centre, and lanes recompute their placement. -/
def retuneLocked (x : Nat) (c : Chip) : Chip :=
  match (c.synth x).lockAt with
  | none => c
  | some g =>
    if c.now < g || ! c.isOn (synthIsland x) then c
    else
      let s := c.synth x
      let c1 := refreshChain x ((setSynth x { s with lockAt := none } c).setRegN (synthNow x) s.target)
      let c2 := c1.raise .rf (4 + x)
      if x = 2 then activeChanged c.allowed c2 else lanesCombine (lanesAwaited x (chainLocked x c2))

/-- The centre a chain locks at when ENABLE rises: its own FREQ, or chain A's while it follows (R48, R49). -/
def Chip.lockTarget (c : Chip) (x : Nat) : Nat :=
  if c.followed x then
    match (c.synth 0).lockAt with
    | some _ => (c.synth 0).target
    | none => if c.regN (synthNow 0) = 0 then c.regN (synthFreq 0) else c.regN (synthNow 0)
  else c.regN (synthFreq x)

/-- Chain A takes a centre at an ENABLE transition: chain B, where it follows and stands elsewhere, retunes to it at the same
grain (R48). DEDUCED: log entry 97. -/
def followChain (c : Chip) : Chip :=
  let f := (c.synth 0).target
  let there := match (c.synth 1).lockAt with
    | some _ => (c.synth 1).target
    | none => c.regN (synthNow 1)
  if c.follows && c.isOn .rfRxB && c.b (synthEnable 1) && there != f then
    beginRetune 1 f (settling (c.regN (synthNow 1)) f) c
  else c

/-- CHAIN_ENABLE_WRITE (R49, R50, R428). The transmit chain's ENABLE is forced to 0 in DEAD (R73). -/
def chainEnableWrite (x : Nat) (v : Bool) (c : Chip) : Chip :=
  if ! c.isOn (synthIsland x) || (v && c.stepCode 2 == 2) || (x == 2 && v && c.dev == devDead) then c.regReject
  else if c.b (synthEnable x) == v then c
  else if v then
    let c0 := if x = 2 then firstTemp c else c
    let c1 := refreshChain x (setSynth x { (c0.synth x) with target := c0.lockTarget x, lockAt := some (c0.now + 5369) }
      (c0.setB (synthEnable x) true))
    if x = 0 then followChain c1 else c1
  else
    let c1 := refreshChain x (setSynth x { (c.synth x) with lockAt := none } (c.setB (synthEnable x) false))
    if x = 2 then cutCarriers (c1.onRadio fun r => { r with autoFor := none }) else lanesCombine (chainStops x 1 c1)

/-- FOLLOW_WRITE (R48). DEDUCED: log entry 97. -/
def followWrite (v : Bool) (c : Chip) : Chip :=
  if ! c.isOn .rfRxB then c.regReject
  else if c.follows == v then c
  else
    let c1 := c.setB (Fld.RF_CHAIN_CTRL_FOLLOW 1) v
    if v then
      let f := match (c.synth 0).lockAt with
        | some _ => (c.synth 0).target
        | none => c.regN (synthNow 0)
      let c2 := refreshChain 1 (setSynth 1 { (c.synth 1) with armed := none } c1)
      lanesCombine (c2.onRadio fun r => { r with followDue := c2.b (synthEnable 1) && f != 0 })
    else lanesCombine (c1.onRadio fun r => { r with followDue := false })

/-- The retune that FOLLOW asked for starts at the next tick, or as a retune of chain B in progress ends (R48, R49). DEDUCED: log
entry 97. -/
def followTick (c : Chip) : Chip :=
  if ! c.radio.followDue || (c.synth 1).lockAt.isSome then c
  else
    let f := match (c.synth 0).lockAt with
      | some _ => (c.synth 0).target
      | none => c.regN (synthNow 0)
    let c1 := c.onRadio fun r => { r with followDue := false }
    if c.follows && c.isOn .rfRxB && c.b (synthEnable 1) then beginRetune 1 f (settling (c.regN (synthNow 1)) f) c1 else c1

/-! ### Gain (R51 to R56) -/

/-- The gain index of a chain. -/
def Chip.gainIndex (c : Chip) (x : Nat) : Nat := c.f (Fld.RF_CHAIN_STATUS_GAIN_INDEX x)

/-- Frames on a chain whose last symbol has not ended are marked with samples at full scale, or with the noise-figure rise of a step
down (R56). -/
def markFrames (x : Nat) (clipped : Bool) (rise : Option Nat) (c : Chip) : Chip :=
  c.onRadio fun r => { r with frames := r.frames.map fun f =>
    if f.endAt.isNone ∧ (f.lastSymbol.all fun g => decide (c.now < g)) ∧ (f.chain = x ∨ f.chain = 2) then
      { f with clipped := f.clipped || clipped, stepped := match rise, f.stepped with
        | some d, some e => some (max d e)
        | some d, none => some d
        | none, e => e }
    else f }

/-- One analog step to an index: counted, and the window restarts (R51, R53). -/
def gainStep (x to_ : Nat) (c : Chip) : Chip :=
  let from_ := c.gainIndex x
  if from_ = to_ then c
  else
    let c1 := (c.setF (Fld.RF_CHAIN_STATUS_GAIN_INDEX x) to_).bump (Fld.RF_CHAIN_COUNTS_STEPS x)
    let c2 := setSynth x { (c1.synth x) with lastStep := some c.now } c1
    if from_ < to_ then markFrames x false (some (noiseRise to_ - noiseRise 0)) c2 else c2

/-- Whether a chain's gain control may act: powered, enabled and not blanked (R57). -/
def Chip.gainLive (c : Chip) (x : Nat) : Bool := c.isOn (synthIsland x) && c.b (synthEnable x) && ! c.blanked x

/-- Whether `n` grains have passed since the last step. -/
def Chip.sinceStep (c : Chip) (x n : Nat) : Bool :=
  match (c.synth x).lastStep with
  | some g => decide (g + n ≤ c.now)
  | none => true

/-- GAIN_STEP_DOWN (R53): by one, or in an emergency by three with OVERLOAD; the 8-sample window (14 gr) must have filled
since the last step. DEDUCED: log entry 102. -/
def gainStepDown (x : Nat) (emergency : Bool) (c : Chip) : Chip :=
  if ! c.gainLive x then c
  else
    let c1 := if emergency then markFrames x true none ((c.setB (Fld.RF_CHAIN_STATUS_OVERLOAD x) true).raise .rf x) else c
    if c.b (Fld.RF_CHAIN_CTRL_AGC_MANUAL x) || ! c.sinceStep x 14 then c1
    else gainStep x (min 7 (c.gainIndex x + if emergency then 3 else 1)) c1

/-- GAIN_STEP_UP (R53, R54): the 8-sample window must have filled since the last step here too. -/
def gainStepUp (x : Nat) (c : Chip) : Chip :=
  if c.gainLive x && ! c.b (Fld.RF_CHAIN_CTRL_AGC_MANUAL x) && c.gainIndex x != 0 &&
      c.sinceStep x (max 14 (max (c.f Fld.RF_AGC_CONFIG_MIN_INTERVAL) (c.f Fld.RF_AGC_CONFIG_UP_HOLD))) then
    gainStep x (c.gainIndex x - 1) c
  else c

/-- At a tick boundary the index held under AGC_MANUAL is applied as one step; a blanked chain holds the index it has (R55, R57). -/
def applyManual (c : Chip) (x : Nat) : Chip :=
  if c.b (Fld.RF_CHAIN_CTRL_AGC_MANUAL x) && c.isOn (synthIsland x) && ! c.blanked x then
    gainStep x (c.f (Fld.RF_CHAIN_CTRL_MANUAL_INDEX x)) c
  else c

/-- MANUAL_INDEX_WRITE (R55): the index is applied at the next tick boundary (chainsGrain). -/
def manualIndexWrite (x i : Nat) (c : Chip) : Chip :=
  if ! c.isOn (synthIsland x) then c.regReject else c.setF (Fld.RF_CHAIN_CTRL_MANUAL_INDEX x) i

/-! ### Transmit settings (R61, R69) -/

/-- All coefficient sets become UNTRAINED (R69). -/
def untrainAll (c : Chip) : Chip := (List.range 32).foldl (fun c s => setDpdState s dpdUntrained c) c

/-- TX_CONFIG_APPLY (R61): at a grain with no carrier on air or committed the settings written take effect. A TOTAL_QDBM above 80
stays in force when PA_SELECT returns to the on-chip PA (R69). DESIGN CHOICE: log entry 188. -/
def txConfigApply (c : Chip) : Chip :=
  if c.anyCarrier || ! c.isOn .rfTx then c
  else
    let pa := c.f Fld.RF_TX_CTRL_PA_SELECT
    let c1 := if pa = c.radio.effPa then c else untrainAll c
    activeChanged 0 (c1.onRadio fun r => { r with
      effMax := c.f Fld.RF_TX_CTRL_CARRIER_MAX, effPa := pa, effTotal := c.fI Fld.RF_TX_POWER_TOTAL_QDBM })

/-- EXT_PA_EN (R69): high from LEAD_GR before a ramp up to the end of the ramp down, with an external PA. -/
def Chip.extPaOn (c : Chip) : Bool :=
  c.radio.effPa == 1 && c.radio.carriers.any fun k =>
    decide (k.ramp ≤ c.now + c.f Fld.RF_EXT_PA_LEAD_GR) && decide (c.now < k.last)

/-! ### The pre-distorter (R63) -/

/-- The two components of a SAMPLE word, each signed Q1.17. -/
def samplePair (w : Word) : Int × Int := (signed 18 (w.field 18 18), signed 18 (w.field 0 18))

/-- Product and sum of complex numbers. -/
def cxMul (a b : Int × Int) : Int × Int := (a.1 * b.1 - a.2 * b.2, a.1 * b.2 + a.2 * b.1)
@[inherit_doc cxMul] def cxAdd (a b : Int × Int) : Int × Int := (a.1 + b.1, a.2 + b.2)
@[inherit_doc cxMul] def cxScale (n : Int) (a : Int × Int) : Int × Int := (n * a.1, n * a.2)

/-- c(k,m) of a set, scaled by 2^E_k, in units of 2^-17. -/
def Chip.dpdCoefficient (c : Chip) (s k m : Nat) : Int × Int :=
  cxScale (2 ^ (c.dpdWord (24 * s)).field (11 + 2 * (k - 1)) 2) (samplePair (c.dpdWord (24 * s + 2 + 4 * (k - 1) + m)))

/-- c(k,m)·x·|x|^(k − 1) in units of 2^-102; how a magnitude is rounded is a value the spec does not state. DESIGN CHOICE: log
entry 191. -/
def Chip.dpdTerm (c : Chip) (s k m : Nat) (x : Int × Int) : Int × Int :=
  cxScale ((Config.dpdMagnitude x.1 x.2 : Int) ^ (k - 1) * 2 ^ (17 * (5 - k))) (cxMul (c.dpdCoefficient s k m) x)

/-- y(n) under a set, from x(n), x(n − 1), x(n − 2) and x(n − 3), in units of 2^-102 (R63). DESIGN CHOICE: log entry 191. -/
def Chip.predistort (c : Chip) (s : Nat) (xs : List (Int × Int)) : Int × Int :=
  ((List.range 5).flatMap fun k => (List.range 4).map fun m => c.dpdTerm s (k + 1) m (xs.getD m (0, 0))).foldl cxAdd (0, 0)

/-- What the converter is given: y(n) under the active set, or x(n) itself while DPD is bypassed (R62, R63). -/
def Chip.dacSample (c : Chip) (xs : List (Int × Int)) : Int × Int :=
  if c.b Fld.RF_DPD_CTRL_ENABLE then c.predistort c.activeSet xs else cxScale (2 ^ 85) (xs.getD 0 (0, 0))

/-! ### Pre-distortion (R65 to R68, R70) -/

/-- DPD_CAPTURE (R65, R66): what the feedback receiver found: third-order intermodulation below the carrier, in
quarter-dB, a peak-to-average ratio of at least 3 dB, and no analog or coefficient change on the way. DESIGN CHOICE: log
entry 186. -/
def dpdCapture (imd : Nat) (papr steady : Bool) (c : Chip) : Chip :=
  if ! c.isOn .rfTx || ! c.onAir then c
  else
    let s := c.activeSet
    let c1 := setDpd (24 * s + 22) (.int imd) c
    let c2 := if imd < c.f Fld.RF_DPD_IMD_LIMIT_LIMIT_QDB && c1.dpdState s == dpdCurrent then
        (setDpdState s dpdStale c1).raise .rf 7 else c1
    let full := c.radio.carriers.all fun k => ! k.onAir || k.powerDb == 0
    let free := ! c.b Fld.RF_DPD_STATUS_SOLVING && ! c.b Fld.RF_DPD_STATUS_SWAP_PENDING
    let c3 := if papr && steady && full && free && c.b Fld.RF_DPD_CTRL_LIVE_TRAIN then
        let n := c.f Fld.RF_DPD_STATUS_CAPTURES + 1
        let d := setDpd (24 * s + 23) (.int ((c2.dpdWord (24 * s + 23)).toInt + 1)) c2
        if c.f Fld.RF_DPD_CTRL_TRAIN_CAPTURES ≤ n then
          ((d.setF Fld.RF_DPD_STATUS_CAPTURES 0).setB Fld.RF_DPD_STATUS_SOLVING true).onRadio fun r =>
            { r with solveSet := some s }
        else d.setF Fld.RF_DPD_STATUS_CAPTURES n
      else c2
    activeChanged c.allowed c3

/-- DPD_SOLVE_DONE (R66): the candidate is accepted for a set that is not CURRENT, or where it is at least 1 dB better. -/
def dpdSolveDone (better : Bool) (c : Chip) : Chip :=
  match c.radio.solveSet with
  | none => c
  | some s =>
    let c1 := (c.setB Fld.RF_DPD_STATUS_SOLVING false).onRadio fun r => { r with solveSet := none }
    if c.dpdState s != dpdCurrent || better then
      (c1.setB Fld.RF_DPD_STATUS_SWAP_PENDING true).onRadio fun r =>
        { r with swapSet := some s, solveTemp := c.fI Fld.RF_DPD_STATUS_DIE_TEMP }
    else c1

/-- A set is trained: what the solve finds is free, its state CURRENT (R67, R68). DESIGN CHOICE: log entry 98. -/
def trainSet (s : Nat) (temp : Int) (c : Chip) : Chip :=
  let (e, c1) := takeFree 1024 c
  let h := ((c1.dpdWord (24 * s)).withField 34 2 dpdCurrent).withField 21 8 (unsigned 8 temp)
  let c2 := setDpd (24 * s + 1) (.grain c.now) (setDpd (24 * s) (h.withField 11 10 e) c1)
  let c3 := (List.range 20).foldl (fun d k =>
    let (v, d1) := takeFree (2 ^ 36) d
    setDpd (24 * s + 2 + k) (.mk' .sample v) d1) c2
  setDpd (24 * s + 23) (.int 0) c3

/-- Whether the present grain is far enough from every ramp start, past or committed (R67). -/
def Chip.swapClear (c : Chip) : Bool :=
  let g := c.regN Reg.RF_DPD_UPDATE_GUARD
  (c.radio.ramps ++ c.radio.carriers.map fun k => k.ramp).all fun r => decide (g < ((r : Int) - c.now).natAbs)

/-- DPD_SWAP (R67). -/
def dpdSwap (c : Chip) : Chip :=
  match c.radio.swapSet with
  | none => c
  | some s =>
    if ! c.swapClear || ! c.isOn .rfTx then c
    else
      let c1 := (c.setB Fld.RF_DPD_STATUS_SWAP_PENDING false).onRadio fun r => { r with swapSet := none }
      activeChanged 0 ((trainSet s c.radio.solveTemp c1).raise .rf 8)

/-- A result in RF_CAL_STATUS. -/
def calResult (st : Status) (c : Chip) : Chip := c.setF Fld.RF_CAL_STATUS_RESULT st.code

/-- TRAIN_NOW (R68): a burst through an external PA ramps in the grain of the write, so that EXT_PA_EN rises with it and not LEAD_GR
before. DEDUCED: log entry 99. -/
def trainNow (c : Chip) : Chip :=
  if ! c.isOn .rfTx then c.regReject
  else
    let s := c.f Fld.RF_DPD_CTRL_TRAIN_SET
    let ext := c.radio.effPa == 1
    let dur := if ext then 26844 else 134218
    let f := c.regN Reg.RF_TX_FREQ_NOW
    let meets := c.radio.carriers.any fun k => decide (k.ramp < c.now + dur)
    if c.b Fld.RF_CAL_STATUS_BUSY || meets || ! c.txFree c.now (c.now + dur) then calResult .busy c
    else if ext && ! c.budgetAdmits f c.now dur then calResult .dwellExceeded c
    else if some (s % 4) != c.radio.tempBin then calResult .badArg c
    else
      let c1 := (c.setB Fld.RF_CAL_STATUS_BUSY true).onRadio fun r => { r with burst := some (s, c.now + dur) }
      if ext then
        let (id, c2) := freshId c1
        let k : Carrier := {
          id := id, kind := .training, commit := c.now, ramp := c.now, first := c.now, last := c.now + dur, freq := f, phy := 0,
          powerDb := 0, lane := 64, priority := 3, ticket := 512, handle := none, onAir := false, cut := false, octets := [],
          wave := [], heard := none }
        rampStart k (chargeCarrier id f c.now dur (c2.onRadio fun r => { r with carriers := r.carriers ++ [k] }))
      else c1

/-- TRAINING_BURST_DONE (R68): the set is CURRENT whatever cut the burst short. DESIGN CHOICE: log entry 187. -/
def trainingBurstDone (c : Chip) : Chip :=
  match c.radio.burst with
  | none => c
  | some (s, e) =>
    if c.now < e || ! c.isOn .rfTx then c
    else
      let c1 := trainSet s (c.fI Fld.RF_DPD_STATUS_DIE_TEMP) (c.onRadio fun r => { r with burst := none })
      activeChanged 0 ((calResult .ok (c1.setB Fld.RF_CAL_STATUS_BUSY false)).raise .rf 9)

/-- Whether a word may be written at place `k` of the coefficient store (R70): a header whose bits 10:0 are not zero is rejected whole.
DEDUCED: log entry 207. -/
def dpdLegal (k : Nat) (w : Word) : Bool :=
  match k % 24 with
  | 0 => w.tag == .bits && w.field 34 2 != 3 && w.field 31 3 == k / 24 / 4 && w.field 29 2 == k / 24 % 4 && w.field 0 11 == 0
  | 1 => w.tag == .grain
  | 22 => w.tag == .int
  | 23 => w.tag == .int
  | _ => w.tag == .sample

/-- DPD_STORE_WRITE (R70): any set but the active one. -/
def dpdStoreWrite (k : Nat) (w : Word) (c : Chip) : Chip :=
  if ! c.isOn .rfTx || k / 24 == c.activeSet || ! dpdLegal k w then c.regReject
  else refreshTx (staleSets (setDpd k w c))

/-! ### Calibration (R71, R72) -/

/-- The grains a calibration takes. -/
def calDuration (t : Nat) : Nat := match t with
  | 0 => 67109 | 1 => 67109 | 2 => 33554 | 3 => 33554 | _ => 2 * 67109 + 2 * 33554

/-- A receive chain is calibrated until a grain: its samples are zero (R50, R72). -/
def calChain (x until_ : Nat) (c : Chip) : Chip :=
  chainStops x 1 (setSynth x { (c.synth x) with calUntil := some until_ } c)

/-- START_CAL (R72); a chain that is off or not enabled is calibrated too. DEDUCED: log entry 101. -/
def startCal (t : Nat) (c : Chip) : Chip :=
  if ! c.isOn .rfTx || c.b Fld.RF_CAL_STATUS_BUSY then c.regReject
  else
    let c0 := c.setF Fld.RF_CAL_CTRL_TARGET t
    let e := c.now + calDuration t
    if 2 ≤ t ∧ c.radio.carriers.any fun k => decide (k.ramp < e) then calResult .busy c0
    else
      let c1 := (c0.setB Fld.RF_CAL_STATUS_BUSY true).onRadio fun r => { r with cal := some (t, e) }
      match t with
      | 0 => calChain 0 e c1
      | 1 => calChain 1 e c1
      | 4 => calChain 0 (c.now + 67109) c1
      | _ => c1

/-- What a grain does in the chains: manual gain (R55), a retune of chain B that is due (R48), and in a calibration of all targets
chain B takes its turn (R72). -/
def chainsGrain (c : Chip) : Chip :=
  let c1 := followTick ([0, 1].foldl applyManual c)
  match c1.radio.cal with
  | some (4, e) => if c1.now + 67109 + 2 * 33554 = e then calChain 1 (c1.now + 67109) c1 else c1
  | _ => c1

/-- A calibration that has run is in force; what it found is free. -/
def calTaken (c : Chip) : Chip :=
  let (xs, c1) := freeOctets 32 c
  c1.onRadio fun r => { r with calNow := xs }

/-- Place of a line of the calibration area. -/
def calLine (k : Nat) : Nat := 0xC00000 + 32 * (k % 2048)

/-- The newest of the records that SAVE has stored whose line reads without an error (R71). -/
def Chip.calSaved (c : Chip) : Option (List Nat) :=
  ((List.range (min c.mems.calRecords 2048)).find? fun i => ! c.mramBad (calLine (c.mems.calRecords - 1 - i)) 32).map fun i =>
    c.mramBytes (calLine (c.mems.calRecords - 1 - i)) 32

/-- The newest copy of the calibration record whose check value is valid (R71, R354): of those SAVE has stored, or else of the lines
it has not reached. DESIGN CHOICE: log entry 52. -/
def Chip.calStored (c : Chip) : Option (List Nat) :=
  match c.calSaved with
  | some xs => some xs
  | none => (((List.range 2048).drop c.mems.calRecords).foldl (fun best k =>
    let xs := c.mramBytes (calLine k) 32
    if c.mramBad (calLine k) 32 then best
    else match Config.calSeq xs, best with
      | some n, some (m, _) => if m ≤ n then some (n, xs) else best
      | some n, none => some (n, xs)
      | none, _ => best) (none : Option (Nat × List Nat))).map fun x => x.2

/-- The calibration area is read to find the newest copy in it (R71, R180). -/
abbrev calRead (c : Chip) : Chip := mramLines 0xC00000 65536 c

/-- The stored record comes into force, where a copy of it is good (R71, R343). DEDUCED: log entry 192. -/
def calLoad (c : Chip) : Option Chip :=
  c.calStored.map fun xs => (c.onRadio fun r => { r with calNow := xs }).setB Fld.RF_CAL_STATUS_FROM_STORED true

/-- CAL_DONE (R72): a commanded calibration ends with RESULT OK. DESIGN CHOICE: log entry 208. -/
def calDone (c : Chip) : Chip :=
  match c.radio.cal with
  | none => c
  | some (_, e) =>
    if c.now < e || ! c.isOn .rfTx then c
    else
      let c1 := c.onRadio fun r => { r with cal := none }
      let c2 := [0, 1].foldl (fun d x => setSynth x { (d.synth x) with calUntil := none } d) c1
      (calResult .ok ((calTaken c2).setB Fld.RF_CAL_STATUS_BUSY false)).raise .rf 9

/-- SAVE (R71): the present calibration becomes a new record of the calibration area of MRAM, in the line after the last that was
saved. DESIGN CHOICE: log entry 52. -/
def calSave (c : Chip) : Chip :=
  if ! c.isOn .rfTx then c.regReject
  else if ! c.isOn .mram then (calResult .stateRefused c).raise .rf 9
  else
    let n := c.mems.calRecords
    let c1 := if c.radio.calNow = [] then calTaken c else c
    (calResult .ok ((writeMramBytes (calLine n) c1.radio.calNow c1).onMems fun m => { m with calRecords := n + 1 })).raise .rf 9

/-! ### Meanings -/

/-- RETUNE_AT_WRITE (R49): synthesizer 0 chain A, 1 chain B, 2 transmitter. -/
def execRetuneAtWrite (x : Fin 3) (g : Payload) (s : State) : Host.Outcome State Fault Refusal := onChip (retuneAtWrite x.val g) s
/-- RETUNE_START (R49). -/
def execRetuneStart (x : Fin 3) (s : State) : Host.Outcome State Fault Refusal := onChip (retuneStart x.val) s
/-- CHAIN_ENABLE_WRITE (R49). -/
def execChainEnableWrite (x : Fin 3) (v : Bool) (s : State) : Host.Outcome State Fault Refusal :=
  onChip (chainEnableWrite x.val v) s
/-- FOLLOW_WRITE (R48). -/
def execFollowWrite (v : Bool) (s : State) : Host.Outcome State Fault Refusal := onChip (followWrite v) s
/-- GAIN_STEP_DOWN (R53). -/
def execGainStepDown (x : Fin 2) (emergency : Bool) (s : State) : Host.Outcome State Fault Refusal :=
  onChip (gainStepDown x.val emergency) s
/-- GAIN_STEP_UP (R54). -/
def execGainStepUp (x : Fin 2) (s : State) : Host.Outcome State Fault Refusal := onChip (gainStepUp x.val) s
/-- MANUAL_INDEX_WRITE (R55). -/
def execManualIndexWrite (x : Fin 2) (i : Fin 8) (s : State) : Host.Outcome State Fault Refusal :=
  onChip (manualIndexWrite x.val i.val) s
/-- TX_CONFIG_APPLY (R61). -/
def execTxConfigApply (s : State) : Host.Outcome State Fault Refusal := onChip txConfigApply s
/-- DIE_TEMP_MEASURE (R64). -/
def execDieTempMeasure (t : BitVec 8) (s : State) : Host.Outcome State Fault Refusal := onChip (dieTempMeasure t.toInt) s
/-- DPD_CAPTURE (R66). -/
def execDpdCapture (imd : Nat) (papr steady : Bool) (s : State) : Host.Outcome State Fault Refusal :=
  onChip (dpdCapture imd papr steady) s
/-- DPD_SOLVE_DONE (R66). -/
def execDpdSolveDone (better : Bool) (s : State) : Host.Outcome State Fault Refusal := onChip (dpdSolveDone better) s
/-- DPD_SWAP (R67). -/
def execDpdSwap (s : State) : Host.Outcome State Fault Refusal := onChip dpdSwap s
/-- TRAIN_NOW (R68). -/
def execTrainNow (s : State) : Host.Outcome State Fault Refusal := onChip trainNow s
/-- TRAINING_BURST_DONE (R68). -/
def execTrainingBurstDone (s : State) : Host.Outcome State Fault Refusal := onChip trainingBurstDone s
/-- DPD_STORE_WRITE (R70). -/
def execDpdStoreWrite (k : Fin 768) (w : Word) (s : State) : Host.Outcome State Fault Refusal := onChip (dpdStoreWrite k.val w) s
/-- START_CAL (R72). -/
def execStartCal (t : Fin 5) (s : State) : Host.Outcome State Fault Refusal := onChip (startCal t.val) s
/-- CAL_DONE (R72). -/
def execCalDone (s : State) : Host.Outcome State Fault Refusal := onChip calDone s
/-- SAVE (R71). -/
def execSave (s : State) : Host.Outcome State Fault Refusal := onChip calSave s

end Sys2Proof.Machine
end

