-- ==== Sys2Proof/Machine/Imem.lean ====
section
/-! DEFINITION. The instruction memory of the core: its slots, their error code and their scrubber (R236). -/

namespace Sys2Proof.Machine

/-- A slot that reads as poisoned: its 40 bits are gone (R236). -/
abbrev imPoison : Nat := 2 ^ 40

/-- The place of word `a` of space 7 in a physical bank: words below 0x4_0000 lie in the active bank, the others in the
shadow (R236). -/
def Chip.imPlace (c : Chip) (a : Nat) : Nat :=
  if a < 0x40000 then c.core.bank * 0x40000 + a else (1 - c.core.bank) * 0x40000 + (a - 0x40000)

/-- A stored slot. -/
def Chip.imStored (c : Chip) (k : Nat) : Nat := Store.get 0 c.core.im k

/-- Store a pair of slots: it is encoded afresh. -/
def imStorePair (k x y : Nat) (c : Chip) : Chip :=
  { c with
    core := { c.core with im := Store.put 0 (Store.put 0 c.core.im (evenOf k) x) (evenOf k + 1) y }
    mems := { c.mems with flaws := Store.put [] c.mems.flaws (ptrOf 7 (evenOf k)) [] } }

/-- A slot's 40 bits with five bytes of an error pattern left in them. -/
def imDisturbed (n : Nat) (e : List Nat) : Nat := if n = imPoison then n else Nat.xor n (leNat e % 2 ^ 40)

/-- Count one more in the upper or lower half of IM_ECC_COUNTS (R235, R236). -/
def imCount (lo : Nat) (c : Chip) : Chip :=
  let w := c.port 0x869
  if w.field lo 18 + 1 < 2 ^ 18 then c.setPort 0x869 (w.withField lo 18 (w.field lo 18 + 1)) else c

/-- Read and decode the codeword of a slot (R164, R236). -/
def imReadPair (k : Nat) (c : Chip) : Nat × Nat × Chip :=
  let e := evenOf k
  match rsDecode (c.flaw (ptrOf 7 e)) with
  | .clean x => (imDisturbed (c.imStored e) (x.take 5), imDisturbed (c.imStored (e + 1)) ((x.drop 5).take 5), c)
  | .corrected x => (imDisturbed (c.imStored e) (x.take 5), imDisturbed (c.imStored (e + 1)) ((x.drop 5).take 5), imCount 18 c)
  | .uncorrectable => (imPoison, imPoison, imCount 0 (imStorePair e imPoison imPoison c))

/-- Read one slot. -/
def imRead (k : Nat) (c : Chip) : Nat × Chip :=
  let (x, y, c1) := imReadPair k c
  (if k % 2 = 0 then x else y, c1)

/-- Decode and repair every flawed codeword of instruction memory that a test of its place names. -/
def imScrubWhere (sel : Nat → Bool) (c : Chip) : Chip :=
  (c.mems.flaws.filter fun e => spaceOf e.1 == 7 && sel (addrOf e.1)).foldl (fun c e =>
    let (x, y, c1) := imReadPair (addrOf e.1) c
    imStorePair (addrOf e.1) x y c1) c

/-- The scrubber reads one codeword of each instruction bank every 4096 gr and repairs it (R236). -/
def imScrub (c : Chip) : Chip :=
  let pos := Store.get 0 c.mems.scrubPos 7
  if c.isOn .core && c.awake && decide (Store.get 0 c.mems.scrubDue 7 ≤ c.now) then
    let c1 := imScrubWhere (fun a => a % 0x40000 == 2 * pos) c
    c1.onMems fun m => { m with
      scrubDue := Store.put 0 m.scrubDue 7 (c.now + 4096)
      scrubPos := Store.put 0 m.scrubPos 7 (if pos + 1 < 98304 then pos + 1 else 0) }
  else c

/-- One read of a scrubber (R168), after the faults that have reached the memory since (R163). -/
def scrubOnce (m : ScrubMemory) (upsets : List Upset) (c : Chip) : Chip :=
  let c1 := addFlaws (upsets.map upsetFlaw) c
  if m = .instruction then imScrub c1 else scrubRead (scrubSpace m) c1

/-- SCRUB_READ (R168). -/
def execScrubRead (m : ScrubMemory) (upsets : List Upset) (s : State) : Host.Outcome State Fault Refusal :=
  onChip (scrubOnce m upsets) s

end Sys2Proof.Machine
end

