-- ==== Sys2Proof/Machine/Recipe.lean ====
section
/-! DEFINITION. The fuses as the checks read them, signed images and recipes, and the eighteen checks of the recipe loader
(08_security.md, R188 to R195; 11_recipe.md, R258 to R269). -/

namespace Sys2Proof.Machine

/-! ### Fuses (R188) -/

/-- An OTP row. -/
def otpRow (o : Store Nat) (r : Nat) : Nat := Store.get 0 o r

/-- Burned bits among the low `w` of a row. -/
def otpCount (o : Store Nat) (r w : Nat) : Nat := countBits w (otpRow o r)

/-- The lifecycle: 0 TEST, 1 SECURED, 2 RETURNED (R188, R190). -/
def lifecycle (o : Store Nat) : Nat := otpCount o 2 2

/-- DEAD, TX_INHIBIT, REVOKED and PROGRAMMED masks, ID_RETIRED, the recovery count and the anti-rollback counter (R188). -/
def deadFused (o : Store Nat) : Bool := (otpRow o 3).testBit 0
def txInhibit (o : Store Nat) : Bool := (otpRow o 3).testBit 1
def revokedMask (o : Store Nat) : Nat := bitsOf (otpRow o 3) 2 4
def programmedMask (o : Store Nat) : Nat := bitsOf (otpRow o 3) 6 4
def idRetired (o : Store Nat) : Bool := (otpRow o 3).testBit 10
def recoveryCount (o : Store Nat) : Nat := otpCount o 4 16
def rollbackCount (o : Store Nat) : Nat := ((List.range 8).map fun k => otpCount o (0x60 + k) 32).sum
def serial (o : Store Nat) : Nat := otpRow o 0 % 2 ^ 32 + otpRow o 1 % 2 ^ 32 * 2 ^ 32

/-- Octets of a run of OTP rows, each low octet first. -/
def otpOctets (o : Store Nat) (r n : Nat) : List Nat :=
  (List.range (4 * n)).map fun i => otpRow o (r + i / 4) / 256 ^ (i % 4) % 256

/-- Whether a key slot is programmed and not revoked (R189, R195 step 2). -/
def slotUsable (o : Store Nat) (s : Nat) : Bool :=
  decide (s < 4) && (programmedMask o).testBit s && ! (revokedMask o).testBit s

/-- Whether a public key is the one a slot holds the hash of (R195 step 3). -/
def slotHolds (o : Store Nat) (s : Nat) (pub : List Nat) : Bool := Config.sha3_512 pub == otpOctets o (0x20 + 16 * s) 16

/-- The anti-rollback floor: the OTP counter, or BURN_TARGET while a burn is pending if that is higher (R361). -/
def Chip.rollbackFloor (c : Chip) (o : Store Nat) : Nat :=
  match c.upd.record with
  | some r => if r.burnPending then max (rollbackCount o) r.burnTarget else rollbackCount o
  | none => rollbackCount o

/-! ### Reading octets -/

/-- A little-endian number of `n` octets at a place. -/
def leAt (x : List Nat) (a n : Nat) : Nat := leNat ((x.drop a).take n)

/-- Whether `n` octets at a place are zero. -/
def zeroAt (x : List Nat) (a n : Nat) : Bool := ((x.drop a).take n).all (· == 0)

/-- ASCII octets of a short name. -/
def ascii (s : String) : List Nat := s.toList.map Char.toNat

/-- The section table at 0xA60 (R194, R258). -/
def sectionTable (x : List Nat) : List SectionRec :=
  (List.range (leAt x 0x00A 2)).map fun k =>
    let b := 0xA60 + 80 * k
    { type := leAt x b 2, offset := leAt x (b + 4) 4, length := leAt x (b + 8) 4, digest := (x.drop (b + 16)).take 64 }

/-- Octets of a section. -/
def sectionBody (x : List Nat) (s : SectionRec) : List Nat := (x.drop s.offset).take s.length

/-- The first section of a type, if any. -/
def findSection (ss : List SectionRec) (t : Nat) : Option SectionRec := ss.find? fun s => s.type == t

/-- Octets of the section of a type. -/
def sectionOf (x : List Nat) (t : Nat) : List Nat :=
  match findSection (sectionTable x) t with
  | some s => sectionBody x s
  | none => []

/-- Whether sections lie in table order at multiples of 64, not overlapping, from a place and before another; the index of
the first that does not. -/
def sectionsPlaced (limit : Nat) : Nat → Nat → List SectionRec → Option Nat
  | _, _, [] => none
  | k, from_, s :: ss =>
    if s.offset % 64 = 0 && decide (from_ ≤ s.offset) && decide (s.offset + s.length ≤ limit) then
      sectionsPlaced limit (k + 1) (s.offset + s.length) ss
    else some k

/-- The zero fields of a section table row. -/
def rowZero (x : List Nat) (k : Nat) : Bool := zeroAt x (0xA60 + 80 * k + 2) 2 && zeroAt x (0xA60 + 80 * k + 12) 4

/-- Whether each section's digest is that of its octets; the index of the first that is not. -/
def digestsBad (x : List Nat) (ss : List SectionRec) : Option Nat :=
  (List.range ss.length).find? fun k =>
    match ss[k]? with
    | some s => s.digest != Config.sha3_512 (sectionBody x s)
    | none => false

/-- Octets 0 to the end of the section table, which the signature covers, and the signature. -/
def signedPart (x : List Nat) : List Nat := x.take (0xA60 + 80 * leAt x 0x00A 2)
def signaturePart (x : List Nat) : List Nat := (x.drop (leAt x 0x00C 4 - 4627)).take 4627
def publicPart (x : List Nat) : List Nat := (x.drop 0x040).take 2592

/-! ### The sections of a recipe (R260 to R267) -/

/-- LANE_PLAN (R266). -/
def parsePlan (x : List Nat) : LanePlan :=
  { settingA := leAt x 0 1, settingB := leAt x 1 1, centreA := leAt x 4 4, centreB := leAt x 8 4, schedLanes := leAt x 12 8
    lanes := (List.range (leAt x 2 1)).map fun k =>
      let b := 24 + 12 * k
      { lane := leAt x b 1, chain := leAt x (b + 1) 1, families := leAt x (b + 2) 1, enable := bitOf (leAt x (b + 3) 1) 0,
        listen := bitOf (leAt x (b + 3) 1) 1, freq := leAt x (b + 4) 4, phy := leAt x (b + 8) 2 } }

/-- The cells and routes of EVENT_WIRING (R267). -/
def parseCells (x : List Nat) : List CellRec :=
  (List.range 48).map fun k =>
    let b := 4 + 12 * k
    { ins := (List.range 4).map fun i => leAt x (b + 2 * i) 2, lut := leAt x (b + 8) 2, enable := bitOf (leAt x (b + 10) 1) 0,
      ff := bitOf (leAt x (b + 10) 1) 1, filter := leAt x (b + 11) 1 }

def parseRoutes (x : List Nat) : List Route :=
  (List.range (leAt x 0 2)).map fun k => { task := leAt x (580 + 4 * k) 2, sel := leAt x (582 + 4 * k) 2 }

/-- The windows of SOCKET_MAP (R264). -/
def parseWindows (x : List Nat) : List Window :=
  (List.range 28).map fun k =>
    { type := leAt x (4 + 4 * k) 1, writeBuses := leAt x (5 + 4 * k) 1 % 16, readBuses := leAt x (5 + 4 * k) 1 / 16 }

/-- The entries of PIN_MUX (R265). -/
def parsePads (x : List Nat) : List PadEntry :=
  (List.range (leAt x 0 2)).map fun k =>
    { pad := leAt x (4 + 4 * k) 2, fn := leAt x (6 + 4 * k) 1, held := leAt x (7 + 4 * k) 1 % 4,
      drive := leAt x (7 + 4 * k) 1 / 4 % 4 }

/-- A recipe, its checks apart. -/
def parseRecipe (x : List Nat) : Recipe :=
  let role := sectionOf x 1
  let socket := sectionOf x 3
  let wiring := sectionOf x 4
  let part := sectionOf x 5
  let quota := sectionOf x 6
  let isl := sectionOf x 8
  { role := leAt x 0x006 1, rollback := leAt x 0x008 2, minRevision := leAt x 0x02A 2, hostPath := leAt role 1 1,
    gangSize := leAt role 2 1, levels := leAt role 3 1, sleeps := leAt role 4 1, islands := isl.take 16,
    ddrRate := leAt isl 16 1, partners := leAt part 0 2, linkBanks := leAt part 2 2, userBanks := leAt part 4 2,
    endpointHome := leAt part 6 1, groups := leAt part 7 1,
    quotas := (List.range 8).map fun k => (leAt quota (4 * k) 2, leAt quota (4 * k + 2) 2),
    sysPorts := leAt socket 0 1, windows := parseWindows socket, paObs := bitOf (leAt (sectionOf x 7) 2 1) 0,
    pads := parsePads (sectionOf x 7), plan := parsePlan (sectionOf x 2), cells := parseCells wiring,
    routes := parseRoutes wiring, sections := sectionTable x }

/-- Sections but the annotations, whose types are 0x8000 on (R259). -/
def interpreted (ss : List SectionRec) : List SectionRec := ss.filter fun s => decide (s.type < 0x8000)

/-- Sections but the lane section (R271). -/
def Recipe.otherSections (r : Recipe) : List SectionRec := r.sections.filter fun s => s.type != 2

/-- The digest list (R258). -/
def Recipe.digestList (r : Recipe) : List Nat := (r.sections.map fun s => s.digest).flatten

/-- FEAT_RECIPE_ID (R240, R258): bits 35:0 of the digest of the digest list. -/
def Recipe.id (r : Recipe) : Nat := leNat ((Config.sha3_512 r.digestList).take 5) % 2 ^ 36

/-! ### The checks of the sections: each answers the offending number, or none -/

/-- The first index at which a test fails. -/
def firstBad {α : Type} (ok : Nat → α → Bool) : Nat → List α → Option Nat
  | _, [] => none
  | k, x :: xs => if ok k x then firstBad ok (k + 1) xs else some k

/-- A condition as a check with nothing to name. -/
def must (p : Bool) : Option Nat := if p then none else some 0

/-- Check 2: the exact length of each section, and each of types 1 to 8 once (R259). -/
def exactLength (x : List Nat) (s : SectionRec) : Bool :=
  let b := sectionBody x s
  match s.type with
  | 1 => s.length == 8
  | 2 => s.length == 24 + 12 * leAt b 2 1
  | 3 => s.length == 116
  | 4 => s.length == 580 + 4 * leAt b 0 2
  | 5 => s.length == 16
  | 6 => s.length == 32
  | 7 => s.length == 4 + 4 * leAt b 0 2
  | 8 => s.length == 20
  | t => decide (0x8000 ≤ t)

def sectionsWrong (x : List Nat) (ss : List SectionRec) : Option Nat :=
  match firstBad (fun k s => rowZero x k && exactLength x s && decide ((ss.filter fun t => t.type == s.type).length = 1 ∨ 0x8000 ≤ s.type)) 0 ss with
  | some k => some k
  | none =>
    match sectionsPlaced (leAt x 0x00C 4 - 4627) 0 (0xA60 + 80 * ss.length) ss with
    | some k => some k
    | none => must ((List.range 8).all fun t => (findSection ss (t + 1)).isSome)

/-- Check 10: ROLE (R260, R16). -/
def roleWrong (x : List Nat) (r : Recipe) : Option Nat :=
  let b := sectionOf x 1
  must (leAt b 0 1 == r.role && decide (r.hostPath < 4)
    && (if r.role = 3 then decide (2 ≤ r.gangSize) && decide (r.gangSize ≤ 64) else r.gangSize == 0)
    && bitOf r.levels 2 && decide (r.levels < 16)
    && Nat.lor r.sleeps (match r.role with
        | 0 => 15 | 1 => 7 | 2 => 3 | _ => 1) == (match r.role with
        | 0 => 15 | 1 => 7 | 2 => 3 | _ => 1)
    && zeroAt b 5 3
    && (match r.role with
        | 0 => r.hostPath == 0 | 1 => r.hostPath == 0 | 2 => r.hostPath != 0 | _ => r.hostPath == 1 || r.hostPath == 3))

/-- Whether the recipe turns an island on (R261). -/
def Recipe.hasIsland (r : Recipe) (i : Island) : Bool := r.islands.getD i.num 0 == 1

/-- Whether HOST_PATH names PCIe (R260). -/
def Recipe.pciePath (r : Recipe) : Bool := r.hostPath == 1 || r.hostPath == 3

/-- Whether an island is there at all: one that the recipe turns on, or the PCIe island for the quad SPI target alone, which ISLANDS
does not name (R16, R261, R381). -/
def Recipe.present (r : Recipe) (i : Island) : Bool := r.hasIsland i || (i == .pcie && r.hostPath == 2)

/-- Whether a chain is used (R266). -/
def LanePlan.uses (p : LanePlan) (x : Nat) : Bool := [1, 2].contains (if x = 0 then p.settingA else p.settingB)

/-- Check 11: ISLANDS (R261). -/
def islandsWrong (x : List Nat) (r : Recipe) : Option Nat :=
  let b := sectionOf x 8
  must (r.islands.all (fun v => decide (v < 2)) && decide (r.ddrRate < 4) && zeroAt b 17 3
    && [Island.aon, .rtc, .link, .core, .memD, .mram, .evf, .rfTx].all r.hasIsland
    && r.hasIsland .rfRxA == r.plan.uses 0 && r.hasIsland .rfRxB == r.plan.uses 1
    && r.hasIsland .lane == ! r.plan.lanes.isEmpty
    && (match r.role with
        | 0 => ! r.hasIsland .ddr | 1 => true | _ => r.hasIsland .ddr)
    && r.hasIsland .pcie == (r.hostPath == 1 || r.hostPath == 3)
    && r.hasIsland .chain == (r.role == 3)
    && (r.hasIsland .memT || (r.groups == 0 && decide (r.role < 2))))

/-- Whether a mask is one run of ones. -/
def contiguous (m : Nat) : Bool :=
  m == 0 || (List.range 16).any fun lo => (List.range 17).any fun n => decide (0 < n) && m == (2 ^ n - 1) * 2 ^ lo

/-- Check 12: MEMORY_PARTITION (R262). -/
def memoryWrong (x : List Nat) (r : Recipe) : Option Nat :=
  must (decide (r.partners ≤ 4096) && Nat.land r.linkBanks r.userBanks == 0 && Nat.lor r.linkBanks r.userBanks == 65535
    && contiguous r.linkBanks && decide (r.partners ≤ 2048 * countBits 16 r.linkBanks)
    && (r.linkBanks == 0) == (r.partners == 0) && decide (r.endpointHome ≤ 2) && decide (r.groups ≤ 8)
    && zeroAt (sectionOf x 5) 8 8 && (r.endpointHome != 1 || decide (1 ≤ r.groups))
    && (r.endpointHome != 2 || r.hasIsland .ddr) && (decide (r.role < 2) || r.endpointHome == 2))

/-- How many units of a type revision A1 holds (R220). -/
def unitCount (t : Nat) : Nat := match t with
  | 1 => 8 | 2 => 2 | 3 => 2 | 4 => 2 | 5 => 2 | _ => 0

/-- Check 13: SOCKET_MAP (R264, R220). -/
def socketWrong (x : List Nat) (r : Recipe) : Option Nat :=
  let b := sectionOf x 3
  if ! (decide (r.sysPorts < 8) && zeroAt b 1 3 && (decide (2 ≤ r.role) || bitOf r.sysPorts 1)) then some 0
  else firstBad (fun k (w : Window) =>
    zeroAt b (6 + 4 * k) 2 && decide (w.type ≤ 5)
      && (if w.type = 0 then w.writeBuses == 0 && w.readBuses == 0 else w.writeBuses != 0 && w.readBuses != 0)
      && (w.type == 0 || decide (((r.windows.take (k + 1)).filter fun v => v.type == w.type).length ≤ unitCount w.type))) 0 r.windows

/-- Check 14: TICKET_QUOTAS (R247, R263). -/
def quotasWrong (r : Recipe) : Option Nat :=
  match firstBad (fun k (q : Nat × Nat) =>
      decide (q.1 ≤ q.2) && decide (q.2 ≤ 512) && (k != 0 || decide (8 ≤ q.1)) && (decide (k < 5) || (q.1 == 0 && q.2 == 0))) 0 r.quotas with
  | some k => some k
  | none => must (decide ((r.quotas.map Prod.fst).sum ≤ 512))

/-- Whether a multiplexed pad offers a function (R411). DESIGN CHOICE: log entry 158. -/
def padOffers (pad fn : Nat) : Bool :=
  decide (pad < 40) && (match fn with
    | 0 => true
    | 1 => [0, 8, 16].contains pad | 2 => [1, 9, 17].contains pad
    | 3 => [2, 10].contains pad | 4 => [3, 11].contains pad
    | 5 => [4, 20].contains pad | 6 => [5, 21].contains pad
    | 7 => [6, 22].contains pad | 8 => [7, 23].contains pad
    | 9 => [12, 36].contains pad | 10 => [13, 37].contains pad | 11 => [14, 38].contains pad
    | f => decide (16 ≤ f) && decide (f < 24) && pad == f + 8)

/-- Check 15: PIN_MUX (R265). -/
def padsWrong (x : List Nat) (r : Recipe) : Option Nat :=
  let b := sectionOf x 7
  if ! (decide (leAt b 2 1 < 2) && zeroAt b 3 1) then some 0
  else firstBad (fun k (e : PadEntry) =>
    decide (leAt b (7 + 4 * k) 1 < 16) && padOffers e.pad e.fn
      && ! ((r.pads.take k).any fun d => d.pad == e.pad || (d.fn == e.fn && e.fn != 0))) 0 r.pads

/-- The chains a lane hears. -/
def hears (chain x : Nat) : Bool := chain == 2 || chain == x

/-- The centre a lane entry is placed by: chain A's for a diversity lane (R76 rule 4). -/
def LanePlan.centre (p : LanePlan) (chain : Nat) : Nat := if chain = 1 then p.centreB else p.centreA
def LanePlan.narrow (p : LanePlan) (chain : Nat) : Bool := (if chain = 1 then p.settingB else p.settingA) == 2

/-- Whether two lane entries break rule 6 of R76. -/
def entryClash (a b : LaneEntry) : Bool :=
  phyFamily a.phy == phyFamily b.phy && shareHear a.chain b.chain
    && overlaps a.freq (planBandwidth a.phy) b.freq (planBandwidth b.phy)
where
  /-- the lanes share a chain. -/
  shareHear (a b : Nat) : Bool := a == 2 || b == 2 || a == b

/-- Whether one entry obeys the plan's rules against the entries before it (R76, R266). -/
def entryGood (x : List Nat) (p : LanePlan) (k : Nat) (e : LaneEntry) : Bool :=
  let b := 24 + 12 * k
  decide (e.lane < 64) && (match p.lanes[k - 1]? with
      | some d => k == 0 || decide (d.lane < e.lane)
      | none => true)
    && decide (e.chain ≤ 2) && e.families != 0 && decide (e.families < 8) && decide (leAt x (b + 3) 1 < 4) && zeroAt x (b + 10) 2
    && (if e.chain = 2 then p.uses 0 && p.uses 1 && p.settingA == p.settingB else p.uses e.chain)
    && phyLegal e.families e.phy
    && withinSpan e.freq (planBandwidth e.phy) (p.centre e.chain) (usableHalf (p.narrow e.chain))
    && ! ((p.lanes.take k).any fun d => entryClash d e)

/-- Check 16: LANE_PLAN (R76, R266); the offending lane. -/
def planWrong (x : List Nat) (role : Nat) (p : LanePlan) : Option Nat :=
  let head := decide (p.settingA ≤ 2) && decide (p.settingB ≤ 2) && zeroAt x 3 1 && zeroAt x 20 4
    && (if p.uses 0 then decide (410000000 ≤ p.centreA) && decide (p.centreA ≤ 960000000) else p.centreA == 0)
    && (if p.uses 1 then decide (410000000 ≤ p.centreB) && decide (p.centreB ≤ 960000000) else p.centreB == 0)
    && (role != 0 || (p.settingA != 1 && p.settingB != 1))
  let fits (k : Nat) (e : LaneEntry) : Bool :=
    decide (k < (match role with
      | 0 => 2 | 1 => 32 | _ => 64))
      && [0, 1].all fun c => ! (p.narrow c && hears e.chain c) || decide (((p.lanes.take k).filter fun d => hears d.chain c).length < 2)
  if ! head then some 0
  else match firstBad (fun k e => fits k e && entryGood x p k e) 0 p.lanes with
    | some k => some ((p.lanes[k]?.map fun e => e.lane).getD 0)
    | none => (List.range 64).find? fun n => p.schedLanes.testBit n && ! (p.lanes.any fun e => e.lane == n)

/-- Source numbers that never fire (R277). -/
def sourceReserved (n : Nat) : Bool := (decide (0xDC ≤ n) && decide (n ≤ 0xDF)) || decide (0xFC ≤ n)

/-- Whether a selector is well formed (R267). -/
def selectorGood (s : Nat) : Bool :=
  match s / 2 ^ 14 with
  | 0 => decide (s % 2 ^ 14 < 256) && ! sourceReserved (s % 2 ^ 14)
  | 1 => decide (s % 2 ^ 14 < 48)
  | 2 => s % 2 ^ 14 == 0
  | _ => false

/-- Check 17: EVENT_WIRING (R267, R280); the offending cell or route. -/
def wiringWrong (x : List Nat) (r : Recipe) : Option Nat :=
  let b := sectionOf x 4
  if ! (decide (r.routes.length ≤ 512) && zeroAt b 2 2) then some 0
  else match firstBad (fun k (e : CellRec) => decide (leAt b (14 + 12 * k) 1 < 4) && e.ins.all selectorGood) 0 r.cells with
    | some k => some k
    | none => firstBad (fun k (e : Route) =>
        decide (e.task < 160) && selectorGood e.sel && (r.role == 3 || ! (decide (128 ≤ e.task) && decide (e.task < 144)))
          && ! ((r.routes.take k).any fun d => d == e)) 0 r.routes

/-- Whether a cell is combinational (R268). -/
def combCell (cells : List CellRec) (i : Nat) : Bool :=
  match cells[i]? with
  | some e => e.enable && ! e.ff && e.filter == 0
  | none => false

/-- Combinational cells that feed a cell directly (R268). -/
def combFeeds (cells : List CellRec) (i : Nat) : List Nat :=
  match cells[i]? with
  | some e => (e.ins.filter fun s => s / 2 ^ 14 == 1 && combCell cells (s % 2 ^ 14)).map fun s => s % 2 ^ 14
  | none => []

/-- Cells that feed a set of cells, followed a number of times. -/
def combReach (cells : List CellRec) : Nat → List Nat → List Nat
  | 0, xs => xs
  | k + 1, xs => combReach cells k (xs ++ (xs.flatMap (combFeeds cells)).eraseDups.filter fun y => ! xs.contains y)

/-- Check 18: a combinational cell that feeds itself (R268). -/
def loopWrong (cells : List CellRec) : Option Nat :=
  (List.range 48).find? fun i => combCell cells i && (combReach cells 48 (combFeeds cells i)).contains i

/-- A rejection: its status, check number and offending number (R269). -/
def rejection (st : Status) (check idx : Nat) : Word := .refusal st.code (idx % 2 ^ 16 + check * 2 ^ 16)

/-- The first of a list of checks that fails. -/
def firstFailure : List (Nat × Status × Option Nat) → Option Word
  | [] => none
  | (n, st, some i) :: _ => some (rejection st n i)
  | (_, _, none) :: cs => firstFailure cs

/-- Checks 1 to 18 on the octets of a recipe, its stated length apart (R269). -/
def Chip.recipeChecks (c : Chip) (o : Store Nat) (x : List Nat) : List (Nat × Status × Option Nat) :=
  let n := leAt x 0x00A 2
  let total := leAt x 0x00C 4
  let r := parseRecipe x
  let ss := sectionTable x
  let slot := leAt x 0x007 1
  [(1, .badArg, must (x.take 4 == ascii "ZTRC" && leAt x 4 2 == 1 && decide (r.role < 4) && decide (8 ≤ n) && decide (n ≤ 16)
      && decide (total ≤ 262144) && decide (0xA60 + 80 * n + 4627 ≤ total) && decide (total ≤ x.length)
      && leAt x 0x028 2 == 0x6400)),
    (2, .badArg, if zeroAt x 0x02C 20 && decide (r.rollback ≤ 256) then sectionsWrong x ss else some 0),
    (3, .authFail, must (slotUsable o slot)),
    (4, .authFail, must (slotHolds o slot (publicPart x))),
    (5, .authFail, must (leAt x 0x020 8 == 0 || leAt x 0x020 8 == serial o)),
    (6, .rollback, must (decide (c.rollbackFloor o ≤ r.rollback))),
    (7, .authFail, must (Config.mldsaVerify (publicPart x) (ascii "ZTRC") (signedPart x) (signaturePart x))),
    (8, .authFail, digestsBad x ss),
    (9, .badArg, must (decide (r.minRevision ≤ 0x00A1))),
    (10, .badArg, roleWrong x r),
    (11, .badArg, islandsWrong x r),
    (12, .badArg, memoryWrong x r),
    (13, .badArg, socketWrong x r),
    (14, .badArg, quotasWrong r),
    (15, .badArg, padsWrong x r),
    (16, .badArg, planWrong (sectionOf x 2) r.role r.plan),
    (17, .badArg, wiringWrong x r),
    (18, .badArg, loopWrong r.cells)]

/-- The loader's answer to a recipe (R269). -/
def Chip.checkRecipe (c : Chip) (o : Store Nat) (x : List Nat) : Except Word Recipe :=
  match firstFailure (c.recipeChecks o x) with
  | some w => .error w
  | none => .ok (parseRecipe x)

/-! ### Images (R194, R195) -/

/-- The first byte of an MRAM slot: 0 A, 1 B (R180). -/
def slotBase (s : Nat) : Nat := 0x600000 * s

/-- An image that verified: its recipe, its section table, its anti-rollback value and its signature. -/
structure Image where
  recipe : Recipe
  sections : List SectionRec
  rollback : Nat
  signature : List Nat
  deriving DecidableEq, Repr

/-- The rules of R194 on an image's header and section table. -/
def imageForm (x : List Nat) : Bool :=
  let n := leAt x 0x00A 2
  let total := leAt x 0x00C 4
  let ss := sectionTable x
  x.take 4 == ascii "ZTIM" && leAt x 4 2 == 1 && decide (leAt x 6 1 < 4) && zeroAt x 7 1 && decide (leAt x 8 2 ≤ 256)
    && decide (1 ≤ n) && decide (n ≤ 16) && decide (total ≤ 0x600000) && decide (0xA60 + 80 * n + 4627 ≤ total)
    && decide (total ≤ x.length) && zeroAt x 0x028 24
    && (List.range n).all (rowZero x)
    && ss.all (fun s => (decide (1 ≤ s.type) && decide (s.type ≤ 4)) || decide (0x100 ≤ s.type))
    && (ss.filter fun s => s.type == 1).length == 1 && (ss.filter fun s => s.type == 2).length == 1
    && (sectionsPlaced (total - 4627) 0 (0xA60 + 80 * n) ss).isNone

/-- Verify the image of a slot and its recipe (R195, R269): the refusal, or what it holds. -/
def Chip.verifyImage (c : Chip) (o : Store Nat) (s : Nat) : Except Word Image :=
  let base := slotBase s
  let total := min 0x600000 (c.mramLe (base + 12) 4)
  let x := c.mramBytes base total
  if c.mramBad base (max total 0x1000) then .error (refused .poisoned)
  else if ! imageForm x then .error (refused .badArg)
  else if ! (slotUsable o (leAt x 6 1) && slotHolds o (leAt x 6 1) (publicPart x)
      && (leAt x 0x020 8 == 0 || leAt x 0x020 8 == serial o)) then .error (refused .authFail)
  else if leAt x 8 2 < c.rollbackFloor o then .error (refused .rollback)
  else if ! Config.mldsaVerify (publicPart x) (ascii "ZTIM") (signedPart x) (signaturePart x)
      || (digestsBad x (sectionTable x)).isSome then .error (refused .authFail)
  else match c.checkRecipe o (sectionOf x 2) with
    | .error w => .error w
    | .ok r => .ok { recipe := r, sections := sectionTable x, rollback := leAt x 8 2, signature := signaturePart x }

/-- Whether the image of a slot passes the checks that come before its signature (R195). -/
def Chip.imageSigned (c : Chip) (o : Store Nat) (s : Nat) : Bool :=
  let total := min 0x600000 (c.mramLe (slotBase s + 12) 4)
  let x := c.mramBytes (slotBase s) total
  ! c.mramBad (slotBase s) (max total 0x1000) && imageForm x && slotUsable o (leAt x 6 1) && slotHolds o (leAt x 6 1) (publicPart x)
    && (leAt x 0x020 8 == 0 || leAt x 0x020 8 == serial o) && decide (c.rollbackFloor o ≤ leAt x 8 2)

/-- Octets of a section of the image in a slot, as MRAM holds them. -/
def Chip.imageSection (c : Chip) (s : Nat) (r : SectionRec) : List Nat := c.mramBytes (slotBase s + r.offset) r.length

/-- The section table of the image in a slot. -/
def Chip.imageTable (c : Chip) (s : Nat) : List SectionRec :=
  sectionTable (c.mramBytes (slotBase s) (0xA60 + 80 * c.mramLe (slotBase s + 0x00A) 2))

/-- The image of a slot is read whole (R180, R195). -/
def imageSeen (s : Nat) (c : Chip) : Chip := mramLines (slotBase s) (max (min 0x600000 (c.mramLe (slotBase s + 12) 4)) 0x1000) c

end Sys2Proof.Machine
end

