-- ==== Sys2Proof/Machine/Security.lean ====
section
/-! DEFINITION. Keys, signatures and attestation: the security operations, tokens, the owner lock and the random number
generator (08_security.md, R188 to R210). Each operation reads its operands and answers its result word. -/

namespace Sys2Proof.Machine

/-- Change the security engine. -/
def Chip.onSec (c : Chip) (g : Sec → Sec) : Chip := { c with sec := g c.sec }

/-- The bits of SEC_INT_STATUS (R210). -/
abbrev secTrngFail : Nat := 0
abbrev secNmkChanged : Nat := 1
abbrev secAuthFail : Nat := 2
abbrev secTokenRefused : Nat := 3
abbrev secFuseBurned : Nat := 4

/-- The length of a signature, a public key and a token (R192, R201). -/
abbrev sigLen : Nat := 4627
abbrev pubLen : Nat := 2592
abbrev tokenLen : Nat := 7315

/-! ### Operands -/

/-- Operand `k` of an operation. -/
def argOf (args : List Word) (k : Nat) : Word := args.getD k (.int 0)

/-- An INT operand below a bound: the number of a slot, cell, mode or register. -/
def smallArg (w : Word) (bound : Nat) : Option Nat := if w.tag = .int ∧ w.nat < bound then some w.nat else none

/-- Read a buffer of octets and go on, or refuse (R35, R200). -/
def withOctets (w : Word) (n : Nat) (spaces : List Nat) (k : List Nat → Chip → Word × Chip) (c : Chip) : Word × Chip :=
  if ! c.bufferOk w n spaces then (refused .badArg, c)
  else match readOctets w.nat n c with
    | (.ok xs, c1) => k xs c1
    | (.fail e, c1) => (e, c1)

/-- Go on if a destination of `n` octets in space 0 is well placed and served, or refuse (R35, R138, R200). -/
def withDest (w : Word) (n : Nat) (k : Chip → Word × Chip) (c : Chip) : Word × Chip :=
  if ! c.destOk w n [0] then (refused .badArg, c)
  else if c.spaceAccess 0 ≠ .served then (c.stateRefused, c) else k c

/-- Go on with a small operand, or refuse with BAD_ARG (R244). -/
def withSmall (w : Word) (bound : Nat) (k : Nat → Chip → Word × Chip) (c : Chip) : Word × Chip :=
  match smallArg w bound with
  | some n => k n c
  | none => (refused .badArg, c)

/-- Go on with a length operand, at most as large as any memory. -/
def withLength (w : Word) (k : Nat → Chip → Word × Chip) (c : Chip) : Word × Chip := withSmall w (2 ^ 32) k c

/-- A verify or unwrap that failed sets AUTH_FAIL (R210). -/
def noteAuth (r : Word × Chip) : Word × Chip :=
  if resultStatus r.1 = Status.authFail.code then (r.1, r.2.raise .sec secAuthFail) else r

/-! ### Randomness (R206) -/

/-- Whether random data can be had. -/
def Chip.drbgReady (c : Chip) : Bool := c.b Fld.SEC_STATUS_DRBG_READY && ! c.b Fld.SEC_STATUS_TRNG_FAIL

/-- Draw octets from the DRBG; a reseed begins again the count of generate requests. -/
def drbgDraw (n : Nat) (c : Chip) : List Nat × Chip :=
  (Config.drbg c.sec.draws n,
    c.onSec fun s => { s with draws := s.draws + 1,
                              requests := if c.f Fld.SEC_DRBG_CTRL_RESEED_INTERVAL ≤ s.requests + 1 then 0 else s.requests + 1 })

/-- Go on with random octets, or refuse with BUSY while the DRBG is stopped. -/
def withRandom (n : Nat) (k : List Nat → Chip → Word × Chip) (c : Chip) : Word × Chip :=
  if ! c.drbgReady then (refused .busy, c)
  else
    let (xs, c1) := drbgDraw n c
    k xs c1

/-- TRNG_HEALTH_FAIL (R206): a health test fails, the adaptive proportion test or the repetition count. -/
def trngHealthFail (proportion : Bool) (c : Chip) : Chip :=
  if c.isOn .core then
    let c1 := c.bump (if proportion then Fld.SEC_TRNG_COUNTS_PROPORTION_FAILS else Fld.SEC_TRNG_COUNTS_REPETITION_FAILS)
    (c1.setB Fld.SEC_STATUS_TRNG_FAIL true).raise .sec secTrngFail
  else c

/-- TRNG_HEALTH_FAIL (R206). -/
def execTrngHealthFail (proportion : Bool) (s : State) : Host.Outcome State Fault Refusal :=
  onChip (trngHealthFail proportion) s

/-- REINIT (R206): the startup health tests begin again; they take 50 µs. -/
def reinit (pass : Bool) (c : Chip) : Chip :=
  if c.isOn .core then c.onSec fun s => { s with testing := some (c.now + 3355, pass) } else c.regReject

/-- The startup health tests end: they clear TRNG_FAIL if they passed (R206). -/
def testsEnd (c : Chip) : Chip :=
  match c.sec.testing with
  | some (g, pass) =>
    if c.now < g then c
    else
      let c1 := c.onSec fun s => { s with testing := none }
      if pass then c1.setB Fld.SEC_STATUS_TRNG_FAIL false else (c1.setB Fld.SEC_STATUS_TRNG_FAIL true).raise .sec secTrngFail
  | none => c

/-- REINIT (R206). -/
def execReinit (pass : Bool) (s : State) : Host.Outcome State Fault Refusal := onChip (reinit pass) s

/-! ### Keys (R193, R197 to R199) -/

/-- The identity seed and the seal seed in their fuses (R188). -/
def identitySeed (o : Store Nat) : List Nat := otpOctets o 0x08 8
def sealSeed (o : Store Nat) : List Nat := otpOctets o 0x10 8

/-- The seed of the identity key pair that a start generates (R193). -/
def idSeedNow (o : Store Nat) : List Nat := Config.shake256 (identitySeed o ++ [b2n (idRetired o)]) 32

/-- The seal key (R198). -/
def sealKey (o : Store Nat) : List Nat := Config.kmac256 (sealSeed o) [] 32 (ascii "ZT6400 seal")

/-- The partner key of two extended addresses and a key index (R198). -/
def partnerKey (nmk : List Nat) (a b index : Nat) : List Nat :=
  Config.kmac256 nmk (leOctets 8 (min a b) ++ leOctets 8 (max a b) ++ [index % 256]) 16 (ascii "ZT6400 partner")

/-- The endpoint key of an index and an epoch (R198). -/
def endpointKey (nmk : List Nat) (index epoch : Nat) : List Nat :=
  Config.kmac256 nmk (leOctets 4 index ++ [epoch % 256]) 16 (ascii "ZT6400 endpoint")

/-- A wrapped key (R199): its type, length 32, the nonce, the masked key and the tag. -/
def wrapKey (w k nonce : List Nat) (type : Nat) : List Nat :=
  let head := [type, 32, 0, 0, 0, 0, 0, 0] ++ octetsTo 16 nonce
  let body := head ++ (octetsTo 32 k).zipWith Nat.xor (Config.kmac256 w head 32 (ascii "ZT6400 wrap-enc"))
  body ++ Config.kmac256 w body 32 (ascii "ZT6400 wrap-mac")

/-- Unwrap a blob (R199): the tag is checked before anything else. -/
def unwrapKey (w blob : List Nat) : Except Status (List Nat) :=
  let head := blob.take 24
  let n := leAt blob 1 1
  if (blob.drop 56).take 32 ≠ Config.kmac256 w (blob.take 56) 32 (ascii "ZT6400 wrap-mac") then .error .authFail
  else if ! ((leAt blob 0 1 == 1 || leAt blob 0 1 == 2) && (n == 16 || n == 32) && zeroAt blob 2 6) then .error .badArg
  else
    let k := ((blob.drop 24).take 32).zipWith Nat.xor (Config.kmac256 w head 32 (ascii "ZT6400 wrap-enc"))
    .ok (octetsTo 32 (k.take n))

/-- The key in a cell, and the unsealed master key of a slot; empty where there is none. -/
def Chip.cell (c : Chip) (i : Nat) : List Nat := Store.get [] c.sec.cells i
def Chip.nmk (c : Chip) (s : Nat) : List Nat := Store.get [] c.sec.nmk s

/-- Put a key in a cell. -/
def setCell (i : Nat) (k : List Nat) (c : Chip) : Chip := c.onSec fun s => { s with cells := Store.put [] s.cells i k }

/-- Go on with the key of a cell, or refuse with BAD_ARG (R197). -/
def withCell (w : Word) (k : List Nat → Chip → Word × Chip) (c : Chip) : Word × Chip :=
  withSmall w 16 (fun i c => if c.cell i = [] then (refused .badArg, c) else k (c.cell i) c) c

/-- Go on with the master key of a slot among the keys an operation started with, or refuse with BAD_ARG (R197). -/
def withKey (keys : Store (List Nat)) (w : Word) (k : List Nat → Chip → Word × Chip) (c : Chip) : Word × Chip :=
  withSmall w 2 (fun i c => if Store.get [] keys i = [] then (refused .badArg, c) else k (Store.get [] keys i) c) c

/-- Go on with the present master key of a slot, or refuse with BAD_ARG (R197). -/
def withNmk (w : Word) (k : List Nat → Chip → Word × Chip) (c : Chip) : Word × Chip := withKey c.sec.nmk w k c

/-- The newer sealed copy whose tag checks (R199). -/
def unsealed (o : Store Nat) : List (List Nat) → List Nat
  | [] => []
  | x :: xs => match unwrapKey (sealKey o) x with
    | .ok k => k
    | .error _ => unsealed o xs

/-- The master keys are unsealed from the key area (R197; steps S6 and wake). -/
def unsealNmks (o : Store Nat) (c : Chip) : Chip :=
  c.onSec fun s => { s with
    nmk := Store.put [] (Store.put [] [] 1 (unsealed o (Store.get [] s.sealed 1))) 0 (unsealed o (Store.get [] s.sealed 0)) }

/-! ### Owner lock, debug access, registers computed from the engine's state -/

/-- Whether RTC time may not be trusted: OSC_STOP, which also reads 1 in a lockout (R118, R328). -/
def Chip.oscStop (c : Chip) : Bool := c.rtc.lockout || c.b Fld.RTC_STATUS_OSC_STOP

/-- Whole seconds of RTC-derived long time. -/
def Chip.rtcSeconds (c : Chip) : Nat := c.regN Reg.RTC_SECONDS

/-- Whether the owner lock is in force (R202). -/
def Chip.locked_ (c : Chip) : Bool := c.sec.lock.isSome

/-- Whether debug access to the core and memory is open (R190, R203). DEDUCED: log entry 157. -/
def Chip.debugOpen (c : Chip) (o : Store Nat) : Bool := c.dev != devDead && (lifecycle o != 1 || c.sec.unlock.isSome)

/-- LOCK_EXPIRY (R202). -/
def lockExpiry (c : Chip) : Chip :=
  match c.sec.lock with
  | some t => if t ≠ 0 ∧ c.oscStop = false ∧ t ≤ c.rtcSeconds then c.onSec fun s => { s with lock := none } else c
  | none => c

/-- LOCK_EXPIRY (R202). -/
def execLockExpiry (s : State) : Host.Outcome State Fault Refusal := onChip lockExpiry s

/-- DEBUG_UNLOCK_EXPIRY (R203). -/
def debugUnlockExpiry (c : Chip) : Chip :=
  match c.sec.unlock with
  | some t => if t ≠ 0 ∧ c.oscStop = false ∧ t ≤ c.rtcSeconds then c.onSec fun s => { s with unlock := none } else c
  | none => c

/-- DEBUG_UNLOCK_EXPIRY (R203). -/
def execDebugUnlockExpiry (s : State) : Host.Outcome State Fault Refusal := onChip debugUnlockExpiry s

/-- SEC_STATUS as read (R210). -/
def Chip.secStatus (c : Chip) (o : Store Nat) : Word :=
  .bits (programmedMask o * 256 + b2n c.sec.kem.isSome * 128 + b2n (c.nmk 1 != []) * 64 + b2n (c.nmk 0 != []) * 32
    + b2n (c.debugOpen o) * 16 + b2n c.locked_ * 8 + b2n c.sec.idSeed.isSome * 4 + b2n (c.b Fld.SEC_STATUS_DRBG_READY) * 2
    + b2n (c.b Fld.SEC_STATUS_TRNG_FAIL))

/-- SEC_LIFECYCLE as read (R210). -/
def secLifecycle (o : Store Nat) : Word :=
  .bits (recoveryCount o % 16 * 2 ^ 16 + rollbackCount o * 2 ^ 7 + revokedMask o * 8 + b2n (deadFused o) * 4 + lifecycle o)

/-- SEC_KEY_CELLS as read (R210). -/
def Chip.secKeyCells (c : Chip) : Word := .bits ((List.range 16).foldl (fun n i => n + b2n (c.cell i != []) * 2 ^ i) 0)

/-- A row of the OTP mirror as read (R188, R210): all but the rows marked unreadable. -/
def otpMirror (o : Store Nat) (r : Nat) : Word :=
  if 0x08 ≤ r ∧ r < 0x18 then .absent else .bits (otpRow o r % 2 ^ 32)

/-! ### Measurements (R204) -/

/-- A measurement register: 64 octets, zero until extended. -/
def Chip.meas (c : Chip) (i : Nat) : List Nat := octetsTo 64 (Store.get [] c.sec.meas i)

/-- Extend a measurement register. -/
def measExtend (i : Nat) (d : List Nat) (c : Chip) : Chip :=
  c.onSec fun s => { s with meas := Store.put [] s.meas i (Config.sha3_512 (c.meas i ++ d)) }

/-! ### Fuses (R189) -/

/-- Whether VSYS lets fuses be burned. -/
def Chip.mayBurn (c : Chip) : Bool := decide (2700 ≤ c.pwr.vsys)

/-- Fuses burn: rows and masks, recorded for the machine's fuses. -/
def burn (bs : List (Nat × Nat)) (c : Chip) : Chip := c.onSec fun s => { s with burns := s.burns ++ bs }

/-- Burned rows joined into the fuses. -/
def burned (o : Store Nat) : List (Nat × Nat) → Store Nat
  | [] => o
  | (r, m) :: bs => burned (Store.put 0 o r (Nat.lor (otpRow o r) m % 2 ^ 32)) bs

/-- A command that may burn fuses: what it burned is joined into them. -/
def onChipBurn (g : Store Nat → Chip → Chip) (s : State) : Host.Outcome State Fault Refusal :=
  let c := g s.otp s.chip
  .next { s with chip := c.onSec (fun x => { x with burns := [] }), otp := burned s.otp c.sec.burns }

/-- Whether burns would change a fuse. -/
def burnsNew (o : Store Nat) (bs : List (Nat × Nat)) : Bool := bs.any fun b => Nat.lor (otpRow o b.1) b.2 != otpRow o b.1

/-- A token or a Kiln burned fuses: FUSE_BURNED is raised where any was new (R210). -/
def fuseBurned (o : Store Nat) (bs : List (Nat × Nat)) (c : Chip) : Chip :=
  if burnsNew o bs then c.raise .sec secFuseBurned else c

/-! ### The operations (R200): operands to the result word -/

/-- HASH. DEDUCED: log entry 62. -/
def opHash (args : List Word) (c : Chip) : Word × Chip :=
  withSmall (argOf args 0) 2 (fun mode => withLength (argOf args 2) fun n => withLength (argOf args 4) fun len c =>
    if mode = 0 ∧ 64 < len then (refused .badArg, c)
    else withDest (argOf args 3) len (withOctets (argOf args 1) n [0, 1, 4] fun m c =>
      (.int 0, writeOctets (argOf args 3).nat (if mode = 0 then (Config.sha3_512 m).take len else Config.shake256 m len) c)) c) c

/-- KMAC: the lengths of the key and of S are no operands, and the spec says nowhere where they come from: they are free
values, the key's within 16 to 64. DESIGN CHOICE: log entry 63. -/
def opKmac (args : List Word) (c : Chip) : Word × Chip :=
  let (kl, c1) := takeFree 49 c
  let (sl, c2) := takeFree 2048 c1
  withLength (argOf args 2) (fun n => withLength (argOf args 4) fun bits =>
    withDest (argOf args 5) (ceilDiv bits 8) (withOctets (argOf args 0) (16 + kl) [0] fun key =>
      withOctets (argOf args 1) n [0] fun x => withOctets (argOf args 3) sl [0] fun s c =>
        (.int 0, writeOctets (argOf args 5).nat (Config.kmacBits key x bits s) c))) c2

/-- The hash engine reads the sections of the image in a slot, each as one read request (R195, R307). DEDUCED: log entry 198. -/
def hashSeen (s : Nat) (c : Chip) : Chip :=
  (c.imageTable s).foldl (fun d r => chkStream 7 3 (c.imageSection s r) true d) c

/-- IMAGE_VERIFY (R195). -/
def opImageVerify (o : Store Nat) (args : List Word) (c : Chip) : Word × Chip :=
  withSmall (argOf args 0) 2 (fun s c =>
    if c.spaceAccess 4 ≠ .served then (c.stateRefused, c)
    else
      let c1 := imageSeen s (if c.imageSigned o s then hashSeen s c else c)
      match c.verifyImage o s with
      | .ok _ => (.int 0, c1)
      | .error w => noteAuth (w, c1)) c

/-- SIG_VERIFY: the length of the context is no operand, and is a free value of 0 to 255 octets (FIPS 204).
DESIGN CHOICE: log entry 64. -/
def opSigVerify (args : List Word) (c : Chip) : Word × Chip :=
  let (cl, c1) := takeFree 256 c
  noteAuth (withLength (argOf args 2) (fun n => withOctets (argOf args 0) pubLen [0] fun pub =>
    withOctets (argOf args 1) n [0] fun m => withOctets (argOf args 3) cl [0] fun ctx =>
      withOctets (argOf args 4) sigLen [0] fun sig c =>
        (if Config.mldsaVerify pub ctx m sig then .int 0 else refused .authFail, c)) c1)

/-- PARTNER_KEY: the key is derived and goes to the partner operation that installs it; none of a result until that has
taken effect. While another partner operation is in progress it waits. DEDUCED: log entry 70. -/
def opPartnerKey (t : Nat) (args : List Word) (c : Chip) : Option Word × Chip :=
  match c.partnerOf (argOf args 0), smallArg (argOf args 1) 2, smallArg (argOf args 2) 256 with
  | some i, some s, some k =>
    if ! c.isOn .link || c.spaceAccess 0 != .served then (some c.stateRefused, c)
    else if c.b Fld.LINK_PARTNER_STATUS_BUSY then (none, c)
    else if c.nmk s = [] || ! (c.entry i).valid || (c.entry i).ext == 0 then (some (refused .badArg), c)
    else
      let key := leNat (partnerKey (c.nmk s) c.ownExt (c.entry i).ext k)
      let old := (c.peek8 (c.entryPtr i)).map wordPlain
      let w (j : Nat) := old.getD j 0
      let ws := [putBits (putBits (w 0) 34 1 1) 16 8 k, w 1, w 2, w 3, bitsOf key 0 36, bitsOf key 36 36, bitsOf key 72 36,
        putBits (w 7) 0 20 (bitsOf key 108 20)].map Word.bits
      let c1 := c.onRadio fun r => { r with op := some { op := 2, handle := i, entry := some ws, ticket := some t } }
      (none, (c1.setB Fld.LINK_PARTNER_STATUS_BUSY true).setF Fld.LINK_PARTNER_STATUS_LAST_HANDLE i)
  | _, _, _ => (some (refused .badArg), c)

/-- The descriptor of a frame as EP_OPEN reads it: its length, verdict, security level, whether its counter is suppressed,
the counter, and the place of its payload (R133). -/
structure OpenDesc where
  length : Nat
  verdict : Nat
  level : Nat
  suppressed : Bool
  fc : Nat
  pay : Word
  deriving DecidableEq, Repr

/-- The fields of descriptor words. -/
def openDesc (ws : List Word) : OpenDesc :=
  let w (k : Nat) := ws.getD k .absent
  { length := (w 0).field 0 11, verdict := (w 0).field 32 4, level := (w 13).field 33 3, suppressed := (w 13).field 32 1 == 1,
    fc := (w 13).field 0 32, pay := w 15 }

/-- The ASN whose low 32 bits a descriptor holds: the latest not after the present one. -/
def Chip.asnWith (c : Chip) (low : Nat) : Nat :=
  let a := c.asn / 2 ^ 32 * 2 ^ 32 + low
  if c.asn < a then a - min a (2 ^ 32) else a

/-- EP_OPEN, with the master keys it started with: the frame's payload is decrypted in place where its MIC checks.
DEDUCED: log entry 67. -/
def opEpOpen (keys : Store (List Nat)) (args : List Word) (c : Chip) : Word × Chip :=
  let d := argOf args 0
  match c.endpointOf (argOf args 1), smallArg (argOf args 2) 256 with
  | some h, some epoch =>
    noteAuth (withKey keys (argOf args 3) (fun nmk c =>
      if ! c.bufferOk d 64 [1] then (refused .badArg, c)
      else if c.spaceAccess 1 ≠ .served then (c.stateRefused, c)
      else
        let (ws, c1) := readWords d.nat 16 c
        let x := openDesc ws
        if ws.any fun w => w.tag == .poison then (refused .poisoned, c1)
        else if x.verdict ≠ vUnverified ∨ x.level = 0 ∨ x.level = 4 then (refused .badArg, c1)
        else withOctets x.pay (4 * ceilDiv x.length 4) [1] (fun all c2 =>
          let o := all.take x.length
          let body := o.take (o.length - fcsLen (! fcsGood false o))
          match parseMhr body with
          | none => (refused .badArg, c2)
          | some m =>
            if m.srcMode ≠ 3 then (refused .badArg, c2)
            else
              let nonce := if x.suppressed then asnNonce m.src (c2.asnWith x.fc) else ccmNonce m.src x.fc x.level
              match openFrame (endpointKey nmk h epoch) nonce x.level m.hdrLen body with
              | none => (refused .authFail, c2)
              | some plain =>
                let new := all.take m.hdrLen ++ plain ++ all.drop (m.hdrLen + plain.length)
                let first := m.hdrLen / 4
                let last := ceilDiv (m.hdrLen + plain.length) 4
                (.int 0, if plain = [] then c2
                  else writeOctets (x.pay.nat + first) ((new.take (4 * last)).drop (4 * first)) c2)) c1) c)
  | _, _ => (refused .badArg, c)

/-- EP_SEAL, with the master keys it started with: the counter is filled in, the frame encrypted and its MIC appended. -/
def opEpSeal (keys : Store (List Nat)) (args : List Word) (c : Chip) : Word × Chip :=
  let p := argOf args 0
  match smallArg (argOf args 1) 2048, c.endpointOf (argOf args 2), smallArg (argOf args 3) 256 with
  | some n, some h, some epoch =>
    withKey keys (argOf args 4) (fun nmk => withOctets p n [1] fun o c =>
      match parseMhrAs false o with
      | none => (refused .badArg, c)
      | some m =>
        match m.aux with
        | none => (refused .badArg, c)
        | some a =>
          if ! c.isOn .link then (c.stateRefused, c)
          else if a.level = 0 ∨ a.level = 4 ∨ ! c.bufferOk p (n + micLen a.level) [1] then (refused .badArg, c)
          else
            let key := endpointKey nmk h epoch
            match a.fc with
            | none =>
              let out := sealFrame key (asnNonce c.ownExt c.asn) a.level (o.take m.hdrLen) (o.drop m.hdrLen)
              (.int out.length, writeOctets p.nat out c)
            | some _ =>
              let fc := c.regN Reg.LINK_TX_FRAME_COUNTER
              if 2 ^ 32 - 1 ≤ fc then (refused .authFail, c)
              else
                let o1 := fillCounter m fc o
                let out := sealFrame key (ccmNonce c.ownExt fc a.level) a.level (o1.take m.hdrLen) (o1.drop m.hdrLen)
                (.int out.length, writeOctets p.nat out (c.setRegN Reg.LINK_TX_FRAME_COUNTER (fc + 1)))) c
  | _, _, _ => (refused .badArg, c)

/-- KEY_GEN. -/
def opKeyGen (args : List Word) (c : Chip) : Word × Chip :=
  withSmall (argOf args 0) 16 (fun i => withRandom 32 fun k c => (.int 0, setCell i k c)) c

/-- KEY_WRAP: with type 1 the source is a master key slot, with type 2 a cell (R199). DEDUCED: log entry 65. -/
def opKeyWrap (args : List Word) (c : Chip) : Word × Chip :=
  let go (type : Nat) (src : List Nat) : Chip → Word × Chip :=
    withCell (argOf args 1) fun w => withDest (argOf args 3) 88 (withRandom 16 fun nonce c =>
      (.int 0, writeOctets (argOf args 3).nat (wrapKey w src nonce type) c))
  withSmall (argOf args 2) 3 (fun type =>
    match type with
    | 1 => withNmk (argOf args 0) (go 1)
    | 2 => withCell (argOf args 0) (go 2)
    | _ => fun c => (refused .badArg, c)) c

/-- KEY_UNWRAP. -/
def opKeyUnwrap (args : List Word) (c : Chip) : Word × Chip :=
  noteAuth (withSmall (argOf args 2) 16 (fun i => withCell (argOf args 1) fun w => withOctets (argOf args 0) 88 [0] fun b c =>
    match unwrapKey w b with
    | .ok k => (.int 0, setCell i k c)
    | .error st => (refused st, c)) c)

/-- A slot's sealed copies and its unsealed key change together. -/
def setNmk (s : Nat) (copies : List (List Nat)) (k : List Nat) (c : Chip) : Chip :=
  c.onSec fun x => { x with
    sealed := Store.put [] x.sealed s copies
    nmk := Store.put [] x.nmk s k }

/-- NMK_STORE: the cell is sealed as the slot's master key. DEDUCED: log entry 66. -/
def opNmkStore (o : Store Nat) (args : List Word) (c : Chip) : Word × Chip :=
  withSmall (argOf args 1) 2 (fun s => withCell (argOf args 0) fun k c =>
    if c.spaceAccess 4 ≠ .served then (c.stateRefused, c)
    else withRandom 16 (fun nonce c =>
      let blob := wrapKey (sealKey o) k nonce 1
      (.int 0, (setNmk s [blob, blob] k c).raise .sec secNmkChanged)) c) c

/-- Whether a master-key slot is empty: no copy is stored and no key is unsealed (R197). -/
def Chip.nmkEmpty (c : Chip) (s : Nat) : Bool := Store.get [] c.sec.sealed s == [] && Store.get [] c.sec.nmk s == []

/-- NMK_ERASE: both copies are cleared; an empty slot is refused (R197). -/
def opNmkErase (args : List Word) (c : Chip) : Word × Chip :=
  withSmall (argOf args 0) 2 (fun s c =>
    if c.spaceAccess 4 ≠ .served then (c.stateRefused, c)
    else if c.nmkEmpty s then (refused .badArg, c)
    else (.int 0, (setNmk s [] [] c).raise .sec secNmkChanged)) c

/-- KEM_KEYGEN. -/
def opKemKeygen (args : List Word) (c : Chip) : Word × Chip :=
  withDest (argOf args 0) 1568 (withRandom 64 fun r c =>
    let (ek, dk) := Config.mlkemKeyGen r
    (.int 0, writeOctets (argOf args 0).nat (octetsTo 1568 ek) (c.onSec fun s => { s with kem := some dk }))) c

/-- KEM_ENCAPS. -/
def opKemEncaps (args : List Word) (c : Chip) : Word × Chip :=
  withSmall (argOf args 2) 16 (fun i => withDest (argOf args 1) 1568 (withOctets (argOf args 0) 1568 [0] fun ek =>
    withRandom 32 fun r c => match Config.mlkemEncaps ek r with
      | none => (refused .badArg, c)
      | some (ct, ss) => (.int 0, setCell i (octetsTo 32 ss) (writeOctets (argOf args 1).nat (octetsTo 1568 ct) c)))) c

/-- KEM_DECAPS. -/
def opKemDecaps (args : List Word) (c : Chip) : Word × Chip :=
  withSmall (argOf args 1) 16 (fun i => withOctets (argOf args 0) 1568 [0] fun ct c =>
    match c.sec.kem with
    | none => (refused .badArg, c)
    | some dk => (.int 0, setCell i (octetsTo 32 (Config.mlkemDecaps dk ct)) (c.onSec fun s => { s with kem := none }))) c

/-- RANDOM. -/
def opRandom (args : List Word) (c : Chip) : Word × Chip :=
  withSmall (argOf args 1) 4097 (fun n c =>
    if n = 0 then (refused .badArg, c)
    else withDest (argOf args 0) n (withRandom n fun xs c => (.int 0, writeOctets (argOf args 0).nat xs c)) c) c

/-- MEAS_EXTEND (R204). -/
def opMeasExtend (args : List Word) (c : Chip) : Word × Chip :=
  withSmall (argOf args 0) 8 (fun i => withLength (argOf args 2) fun n c =>
    if i < 4 then (refused .badArg, c)
    else withOctets (argOf args 1) n [0] (fun d c => (.int 0, measExtend i d c)) c) c

/-- The flags of an attestation report (R205). -/
def Chip.attestFlags (c : Chip) (o : Store Nat) : Nat :=
  b2n c.oscStop + 2 * b2n (c.b Fld.SYS_STATE_TRIAL) + 4 * b2n (c.debugOpen o) + 8 * b2n c.locked_ + 16 * b2n (idRetired o)

/-- Octets 0 to 655 of an attestation report, over a nonce and the long time it reports (R205). -/
def Chip.attestBody (c : Chip) (o : Store Nat) (nonce : List Nat) (time : Nat) : List Nat :=
  ascii "ZTAT" ++ leOctets 2 1 ++ leOctets 2 (c.attestFlags o) ++ leOctets 8 (serial o)
    ++ [lifecycle o, c.dev, if c.b Fld.SYS_STATE_ROLE_VALID then c.f Fld.SYS_STATE_ROLE else 0xFF,
        revokedMask o + 16 * programmedMask o]
    ++ leOctets 2 (rollbackCount o) ++ [recoveryCount o, 0] ++ leOctets 8 (time % 2 ^ 64) ++ octetsTo 32 nonce
    ++ Config.sha3_512 (Config.mldsaPublic (c.sec.idSeed.getD [])) ++ ((List.range 8).map c.meas).flatten
    ++ leOctets 4 (c.upd.codes % 2 ^ 28) ++ [(c.upd.record.map fun r => r.fails).getD c.upd.aonFails % 256]
    ++ List.replicate 11 0

/-- What refuses ATTEST before an attempt: its operands, the random numbers, the identity (R200, R205, R206). -/
def attestCheck (args : List Word) (k : List Nat → Chip → Word × Chip) (c : Chip) : Word × Chip :=
  withDest (argOf args 1) 5283 (withOctets (argOf args 0) 32 [0] fun nonce c =>
    if ! c.drbgReady then (refused .busy, c)
    else if c.sec.idSeed.isNone then (c.stateRefused, c) else k nonce c) c

/-- One signing attempt of ATTEST, with fresh randomness, over the report as it then stands (R205, R208): TIMEOUT where it fails the
rejection tests of FIPS 204. While OSC_STOP is 1 the time it reports is meaningless, and a free value. DESIGN CHOICE: log entry 68. -/
def opAttest (o : Store Nat) (args : List Word) (c : Chip) : Word × Chip :=
  attestCheck args (fun nonce => withRandom 32 fun rnd c =>
    let (t, c1) := if c.oscStop then takeFree (2 ^ 64) c else (c.rtcLong, c)
    let body := c1.attestBody o nonce t
    match Config.mldsaSign (c.sec.idSeed.getD []) (ascii "ZTAT") body rnd with
    | none => (refused .timeout, c1)
    | some sig => (.int 0, writeOctets (argOf args 1).nat (body ++ sig) c1)) c

/-- One step of ATTEST, an attempt being `len` steps and `failed` attempts having failed (R207, R208): what can refuse it does so in its
first step; an attempt ends with its last step, and after 64 that failed so does the operation. -/
def attestStep (o : Store Nat) (args : List Word) (len steps failed : Nat) (c : Chip) : Option Word × Nat × Chip :=
  match (attestCheck args (fun _ c => (.int 0, c)) c).1, decide ((steps + 1) % len = 0) with
  | w, false => (if steps = 0 ∧ resultStatus w ≠ 0 then some w else none, failed, c)
  | _, true =>
    let (w, c1) := opAttest o args c
    if resultStatus w = Status.timeout.code ∧ failed + 1 < 64 then (none, failed + 1, c1) else (some w, failed + 1, c1)

/-- The device certificate in the ledger area (R193, R355). -/
abbrev certBase : Nat := 0xE08000

/-- ID_CERT. -/
def opIdCert (args : List Word) (c : Chip) : Word × Chip :=
  withDest (argOf args 0) 7307 (fun c =>
    if c.spaceAccess 4 ≠ .served then (c.stateRefused, c)
    else if c.mramBad certBase 7307 then (refused .poisoned, mramLines certBase 7307 c)
    else
      let xs := c.mramBytes certBase 7307
      (.int 0, writeOctets (argOf args 0).nat xs (chkStream 7 4 xs true (mramLines certBase 7307 c)))) c

/-! ### Tokens (R201 to R203) -/

/-- The fields of a token. -/
structure Token where
  type : Nat
  slot : Nat
  target : Nat
  binding : Nat
  counter : Nat
  notAfter : Nat
  arg : List Nat
  deriving DecidableEq, Repr

/-- A token's fields. -/
def tokenOf (x : List Nat) : Token :=
  { type := leAt x 5 1, slot := leAt x 6 1, target := leAt x 7 1, binding := leAt x 8 8, counter := leAt x 16 4,
    notAfter := leAt x 20 8, arg := (x.drop 28).take 64 }

/-- The form of a token: magic, version, a type that is not reserved, zero octets zero. DEDUCED: log entry 69. -/
def tokenForm (x : List Nat) : Bool :=
  let t := tokenOf x
  x.take 4 == ascii "ZTOK" && leAt x 4 1 == 1 && decide (1 ≤ t.type) && decide (t.type ≤ 6) && zeroAt x 92 4
    && (match t.type with
      | 4 => decide (t.arg.getD 0 0 < 16) && zeroAt x 29 63
      | 5 => true
      | 6 => zeroAt x 29 63
      | _ => zeroAt x 28 64)

/-- The fuses a token burns, its type's check passed (R189). -/
def tokenBurns (t : Token) : List (Nat × Nat) :=
  match t.type with
  | 4 => [(3, t.arg.getD 0 0 % 16 * 4)]
  | 5 => ((List.range 16).map fun k => (0x20 + 16 * t.target + k, leAt t.arg (4 * k) 4)) ++ [(3, 2 ^ (6 + t.target))]
  | 6 => if t.arg.getD 0 0 = 2 then [(2, 3), (3, 2 ^ 10)] else [(2, 1)]
  | _ => []

/-- Whether a REVOKE mask obeys R191: some slot stays usable, or every slot is revoked that was empty. -/
def revokeOk (o : Store Nat) (mask : Nat) : Bool :=
  let after := Nat.lor (revokedMask o) mask
  (List.range 4).any (fun s => (programmedMask o).testBit s && ! after.testBit s)
    || (List.range 4).all (fun s => (programmedMask o).testBit s || after.testBit s)

/-- The check of a token's own operands (R201). -/
def tokenArgOk (o : Store Nat) (t : Token) : Bool :=
  (t.type == 5 || t.target == 0)
    && (match t.type with
      | 4 => revokeOk o (t.arg.getD 0 0 % 16)
      | 5 => decide (t.target < 4) && ! (programmedMask o).testBit t.target && ! (revokedMask o).testBit t.target
      | 6 => decide (t.arg.getD 0 0 ≤ 2) && decide (lifecycle o < t.arg.getD 0 0)
      | _ => true)

/-- The first check a token fails, or none (R201). -/
def Chip.tokenWrong (c : Chip) (o : Store Nat) (x : List Nat) : Option Status :=
  let t := tokenOf x
  let pub := (x.drop 96).take pubLen
  if ! tokenForm x then some .badArg
  else if ! (slotUsable o t.slot && slotHolds o t.slot pub
      && Config.mldsaVerify pub (ascii "ZTOK") (x.take 2688) ((x.drop 2688).take sigLen)) then some .authFail
  else if ! (if t.binding = 0 then t.type == 4 || t.type == 5 else t.binding == serial o) then some .authFail
  else if t.counter ≤ c.sec.tokenCounter then some .authFail
  else if ! (t.notAfter == 0 || (! c.oscStop && decide (c.rtcSeconds < t.notAfter))) then some .authFail
  else if c.locked_ && (t.type == 3 || t.type == 5 || t.type == 6) then some .locked
  else if ! tokenArgOk o t then some .badArg
  else if burnsNew o (tokenBurns t) && ! c.mayBurn then some .lowSupply
  else none

/-- A token burns fuses, which is reported where any is new (R210). -/
def tokenBurn (o : Store Nat) (bs : List (Nat × Nat)) (c : Chip) : Chip :=
  if burnsNew o bs then fuseBurned o bs (burn bs c) else c

/-- A token takes effect, its counter stored (R190, R201 to R203). -/
def tokenEffect (o : Store Nat) (t : Token) (x : List Nat) (c : Chip) : Chip :=
  let c1 := c.onSec fun s => { s with tokenCounter := t.counter }
  match t.type with
  | 1 => c1.onSec fun s => { s with lock := some t.notAfter }
  | 2 => c1.onSec fun s => { s with lock := none }
  | 3 => measExtend 7 (Config.sha3_512 x) (c1.onSec fun s => { s with unlock := some t.notAfter })
  | 6 =>
    let c2 := tokenBurn o (tokenBurns t) c1
    if t.arg.getD 0 0 = 2 then c2.onSec fun s => { s with sealed := [], lock := none, tokenCounter := 0 } else c2
  | _ => tokenBurn o (tokenBurns t) c1

/-- TOKEN (R201). -/
def opToken (o : Store Nat) (args : List Word) (c : Chip) : Word × Chip :=
  let r := noteAuth (withOctets (argOf args 0) tokenLen [0] (fun x c =>
    if c.spaceAccess 4 ≠ .served then (c.stateRefused, c)
    else match c.tokenWrong o x with
      | some st => (refused st, c)
      | none => (.int 0, tokenEffect o (tokenOf x) x c)) c)
  if resultStatus r.1 = 0 then r else (r.1, r.2.raise .sec secTokenRefused)

/-! ### The engine at a start or a restart -/

/-- The engine is ready again after a restart of its island or a wake: master keys unsealed, the DRBG instantiated, the
identity kept (R193, R197, R206). -/
def secUp (o : Store Nat) (c : Chip) : Chip :=
  let c1 := unsealNmks o (c.setB Fld.SEC_STATUS_DRBG_READY true)
  c1.onSec fun s => { s with idSeed := some (s.idSeed.getD (idSeedNow o)) }

end Sys2Proof.Machine
end

