-- ==== Sys2Proof/Machine/Via.lean ====
section
/-! DEFINITION. How an operation was asked for, by ticket or by mailbox (R245, R381 to R385), and the state record and boot
parameter block of the ledger area (R355, R356). -/

namespace Sys2Proof.Machine

/-! ### Pins that are not GPIOs -/

abbrev pinRecovery : Nat := 40
abbrev pinMotion : Nat := 41
abbrev pinGangHead : Nat := 42

/-! ### Mailboxes and tickets -/

/-- The mailbox of a path. -/
def Chip.mbxOf (c : Chip) (p : Nat) : Mbx := Store.get .idle c.mbx p

/-- Change the mailbox of a path. -/
def setMbx (p : Nat) (m : Mbx) (c : Chip) : Chip := { c with mbx := Store.put .idle c.mbx p m }

/-- A mailbox command ends: the words of its reply wait to be filled in (R383). -/
def finishMbx (p : Nat) (w : Word) (more : List Word) (c : Chip) : Chip :=
  let m := c.mbxOf p
  if m.busy && m.result.isNone then setMbx p { m with result := some (w :: more) } c else c

/-- An UPD_ACTIVATE_AT ends with a result word, however it was asked for (R369); a mailbox that has been reset since gets no
reply (R393). -/
def finishVia (v : Via) (w : Word) (c : Chip) : Chip :=
  match v with
  | .ticket n => finishTicket n.toNat w c
  | .mailbox p => if (c.mbxOf p.val).code = 0x54 then finishMbx p.val w [] c else c

/-- Whether an operation came through a host path (R386). -/
def viaHost : Via → Bool
  | .ticket _ => false
  | .mailbox _ => true

/-! ### The ledger area (R355, R356) -/

abbrev ledgerBase : Nat := 0xE00000

/-- Octets closed by their CRC. -/
def withCrc (xs : List Nat) : List Nat := xs ++ leOctets 4 (fcs32 xs)

/-- Whether octets end in their CRC and begin with a magic. -/
def crcGood (magic : List Nat) (xs : List Nat) : Bool :=
  let n := xs.length - 4
  xs.take 4 == magic && xs.drop n == leOctets 4 (fcs32 (xs.take n))

/-- The copy in force of a two-copy structure: its place (0 or 1) and its octets; the valid copy with the higher sequence
number (R355). -/
def Chip.copyInForce (c : Chip) (base len : Nat) (magic : List Nat) : Option (Nat × List Nat) :=
  let get (k : Nat) : Option (Nat × List Nat) :=
    let x := c.mramBytes (base + len * k) len
    if ! c.mramBad (base + len * k) len && crcGood magic x then some (k, x) else none
  match get 0, get 1 with
  | some a, some b => if leNat ((a.2.drop 4).take 4) < leNat ((b.2.drop 4).take 4) then some b else some a
  | some a, none => some a
  | none, b => b

/-- Write a two-copy structure: the copy that is not in force takes the next sequence number (R355). -/
def writeCopy (base len : Nat) (magic body : List Nat) (c : Chip) : Chip :=
  let (place, seq) := match c.copyInForce base len magic with
    | some (k, x) => (1 - k, leNat ((x.drop 4).take 4) + 1)
    | none => (0, 1)
  writeMramBytes (base + len * place) (withCrc (magic ++ leOctets 4 (seq % 2 ^ 32) ++ body)) c

abbrev magicState : List Nat := [0x5A, 0x54, 0x53, 0x4C]
abbrev magicBoot : List Nat := [0x5A, 0x54, 0x42, 0x50]

/-- Octets 8 to 251 of a state record (R356). -/
def SlotRec.octets (r : SlotRec) : List Nat :=
  [r.a, r.b, r.owner, r.area + 2 * b2n r.burnPending + 4 * b2n r.restartTrial + 8 * b2n r.recoveryOpen + 16 * b2n r.countPending]
    ++ leOctets 2 r.burnTarget ++ [0, 0] ++ leOctets 4 r.length ++ leOctets 4 r.window ++ leOctets 2 r.alt ++ [r.fails]
    ++ List.replicate 225 0

/-- A state record from its 256 octets. -/
def slotRecOf (x : List Nat) : SlotRec :=
  let n (a k : Nat) := leNat ((x.drop a).take k)
  { seq := n 4 4, a := n 8 1, b := n 9 1, owner := n 10 1, area := n 11 1 % 2, burnPending := bitOf (n 11 1) 1,
    restartTrial := bitOf (n 11 1) 2, recoveryOpen := bitOf (n 11 1) 3, countPending := bitOf (n 11 1) 4,
    burnTarget := n 12 2, length := n 16 4, window := n 20 4, alt := n 24 2, fails := n 26 1 }

/-- The state record in force, as MRAM holds it (R356). -/
def Chip.readRecord (c : Chip) : Option SlotRec :=
  (c.copyInForce ledgerBase 256 magicState).map fun x => slotRecOf x.2

/-- A state record with both slots EMPTY. -/
def SlotRec.empty : SlotRec :=
  { seq := 0, a := 0, b := 0, owner := 0, area := 0, burnPending := false, restartTrial := false, recoveryOpen := false,
    countPending := false, burnTarget := 0, length := 0, window := 0, alt := 0, fails := 0 }

/-- Slot states (R356). -/
abbrev slotEmpty : Nat := 0
abbrev slotWriting : Nat := 1
abbrev slotStaged : Nat := 2
abbrev slotTrial : Nat := 3
abbrev slotConfirmed : Nat := 4

/-- The state of a slot, and a record with it changed. -/
def SlotRec.slot (r : SlotRec) (s : Nat) : Nat := if s = 0 then r.a else r.b
def SlotRec.setSlot (r : SlotRec) (s v : Nat) : SlotRec := if s = 0 then { r with a := v } else { r with b := v }

/-- The confirmed slot, if any; the slot that is staged into: the other, or A where none is confirmed (R356, R364, R377). -/
def SlotRec.confirmed (r : SlotRec) : Option Nat :=
  if r.a = slotConfirmed then some 0 else if r.b = slotConfirmed then some 1 else none
def SlotRec.staging (r : SlotRec) : Nat := if r.a = slotConfirmed then 1 else 0

/-- The registers that mirror the state record (R380). -/
def refreshUpd (c : Chip) : Chip :=
  match c.upd.record with
  | none => c
  | some r =>
    ((((((((c.setF Fld.UPD_STATUS_SLOT_A r.a).setF Fld.UPD_STATUS_SLOT_B r.b).setF Fld.UPD_STATUS_OWNER r.owner).setF
      Fld.UPD_STATUS_CURRENT_AREA r.area).setB Fld.UPD_STATUS_BURN_PENDING r.burnPending).setB Fld.UPD_STATUS_ACTIVATE_ARMED
      c.upd.armed.isSome).setB Fld.UPD_STATUS_QUIET (match c.upd.armed with
        | some x => x.at_.isNone
        | none => false)).setB Fld.UPD_STATUS_RELEASING c.upd.release.isSome).setF Fld.UPD_BOOT_INFO_ALT_MASK r.alt
      |>.setF Fld.UPD_BOOT_INFO_CONSECUTIVE r.fails

/-- Change the update state, its mirrors following. -/
def Chip.onUpd (c : Chip) (g : Upd → Upd) : Chip := refreshUpd { c with upd := g c.upd }

/-- The state record in force; one with both slots EMPTY where none is (RECOVERY after a lost record). -/
def Chip.slotRec (c : Chip) : SlotRec := c.upd.record.getD .empty

/-- Write the state record (R355, R356). -/
def putRec (r : SlotRec) (c : Chip) : Chip :=
  let c1 := writeCopy ledgerBase 256 magicState r.octets c
  c1.onUpd fun u => { u with record := some { r with seq := (c1.readRecord.map fun x => x.seq).getD (r.seq + 1) } }

/-- The boot parameter block in force: CHAIN_TRAIN_LIMIT; 20,133 gr where no copy is valid (R355). -/
def Chip.bootLimit (c : Chip) : Nat :=
  match c.copyInForce (ledgerBase + 0x1000) 64 magicBoot with
  | some (_, x) => leNat ((x.drop 8).take 4)
  | none => 20133

/-- HOST_CHAIN_TRAIN_LIMIT is written through to the boot parameter block (R355). -/
def writeBootLimit (v : Nat) (c : Chip) : Chip :=
  writeCopy (ledgerBase + 0x1000) 64 magicBoot (leOctets 4 v ++ List.replicate 48 0) (c.setRegN Reg.HOST_CHAIN_TRAIN_LIMIT v)

end Sys2Proof.Machine
end

