-- ==== Sys2Proof/Machine/Update.lean ====
section
/-! DEFINITION. The update operations, the settings store and recovery sessions (16_startup_update_recovery.md, R352 to R369,
R373, R374, R376 to R379). -/

namespace Sys2Proof.Machine

/-- The bits of UPD_INT_STATUS (R380). -/
abbrev updStaged : Nat := 0
abbrev updLoaded : Nat := 1
abbrev updActivated : Nat := 2
abbrev updConfirmed : Nat := 3
abbrev updFellBack : Nat := 4
abbrev updPreempted : Nat := 5
abbrev updReported : Nat := 6

/-- Staging owners (R356). -/
abbrev ownerNone : Nat := 0
abbrev ownerRadio : Nat := 1
abbrev ownerHost : Nat := 2

/-- Whether the trial image runs: GERMINATE after activation. -/
def Chip.trial (c : Chip) : Bool := c.b Fld.SYS_STATE_TRIAL

/-- Put the device in a state (R22). -/
def setDev (d : Nat) (c : Chip) : Chip := c.setF Fld.SYS_STATE_DEVICE_STATE d

/-- LAST_RESULT takes the status of an update operation or trial (R380). -/
def lastResult (code : Nat) (c : Chip) : Chip := c.setF Fld.UPD_STATUS_LAST_RESULT code

/-! ### MRAM (R352, R354) -/

/-- Clear whole words of MRAM from a byte address. -/
def clearMram (b len : Nat) (c : Chip) : Chip :=
  c.onMems fun m => { m with
    mram := Store.drop m.mram fun k => decide (b / 4 ≤ k) && decide (k < (b + len) / 4)
    mramFlaws := Store.drop m.mramFlaws fun k => decide (b ≤ 32 * k) && decide (32 * (k + 1) ≤ b + len) }

/-- Settings areas (R354). -/
abbrev areaLen : Nat := 1015808
def areaBase (a : Nat) : Nat := if a = 0 then 0xC10000 else 0xD08000

/-- The checks of a copy of octets to MRAM: an offset and length that are multiples of 4, in range, from space 0. -/
def Chip.copyOk (c : Chip) (off src len : Word) (limit : Nat) : Bool :=
  off.tag == .int && len.tag == .int && off.nat % 4 == 0 && len.nat % 4 == 0 && decide (4 ≤ len.nat) && decide (len.nat ≤ 65536)
    && decide (off.nat + len.nat ≤ limit) && c.bufferOk src len.nat [0]

/-- One step of a copy: at most 256 octets; `done_` were copied before (R363). -/
def copyStep (base off src len done_ : Nat) (c : Chip) : Option Word × Nat × Chip :=
  if c.spaceAccess 0 ≠ .served ∨ c.spaceAccess 4 ≠ .served then (some c.stateRefused, done_, c)
  else
    let n := min 256 (len - done_)
    match readOctets (src + done_ / 4) n c with
    | (.fail w, c1) => (some w, done_, c1)
    | (.ok xs, c1) =>
      let c2 := writeMramBytes (base + off + done_) xs c1
      if len ≤ done_ + n then (some (.int 0), done_ + n, c2) else (none, done_ + n, c2)

/-! ### Checks common to the operations (R363 to R365) -/

/-- Check 1: the device states each operation is legal in (R363). -/
def Chip.updLegal (c : Chip) (code : Nat) (args : List Word) : Bool :=
  let run := c.dev == devRun
  let before := c.dev == devGerminate && ! c.trial
  let after := c.dev == devGerminate && c.trial
  match code with
  | 0x54 => before
  | 0x55 => after
  | 0x56 => before || after
  | 0x58 =>
    match (argOf args 0).nat with
    | 0 => run
    | 1 => after
    | _ => run || after
  | 0x59 => run || before || after
  | _ => run

/-- The FORCE flag of UPD_BEGIN. -/
def forceFlag (args : List Word) : Bool := (argOf args 1).field 0 1 == 1

/-- Check 2: ownership (R364). DEDUCED: log entry 121. -/
def Chip.updOwned (c : Chip) (code : Nat) (host : Bool) (args : List Word) : Bool :=
  let o := c.slotRec.owner
  if code = 0x58 ∨ code = 0x59 then false
  else if code = 0x50 then o != ownerNone && ! (host && forceFlag args)
  else if host then o == ownerRadio && (code == 0x51 || code == 0x52)
  else o == ownerHost

/-- Checks 1 to 5, the first that holds (R365); an operation that targets the MRAM island while it does not serve is
STATE_REFUSED as well (R12). -/
def Chip.updRefusal (c : Chip) (code : Nat) (host : Bool) (args : List Word) : Option Word :=
  if ! c.updLegal code args || ! c.isOn .mram then some c.stateRefused
  else if c.updOwned code host args then some (refused .slotOwned)
  else if c.locked_ && (code == 0x50 || code == 0x53 || code == 0x54 || code == 0x55) then some (refused .locked)
  else if (c.pin pinMotion || c.b Fld.UPD_CTRL_MOVING) && (code == 0x50 || code == 0x53 || code == 0x54) then some (refused .moving)
  else if decide (c.f Fld.PWR_MONITOR_VSYS_MV < c.regN Reg.UPD_MIN_SUPPLY) && (code == 0x50 || code == 0x53 || code == 0x54)
    then some (refused .lowSupply)
  else none

/-- Whether a ticket is a radio UPD_WRITE between two of its steps. -/
def writingTicket (t : Ticket) : Bool := t.code == 0x51 && decide (t.state < 3) && decide (0 < t.prog)

/-- A host pre-emption: a radio UPD_WRITE in progress writes nothing more and completes SLOT_OWNED (R364). -/
def preempt (c : Chip) : Chip :=
  if c.tk.held.any writingTicket then
    ((c.tk.held.filter writingTicket).foldl (fun c t => finishTicket t.number (refused .slotOwned) c) c).raise .upd updPreempted
  else c

/-- Whether a length of an image is in range (R363). -/
def imageLenOk (w : Word) : Bool := w.tag == .int && decide (1 ≤ w.nat) && decide (w.nat ≤ 6291456)

/-- UPD_BEGIN (R364, R366). -/
def opUpdBegin (host : Bool) (args : List Word) (c : Chip) : Word × Chip :=
  let flags := argOf args 1
  let force := forceFlag args
  match c.updRefusal 0x50 host args with
  | some w => (w, c)
  | none =>
    if ! imageLenOk (argOf args 0) || ! (flags.tag == .bits && decide (flags.nat < 2)) || (force && ! host)
      then (refused .badArg, c)
    else
      let r := c.slotRec
      let taken := r.owner == ownerRadio
      let c1 := if taken then preempt c else c
      let c2 := if taken && ! c.tk.held.any writingTicket then c1.raise .upd updPreempted else c1
      (.int 0, putRec { r.setSlot r.staging slotWriting with
        owner := if host then ownerHost else ownerRadio
        length := (argOf args 0).nat } c2)

/-- One step of UPD_WRITE; `done_` octets were written before (R363, R366). One that is refused leaves the slot's state as it was
(R365). -/
def stepUpdWrite (host : Bool) (args : List Word) (done_ : Nat) (c : Chip) : Option Word × Nat × Chip :=
  let r := c.slotRec
  match c.updRefusal 0x51 host args with
  | some w => (some w, done_, c)
  | none =>
    if ! c.copyOk (argOf args 0) (argOf args 1) (argOf args 2) r.length || ! (r.slot r.staging == slotWriting || r.slot r.staging == slotStaged)
      then (some (refused .badArg), done_, c)
    else
      let mark (d : Chip) : Chip := if r.slot r.staging = slotStaged then putRec (r.setSlot r.staging slotWriting) d else d
      match copyStep (slotBase r.staging) (argOf args 0).nat (argOf args 1).nat (argOf args 2).nat done_ c with
      | (some w, k, d) => (some w, k, if resultStatus w = 0 then mark d else d)
      | (none, k, d) => (none, k, mark d)

/-- One step of SET_WRITE (R363, R368). -/
def stepSetWrite (host : Bool) (args : List Word) (done_ : Nat) (c : Chip) : Option Word × Nat × Chip :=
  match c.updRefusal 0x58 host args with
  | some w => (some w, done_, c)
  | none =>
    match smallArg (argOf args 0) 2 with
    | none => (some (refused .badArg), done_, c)
    | some a =>
      if ! c.copyOk (argOf args 1) (argOf args 2) (argOf args 3) areaLen then (some (refused .badArg), done_, c)
      else copyStep (areaBase ((c.slotRec.area + a) % 2)) (argOf args 1).nat (argOf args 2).nat (argOf args 3).nat done_ c

/-- What refuses UPD_VERIFY before it reads the image (R365, R366). -/
def Chip.verifyRefusal (c : Chip) (host : Bool) (args : List Word) : Option Word :=
  let r := c.slotRec
  match c.updRefusal 0x52 host args with
  | some w => some w
  | none =>
    if ! (r.slot r.staging == slotWriting || r.slot r.staging == slotStaged) then some (refused .badArg)
    else if c.spaceAccess 4 ≠ .served then some c.stateRefused else none

/-- UPD_VERIFY (R366): a slot whose image fails is WRITING, so that its owner can rewrite it. DEDUCED: log entry 171. -/
def opUpdVerify (o : Store Nat) (host : Bool) (args : List Word) (c0 : Chip) : Word × Chip :=
  let r := c0.slotRec
  match c0.verifyRefusal host args with
  | some w => (w, c0)
  | none =>
    let c := imageSeen r.staging (if c0.imageSigned o r.staging then hashSeen r.staging c0 else c0)
    match c.verifyImage o r.staging with
      | .error w => noteAuth (w, if r.slot r.staging = slotStaged then putRec (r.setSlot r.staging slotWriting) c else c)
      | .ok i => (.int i.rollback, (putRec (r.setSlot r.staging slotStaged) c).raise .upd updStaged)

/-! ### Data initialisation (R353) -/

/-- One record of a data-initialisation section: space, first address and words. -/
structure InitRec where
  space : Nat
  addr : Nat
  words : List (Option Word)
  deriving DecidableEq, Repr

/-- A word of a data-initialisation record from its five octets; none for a tag outside 0x0 to 0x8. -/
def initWord (xs : List Nat) : Option Word :=
  let n := leNat xs
  if 8 < n / 2 ^ 36 then none else (Tag.ofNum (n / 2 ^ 36)).map fun t => .mk' t (n % 2 ^ 36)

/-- The records of a section, from an offset; none where one runs past its end. -/
def initRecords (x : List Nat) : Nat → Nat → Option (List InitRec)
  | 0, at_ => if x.length ≤ at_ then some [] else none
  | k + 1, at_ =>
    if x.length ≤ at_ then some []
    else
      let n := leAt x (at_ + 8) 4
      let stop := at_ + 12 + 5 * n
      if n = 0 ∨ x.length < stop ∨ ! zeroAt x (at_ + 5) 3 then none
      else
        let r : InitRec := { space := leAt x (at_ + 4) 1, addr := leAt x at_ 4, words := (List.range n).map fun i => initWord ((x.drop (at_ + 12 + 5 * i)).take 5) }
        (initRecords x k ((stop + 7) / 8 * 8)).map fun rs => r :: rs

/-- Whether a record may be written (R353): its space, its range, the partner region and its tags. -/
def Chip.initOk (c : Chip) (r : InitRec) : Bool :=
  [0, 1, 2, 6].contains r.space && c.ptrValid (ptrOf r.space r.addr)
    && c.ptrValid (ptrOf r.space (r.addr + r.words.length - 1)) && decide (r.addr + r.words.length ≤ 2 ^ 32)
    && (List.range r.words.length).all (fun i => ! c.inPartners (ptrOf r.space (r.addr + i)))
    && r.words.all Option.isSome

/-- The records of a section where every one may be written; none otherwise. -/
def Chip.initSection (c : Chip) (x : List Nat) : Option (List InitRec) :=
  match initRecords x (x.length / 8 + 1) 0 with
  | some rs => if rs.all c.initOk then some rs else none
  | none => none

/-- Octets of the section of a type in the image of a slot; empty where there is none. -/
def Chip.slotSection (c : Chip) (s t : Nat) : List Nat :=
  match findSection (c.imageTable s) t with
  | some r => c.imageSection s r
  | none => []

/-- The section of a type in the image of a slot reads well: no line uncorrectable, its digest right. -/
def Chip.sectionReads (c : Chip) (s t : Nat) : Bool :=
  match findSection (c.imageTable s) t with
  | some r => ! c.mramBad (slotBase s + r.offset) r.length && r.digest == Config.sha3_512 (c.imageSection s r)
  | none => false

/-! ### Instruction banks (R236, R352) -/

/-- The slots of an instruction section, five octets each, from a key on. -/
def putSlots (k : Nat) : Nat → List Nat → Store Nat → Store Nat
  | 0, _, m => m
  | n + 1, xs, m => if xs = [] then m else putSlots (k + 1) n (xs.drop 5) (Store.put 0 m k (leNat (xs.take 5) % 2 ^ 40))

/-- The ROM loader reads an instruction section from MRAM into a physical bank; every bundle beyond it is zero (R307, R352). -/
def loadBank (bank : Nat) (xs : List Nat) (c : Chip) : Chip :=
  let inBank (k : Nat) : Bool := decide (bank * 0x40000 ≤ k) && decide (k < (bank + 1) * 0x40000)
  chkStream 7 3 xs true { c with
    core := { c.core with im := putSlots (bank * 0x40000) (xs.length / 5) xs (Store.drop c.core.im inBank) }
    mems := { c.mems with flaws := Store.drop c.mems.flaws fun p => spaceOf p == 7 && inBank (addrOf p) } }

/-- The loader reads the instruction section of a slot into a bank (R180, R352). -/
def loadSlot (bank s : Nat) (c : Chip) : Chip :=
  loadBank bank (c.slotSection s 1) (match findSection (c.imageTable s) 1 with
    | some r => mramLines (slotBase s + r.offset) r.length c
    | none => c)

/-- Whether an instruction section has a length R352 allows. -/
def imageCodeOk (xs : List Nat) : Bool := xs.length % 20 == 0 && decide (xs.length ≤ 983040)

/-! ### Germinate (R367, R368) -/

/-- UPD_GERMINATE is accepted or refused (R367, R368): an accepted one takes the device to GERMINATE; in mode 0 the shadow holds no
image until it has been written. An instruction section of a length R352 does not allow is refused as a bad data initialisation is.
DEDUCED: log entry 194. DEDUCED: log entry 222. -/
def germinateBegin (host : Bool) (args : List Word) (c : Chip) : Option Word × Chip :=
  let r := c.slotRec
  let s := r.staging
  match c.updRefusal 0x53 host args with
  | some w => (some w, c)
  | none =>
    match smallArg (argOf args 0) 2 with
    | none => (some (refused .badArg), c)
    | some mode =>
      let rec_ := parseRecipe (c.slotSection s 2)
      if r.slot s ≠ slotStaged then (some (refused .badArg), c)
      else if mode = 0 ∧ (c.recipe.map Recipe.digestList) ≠ some rec_.digestList then (some (refused .badArg), c)
      else if c.upd.release.isSome then (some (refused .busy), c)
      else if c.spaceAccess 4 ≠ .served then (some c.stateRefused, c)
      else if (c.initSection (c.slotSection s 4)).isNone || ! imageCodeOk (c.slotSection s 1) then (some (refused .badArg), c)
      else
        let c2 := (setDev devGerminate (c.setB Fld.SYS_STATE_TRIAL false)).setB Fld.UPD_STATUS_RESTART_MODE (mode == 1)
        let c3 := c2.onUpd fun u => { u with germinating := 1 + mode }
        (none, if mode = 0 then { c3 with core := { c3.core with shadowValid := false } } else c3)

/-- The MRAM writer writes 256 octets of the next settings area: the image's type-3 section, and zeros after it (R255, R368). -/
def settingsStep (k : Nat) (c : Chip) : Chip :=
  let r := c.slotRec
  let to_ := areaBase (1 - r.area) + k
  let xs := match findSection (c.imageTable r.staging) 3 with
    | some x => c.mramBytes (slotBase r.staging + x.offset + k) (min 256 (x.length - k))
    | none => []
  writeMramBytes to_ xs (clearMram to_ 256 c)

/-- Octets that the hash engine digests for an accepted UPD_GERMINATE: the type-1 section, in mode 0 (R368). -/
def Chip.germinateDigest (c : Chip) (args : List Word) : Nat :=
  if (argOf args 0).nat = 1 then 0 else ((findSection (c.imageTable c.slotRec.staging) 1).map fun r => r.length).getD 0

/-- An accepted UPD_GERMINATE ends (R368): in mode 0 the shadow holds the image's type-1 section, or the slot is EMPTY where its
digest does not match. One whose GERMINATE a fallback has ended since is refused. DEDUCED: log entry 194. -/
def germinateEnd (args : List Word) (c : Chip) : Word × Chip :=
  let r := c.slotRec
  let s := r.staging
  let c1 := c.onUpd fun u => { u with germinating := 0 }
  if c.dev ≠ devGerminate ∨ c.upd.germinating = 0 then (c.stateRefused, c)
  else if (argOf args 0).nat = 1 then (.int 0, c1.raise .upd updLoaded)
  else if ! c.sectionReads s 1 then noteAuth (refused .authFail, setDev devRun (putRec (r.setSlot s slotEmpty) c1))
  else
    let c3 := loadSlot (1 - c1.core.bank) s c1
    (.int 0, ({ c3 with core := { c3.core with shadowValid := true } }).raise .upd updLoaded)

/-- One step of UPD_GERMINATE, `prog` octets written and digested before (R255, R368): it is accepted or refused; the MRAM writer
writes the next settings area; in mode 0 the hash engine digests the type-1 section in pieces of `chunk` octets and the shadow is loaded.
DEDUCED: log entry 223. -/
def germinateStep (host : Bool) (args : List Word) (chunk steps prog : Nat) (c : Chip) : Option Word × Nat × Chip :=
  let finish (k : Nat) (d : Chip) : Option Word × Nat × Chip :=
    let (w, e) := germinateEnd args d
    (some w, k, e)
  if steps = 0 then
    let (w, c1) := germinateBegin host args c
    (w, 0, c1)
  else if c.dev ≠ devGerminate ∨ c.upd.germinating = 0 then (some c.stateRefused, prog, c)
  else
    let writing := decide (prog < areaLen)
    let c1 := if writing then settingsStep prog c else c
    let k := if writing then prog + 256 else prog + chunk
    if k < areaLen + c.germinateDigest args then (none, k, c1) else finish k c1

/-! ### Activation is armed (R369) -/

/-- The operation that armed an activation completes, where its ticket has not been discarded (R253, R369). -/
def finishArmed (a : Activation) (w : Word) (c : Chip) : Chip := if a.posts then finishVia a.via w c else c

/-- An armed activation goes away: its operation completes with a status. -/
def disarm (st : Status) (c : Chip) : Chip :=
  match c.upd.armed with
  | some a => lastResult st.code (finishArmed a (refused st) (c.onUpd fun u => { u with armed := none }))
  | none => c

/-- UPD_ACTIVATE_AT: none of a result until the activation has happened, where it is accepted. -/
def opUpdActivateAt (via : Via) (posts : Bool) (args : List Word) (c : Chip) : Option Word × Chip :=
  let g := argOf args 0
  let flags := argOf args 1
  let win := argOf args 2
  match c.updRefusal 0x54 (viaHost via) args with
  | some w => (some w, c)
  | none =>
    if g.tag ≠ .grain ∨ flags.tag ≠ .bits ∨ 2 ≤ flags.nat ∨ win.tag ≠ .int ∨ win.nat < 60 ∨ 259200 < win.nat then
      (some (refused .badArg), c)
    else if flags.nat = 0 ∧ c.longOf g.payload < c.now + 2048 then (some (refused .timeout), c)
    else
      let at_ := if flags.nat = 0 then some (c.longOf g.payload).toNat else none
      let c1 := (putRec { c.slotRec with window := win.nat } (disarm .superseded c)).onUpd fun u =>
        { u with armed := some { via := via, at_ := at_, limit := c.now + 67108864, posts := posts } }
      (none, if flags.nat = 0 then c1.setReg Reg.UPD_ACTIVATE_GRAIN ⟨.grain, g.payload⟩ else c1)

/-- Whether the present grain is a quiet gap (R369). -/
def Chip.quietGap (c : Chip) : Bool :=
  ! (c.tk.held.any fun t => t.cls == 0) && ! (evInputs.any fun j => c.evReady j && c.evLevel j == 3)

/-- QUIET_GAP_TIMEOUT (R369). -/
def quietGapTimeout (c : Chip) : Chip :=
  match c.upd.armed with
  | some a => if a.at_.isNone && decide (a.limit ≤ c.now) then disarm .busy c else c
  | none => c

/-- QUIET_GAP_TIMEOUT (R369). -/
def execQuietGapTimeout (s : State) : Host.Outcome State Fault Refusal := onChip quietGapTimeout s

/-! ### Kiln (R374) -/

/-- The rows and masks that bring the anti-rollback counter up to a value (R188, R189). -/
def rollbackBurns (target : Nat) : List (Nat × Nat) :=
  (List.range 8).map fun k => (0x60 + k, 2 ^ (min 32 (target - 32 * k)) - 1)

/-- The anti-rollback value of the image in a slot. -/
def Chip.slotRollback (c : Chip) (s : Nat) : Nat := c.mramLe (slotBase s + 8) 2

/-- The slot in TRIAL: the staging slot (R356). -/
def Chip.trialSlot (c : Chip) : Nat := c.slotRec.staging

/-- The Kiln of a record that has been committed ends: the counter is burned where VSYS still lets it, BURN_PENDING cleared, and the
old settings area is released (R374). -/
def kilnEnd (o : Store Nat) (area : Nat) (c : Chip) : Chip :=
  let bs := rollbackBurns c.slotRec.burnTarget
  let c1 := if c.slotRec.burnPending && c.mayBurn then
      fuseBurned o bs (putRec { c.slotRec with burnPending := false } (burn bs c)) else c
  c1.onUpd fun u => { u with release := some (area, 0), kiln := none }

/-- UPD_CONFIRM (R374): the record commits the confirmation, and the counter is burned in a step of its own, so that a supply loss may
come between them; none of a result before. -/
def opUpdConfirm (o : Store Nat) (host : Bool) (args : List Word) (steps : Nat) (c : Chip) : Option Word × Chip :=
  let r := c.slotRec
  match c.upd.kiln with
  | some area => if steps = 0 then (some (refused .busy), c) else (some (.int 0), kilnEnd o area c)
  | none =>
    match c.updRefusal 0x55 host args with
    | some w => (some w, c)
    | none =>
      if c.upd.trialEnd ≤ c.now then (some c.stateRefused, c)
      else
        let target := c.slotRollback c.trialSlot
        let due := decide (rollbackCount o < target)
        if due && ! c.mayBurn then (some (refused .lowSupply), c)
        else
          let s := c.trialSlot
          let done_ := { (r.setSlot s slotConfirmed).setSlot (1 - s) slotEmpty with
            area := 1 - r.area
            owner := ownerNone
            burnPending := due || r.burnPending
            burnTarget := if due then max target (if r.burnPending then r.burnTarget else 0) else r.burnTarget }
          let c1 := putRec done_ c
          let c2 := ((setDev devRun (c1.setB Fld.SYS_STATE_TRIAL false)).setB Fld.UPD_STATUS_RESTART_MODE false).raise .upd updConfirmed
          if due then (none, c2.onUpd fun u => { u with kiln := some r.area })
          else (some (.int 0), c2.onUpd fun u => { u with release := some (r.area, 0) })

/-- One 256-octet step of the release of the old settings area (R374). -/
def releaseStep (c : Chip) : Chip :=
  match c.upd.release with
  | none => c
  | some (a, done_) =>
    if c.spaceAccess 4 ≠ .served then c
    else
      let c1 := clearMram (areaBase a + done_) (min 256 (areaLen - done_)) c
      c1.onUpd fun u => { u with release := if areaLen ≤ done_ + 256 then none else some (a, done_ + 256) }

/-! ### Abort and ledger -/

/-- UPD_ABORT (R364). -/
def opUpdAbort (host : Bool) (args : List Word) (c : Chip) : Word × Chip :=
  let r := c.slotRec
  match c.updRefusal 0x57 host args with
  | some w => (w, c)
  | none =>
    let c1 := if host && r.owner == ownerRadio then preempt c else c
    (.int 0, putRec { r.setSlot r.staging slotEmpty with owner := ownerNone, length := 0 } c1)

/-- LEDGER_CLEAR (R360). -/
def opLedgerClear (host : Bool) (args : List Word) (c : Chip) : Word × Chip :=
  let m := argOf args 0
  match c.updRefusal 0x59 host args with
  | some w => (w, c)
  | none =>
    if m.tag ≠ .bits then (refused .badArg, c)
    else (.int 0, putRec { c.slotRec with alt := Nat.land c.slotRec.alt (65535 - m.nat % 65536) } c)

/-- A write of UPD_SETTINGS_REPORT (R373, R380). DEDUCED: log entry 123. -/
def settingsReport (code : Nat) (c : Chip) : Chip :=
  if c.dev = devGerminate ∧ c.trial = true ∧ (code = Status.ok.code ∨ code = Status.settingsUnreadable.code) then
    let c1 := c.setRegN Reg.UPD_SETTINGS_REPORT code
    if code = Status.settingsUnreadable.code then
      (c1.onUpd fun u => { u with unreadable := true }).raise .upd updReported
    else c1
  else c.regReject

/-- UPD_SETTINGS_REPORT_WRITE (R373). -/
def execUpdSettingsReportWrite (code : BitVec 12) (s : State) : Host.Outcome State Fault Refusal :=
  onChip (settingsReport code.toNat) s

/-! ### DEAD and recovery sessions (R376 to R379) -/

/-- The islands that are off in RECOVERY and DEAD (R376). -/
def romOff : List Island := [.rfRxA, .rfRxB, .rfTx, .lane, .link, .ddr, .chain]

/-- The present power state, in its three homes (R24). -/
def setPower (p : Nat) (c : Chip) : Chip := (c.setF Fld.SYS_STATE_POWER_STATE p).setF Fld.PWR_STATUS_STATE p

/-- The ROM runs alone, in RECOVERY or DEAD (R376, R379, R381): no recipe in force, radio islands off, pads latched with
pull-downs, PCIe, quad SPI and UART0 served. -/
def enterRom (d level : Nat) (c : Chip) : Chip :=
  let c1 := (romOff.foldl (fun c i => (c.resetRegs i).setIsland i .off) c).setIsland .pcie .on
  let c2 := { c1 with
    recipe := none
    kept := none
    pwr := { c1.pwr with level := level } }
  let c3 := ((c2.setB Fld.SYS_STATE_ROLE_VALID false).setB Fld.PAD_STATUS_LATCHED true).setF Fld.PAD_STATUS_LATCH_CAUSE 3
  let c4 := ((c3.setB Fld.HOST_FEATURE_PCIE true).setB Fld.HOST_FEATURE_QSPI true).setB Fld.HOST_FEATURE_UART0 true
  setDev d (setPower level c4)

/-- The fuses DEAD burns (R189, R379). -/
abbrev deadBurns : List (Nat × Nat) := [(3, 3)]

/-- DEAD burns its fuses as soon as the supply allows (R379). -/
def burnDead (o : Store Nat) (c : Chip) : Chip :=
  if c.dev = devDead ∧ c.mayBurn = true ∧ burnsNew o deadBurns = true then burn deadBurns c else c

/-- Entry to DEAD (R379): the chip runs at Twilight and debug access is closed. -/
def enterDead (o : Store Nat) (c : Chip) : Chip := burnDead o (enterRom devDead 3 c)

/-- Entry to RECOVERY (R376). -/
def enterRecovery (c : Chip) : Chip := enterRom devRecovery 2 c

/-- DEAD_FUSE_BURN (R379). -/
def execDeadFuseBurn (s : State) : Host.Outcome State Fault Refusal := onChipBurn burnDead s

/-- A recovery-count bit to burn (R188). -/
def recoveryBurn (o : Store Nat) : List (Nat × Nat) := [(4, 2 ^ recoveryCount o)]

/-- A recovery session fails (R378): a bit of the recovery count is burned, or pending; the sixteenth enters DEAD. -/
def sessionFail (o : Store Nat) (c : Chip) : Chip :=
  let r := { c.slotRec with recoveryOpen := false }
  let c1 := c.onUpd fun u => { u with session := none }
  if c.mayBurn then
    let c2 := burn (recoveryBurn o) (putRec r c1)
    if 15 ≤ recoveryCount o then enterDead o c2 else c2
  else putRec { r with countPending := true } c1

/-- RCV_BEGIN on a path (R377, R378): a second one while a session is open fails that session, and is refused.
DEDUCED: log entry 122. -/
def opRcvBegin (o : Store Nat) (path : Nat) (args : List Word) (c : Chip) : Word × Chip :=
  let r := c.slotRec
  if c.upd.session.any (· != path) then (refused .busy, c)
  else if r.recoveryOpen then (c.stateRefused, sessionFail o c)
  else if c.locked_ then (refused .locked, c)
  else if c.pin pinMotion || c.b Fld.UPD_CTRL_MOVING then (refused .moving, c)
  else if c.f Fld.PWR_MONITOR_VSYS_MV < c.regN Reg.UPD_MIN_SUPPLY then (refused .lowSupply, c)
  else if ! imageLenOk (argOf args 0) then (refused .badArg, c)
  else if r.countPending then (refused .lowSupply, c)
  else
    let c1 := putRec { r.setSlot r.staging slotWriting with
      owner := ownerNone
      recoveryOpen := true
      length := (argOf args 0).nat } c
    (.int 0, c1.onUpd fun u => { u with session := some path })

/-- Whether a path holds the recovery session; the refusal where it does not. -/
def Chip.sessionRefusal (c : Chip) (path : Nat) : Option Word :=
  if c.upd.session.any (· != path) then some (refused .busy)
  else if ! c.slotRec.recoveryOpen then some c.stateRefused else none

/-- One step of RCV_DATA (R377). -/
def stepRcvData (path : Nat) (args : List Word) (done_ : Nat) (c : Chip) : Option Word × Nat × Chip :=
  let r := c.slotRec
  match c.sessionRefusal path with
  | some w => (some w, done_, c)
  | none =>
    if ! c.copyOk (argOf args 0) (argOf args 1) (argOf args 2) r.length then (some (refused .badArg), done_, c)
    else copyStep (slotBase r.staging) (argOf args 0).nat (argOf args 1).nat (argOf args 2).nat done_ c

/-- RCV_END (R377, R378): the refusal, or none where the image is installed and the device resets. -/
def opRcvEnd (o : Store Nat) (path : Nat) (c : Chip) : Option Word × Chip :=
  let r := c.slotRec
  let s := r.staging
  match c.sessionRefusal path with
  | some w => (some w, c)
  | none => match c.verifyImage o s with
    | .error w => (some w, sessionFail o (noteAuth (w, imageSeen s c)).2)
    | .ok _ =>
      (none, deviceReset none false (putRec { (r.setSlot s slotConfirmed).setSlot (1 - s) slotEmpty with recoveryOpen := false } c))

/-- RCV_ABORT (R378): an open session fails; with none open it costs nothing. -/
def opRcvAbort (o : Store Nat) (path : Nat) (c : Chip) : Word × Chip :=
  if c.upd.session.any (· != path) then (refused .busy, c)
  else if c.slotRec.recoveryOpen then (.int 0, sessionFail o c) else (.int 0, c)

end Sys2Proof.Machine
end

