-- ==== Sys2Proof/Machine/Islands.lean ====
section
/-! DEFINITION. What an island loses when it stops, what a recipe puts into it, and its return (R12, R13, R70, R73, R118,
R182, R197, R261 to R266, R270, R333, R346). -/

namespace Sys2Proof.Machine

/-! ### What a recipe puts into each island (R270) -/

/-- Whether an entry of PIN_MUX names a pad; a pad that none names is a GPIO input with pull-down (R265). -/
def Recipe.padOf (r : Recipe) (p : Nat) : PadEntry :=
  (r.pads.find? fun e => e.pad == p).getD { pad := p, fn := 0, held := 2, drive := 0 }

/-- The pads of a recipe: functions, held states, and the GPIO registers at what HELD says (R265, R425). -/
def applyPads (r : Recipe) (c : Chip) : Chip :=
  (List.range 40).foldl (fun c p =>
    let e := r.padOf p
    let drive := decide (e.held < 2)
    let c1 := c.setRegN (Reg.PAD_CFG p) (e.fn * 256 + (if e.held = 2 then 1 else if e.held = 3 then 2 else 0) * 16 + e.drive * 4 + e.held)
    let out : Field := ⟨if p < 32 then Reg.PAD_GPIO_OUT_LO else Reg.PAD_GPIO_OUT_HI, p % 32, 1⟩
    let oe : Field := ⟨if p < 32 then Reg.PAD_GPIO_OE_LO else Reg.PAD_GPIO_OE_HI, p % 32, 1⟩
    (c1.setB out (e.fn == 0 && e.held == 1)).setB oe (e.fn == 0 && drive)) c

/-- A receive chain takes its setting and initial centre (R47, R266). -/
def applyChain (x : Nat) (r : Recipe) (c : Chip) : Chip :=
  let centre := if x = 0 then r.plan.centreA else r.plan.centreB
  let c1 := c.setB (Fld.RF_CHAIN_CTRL_SETTING x) (r.plan.narrow x)
  if r.plan.uses x then c1.setRegN (Reg.RF_CHAIN_FREQ x) centre else c1

/-- Whether the recipe provides an external PA (R265). -/
def Recipe.extPa (r : Recipe) : Bool := r.paObs && r.pads.any fun e => e.fn == 9

/-- RF_FEATURE (R73). -/
def applyRfFeature (r : Recipe) (c : Chip) : Chip :=
  c.setRegN Reg.RF_FEATURE (b2n r.extPa * 32 + b2n (r.plan.narrow 1) * 16 + b2n (r.plan.narrow 0) * 8 + 4
    + b2n (r.plan.uses 1) * 2 + b2n (r.plan.uses 0))

/-- LANE_CAPS of a lane entry (R105). -/
def laneCaps (r : Recipe) (e : LaneEntry) : Nat :=
  e.chain * 64 + b2n (r.plan.narrow (if e.chain = 1 then 1 else 0)) * 32 + b2n (bitOf e.families 0) * 16
    + b2n (bitOf e.families 1) * 8 + b2n (bitOf e.families 2) * 4

/-- A lane takes its entry: its registers at their initial values; if ENABLE is 1 it is up once its chain has locked
(R77, R266). -/
def applyLane (r : Recipe) (e : LaneEntry) (c : Chip) : Chip :=
  let n := e.lane
  let c1 := ((c.setRegN (Reg.LANE_CAPS n) (laneCaps r e)).setRegN (Reg.LANE_FREQ n) e.freq).setRegN (Reg.LANE_PHY n) e.phy
  let c2 := c1.setB (Fld.LANE_CTRL_LISTEN n) e.listen
  if e.enable then setLaneSt n { (c2.laneSt n) with awaitLock := true } c2 else c2

/-- LINK_FEATURE but for its RINGS (R134). -/
def linkFeature (r : Recipe) (c : Chip) : Chip :=
  (((c.setF Fld.LINK_FEATURE_PARTNER_ENTRIES r.partners).setF Fld.LINK_FEATURE_CCM_INSTANCES r.plan.lanes.length).setB
    Fld.LINK_FEATURE_TSCH (r.plan.schedLanes != 0)).setB Fld.LINK_FEATURE_PSCHED (r.plan.schedLanes != 0 && r.partners != 0)

/-- Lanes that return are driven by the scheduler again where it runs TSCH or holds a reservation (R79). -/
def lanesReserved (c : Chip) : Chip :=
  c.radio.windows.foldl (fun c w =>
    (setLaneSt w.lane { (c.laneSt w.lane) with owner := some w.handle } c).setB (Fld.LANE_STATUS_SCHEDULED w.lane) true)
    (if c.isOn .link && c.b Fld.LINK_TSCH_CTRL_RUN && c.f Fld.LINK_CTRL_SCHED_MODE == 1 then tschDrive true c else c)

/-- Whether the chip is a numbered member of a gang other than chip 0 (R381). -/
def Chip.farChip (c : Chip) : Bool := c.gang.numbered && c.f Fld.SYS_STATE_CHIP_NUMBER != 0

/-- HOST_FEATURE: the paths that are served (R381, R407). -/
def hostFeature (r : Recipe) (c : Chip) : Chip :=
  c.setRegN Reg.HOST_FEATURE (b2n (r.hasIsland .chain) * 16 + b2n (decide (2 ≤ r.hostPath)) * 4
    + b2n (r.pciePath && ! c.farChip) * 2 + b2n (bitOf r.sysPorts 1))

/-- The registers that a recipe fixes in one island (R240, R262, R266, R270, R351). -/
def applyIsland (i : Island) (r : Recipe) (c : Chip) : Chip :=
  match i with
  | .aon =>
    let c1 := (applyPads r c).setRegN Reg.PWR_FEATURE (r.sleeps * 16 + r.levels)
    (c1.setF Fld.SYS_STATE_ROLE r.role).setB Fld.SYS_STATE_ROLE_VALID true
  | .rfRxA => applyChain 0 r c
  | .rfRxB => applyChain 1 r c
  | .rfTx => refreshTx (applyRfFeature r c)
  | .lane => lanesReserved
      ([0, 1].foldl (fun c x => if c.locked x then lanesAwaited x c else c) (r.plan.lanes.foldl (fun c e => applyLane r e c) c))
  | .link =>
    let c1 := ((linkFeature r c).setRegN Reg.LINK_PARTNER_BASE r.partnerBase).setRegN
      Reg.LINK_PSCHED_BASE (r.partnerBase + 8 * r.partners)
    linkOscFollow ((c1.setRegN Reg.LINK_SCHED_LANES_LO (r.plan.schedLanes % 2 ^ 32)).setRegN Reg.LINK_SCHED_LANES_HI
      (r.plan.schedLanes / 2 ^ 32))
  | .memD =>
    let c1 := (c.setB Fld.MEM_FEATURE_DDR (r.hasIsland .ddr)).setB Fld.MEM_FEATURE_TABLE_SRAM (r.hasIsland .memT)
    let c2 := c1.setRegN Reg.MEM_PARTITION (r.endpointHome * 2 ^ 32 + r.linkBanks * 2 ^ 16 + r.userBanks)
    refreshMem ((refreshMarch c2).setRegN Reg.MEM_ENDPOINT_SRAM (65536 * r.groups))
  | .pcie => hostFeature r c
  | .evf =>
    let caps := ((List.range 8).filter fun k => r.pads.any fun e => e.fn == 16 + k).foldl (fun n k => n + 2 ^ k) 0
    (c.setF Fld.TMR_FEATURE_CAP_PINS caps).setRegN Reg.EVF_FEATURE (r.routes.length * 2 ^ 16
      + (r.cells.filter fun x => x.enable).length * 2 ^ 10 + b2n (r.role == 3) * 2 ^ 9)
  | _ => c

/-- A whole recipe is applied: ISLANDS first, then what each island takes of it (R270). -/
def applyRecipe (r : Recipe) (c : Chip) : Chip :=
  let c1 := allIslands.foldl (fun c i => if r.present i then c else (c.resetRegs i).setIsland i .absent) { c with recipe := some r }
  allIslands.foldl (fun c i => if c.isOn i then applyIsland i r c else c) c1

/-! ### What an island loses when it stops (R12, R13) -/

/-- Operations in flight in a stopping island complete STATE_REFUSED (R12); those without a ticket just end. -/
def stopTickets (sel : Ticket → Bool) (c : Chip) : Chip :=
  (c.tk.held.filter fun t => t.state == 2 && sel t).foldl (fun c t => finishTicket t.number c.stateRefused c)
    (c.onTk fun k => { k with orphans := k.orphans.filter fun t => ! (t.state == 2 && sel t) })

/-- A receive chain's island stops: frames on it are abandoned and its synthesizer is idle. -/
def chainDown (x : Nat) (i : Island) (c : Chip) : Chip :=
  let c1 := if c.isOn i then chainEnableWrite x false c else c
  lanesCombine (setSynth x .idle (c1.resetRegs i))

/-- The RF-TX island stops (R70, R73): carriers are cut, the coefficient store is lost, and its registers return to reset
but those the receive chains keep using. -/
def rfTxDown (c : Chip) : Chip :=
  let c1 := if c.isOn .rfTx then chainEnableWrite 2 false c else c
  let agc := c1.reg Reg.RF_AGC_CONFIG
  let level := c1.reg Reg.RF_GAIN_EVENT_LEVEL
  let c2 := ((c1.resetRegs .rfTx).setReg Reg.RF_AGC_CONFIG agc).setReg Reg.RF_GAIN_EVENT_LEVEL level
  let c3 := [0, 1].foldl (fun c x => setSynth x { (c.synth x) with calUntil := none } c) c2
  setSynth 2 .idle (c3.onRadio fun r => { r with
    autoFor := none
    dpd := []
    tempBin := none
    solveSet := none
    swapSet := none
    burst := none
    cal := none
    effMax := Radio.reset.effMax
    effPa := Radio.reset.effPa
    effTotal := Radio.reset.effTotal })

/-- Frames that a test names are gone, with the slots they hold. -/
def loseFrames (sel : Frame → Bool) (c : Chip) : Chip :=
  let gone := c.radio.frames.filter sel
  let c1 := gone.foldl (fun c f => match f.slot with
    | some s => releaseSlot s c
    | none => c) c
  c1.onRadio fun r => { r with frames := r.frames.filter fun f => ! sel f }

/-- The LANE island stops: frames still in its lanes are gone. -/
def laneDown (c : Chip) : Chip :=
  let c1 := loseFrames (fun f => f.endAt.isNone) c
  (c1.onRadio fun r => { r with lanes := [] }).resetRegs .lane

/-- The scheduler lets go of every lane it drives or holds (R79, R147): timeslots and windows have ended. -/
def lanesLetGo (c : Chip) : Chip :=
  c.radio.windows.foldl (fun c w => freeLane w.lane (laneListen w.lane false c)) (tschDrive false (tschStopRx c))

/-- An island's registers return to reset but for some that it still knows, hidden while it does not serve. -/
def resetRegsBut (keep : List Nat) (i : Island) (c : Chip) : Chip :=
  keep.foldl (fun d a => d.setReg a (c.reg a)) (c.resetRegs i)

/-- Where the partner table lies, which a stop of LINK does not change: an operation on a partner completes STATE_REFUSED (R12,
R138). -/
abbrev partnerPlaces : List Nat := [Reg.LINK_FEATURE, Reg.LINK_PARTNER_BASE, Reg.LINK_PSCHED_BASE]

/-- The LINK island stops: requests in it complete STATE_REFUSED, its rings and schedules are gone, and the check units
with them. Frames still in their lanes go on without it. -/
def linkDown (c : Chip) : Chip :=
  let c1 := finishWhere (fun _ => true) txStateRefused (lanesLetGo c)
  let c2 := match c1.radio.op with
    | some p => (match p.ticket with
      | some t => finishTicket t c1.stateRefused c1
      | none => c1)
    | none => c1
  let keep := (c2.radio.frames.filter fun f => f.endAt.isNone).map fun f => { f with
    started := false
    taken := false
    looked := false
    handle := none
    entry := []
    slot := none
    triedRing := none }
  let r := c2.radio
  refreshAir (resetRegsBut partnerPlaces .link ({ c2 with
    chk := []
    radio := { Radio.reset with
      synths := r.synths
      effMax := r.effMax
      effPa := r.effPa
      effTotal := r.effTotal
      dpd := r.dpd
      tempBin := r.tempBin
      solveSet := r.solveSet
      solveTemp := r.solveTemp
      swapSet := r.swapSet
      burst := r.burst
      cal := r.cal
      calNow := r.calNow
      followDue := r.followDue
      autoFor := none
      ramps := r.ramps
      lanes := r.lanes
      frames := keep
      nextId := r.nextId
      carriers := r.carriers.filter fun k => k.kind == CarrierKind.training
      wurHold := r.wurHold } }))

/-- Where the endpoint tables lie, which a stop of MEM-D does not change: operations on them complete STATE_REFUSED (R12, R182). -/
abbrev tablePlaces : List Nat := [Reg.MEM_PARTITION, Reg.MEM_ENDPOINT_SRAM, Reg.MEM_ENDPOINT_LIMIT]

/-- The mailboxes of paths return to reset, a command in progress with its reply discarded (R393). -/
def mbxDown (paths : List Nat) (c : Chip) : Chip := paths.foldl (fun c p => setMbx p .idle c) c

/-- An island stops, by a restart or for a sleep: what it holds is lost (R12, R13, R333). Memory contents are kept. -/
def islandDown (i : Island) (c : Chip) : Chip :=
  match i with
  | .rfRxA => chainDown 0 .rfRxA c
  | .rfRxB => chainDown 1 .rfRxB c
  | .rfTx => rfTxDown c
  | .lane => laneDown c
  | .link => linkDown c
  | .core => mbxDown [0] (coreDown c)
  | .memD => (resetRegsBut tablePlaces .memD c).onMems fun m => { m with
      portA := none
      portB := none
      scrubDue := []
      scrubPos := []
      march := 0
      marchDue := 0
      marchRun := none
      forwards := [] }
  | .memT => marchStop (fun g => decide (dataSegments ≤ g)) (stopTickets (fun t => engineOf t.code == 3) c)
  | .mram => stopTickets (fun t => engineOf t.code == 4) c
  | .ddr => refreshMem ((stopTickets (fun t => t.dram.isSome || t.sweep.any fun s => spaceOf (c.recordPtr s.next) == 3)
      (c.resetRegs .ddr)).onMems fun m => { m with training := false })
  | .pcie => mbxDown [1, 2, 3, 4] (c.resetRegs .pcie)
  | .chain => { c.resetRegs .chain with gang := { Gang.reset with
      numbered := c.gang.numbered
      seq := c.gang.seq
      remote := c.gang.remote
      enumPaths := c.gang.enumPaths
      takeover := c.gang.takeover
      breakSeen := c.gang.breakSeen } }
  | .wur => (c.resetRegs .wur).onRadio fun r => { r with wurHold := none }
  | .evf => { c.resetRegs .evf with fab := .reset }
  | .aon | .rtc => c

/-- An island comes back from a restart: on, with what the recipe puts into it (R13, R73, R118, R197, R275). -/
def islandUp (o : Store Nat) (i : Island) (c : Chip) : Chip :=
  let c0 := c.setIsland i .on
  let c1 := match i with
    | .rfTx => (c0.setReg Reg.RF_AGC_CONFIG (regReset Reg.RF_AGC_CONFIG)).setReg Reg.RF_GAIN_EVENT_LEVEL
        (regReset Reg.RF_GAIN_EVENT_LEVEL)
    | .core => secUp o c0
    | .link => linkOscFollow c0
    | _ => c0
  let c2 := match c1.recipe with
    | some r => applyIsland i r c1
    | none => c1
  if i = .rfTx then firstTemp c2 else c2

/-! ### Sleep (R333, R346) -/

/-- The islands a sleep state powers off: in Small Hours the wake-up receiver too (R157, R333). -/
def sleepOff (target : Nat) (c : Chip) : List Island :=
  let night : List Island := [.rfRxA, .rfRxB, .rfTx, .lane, .link, .core, .memD, .memT, .mram, .ddr, .chain, .evf]
  let host := (c.recipe.map fun r => r.hostPath).getD 0
  if target = 7 then night ++ [.pcie, .wur]
  else if target = 5 ∧ (host = 1 ∨ host = 3) then night else night ++ [.pcie]

/-- The words a sleep state keeps: in Night, the retained data banks, retention SRAM, and DRAM in self-refresh; in Midnight,
retention SRAM (R346, R178). -/
def sleepKeeps (target mask : Nat) (refresh : Bool) (p : Nat) : Bool :=
  match target with
  | 5 => retainedWord mask p || (refresh && spaceOf p == 3)
  | 6 => spaceOf p == 6
  | _ => false

/-- The instruction slots a sleep state keeps: in Night, the active bank (R346). -/
def sleepImem (target bank k : Nat) : Bool := target == 5 && k / 0x40000 == bank

/-- Islands are powered off for a sleep: clamps, lost registers, lost memories (R341 steps 2 to 4, R346). -/
def sleepDown (target : Nat) (c : Chip) : Chip :=
  let refresh := c.b Fld.MEM_DDR_CTRL_SELF_REFRESH_IN_NIGHT && c.island .ddr == .on
  let mask := c.regN Reg.PWR_RETAIN_MASK
  let keep := sleepKeeps target mask refresh
  let c1 := (sleepOff target c).foldl (fun c i =>
    if c.island i == .absent then c else (islandDown i c).setIsland i .off) c
  let c1 := (c1.setReg Reg.RF_AGC_CONFIG (regReset Reg.RF_AGC_CONFIG)).setReg Reg.RF_GAIN_EVENT_LEVEL
    (regReset Reg.RF_GAIN_EVENT_LEVEL)
  let c2 := c1.onMems fun m => { m with
    words := Store.drop m.words fun p => ! keep p
    flaws := Store.drop m.flaws fun p => ! (keep p || (spaceOf p == 7 && sleepImem target c.core.bank (addrOf p)))
    ddrFillAt := none
    ddrWritten := []
    ddrKept := target == 5 && refresh
    ddrPower := if target == 5 && refresh then m.ddrPower else none
    portA := none
    portB := none
    forwards := [] }
  { c2 with
    core := { c2.core with
      im := Store.drop c2.core.im fun k => ! sleepImem target c.core.bank k
      shadowValid := false }
    upd := { c2.upd with reload := none }
    radio := { c2.radio with ramps := [] } }

end Sys2Proof.Machine
end

