-- ==== Sys2Proof/Machine/Power.lean ====
section
/-! DEFINITION. The power controller (15_power.md): requests, transitions, Dusk, sleep and wake, the idle timer, the thermal
guard, brown-out, and the pad latches. -/

namespace Sys2Proof.Machine

/-- Change the power controller's hidden state. -/
def Chip.onPwr (c : Chip) (g : Pwr → Pwr) : Chip := { c with pwr := g c.pwr }

/-! ### Requests (R334, R335) -/

/-- The answer to a sequence number: PWR_RESULT, and DONE, REFUSED or SUPERSEDED raised (R334, R351). -/
def pwrAnswer (seq target : Nat) (st : Status) (c : Chip) : Chip :=
  let c1 := ((c.setF Fld.PWR_RESULT_SEQ seq).setF Fld.PWR_RESULT_TARGET target).setF Fld.PWR_RESULT_STATUS st.code
  c1.raise .pwr (if st = .ok then 0 else if st = .superseded then 2 else 1)

/-- Whether the device state permits a target (R23). -/
def Chip.devPermits (c : Chip) (target : Nat) : Bool :=
  if c.dev = devRun then true
  else if c.dev = devGerminate then c.trial || decide (target ≤ 4)
  else c.dev == devRecovery && target == 2

/-- Whether the recipe permits a target (R17, R260), and the alternate of step S3 a level: without the system PLL the
levels above Evening are refused (R360). DEDUCED: log entry 26. -/
def Chip.recipePermits (c : Chip) (target : Nat) : Bool :=
  if target ≤ 3 then (c.f Fld.PWR_FEATURE_LEVELS).testBit target && ! (decide (target ≤ 1) && c.stepCode 3 == 2)
  else (c.f Fld.PWR_FEATURE_SLEEPS).testBit (target - 4)

/-- Checks 1 to 7 of R335: the answer of the first that holds. -/
def Chip.powerRefusal (c : Chip) (target : Nat) : Option Status :=
  if c.dev = devDead then some .dead
  else if ! c.devPermits target then some .stateRefused
  else if ! c.recipePermits target then some .stateRefused
  else if target ≤ 1 ∧ c.b Fld.PWR_STATUS_THERMAL_HOLD = true then some .stateRefused
  else if 5 ≤ target ∧ c.remash.isSome = true then some .stateRefused
  else if target = 7 ∧ c.b Fld.RTC_CTRL_NO_BACKUP = true then some .stateRefused
  else if 5 ≤ target ∧ c.tk.held ≠ [] then some .busy
  else none

/-- The time a level transition takes: 671 gr per 0.10 V of rail and 8 gr for the clock (R337). -/
def levelTime (a b : Nat) : Nat := 671 * ((a : Int) - b).natAbs + 8

/-- Every lane stops listening (R341). -/
def lanesDeaf (c : Chip) : Chip := c.laneNumbers.foldl (fun c n => laneListen n false c) c

/-- A transition becomes active; an entry to Night or deeper begins to latch wake sources (R336, R337, R341, R342). -/
def startTransition (seq target : Nat) (forced : Bool) (c : Chip) : Chip :=
  let c1 := ((c.setB Fld.PWR_STATUS_ACTIVE true).setF Fld.PWR_STATUS_ACTIVE_TARGET target).setF Fld.PWR_STATUS_ACTIVE_SEQ
    (if forced then 0 else seq)
  let c2 := c1.onPwr fun p => { p with activeForced := forced, doneAt := if target ≤ 3 then some (c.now + levelTime c.power target) else none }
  if target ≤ 4 then c2
  else lanesDeaf ((c2.setB Fld.PWR_STATUS_ENTRY_WAIT true).onPwr fun p => { p with latched := 0, pinHeld := [] })

/-- The pending request is answered SUPERSEDED and forgotten (R336, R339, R340). -/
def supersedePending (c : Chip) : Chip :=
  if c.b Fld.PWR_STATUS_PENDING then
    ((pwrAnswer c.pwr.pendingSeq (c.f Fld.PWR_STATUS_PENDING_TARGET) .superseded c).setB Fld.PWR_STATUS_PENDING false).setF
      Fld.PWR_STATUS_PENDING_TARGET 0
  else c

/-- A write of a state code to PWR_REQUEST (R334 to R336). In Small Hours, and held in reset, nothing takes it. -/
def powerRequest (target : Nat) (c : Chip) : Chip :=
  if c.power = 7 ∨ c.pwr.heldInReset = true then c
  else if 8 ≤ target then c.regReject
  else
    let seq := (c.f Fld.PWR_STATUS_LAST_SEQ + 1) % 256
    let c1 := c.setF Fld.PWR_STATUS_LAST_SEQ seq
    match c1.powerRefusal target with
    | some st => pwrAnswer seq target st c1
    | none =>
      if c1.b Fld.PWR_STATUS_ACTIVE then
        (((supersedePending c1).setB Fld.PWR_STATUS_PENDING true).setF Fld.PWR_STATUS_PENDING_TARGET target).onPwr fun p =>
          { p with pendingSeq := seq }
      else if target = c1.power then pwrAnswer seq target .ok c1
      else startTransition seq target false c1

/-- PWR_REQUEST (R335). -/
def execPwrRequest (target : BitVec 4) (s : State) : Host.Outcome State Fault Refusal := onChip (powerRequest target.toNat) s

/-! ### Transitions (R336, R337, R340) -/

/-- The pending request starts, checked again (R335, R336). -/
def startPending (c : Chip) : Chip :=
  if c.b Fld.PWR_STATUS_PENDING then
    let target := c.f Fld.PWR_STATUS_PENDING_TARGET
    let seq := c.pwr.pendingSeq
    let c1 := (c.setB Fld.PWR_STATUS_PENDING false).setF Fld.PWR_STATUS_PENDING_TARGET 0
    match c1.powerRefusal target with
    | some st => pwrAnswer seq target st c1
    | none => if target = c1.power then pwrAnswer seq target .ok c1 else startTransition seq target false c1
  else c

/-- What follows a transition: a forced one first, unless the chip is at Evening already, then the pending request (R336,
R340). DEDUCED: log entry 153. -/
def startNext (c : Chip) : Chip :=
  if ! c.pwr.forcedNext then startPending c
  else
    let c1 := c.onPwr fun p => { p with forcedNext := false }
    if c1.power = 2 then startPending c1 else startTransition 0 2 true c1

/-- The active transition is over: its status fields clear. DEDUCED: log entry 25. -/
def clearActive (c : Chip) : Chip :=
  ((((c.setB Fld.PWR_STATUS_ACTIVE false).setF Fld.PWR_STATUS_ACTIVE_TARGET 0).setF Fld.PWR_STATUS_ACTIVE_SEQ 0).setB
    Fld.PWR_STATUS_ENTRY_WAIT false).onPwr fun p => { p with activeForced := false, doneAt := none }

/-- The active transition completes: it is answered OK unless it was forced, and counted (R336, R340). -/
def transitionEnd (c : Chip) : Chip :=
  let c1 := if c.pwr.activeForced then c
    else pwrAnswer (c.f Fld.PWR_STATUS_ACTIVE_SEQ) (c.f Fld.PWR_STATUS_ACTIVE_TARGET) .ok c
  startNext ((clearActive c1).bump Fld.PWR_COUNTS_TRANSITIONS)

/-- TRANSITION_DONE (R336): rail and clock of a level transition have settled. -/
def transitionDone (c : Chip) : Chip :=
  match c.pwr.doneAt with
  | some g =>
    if c.b Fld.PWR_STATUS_ACTIVE && decide (c.f Fld.PWR_STATUS_ACTIVE_TARGET ≤ 3) && decide (c.power ≤ 3) && decide (g ≤ c.now) then
      let t := c.f Fld.PWR_STATUS_ACTIVE_TARGET
      transitionEnd ((setPower t c).onPwr fun p => { p with level := t })
    else c
  | none => c

/-- TRANSITION_DONE (R336). -/
def execTransitionDone (s : State) : Host.Outcome State Fault Refusal := onChip transitionDone s

/-! ### Dusk (R341) -/

/-- DUSK_ENTRY (R341): no LSU access is outstanding, and the core clock is gated. -/
def duskEntry (c : Chip) : Chip :=
  if c.b Fld.PWR_STATUS_ACTIVE && c.f Fld.PWR_STATUS_ACTIVE_TARGET == 4 && decide (c.power ≤ 3) && c.core.accesses.isEmpty
      && c.core.stalled.isNone then
    (setPower 4 c).onPwr fun p => { p with level := c.power, doneAt := none }
  else c

/-- DUSK_ENTRY (R341). -/
def execDuskEntry (s : State) : Host.Outcome State Fault Refusal := onChip duskEntry s

/-- In a tick of Dusk that finds an enabled input pending, the wake begins: the core resumes 34 gr later (R341).
DEDUCED: log entry 29. -/
def duskMark (c : Chip) : Chip :=
  if c.power = 4 ∧ c.anyReady = true ∧ c.pwr.doneAt = none then c.onPwr fun p => { p with doneAt := some (c.now + 34) } else c

/-- DUSK_WAKE (R341): the core resumes at the level in force, once the 34 gr have passed. -/
def duskWake (c : Chip) : Chip :=
  match c.pwr.doneAt with
  | some g => if c.power = 4 ∧ g ≤ c.now then transitionEnd (setPower c.pwr.level c) else c
  | none => c

/-- DUSK_WAKE (R341). -/
def execDuskWake (s : State) : Host.Outcome State Fault Refusal := onChip duskWake s

/-! ### Night, Midnight and Small Hours (R341 to R347) -/

/-- The next 32.768 kHz tick edge after a grain. -/
def nextEdge (t : Nat) : Nat := (t / 2048 + 1) * 2048

/-- Multiplexed pads latch (R349). -/
def latchPads (cause : Nat) (c : Chip) : Chip := (c.setB Fld.PAD_STATUS_LATCHED true).setF Fld.PAD_STATUS_LATCH_CAUSE cause

/-- SLEEP_ENTRY_DRAINED (R341): no frame, carrier or ACK is left; the core stops, islands power off and pads latch. Entry
completes at the next tick edge (entryComplete). -/
def sleepEntryDrained (c : Chip) : Chip :=
  if c.entering && c.b Fld.PWR_STATUS_ENTRY_WAIT && decide (c.power ≤ 3) && c.radio.frames.isEmpty && c.radio.carriers.isEmpty
      && c.radio.acks.isEmpty then
    let target := c.f Fld.PWR_STATUS_ACTIVE_TARGET
    let c1 := latchPads 1 ((sleepDown target c).setB Fld.PWR_STATUS_ENTRY_WAIT false)
    (setPower target c1).onPwr fun p => { p with wakeEdge := none, entered := nextEdge c.now, doneAt := none }
  else c

/-- SLEEP_ENTRY_DRAINED (R341). -/
def execSleepEntryDrained (s : State) : Host.Outcome State Fault Refusal := onChip sleepEntryDrained s

/-- The wake delay of Night or Midnight (R343, R347). -/
def Chip.wakeDelay (c : Chip) : Nat :=
  if c.power = 5 then 16106
  else
    let len := match findSection (c.imageTable c.upd.slot) 1 with
      | some r => r.length
      | none => 0
    120796 + 8389 * ceilDiv (len - 786432) 65536

/-- PWR_WAKE_AT, the grain by which the first bundle must run (R345). -/
def Chip.wakeAt (c : Chip) : Nat := c.regN Reg.PWR_WAKE_AT_LO + c.regN Reg.PWR_WAKE_AT_HI * 2 ^ 36

/-- The wake sources enabled in PWR_WAKE_ENABLE, in the places of PWR_WAKE_STATUS; the wake time is apart (R342). -/
def Chip.wakeSources (c : Chip) : Nat :=
  let e := c.regN Reg.PWR_WAKE_ENABLE
  b2n (bitOf e 0) + b2n (bitOf e 1) * 2 + b2n (bitOf e 3) * (8 + 0xF00) + b2n (bitOf e 4) * 16

/-- Entry completes at its tick edge (R341, R342, R345): Small Hours locks the RTC out and moves it to VBAT; else the edge of
the wake time is chosen, and a source that fired during entry starts the wake at the next edge. DEDUCED: log entry 30. -/
def entryComplete (c : Chip) : Chip :=
  if c.power = 7 then switchToVbat c
  else
    let last := if c.wakeAt < c.wakeDelay then 0 else (c.wakeAt - c.wakeDelay) / 2048 * 2048
    let c1 := if ! c.b Fld.PWR_WAKE_ENABLE_TIMER then c
      else if c.now < last then c.onPwr fun p => { p with wakeEdge := some last }
      else (c.setB Fld.PWR_WAKE_STATUS_TIMER_LATE true).onPwr fun p => { p with wakeEdge := some (c.now + 2048) }
    if Nat.land c.pwr.latched c.wakeSources = 0 then c1 else c1.setB Fld.PWR_WAKE_STATUS_DURING_ENTRY true

/-- One tick edge of an entry or a sleep: the four wake pin entries are sampled, each firing once it has held for 2 ticks (R342). -/
def wakePins (c : Chip) : Chip :=
  (List.range 4).foldl (fun c m =>
    let e := bitsOf (c.regN Reg.PWR_WAKE_PINS) (8 * m) 8
    let held := if bitOf e 7 ∧ c.pin (e % 64) = bitOf e 6 then Store.get 0 c.pwr.pinHeld m + 1 else 0
    let c1 := c.onPwr fun p => { p with pinHeld := Store.put 0 p.pinHeld m (min held 2) }
    if 2 ≤ held then latchWake (latchWake c1 3) (8 + m) else c1) c

/-- One tick edge of Night or Midnight past entry: a source that has fired, or the wake time, starts the wake; every
source that fired up to this edge is recorded (R342, R345). -/
def wakeStart (c : Chip) : Chip :=
  let fired := Nat.land c.pwr.latched c.wakeSources
  let timer := c.pwr.wakeEdge.any fun e => decide (e ≤ c.now)
  if fired = 0 ∧ timer = false then c
  else
    (c.setRegN Reg.PWR_WAKE_STATUS (Nat.lor (c.regN Reg.PWR_WAKE_STATUS) (Nat.lor fired (b2n timer * 4)))).onPwr fun p =>
      { p with latched := 0, wakeEdge := none, doneAt := some (c.now + c.wakeDelay) }

/-- What a 32.768 kHz tick edge does in an entry to a sleep state and in that state: the wake pins are sampled; past the edge at
which entry completes, a wake starts, from Small Hours as a cold start (R325, R341, R342). -/
def sleepTick (c : Chip) : Chip :=
  if c.pwr.doneAt.isSome ∨ ¬ (5 ≤ c.power ∨ c.entering = true) then c
  else
    let c1 := wakePins c
    if c1.power < 5 ∨ c1.now < c1.pwr.entered then c1
    else if c1.now = c1.pwr.entered then entryComplete c1
    else if c1.power = 7 then alarmWakes c1 else wakeStart c1

/-- Sections of the recipe in the active slot, as its own table places them, differ from the kept digests, or do not read
(R271). The lane section comes from the copy. DEDUCED: log entry 35. DEDUCED: log entry 96. -/
def Chip.wakeFails (c : Chip) (k : Recipe) : Bool :=
  let s := c.upd.slot
  let x := c.slotSection s 2
  let code := findSection (c.imageTable s) 1
  ! (findSection (c.imageTable s) 2).all (fun r => ! c.mramBad (slotBase s + r.offset) r.length)
    || k.otherSections.map (fun r => (r.type, r.digest))
      != ((sectionTable x).filter fun r => r.type != 2).map (fun r => (r.type, Config.sha3_512 (sectionBody x r)))
    || (c.power == 6 && ! code.all fun r => ! c.mramBad (slotBase s + r.offset) r.length)

/-- The count of consecutive failed starts rises (R359), in the state record or, where that cannot be read, in AON.
DEDUCED: log entry 132. -/
def countFailure (c : Chip) : Chip :=
  match c.upd.record with
  | some r => putRec { r with fails := r.fails + 1 } c
  | none => c.onUpd fun u => { u with aonFails := u.aonFails + 1 }

/-- A receive chain in use is enabled at an offset of the wake sequence, and locks 5369 gr later (R266, R343). -/
def wakeChain (x at_ : Nat) (r : Recipe) (c : Chip) : Chip :=
  if ! r.plan.uses x || ! c.isOn (synthIsland x) then c
  else
    let c1 := chainEnableWrite x true c
    retuneLocked x (setSynth x { (c1.synth x) with lockAt := some (at_ + 5369) } c1)

/-- DRAM at a wake that brings its island back, DDR_PWR_EN high: from self-refresh it returns after its scrub; else it is trained
as at a cold start (R169, R176, R178, R413). -/
def wakeDdr (found : Option (Nat × Nat)) (c0 : Chip) : Chip :=
  let c := ddrPowered c0
  if ! c.isOn .ddr then c
  else match found with
    | none => ddrFailed c
    | some (size, rate) =>
      if c.mems.ddrKept then ((ddrTrained size rate false c).setB Fld.MEM_DDR_STATUS_INIT_DONE true).setIsland .ddr .restarting
      else ddrTrained size rate true c

/-- WAKE (R343): the end of the fixed sequence that a wake source or the wake time started. Islands return, the kept
recipe is re-applied, retained memory is decoded, the security engine starts, and firmware starts at Evening with
CORE_CAUSE WAKE; or the device resets, where the recipe does not re-apply (R271). DEDUCED: log entry 34.
DESIGN CHOICE: log entry 36. -/
def wake (found : Option (Nat × Nat)) (o : Store Nat) (c : Chip) : Chip :=
  match c.pwr.doneAt with
  | none => c
  | some g =>
    if ¬ (c.power = 5 ∨ c.power = 6) ∨ c.now < g then c
    else
      let night := c.power == 5
      let mask := c.regN Reg.PWR_RETAIN_MASK
      let r := c.kept.getD (parseRecipe [])
      let c1 := (sleepOff c.power c).foldl (fun c i => if c.island i == .absent then c else c.setIsland i .on) c
      if c1.wakeFails r then deviceReset (some causeWakeFail) false (countFailure c1)
      else
        let kept := sleepKeeps c.power mask c.mems.ddrKept
        let c2 := imScrubWhere (fun k => sleepImem c.power c.core.bank k) (retainCheck (if night then mask else 0)
          (secUp o (firstTemp (applyRecipe r (setPower 2 (clearLost kept c1))))))
        let c3 := if night then c2 else loadSlot c2.core.bank c2.upd.slot c2
        let pll := g - c.wakeDelay + (if night then 4027 else 118112)
        let c4 := wakeDdr found (wakeChain 1 pll r (wakeChain 0 pll r ((calLoad (calRead c3)).getD (calRead c3))))
        transitionEnd (coreStart 1 (c4.onPwr fun p => { p with level := 2 }))

/-- WAKE (R343): the operand is what DRAM training finds, where the DDR island returns. -/
def execWake (found : Option DdrFound) (s : State) : Host.Outcome State Fault Refusal :=
  onChipOtp (wake (found.map fun f => (f.size.val, f.rate.val))) s

/-! ### The idle timer (R338) -/

/-- Whether a tick counts as idle. -/
def Chip.idleHolds (c : Chip) : Bool :=
  (c.core.waiting || c.power == 4) && ! ((List.range 5).any fun p => (c.mbxOf p).busy) && ! c.anyCarrier
    && (decide (c.f Fld.PWR_IDLE_ARM_TARGET < 5) || c.tk.held.isEmpty)

/-- In each grain, what is in use keeps the present tick from counting as idle (R338). -/
def idleNote (c : Chip) : Chip :=
  if c.b Fld.PWR_IDLE_ARM_ARMED && ! c.idleHolds then c.onPwr fun p => { p with used := true } else c

/-- The idle timer counts one 32.768 kHz tick in which its conditions held throughout; any other sets it to zero (R338). -/
def idleTimerTick (c : Chip) : Chip :=
  if c.b Fld.PWR_IDLE_ARM_ARMED then
    (c.setRegN Reg.PWR_IDLE_COUNT (if c.idleHolds && ! c.pwr.used then min (c.regN Reg.PWR_IDLE_COUNT + 1) (2 ^ 24) else 0)).onPwr
      fun p => { p with used := false }
  else c

/-- IDLE_FIRED (R338): the count has reached TICKS; the timer disarms and makes its request. -/
def idleFired (c : Chip) : Chip :=
  if c.b Fld.PWR_IDLE_ARM_ARMED && decide (c.f Fld.PWR_IDLE_ARM_TICKS ≤ c.regN Reg.PWR_IDLE_COUNT) then
    powerRequest (c.f Fld.PWR_IDLE_ARM_TARGET) ((c.setB Fld.PWR_IDLE_ARM_ARMED false).raise .pwr 5)
  else c

/-- IDLE_FIRED (R338). -/
def execIdleFired (s : State) : Host.Outcome State Fault Refusal := onChip idleFired s

/-- A write of PWR_IDLE_ARM (R37, R338, R351). A reserved TARGET, or TICKS 0 to arm with, keeps its field and withholds the arming:
a timer that is armed stays so unless the write clears ARMED, and its count goes on. DEDUCED: log entry 28. -/
def idleArmWrite (v : Nat) (c : Chip) : Chip :=
  let badTarget := decide (8 ≤ bitsOf v 28 4)
  let badTicks := bitOf v 32 && v % 2 ^ 24 == 0
  let c1 := if badTarget then c else c.setF Fld.PWR_IDLE_ARM_TARGET (bitsOf v 28 4)
  let c2 := if badTicks then c1 else c1.setF Fld.PWR_IDLE_ARM_TICKS (v % 2 ^ 24)
  if badTarget || badTicks then (c2.setB Fld.PWR_IDLE_ARM_ARMED (bitOf v 32 && c.b Fld.PWR_IDLE_ARM_ARMED)).regReject
  else ((c2.setB Fld.PWR_IDLE_ARM_ARMED (bitOf v 32)).setRegN Reg.PWR_IDLE_COUNT 0).onPwr fun p => { p with used := false }

/-- PWR_IDLE_ARM_WRITE (R338). -/
def execPwrIdleArmWrite (v : Payload) (s : State) : Host.Outcome State Fault Refusal := onChip (idleArmWrite v.toNat) s

/-! ### The thermal guard (R340) -/

/-- The level that R340 compares: the target of the active transition, or the level in force. -/
def Chip.aboveEvening (c : Chip) : Bool :=
  decide ((if c.power = 4 then c.pwr.level else c.power) < 2)
    || (c.b Fld.PWR_STATUS_ACTIVE && decide (c.f Fld.PWR_STATUS_ACTIVE_TARGET < 2))

/-- The thermal guard trips. DEDUCED: log entry 27. -/
def thermalTrip (c : Chip) : Chip :=
  let c1 := ((c.setB Fld.PWR_STATUS_THERMAL_HOLD true).raise .pwr 3).bump Fld.PWR_COUNTS_THERMAL_TRIPS
  if ! c1.aboveEvening then c1
  else
    let c2 := supersedePending c1
    if c2.power = 4 then c2.onPwr fun p => { p with level := 2 }
    else if c2.b Fld.PWR_STATUS_ACTIVE then c2.onPwr fun p => { p with forcedNext := true }
    else startTransition 0 2 true c2

/-- THERMAL_SAMPLE (R340): a junction sample in °C and the supply in millivolts. The guard trips when it is not already
holding. -/
def thermalSample (t : Int) (mv : Nat) (c : Chip) : Chip :=
  if ! c.awake || c.pwr.brownout then c
  else
    let c1 := ((c.setF Fld.PWR_MONITOR_JUNCTION (unsigned 8 t)).setF Fld.PWR_MONITOR_VSYS_MV mv).onPwr fun p => { p with
      vsys := mv
      hot := if 125 ≤ t then min (p.hot + 1) 2 else 0
      cool := if t < 115 then min (p.cool + 1) 2 else 0 }
    if c1.pwr.hot = 2 ∧ ¬ c1.b Fld.PWR_STATUS_THERMAL_HOLD = true then thermalTrip c1
    else if c1.pwr.cool = 2 ∧ c1.b Fld.PWR_STATUS_THERMAL_HOLD = true then
      (c1.setB Fld.PWR_STATUS_THERMAL_HOLD false).raise .pwr 4
    else c1

/-- THERMAL_SAMPLE (R340). -/
def execThermalSample (t : BitVec 8) (mv : BitVec 12) (s : State) : Host.Outcome State Fault Refusal :=
  onChip (thermalSample t.toInt mv.toNat) s

/-! ### Supply and reset (R22, R339, R414) -/

/-- A device reset, which a chip whose DEAD fuse is burned leaves for DEAD and not for BOOT (R22). DEDUCED: log entry 37. -/
def resetDevice (cause : Option Nat) (lost : Bool) (o : Store Nat) (c : Chip) : Chip :=
  let c1 := deviceReset cause lost c
  if deadFused o then enterDead o c1 else c1

/-- BROWN_OUT (R339): the active and the pending request are answered SUPERSEDED; the chip enters Small Hours, or is held
in reset on a board with no cell. DEDUCED: log entry 33. -/
def brownOut (o : Store Nat) (c : Chip) : Chip :=
  if c.pwr.brownout then c
  else
    let c1 := if c.b Fld.PWR_STATUS_ACTIVE && ! c.pwr.activeForced then
        pwrAnswer (c.f Fld.PWR_STATUS_ACTIVE_SEQ) (c.f Fld.PWR_STATUS_ACTIVE_TARGET) .superseded c else c
    let c2 := clearActive (supersedePending c1)
    if c2.b Fld.RTC_CTRL_NO_BACKUP then
      (resetDevice (some causeBrownout) true o c2).onPwr fun p => { p with brownout := true, heldInReset := true }
    else
      let c3 := switchToVbat (setPower 7 (latchPads 0 (sleepDown 7 c2)))
      c3.onPwr fun p => { p with brownout := true, forcedNext := false, wakeEdge := none, entered := nextEdge c.now }

/-- BROWN_OUT (R339). -/
def execBrownOut (s : State) : Host.Outcome State Fault Refusal := onChipBurn brownOut s

/-- BROWN_OUT_EXIT (R339): a cold start, with the supply in millivolts as it now stands. -/
def brownOutExit (mv : Nat) (o : Store Nat) (c : Chip) : Chip :=
  if c.pwr.brownout then
    resetDevice (some causeBrownout) true o (c.onPwr fun p => { p with vsys := mv, brownout := false, heldInReset := false })
  else c

/-- BROWN_OUT_EXIT (R339). -/
def execBrownOutExit (mv : BitVec 12) (s : State) : Host.Outcome State Fault Refusal := onChipBurn (brownOutExit mv.toNat) s

/-- POWER_UP (R22, R329, R414): the first supply. `held` says VBAT kept the RTC domain; without it the domain is counted
lost. `io33` is the level the pad ring detects on VDDIO. -/
def powerUp (held : Bool) (mv : Nat) (io33 : Bool) (o : Store Nat) (c : Chip) : Chip :=
  let c0 := (c.setB Fld.PAD_FEATURE_VDDIO_3V3 io33).onPwr fun p => { p with vsys := mv, brownout := false, heldInReset := false }
  mainValid held (resetDevice (some causePowerUp) true o { c0 with scan := false, rtc := { c0.rtc with onVbat := true, lockout := true } })

/-- POWER_UP (R22). -/
def execPowerUp (held : Bool) (mv : BitVec 12) (io33 : Bool) (s : State) : Host.Outcome State Fault Refusal :=
  onChipBurn (powerUp held mv.toNat io33) s

/-- RESET_N held low for a number of nanoseconds (R22, R414): at least 1 µs resets the device; less than 100 ns is
ignored; between them the outcome is not defined. From Small Hours every supply domain but the RTC's had been off. A
brown-out already holds the device. DEDUCED: log entry 32. DEDUCED: log entry 40. -/
def execResetN (ns : Nat) (s : State) : Host.Outcome State Fault Refusal :=
  if 1000 ≤ ns then onChipBurn (fun o c => if c.pwr.brownout then c else resetDevice (some causePin) (c.power == 7) o c) s
  else if ns < 100 then .next s
  else .fault .resetPulseUndefined

/-! ### Pads (R349) -/

/-- PAD_RELEASE (R349). -/
def padRelease (c : Chip) : Chip :=
  if c.dev = devBoot ∨ c.dev = devRecovery ∨ c.dev = devDead ∨ c.scan = true then c.regReject
  else c.setB Fld.PAD_STATUS_LATCHED false

/-- PAD_RELEASE (R349). -/
def execPadRelease (s : State) : Host.Outcome State Fault Refusal := onChip padRelease s

/-- BOUNDARY_SCAN (R349): it takes the pads, or gives them up and they stand as what latches or releases them meanwhile leaves
them. DEDUCED: log entry 38. -/
def boundaryScan (takes : Bool) (c : Chip) : Chip := { c with scan := takes }

/-- BOUNDARY_SCAN (R349). -/
def execBoundaryScan (takes : Bool) (s : State) : Host.Outcome State Fault Refusal := onChip (boundaryScan takes) s

end Sys2Proof.Machine
end

