-- ==== Sys2Proof/Machine/Timer.lean ====
section
/-! DEFINITION. Timers, compares, pairs and captures (12_events_and_timers.md, R294 to R302). -/

namespace Sys2Proof.Machine

/-- The sixteen timers. -/
def timers : List Nat := List.range 16

/-- Whether a timer mirrors the grain counter (MODE 1). -/
def Chip.tmrMirror (c : Chip) (t : Nat) : Bool := c.b (Fld.TMR_CTRL_MODE t)

/-- Whether a timer is the odd half of a chained pair (R299). -/
def Chip.tmrChainedOdd (c : Chip) (t : Nat) : Bool := t % 2 == 1 && c.b (Fld.TMR_CTRL_CHAIN (t - 1))

/-- A timer's count: its own, or the grain counter in MODE 1 (R294). -/
def Chip.tmrCount (c : Chip) (t : Nat) : Payload :=
  if c.tmrMirror t && ! c.tmrChainedOdd t then c.grain else (c.reg (Reg.TMR_COUNT t)).payload

/-- Whether a timer runs; the odd half of a pair runs with its even half (R299). -/
def Chip.tmrRuns (c : Chip) (t : Nat) : Bool :=
  if c.tmrChainedOdd t then c.b (Fld.TMR_CTRL_RUN (t - 1)) else c.b (Fld.TMR_CTRL_RUN t)

/-- Set a timer's own count. -/
def setTmrCount (c : Chip) (t : Nat) (v : Payload) : Chip := c.setReg (Reg.TMR_COUNT t) ⟨.grain, v⟩

/-- Whether channel `i` of timer `t` is one 72-bit compare of its pair (R299). -/
def Chip.tmrWide (c : Chip) (t i : Nat) : Bool := c.tmrChainedOdd t && c.b (Fld.TMR_CCFG_WIDE t i)

/-- Whether an even channel is silent because its odd partner is WIDE (R299). -/
def Chip.tmrSilent (c : Chip) (t i : Nat) : Bool := t % 2 == 0 && c.tmrWide (t + 1) i

/-- The 72-bit count of the pair whose odd half is `t`. -/
def Chip.pairCount (c : Chip) (t : Nat) : Nat := (c.tmrCount t).toNat * 2 ^ 36 + (c.tmrCount (t - 1)).toNat

/-- The 72-bit compare of a WIDE channel of odd timer `t`. -/
def Chip.pairCmp (c : Chip) (t i : Nat) : Nat :=
  c.regN (Reg.TMR_CMP t i) * 2 ^ 36 + c.regN (Reg.TMR_CMP (t - 1) i)

/-- The number of a compare channel, as an event source (R277). -/
def channel (t i : Nat) : Nat := 4 * t + i

/-- Whether a channel's compare value is after the count (R296, R299). -/
def Chip.cmpAfter (c : Chip) (t i : Nat) : Bool :=
  if c.tmrWide t i then decide (c.pairCount t < c.pairCmp t i)
  else grainAfter (c.reg (Reg.TMR_CMP t i)).payload (c.tmrCount t)

/-- Whether a channel's compare value equals the count. -/
def Chip.cmpEqual (c : Chip) (t i : Nat) : Bool :=
  if c.tmrWide t i then c.pairCount t == c.pairCmp t i
  else (c.reg (Reg.TMR_CMP t i)).payload == c.tmrCount t

/-- A channel is no longer due. -/
def clearDue (c : Chip) (ch : Nat) : Chip :=
  { c with fab := { c.fab with onTime := c.fab.onTime.filter (· != ch), late := c.fab.late.filter (fun x => x.1 != ch) } }

/-- Whether a channel is due as late: from the tick after the one in which it was judged (R296). -/
def Chip.lateDue (c : Chip) (ch : Nat) : Bool := c.fab.late.any fun x => x.1 == ch && decide (x.2 ≤ c.now)

/-- Judge an armed channel against the count: after it, it waits; at or before it, it is due late at the next tick (R296). -/
def judge (c : Chip) (t i : Nat) : Chip :=
  let c1 := clearDue c (channel t i)
  if c1.cmpAfter t i || c1.tmrSilent t i then c1
  else { c1 with fab := { c1.fab with late := c1.fab.late ++ [(channel t i, c1.now + 1)] } }

/-- The four channels of a timer. -/
def channels : List Nat := [0, 1, 2, 3]

/-- Whether a channel is armed. -/
def Chip.cmpArmed (c : Chip) (t i : Nat) : Bool := c.b (Fld.TMR_CCFG_ARMED t i)

/-- Judge every armed channel of a timer again (R298), and the wide channels of its pair. -/
def rejudge (c : Chip) (t : Nat) : Chip :=
  let own := channels.foldl (fun c i => if c.cmpArmed t i then judge c t i else c) c
  if t % 2 == 0 then channels.foldl (fun c i => if c.tmrWide (t + 1) i && c.cmpArmed (t + 1) i then judge c (t + 1) i else c) own
  else own

/-! ### Tasks and register writes: R294 orders those of one grain -/

/-- Change what has been done to the timers in this grain. -/
def onTick (g : TmrGrain → TmrGrain) (c : Chip) : Chip := { c with fab := { c.fab with tick := g c.fab.tick } }

/-- Whether a timer's RUN was 1 before the STARTs and STOPs of this grain. -/
def Chip.ranBefore (c : Chip) (t : Nat) : Bool :=
  let u := if c.tmrChainedOdd t then t - 1 else t
  match c.fab.tick.runWas.find? fun x => x.1 == u with
  | some x => x.2
  | none => c.b (Fld.TMR_CTRL_RUN u)

/-- Note whether a timer ran before the first START or STOP of this grain. -/
def noteRun (t : Nat) (c : Chip) : Chip :=
  if c.fab.tick.runWas.any fun x => x.1 == t then c
  else onTick (fun k => { k with runWas := (t, c.b (Fld.TMR_CTRL_RUN t)) :: k.runWas }) c

/-- Whether the compares of a timer have been evaluated in this grain, so that a task or COUNT write that comes now acts in the
next one (R294). DEDUCED: log entry 197. -/
def Chip.tmrMatched (c : Chip) (t : Nat) : Bool := c.fab.tick.matched.contains t

/-- START (R294): ignored in MODE 1 and in the odd half of a pair; a STOP in the same grain wins. -/
def tmrStart (t : Nat) (c : Chip) : Chip :=
  if c.tmrMirror t || c.tmrChainedOdd t then c
  else if c.tmrMatched t then { c with fab := { c.fab with goStart := c.fab.goStart ++ [t] } }
  else if c.fab.tick.stopped.contains t then c
  else (noteRun t c).setB (Fld.TMR_CTRL_RUN t) true

/-- STOP (R294). -/
def tmrStop (t : Nat) (c : Chip) : Chip :=
  if c.tmrMirror t || c.tmrChainedOdd t then c
  else if c.tmrMatched t then { c with fab := { c.fab with goStop := c.fab.goStop ++ [t] } }
  else onTick (fun k => { k with stopped := t :: k.stopped }) ((noteRun t c).setB (Fld.TMR_CTRL_RUN t) false)

/-- SNAP takes the count (R294). -/
def takeSnap (t : Nat) (c : Chip) : Chip := c.setReg (Reg.TMR_SNAPV t) ⟨.grain, c.tmrCount t⟩

/-- The count that a capture input's capture takes (R301). -/
def captureCount (k : Nat) (c : Chip) : Chip :=
  let t := c.f (Fld.CAP_CTRL_TIMER k)
  (c.setReg (Reg.CAP_VALUE_LO k) ⟨.grain, c.tmrCount t⟩).setReg (Reg.CAP_VALUE_HI k)
    ⟨.grain, if c.b (Fld.CAP_CTRL_PAIR k) then c.tmrCount (t + 1) else 0⟩

/-- Whether a capture input takes the count of a timer. -/
def Chip.capTakes (c : Chip) (k t : Nat) : Bool :=
  let u := c.f (Fld.CAP_CTRL_TIMER k)
  u == t || (c.b (Fld.CAP_CTRL_PAIR k) && u + 1 == t)

/-- A jump of a count: armed channels are judged again (R298), and the SNAP and the captures of this grain take the resulting
count (R294). -/
def jumpCount (t : Nat) (v : Payload) (c : Chip) : Chip :=
  let c1 := rejudge (setTmrCount c t v) t
  let c2 := if c1.fab.tick.snapped.contains t then takeSnap t c1 else c1
  (c2.fab.tick.captured.filter fun k => c2.capTakes k t).foldl (fun c k => captureCount k c) c2

/-- CLEAR (R294, R298): the count becomes 0, unless a COUNT write of the same grain sets it. -/
def tmrClear (t : Nat) (c : Chip) : Chip :=
  if c.tmrMirror t && ! c.tmrChainedOdd t then c
  else if c.tmrMatched t then { c with fab := { c.fab with goClear := c.fab.goClear ++ [t] } }
  else if c.fab.tick.counted.contains t then c
  else jumpCount t 0 c

/-- SNAP (R294). -/
def tmrSnap (t : Nat) (c : Chip) : Chip := takeSnap t (onTick (fun k => { k with snapped := t :: k.snapped }) c)

/-- A task of a timer or capture acts only while the EVF island is on (R293). -/
def evfTask (f : Chip → Chip) (c : Chip) : Chip := if c.isOn .evf then f c else c

/-- TMR_START (R294). -/
def execTmrStart (t : Fin 16) (s : State) : Host.Outcome State Fault Refusal := onChip (evfTask (tmrStart t.val)) s
/-- TMR_STOP (R294). -/
def execTmrStop (t : Fin 16) (s : State) : Host.Outcome State Fault Refusal := onChip (evfTask (tmrStop t.val)) s
/-- TMR_CLEAR (R298). -/
def execTmrClear (t : Fin 16) (s : State) : Host.Outcome State Fault Refusal := onChip (evfTask (tmrClear t.val)) s
/-- TMR_SNAP (R294). -/
def execTmrSnap (t : Fin 16) (s : State) : Host.Outcome State Fault Refusal := onChip (evfTask (tmrSnap t.val)) s

/-- A write of TMR_GO (R295): the named timers start and stop at the next grain; one named twice discards the write. -/
def tmrGo (start stop : Nat) (c : Chip) : Chip :=
  if ! c.isOn .evf then c.regReject
  else if (start &&& stop) % 2 ^ 16 != 0 then c.regReject
  else { c with fab := { c.fab with
    goStart := c.fab.goStart ++ timers.filter fun t => start.testBit t,
    goStop := c.fab.goStop ++ timers.filter fun t => stop.testBit t } }

/-- TMR_GO_START (R295). -/
def execTmrGoStart (mask : BitVec 16) (s : State) : Host.Outcome State Fault Refusal := onChip (tmrGo mask.toNat 0) s
/-- TMR_GO_STOP (R295). -/
def execTmrGoStop (mask : BitVec 16) (s : State) : Host.Outcome State Fault Refusal := onChip (tmrGo 0 mask.toNat) s

/-- A write of a timer's COUNT: accepted only while stopped, before the STARTs and STOPs of its grain, and in MODE 0
(R294, R298, R304); the MODE of the odd half of a pair is ignored (R299). -/
def tmrCountWrite (t : Nat) (v : Payload) (c : Chip) : Chip :=
  if ! c.isOn .evf || (c.tmrMirror t && ! c.tmrChainedOdd t) then c.regReject
  else if c.tmrMatched t then { c with fab := { c.fab with goCount := c.fab.goCount ++ [(t, v)] } }
  else if c.ranBefore t then c.regReject
  else jumpCount t v (onTick (fun k => { k with counted := t :: k.counted }) c)

/-- TMR_COUNT_WRITE (R298). -/
def execTmrCountWrite (t : Fin 16) (v : Payload) (s : State) : Host.Outcome State Fault Refusal :=
  onChip (tmrCountWrite t.val v) s

/-- A write of a compare value arms its channel and judges it (R296); the even half of a wide compare is only stored
(R299). -/
def tmrCmpWrite (t i : Nat) (v : Payload) (c : Chip) : Chip :=
  if ! c.isOn .evf then c.regReject
  else
    let c1 := c.setReg (Reg.TMR_CMP t i) ⟨.grain, v⟩
    if c1.tmrSilent t i then c1 else judge (c1.setB (Fld.TMR_CCFG_ARMED t i) true) t i

/-- TMR_CMP_WRITE (R296). -/
def execTmrCmpWrite (t : Fin 16) (i : Fin 4) (v : Payload) (s : State) : Host.Outcome State Fault Refusal :=
  onChip (tmrCmpWrite t.val i.val v) s

/-! ### Firing -/

/-- The compare value after a reload (R297, R299). -/
def reloadCmp (c : Chip) (t i : Nat) : Chip :=
  if c.tmrWide t i then
    let v := c.pairCmp t i + c.regN (Reg.TMR_ADD t i)
    (c.setReg (Reg.TMR_CMP t i) (.grain (v / 2 ^ 36))).setReg (Reg.TMR_CMP (t - 1) i) (.grain v)
  else c.setReg (Reg.TMR_CMP t i) (.grain (c.regN (Reg.TMR_CMP t i) + c.regN (Reg.TMR_ADD t i)))

/-- A match stops a timer, its compares evaluated (R294): the count stays. -/
def matchStop (t : Nat) (c : Chip) : Chip :=
  if c.tmrMirror t || c.tmrChainedOdd t then c else c.setB (Fld.TMR_CTRL_RUN t) false

/-- The timer whose steps a channel follows: the even half of a pair for a wide one (R299). -/
def Chip.cmpTimer (c : Chip) (t i : Nat) : Nat := if c.tmrWide t i then t - 1 else t

/-- A due compare channel fires (R294, R296, R297); one that its odd partner silences does not (R299). -/
def compareFire (t i : Nat) (c : Chip) : Chip :=
  let ch := channel t i
  let late := c.lateDue ch
  if c.cmpArmed t i && ! c.tmrSilent t i && (late || c.fab.onTime.contains ch) then
    let c0 := onTick (fun k => { k with matched := t :: c.cmpTimer t i :: k.matched }) (clearDue c ch)
    let c1 := c0.setFlag (Reg.TMR_STATUS t) i
    let c2 := if late then c1.setFlag (Reg.TMR_STATUS t) (4 + i) else c1
    let c3 := if c2.b (Fld.TMR_CCFG_STOP_ON_MATCH t i) then matchStop (c2.cmpTimer t i) c2 else c2
    let c4 := c3.fire ch (some (b2n late))
    if c4.b (Fld.TMR_CCFG_RELOAD t i) then judge (reloadCmp c4 t i) t i
    else c4.setB (Fld.TMR_CCFG_ARMED t i) false
  else c

/-- COMPARE_FIRE (R296). -/
def execCompareFire (t : Fin 16) (i : Fin 4) (s : State) : Host.Outcome State Fault Refusal :=
  onChip (compareFire t.val i.val) s

/-- A timer that stepped from 2^36 − 1 to 0 fires its WRAP source (R294). -/
def tmrWrap (t : Nat) (c : Chip) : Chip :=
  if c.fab.wrapped.contains t then
    ({ c with fab := { c.fab with wrapped := c.fab.wrapped.filter (· != t) } }).fire (0x40 + t) (some 0)
  else c

/-- TMR_WRAP (R294). -/
def execTmrWrap (t : Fin 16) (s : State) : Host.Outcome State Fault Refusal := onChip (tmrWrap t.val) s

/-! ### One grain of every timer -/

/-- Note a wrap. -/
def noteWrap (c : Chip) (t : Nat) : Chip := { c with fab := { c.fab with wrapped := c.fab.wrapped ++ [t] } }

/-- Step a timer's own count by one; a wrap is noted. -/
def stepOwn (c : Chip) (t : Nat) : Chip × Bool :=
  let v := (c.reg (Reg.TMR_COUNT t)).payload + 1
  let c1 := setTmrCount c t v
  if v = 0 then (noteWrap c1 t, true) else (c1, false)

/-- Step one timer in the grain now reached: its count, its WRAP, and the odd half it carries into (R294, R299). -/
def stepTimer (c : Chip) (t : Nat) : Chip :=
  if c.tmrChainedOdd t then c
  else
    let r := if c.tmrMirror t then (if c.grain = 0 then (noteWrap c t, true) else (c, false))
      else if c.b (Fld.TMR_CTRL_RUN t) && c.now % 2 ^ c.f (Fld.TMR_CTRL_PRESCALE t) == 0 then stepOwn c t
      else (c, false)
    if r.2 && t % 2 == 0 && r.1.b (Fld.TMR_CTRL_CHAIN t) then (stepOwn r.1 (t + 1)).1 else r.1

/-- Channels of a timer that its step brought to their compare value fall due (R296). `before` is the chip before the
step. DESIGN CHOICE: log entry 3. -/
def markDue (before c : Chip) (t : Nat) : Chip :=
  channels.foldl (fun c i =>
    if c.cmpArmed t i && c.cmpEqual t i && ! before.cmpEqual t i && ! c.tmrSilent t i
        && ! (c.fab.late.any fun x => x.1 == channel t i) then
      { c with fab := { c.fab with onTime := c.fab.onTime ++ [channel t i] } } else c) c

/-- The timers' part of one grain, in the order of R294: steps; the CLEARs, COUNT writes, starts and stops that were to take
effect now; the compares. The long time has already advanced. -/
def timersGrain (before c : Chip) : Chip :=
  let f := c.fab
  let c0 := { c with fab := { f with tick := .none_, goStart := [], goStop := [], goClear := [], goCount := [] } }
  let c1 := timers.foldl stepTimer c0
  let c2 := f.goCount.foldl (fun c x => tmrCountWrite x.1 x.2 c) (f.goClear.foldl (fun c t => tmrClear t c) c1)
  let c3 := f.goStop.foldl (fun c t => tmrStop t c) (f.goStart.foldl (fun c t => tmrStart t c) c2)
  timers.foldl (markDue before) c3

/-! ### Captures -/

/-- A capture of the selected timer (R301): the edges are counted afresh (R304). -/
def capture (k : Nat) (rising task : Bool) (c : Chip) : Chip :=
  let full := c.b (Fld.CAP_STATUS_FULL k)
  let c1 := captureCount k (onTick (fun x => { x with captured := k :: x.captured }) c)
  let c2 := (c1.setB (Fld.CAP_STATUS_FULL k) true).setF (Fld.CAP_STATUS_EDGES k) 0
  let c3 := if full then (c2.setFlag (Reg.CAP_STATUS k) 1).raise .evf 3 else c2
  c3.fire (0x50 + k) (some (b2n rising + 2 * b2n full + 4 * b2n task))

/-- Whether an edge is one that EDGE selects: 1 rising, 2 falling, 3 both. -/
def edgeSelected (sel : Nat) (rising : Bool) : Bool := if rising then sel.testBit 0 else sel.testBit 1

/-- The pad that PIN_MUX may assign to a capture input (R411). -/
def capPad (k : Nat) : Nat := 24 + k

/-- Whether the synchronised level of a capture input has held a level for FILTER grains since its pad changed or it was
enabled (R301). The level of a pad is that after its synchroniser (R289). -/
def Chip.capHeld (c : Chip) (k : Nat) (level : Bool) : Bool :=
  c.pin (capPad k) == level &&
    decide (max (Store.get 0 c.fab.padAt (capPad k)) (Store.get 0 c.fab.capAt k) + c.f (Fld.CAP_CTRL_FILTER k) ≤ c.now + 1)

/-- The filtered level of a capture input changes (R301). A capture input with no pad reads 0. -/
def captureEdge (k : Nat) (level : Bool) (c : Chip) : Chip :=
  if c.isOn .evf && c.b (Fld.CAP_CTRL_ENABLE k) && (c.f Fld.TMR_FEATURE_CAP_PINS).testBit k && c.capHeld k level
      && level != c.b (Fld.CAP_STATUS_LEVEL k) then
    let c1 := c.setB (Fld.CAP_STATUS_LEVEL k) level
    if edgeSelected (c1.f (Fld.CAP_CTRL_EDGE k)) level then
      if c1.f (Fld.CAP_STATUS_EDGES k) ≥ c1.f (Fld.CAP_CTRL_EDGE_PRESCALE k) then capture k level false c1
      else c1.setF (Fld.CAP_STATUS_EDGES k) (c1.f (Fld.CAP_STATUS_EDGES k) + 1)
    else c1
  else c

/-- CAPTURE_EDGE (R301). -/
def execCaptureEdge (k : Fin 8) (level : Bool) (s : State) : Host.Outcome State Fault Refusal :=
  onChip (captureEdge k.val level) s

/-- CAP_TRIG (R301): the task captures at once. -/
def execCapTrig (k : Fin 8) (s : State) : Host.Outcome State Fault Refusal := onChip (evfTask (capture k.val false true)) s

end Sys2Proof.Machine
end

