-- ==== Sys2Proof/Machine/Fabric.lean ====
section
/-! DEFINITION. The event fabric (12_events_and_timers.md): the one pass of a tick, logic cells, task inputs, GPIO, software
events and gang events. -/

namespace Sys2Proof.Machine

/-- Change the fabric's hidden state. -/
def Chip.onFab (c : Chip) (g : Fabric → Fabric) : Chip := { c with fab := g c.fab }

/-! ### Frames to the chain (R398, R400) -/

/-- A frame of this chip, with the next SEQ, waits for a port. DESIGN CHOICE: log entry 152. -/
def sendFrame (type : Nat) (bcast : Bool) (dst op : Nat) (words : List Word) (c : Chip) : Chip :=
  let f : ChainFrame := {
    type := type
    bcast := bcast
    dst := dst
    src := c.f Fld.SYS_STATE_CHIP_NUMBER
    hops := 1
    seq := c.gang.seq
    op := op
    words := words
    back := false
    own := true }
  { c with gang := { c.gang with seq := (c.gang.seq + 1) % 256, waiting := c.gang.waiting ++ [f] } }

/-- The place of a frame among those that wait: TIME, EVENT, STATUS with RING and ENUM, ACCESS, MIRROR, and of one kind those that
pass through ahead of this chip's own (R400). DEDUCED: log entry 225. -/
def ChainFrame.rank (f : ChainFrame) : Nat :=
  2 * (match f.type with
    | 2 => 0
    | 3 => 1
    | 4 | 5 => 3
    | 6 => 4
    | _ => 2) + b2n f.own

/-- The frames that wait, in the order in which they leave. -/
def Chip.waitingFrames (c : Chip) : List ChainFrame := (List.range 10).flatMap fun k => c.gang.waiting.filter fun f => f.rank == k

/-- Frame buffers of a port's receiver, each one credit (R400). -/
abbrev chainCredits : Nat := 16

/-- The octets of a frame on the link: header, payload and CRC-32, least significant octet first (R398). -/
def ChainFrame.linked (f : ChainFrame) : List Nat := f.octets ++ leOctets 4 (fcs32 f.octets)

/-- A frame leaves by its port where it has a credit, a TIME with the long time of its departure (R399, R405); else it goes on waiting. In
one grain a port has the credits of all the buffers beyond it. DESIGN CHOICE: log entry 227. -/
def chainLeave (f : ChainFrame) (c : Chip) : Chip :=
  let f1 := if f.type = 2 then { f with words := [.grain c.now, .grain (c.now / 2 ^ 36)] } else f
  match c.portOut f.back with
  | some p =>
    if (c.gang.sent.filter fun x => x.port == p).length < chainCredits then
      chainSeen 4 p f1 { c with gang := { c.gang with sent := c.gang.sent ++ [⟨p, f1.linked⟩] } }
    else { c with gang := { c.gang with waiting := c.gang.waiting ++ [f] } }
  | none => { c with gang := { c.gang with waiting := c.gang.waiting ++ [f] } }

/-- The frames that wait leave, in their order (R400). -/
def chainOut (c : Chip) : Chip :=
  if ! c.isOn .chain || c.gang.waiting.isEmpty then c
  else c.waitingFrames.foldl (fun c f => chainLeave f c) { c with gang := { c.gang with waiting := [] } }

/-! ### Logic cells (R285 to R287) -/

/-- A cell with nothing behind it. -/
def CellState.zero : CellState := { out := false, filt := false, last := false, run := false, runLen := 0 }

/-- The state of cell `i`. -/
def Chip.cellSt (c : Chip) (i : Nat) : CellState := Store.get .zero c.fab.cells i

/-- Put the state of cell `i`. -/
def setCellSt (i : Nat) (x : CellState) (c : Chip) : Chip := c.onFab fun f => { f with cells := Store.put .zero f.cells i x }

/-- The enabled cells of the recipe in force, with their numbers. -/
def Chip.cellsOn (c : Chip) : List (Nat × CellRec) :=
  match c.recipe with
  | some r => (List.range 48).filterMap fun i => match r.cells[i]? with
    | some x => if x.enable then some (i, x) else none
    | none => none
  | none => []

/-- The routes of the recipe in force. -/
def Chip.routes (c : Chip) : List Route := match c.recipe with
  | some r => r.routes
  | none => []

/-- Whether a source is masked: by the mask as it stood before the writes of this grain, which start with the next tick
(R284). -/
def Chip.srcMasked (c : Chip) (n : Nat) : Bool :=
  match c.fab.maskWas.find? fun x => x.1 == n / 32 with
  | some x => bitOf x.2 (n % 32)
  | none => bitOf (c.regN (Reg.EVF_SRC_MASK (n / 32))) (n % 32)

/-- A mask register is about to be written: what it holds is in force for the rest of the grain. -/
def noteMask (m : Nat) (c : Chip) : Chip :=
  if c.fab.maskWas.any fun x => x.1 == m then c
  else c.onFab fun f => { f with maskWas := (m, c.regN (Reg.EVF_SRC_MASK m)) :: f.maskWas }

/-- What a source reads as an input of a cell, in a tick in which `fired` fire (R279, R284). -/
def Chip.srcLevel (c : Chip) (fired : List Fired) (n : Nat) : Bool :=
  if c.srcMasked n then false
  else if 0x58 ≤ n ∧ n ≤ 0x7F then bitOf (c.regN (if n - 0x58 < 32 then Reg.PAD_GPIO_IN_LO else Reg.PAD_GPIO_IN_HI)) ((n - 0x58) % 32)
  else if 0x50 ≤ n ∧ n ≤ 0x57 then c.b (Fld.CAP_STATUS_LEVEL (n - 0x50))
  else fired.any fun x => x.source == n

/-- The length of a cell's filter as the silicon has it: 255 behaves as 254 (A1 erratum E7, R287). -/
def CellRec.len (x : CellRec) : Nat := if x.filter = 255 then 254 else x.filter

/-- The filtered level of a cell changes once its value has held for L ticks (R285). -/
def filterStep (e : Nat × CellRec) (c : Chip) : Chip :=
  let s := c.cellSt e.1
  if 0 < e.2.len ∧ e.2.len ≤ s.runLen ∧ s.run ≠ s.filt then setCellSt e.1 { s with filt := s.run } c else c

/-- The LUT of a cell on outputs of the cells and the tick's sources (R285). -/
def Chip.cellValue (c : Chip) (fired : List Fired) (outs : Nat → Bool) (x : CellRec) : Bool :=
  let bit (k : Nat) : Bool :=
    let s := x.ins.getD k 0x8000
    match s / 2 ^ 14 with
    | 0 => c.srcLevel fired (s % 256)
    | 1 => outs (s % 64)
    | _ => false
  x.lut.testBit (b2n (bit 0) + 2 * b2n (bit 1) + 4 * b2n (bit 2) + 8 * b2n (bit 3))

/-- What a cell that is not combinational puts out in this tick: v(t − 1), the filtered level, or that of one tick ago. -/
def Chip.cellHeld (c : Chip) (e : Nat × CellRec) : Bool :=
  let s := c.cellSt e.1
  if e.2.filter = 0 then s.last else if e.2.ff then s.last else s.filt

/-- One round of the evaluation: combinational cells from the outputs of the round before. -/
def Chip.cellRound (c : Chip) (fired : List Fired) (outs : List (Nat × Bool)) : List (Nat × Bool) :=
  c.cellsOn.map fun e =>
    (e.1, if e.2.filter = 0 ∧ e.2.ff = false then c.cellValue fired (fun i => (outs.find? fun o => o.1 == i).any fun o => o.2) e.2
      else c.cellHeld e)

/-- As many rounds as settle any order of dependency. -/
def Chip.cellRounds (c : Chip) (fired : List Fired) : Nat → List (Nat × Bool) → List (Nat × Bool)
  | 0, outs => outs
  | k + 1, outs => c.cellRounds fired k (c.cellRound fired outs)

/-- The outputs of the enabled cells in this tick. -/
def Chip.cellOuts (c : Chip) (fired : List Fired) : List (Nat × Bool) :=
  c.cellRounds fired (c.cellsOn.length + 1) (c.cellsOn.map fun e => (e.1, false))

/-- A cell takes its new output and its history moves on one tick. -/
def cellNext (fired : List Fired) (outs : List (Nat × Bool)) (e : Nat × CellRec) (c : Chip) : Chip :=
  let out (i : Nat) : Bool := (outs.find? fun o => o.1 == i).any fun o => o.2
  let s := c.cellSt e.1
  let v := c.cellValue fired out e.2
  setCellSt e.1 { s with
    out := out e.1
    last := if e.2.filter = 0 then v else s.filt
    run := v
    runLen := if v = s.run then min (s.runLen + 1) 255 else 1 } c

/-- All cell outputs and filter histories are 0 (R285: recipe load, re-mash and wake). -/
def clearCells (c : Chip) : Chip :=
  ((c.onFab fun f => { f with cells := [] }).setRegN Reg.EVF_CELL_OUT_LO 0).setRegN Reg.EVF_CELL_OUT_HI 0

/-- EVF_CELL_OUT shows the cells' outputs (R303). -/
def refreshCells (outs : List (Nat × Bool)) (c : Chip) : Chip :=
  let n := outs.foldl (fun n o => n + b2n o.2 * 2 ^ o.1) 0
  (c.setRegN Reg.EVF_CELL_OUT_LO (n % 2 ^ 32)).setRegN Reg.EVF_CELL_OUT_HI (n / 2 ^ 32)

/-- CELL_FILTER_CHANGE of one cell (R285). -/
def cellFilterChange (i : Nat) (c : Chip) : Chip :=
  if ! c.isOn .evf then c
  else match c.cellsOn.find? fun e => e.1 == i with
    | some e => filterStep e c
    | none => c

/-- CELL_FILTER_CHANGE (R285). -/
def execCellFilterChange (i : Fin 48) (s : State) : Host.Outcome State Fault Refusal := onChip (cellFilterChange i.val) s

/-! ### GPIO (R289, R425) -/

/-- The pad of a GPIO has the GPIO function in PIN_MUX: an entry names it with function 0. -/
def Chip.gpioNamed (c : Chip) (p : Nat) : Bool :=
  match c.recipe with
  | some r => r.pads.any fun e => e.pad == p && e.fn == 0
  | none => false

/-- The OUT bit of GPIO `p`. -/
def gpioOut (p : Nat) : Field := ⟨if p < 32 then Reg.PAD_GPIO_OUT_LO else Reg.PAD_GPIO_OUT_HI, p % 32, 1⟩

/-- The IN bit of GPIO `p`. -/
def gpioIn (p : Nat) : Field := ⟨if p < 32 then Reg.PAD_GPIO_IN_LO else Reg.PAD_GPIO_IN_HI, p % 32, 1⟩

/-- GPIO task GT`m` is triggered (R289): it acts at the end of the tick. DEDUCED: log entry 43. -/
def gpioTask (m : Nat) (c : Chip) : Chip :=
  if ! c.isOn .evf || ! c.gpioNamed (c.f (Fld.EVF_GPIO_TASK_PIN m)) || c.fab.gpioTasks.contains m then c
  else c.onFab fun f => { f with gpioTasks := m :: f.gpioTasks }

/-- A triggered GPIO task acts on its pin (R289). -/
def gpioAct (m : Nat) (c : Chip) : Chip :=
  let p := c.f (Fld.EVF_GPIO_TASK_PIN m)
  if ! c.gpioNamed p then c
  else match c.f (Fld.EVF_GPIO_TASK_ACTION m) with
    | 1 => c.setB (gpioOut p) true
    | 2 => c.setB (gpioOut p) false
    | 3 => c.setB (gpioOut p) (! c.b (gpioOut p))
    | _ => c

/-- The end of a tick: its GPIO tasks act in ascending number, each on the result of the one before, after every register write
of the tick (R289). -/
def gpioEnd (c : Chip) : Chip :=
  ((List.range 32).filter fun m => c.fab.gpioTasks.contains m).foldl (fun c m => gpioAct m c)
    (c.onFab fun f => { f with gpioTasks := [] })

/-- GPIO_TASK (R289). -/
def execGpioTask (m : Fin 32) (s : State) : Host.Outcome State Fault Refusal := onChip (gpioTask m.val) s

/-- The synchronised level of GPIO `p` changes (R289, R425): its source fires on the edges EVF_GPIO_EDGE selects. -/
def gpioEdge (p : Nat) (level : Bool) (c : Chip) : Chip :=
  if c.pin p = level ∧ c.b (gpioIn p) = level then c
  else
    let c1 := ((c.setPin p level).setB (gpioIn p) level).onFab fun f => { f with padAt := Store.put 0 f.padAt p (c.now + 1) }
    if edgeSelected (bitsOf (c1.regN (Reg.EVF_GPIO_EDGE (p / 18))) (2 * (p % 18)) 2) level then c1.fire (0x58 + p) (some (b2n level))
    else c1

/-- GPIO_EDGE (R289). -/
def execGpioEdge (p : Fin 40) (level : Bool) (s : State) : Host.Outcome State Fault Refusal := onChip (gpioEdge p.val level) s

/-! ### Software events (R290) -/

/-- A write that fires SW`k` in the tick after: indices 12 to 15 are reserved (R303). -/
def swFire (k payload : Nat) (c : Chip) : Chip :=
  if 12 ≤ k || ! c.isOn .evf then c.regReject else c.fire (0xF0 + k) (some (payload % 2 ^ 28))

/-- SW_FIRE (R290). -/
def execSwFire (k : Fin 16) (payload : BitVec 28) (s : State) : Host.Outcome State Fault Refusal :=
  onChip (swFire k.val payload.toNat) s

/-! ### Gang events (R291, R292) -/

/-- EVF_GANG_DELAY for an event with a stamp: a write applies to events stamped after it (R292). -/
def Chip.gangDelay (c : Chip) (stamp : Int) : Nat :=
  match c.fab.delays.find? fun x => decide (stamp ≤ x.1) with
  | some x => x.2
  | none => c.regN Reg.EVF_GANG_DELAY

/-- EVF_GANG_DELAY is about to be written: events stamped until now keep the delay, as long as one on time may still come. -/
def noteDelay (c : Chip) : Chip :=
  c.onFab fun f => { f with
    delays := (f.delays.filter fun x => decide (c.now < x.1 + 65536)) ++ [(c.now, c.regN Reg.EVF_GANG_DELAY)] }

/-- A gang event is held for its delivery grain; one that is past fires at the next tick, late. -/
def holdGang (line chip payload due : Nat) (c : Chip) : Chip :=
  let late := decide (due < c.now)
  c.onFab fun f => { f with gang := f.gang ++ [{
    line := line
    chip := chip
    payload := payload % 2 ^ 22
    due := if late then c.now + 1 else due
    late := late }] }

/-- GANG_OUT`k` accepts an event and sends it to every chip, this one among them; within 16 gr of its last it is busy
(R280, R291). DEDUCED: log entry 44. -/
def gangOut (k payload : Nat) (c : Chip) : Chip :=
  let last := Store.get 0 c.fab.gangLast k
  if ! c.isOn .chain || ! c.isOn .evf || (decide (last ≠ 0) && decide (c.now + 1 < last + 16)) then c.overrun (128 + k)
  else
    let c1 := (c.onFab fun f => { f with gangLast := Store.put 0 f.gangLast k (c.now + 1) }).bump Fld.EVF_GANG_COUNTS_SENT
    let c2 := sendFrame 3 true 0 k [.grain c.now, .bits (payload % 2 ^ 22)] c1
    holdGang k (c2.f Fld.SYS_STATE_CHIP_NUMBER) payload (c.now + c2.gangDelay c.now) c2

/-- GANG_OUT (R291). -/
def execGangOut (k : Fin 16) (payload : BitVec 28) (s : State) : Host.Outcome State Fault Refusal :=
  onChip (gangOut k.val payload.toNat) s

/-- GANG_IN`k` fires for the earliest delivery grain that has come (R291, R292). -/
def gangInLine (k : Nat) (c : Chip) : Chip :=
  let due := c.fab.gang.filter fun e => e.line == k && decide (e.due ≤ c.now)
  match due with
  | [] => c
  | e0 :: _ =>
    let g := due.foldl (fun m e => min m e.due) e0.due
    let now := due.filter fun e => e.due == g
    let low := now.foldl (fun a e => if e.chip < a.chip then e else a) (now.headD e0)
    let late := now.any fun e => e.late
    let c1 := c.onFab fun f => { f with gang := f.gang.filter fun e => ! (e.line == k && e.due == g) }
    let c2 := if 2 ≤ now.length then c1.setFlag Reg.EVF_GANG_STATUS (16 + k) else c1
    let c3 := if late then
        ((c2.bump Fld.EVF_GANG_COUNTS_LATE).setFlag Reg.EVF_GANG_STATUS k).raise .evf 2
      else c2
    c3.fire (0xE0 + k) (some (low.chip * 2 ^ 22 + low.payload))

/-- GANG_IN_FIRE (R291): every line whose delivery grain has come. -/
def gangInFire (c : Chip) : Chip := if c.isOn .evf then (List.range 16).foldl (fun c k => gangInLine k c) c else c

/-- GANG_IN_FIRE (R291). -/
def execGangInFire (s : State) : Host.Outcome State Fault Refusal := onChip gangInFire s

/-! ### The pass (R276, R280 to R284) -/

/-- An event delivered to a task input: R280's table. A task input whose island does not serve is busy (R283). -/
def deliver (task : Nat) (w : Word) (c : Chip) : Chip :=
  if task < 32 then coreEvent task w c
  else if task < 96 then
    let t := (task - 32) / 4
    match (task - 32) % 4 with
    | 0 => tmrStart t c
    | 1 => tmrStop t c
    | 2 => tmrClear t c
    | _ => tmrSnap t c
  else if task < 128 then gpioTask (task - 96) c
  else if task < 144 then gangOut (task - 128) (w.nat % 2 ^ 28) c
  else if task < 152 then chkTaskInput (task - 144) (c.f (Fld.CHK_CTRL_TASK (task - 144))) c
  else if task < 160 then capture (task - 152) false true c
  else c

/-- An EVENT word that a logic cell delivers: number 0xFF and the cell (R277). -/
def cellEvent (i : Nat) : Word := .mk' .event (0xFF * 2 ^ 28 + i)

/-- The events that reach a task input in a tick, sources by number and then cells by number, each once (R282).
DEDUCED: log entry 41. -/
def Chip.reaching (c : Chip) (task : Nat) (events : List (Nat × Word)) : List Word :=
  (events.filter fun e => c.routes.any fun r => r.task == task && r.sel == e.1).map fun e => e.2

/-- One task input in one tick (R282). -/
def deliverTask (events : List (Nat × Word)) (task : Nat) (c : Chip) : Chip :=
  match c.reaching task events with
  | [] => c
  | [w] => deliver task w c
  | w :: _ => deliver task w (c.coincide task)

/-- Insert a fired source by number. -/
def insertFired (x : Fired) : List Fired → List Fired
  | [] => [x]
  | y :: ys => if x.source ≤ y.source then x :: y :: ys else y :: insertFired x ys

/-- The one pass of a tick (R276): the sources that take part in it are sampled, cells evaluated, events delivered. A source
raised by a task delivered in the pass waits for the next tick. DEDUCED: log entry 42. -/
def fabricPass (c : Chip) : Chip :=
  if ! c.isOn .evf || c.fab.passed then c
  else
    let here := c.fab.fired.filter fun x => decide (x.due ≤ c.now)
    let fired := (here.filter fun x => ! c.srcMasked x.source).foldl (fun l x => insertFired x l) []
    let c1 := c.cellsOn.foldl (fun c e => filterStep e c)
      (c.onFab fun f => { f with fired := f.fired.filter fun x => ! decide (x.due ≤ c.now), passed := true })
    let outs := c1.cellOuts fired
    let rises := outs.filter fun o => o.2 && ! (c1.cellSt o.1).out
    let events := fired.map (fun x => (x.source, c.eventWord x)) ++ rises.map fun o => (2 ^ 14 + o.1, cellEvent o.1)
    let c2 := refreshCells outs (c1.cellsOn.foldl (fun c e => cellNext fired outs e c) c1)
    if events.isEmpty then c2 else (List.range 160).foldl (fun c t => deliverTask events t c) c2

/-- The grain ends for the fabric: its pass, if it has not been made; its check-unit and GPIO tasks; and what was noted of the grain is done
with. -/
def fabricEnd (c : Chip) : Chip :=
  (latchPayloads (gpioEnd (chkTasksEnd (fabricPass c)))).onFab fun f => { f with
    passed := false
    maskWas := []
    justSet := f.justSet.filter fun x => slowReg x.1 }

/-- EVENT_DELIVERY (R282): the pass of the present tick, if it has not been made. -/
def execEventDelivery (s : State) : Host.Outcome State Fault Refusal := onChip fabricPass s

end Sys2Proof.Machine
end

