-- ==== Sys2Proof/Machine/Regs.lean ====
section
/-! DEFINITION. Reads and writes of the space-5 registers (R5, R12, R37, R38, R40 and the register tables that end each
chapter), with the rules that single registers add. -/

namespace Sys2Proof.Machine

/-! ### Presence -/

/-- The lane whose block holds an address (R36, R105). -/
def laneOfReg (a : Nat) : Option Nat := if 0xA000 ≤ a ∧ a < 0xB000 then some ((a - 0xA000) / 64) else none

/-- Words of space 5 that no register map row lists: the DPD coefficient store (R70) and the OTP mirror but for the rows
marked unreadable (R210). -/
def dpdPlace (a : Nat) : Option Nat := if 0x9000 ≤ a ∧ a < 0x9300 then some (a - 0x9000) else none
def otpPlace (a : Nat) : Option Nat :=
  if (0x10100 ≤ a ∧ a < 0x10108) ∨ (0x10118 ≤ a ∧ a < 0x10180) then some (a - 0x10100) else none

/-- The planned channel whose dwell charge an address reads (R134). -/
def dwellPlace (a : Nat) : Option Nat := if 0xD000 ≤ a ∧ a < 0xD100 then some (a - 0xD000) else none

/-- The feature registers of an island that a recipe may leave off (R2, R240). -/
def featureReg (a : Nat) : Bool :=
  a == Reg.RF_FEATURE || a == Reg.LINK_FEATURE || a == Reg.MEM_FEATURE || a == Reg.SEC_FEATURE || a == Reg.HOST_FEATURE

/-- Whether an address names a register that is present (R38): a reserved address does not, nor does a register of a lane
that the lane plan does not declare (R105), nor the charge of a channel beyond CHANNELS_M1 (R134), nor the feature register of
an island that the recipe leaves off; that island hides no other register (R16). DEDUCED: log entry 19. -/
def Chip.regPresent (c : Chip) (a : Nat) : Bool :=
  ((regInfo a).isSome || (dpdPlace a).isSome || (otpPlace a).isSome) &&
    (match laneOfReg a with
      | some n => c.laneDeclared n
      | none => ! (featureReg a && c.island (islandOf a) == .absent)) &&
    (match dwellPlace a with
      | some k => decide (k ≤ c.f Fld.LINK_DWELL_WINDOW_CHANNELS_M1)
      | none => true)

/-- Whether the island of a register serves it (R12); a device held in reset serves none (R339). DEDUCED: log entry 20. -/
def Chip.regServed (c : Chip) (a : Nat) : Bool := c.isOn (islandOf a) && decide (c.power ≠ 7) && ! c.pwr.heldInReset

/-! ### Reading -/

/-- The key of a register in a reader's shadow: reader 0 is the core, 1 to 4 the host paths (R300, R316). -/
def shadowKey (who a : Nat) : Nat := who * 2 ^ 20 + a

/-- Latch a word in a reader's shadow. -/
def latchShadow (who a : Nat) (w : Word) (c : Chip) : Chip :=
  { c with shadows := Store.put .absent c.shadows (shadowKey who a) w }

/-- Read a register that has a shadow: the shadow, which this empties, or the live word (R300, R316). -/
def readShadow (who a : Nat) (live : Word) (c : Chip) : Word × Chip :=
  let w := Store.get Word.absent c.shadows (shadowKey who a)
  if w = .absent then (live, c) else (w, latchShadow who a .absent c)

/-- A read of a timer's COUNT: that of the even timer of a chained pair latches the odd count (R300). -/
def readCount (who t : Nat) (c : Chip) : Word × Chip :=
  let live : Word := ⟨.grain, c.tmrCount t⟩
  if c.tmrChainedOdd t then readShadow who (Reg.TMR_COUNT t) live c
  else if t % 2 = 0 ∧ c.tmrChainedOdd (t + 1) = true then
    (live, latchShadow who (Reg.TMR_COUNT (t + 1)) ⟨.grain, c.tmrCount (t + 1)⟩ c)
  else (live, c)

/-- A read of RTC_SECONDS: the fraction and the calendar of the same tick go to the reader's shadow (R316). -/
def readSeconds (who : Nat) (c : Chip) : Word × Chip :=
  (c.reg Reg.RTC_SECONDS, [Reg.RTC_FRAC, Reg.RTC_CAL_DATE, Reg.RTC_CAL_TIME].foldl (fun c a => latchShadow who a (c.reg a) c) c)

/-- A read of a capture value: reading the low half clears FULL (R301, R303). -/
def readCapture (k : Nat) (c : Chip) : Word × Chip :=
  (c.reg (Reg.CAP_VALUE_LO k), c.setB (Fld.CAP_STATUS_FULL k) false)

/-- A read of PWR_NOW_LO latches the high half of the long time (R344). -/
def readNow (who : Nat) (c : Chip) : Word × Chip :=
  (.grain c.now, latchShadow who Reg.PWR_NOW_HI (.grain (c.now / 2 ^ 36)) c)

/-- The rings whose SIZE is non-zero at present (R134). -/
def Chip.ringsPlaced (c : Chip) : Nat := ([0, 1].filter fun r => c.regN (Reg.LINK_RING_SIZE r) != 0).length

/-- The word of a register of the LINK block that follows the machine: RINGS, the earliest rendezvous, and the charges over
the present buckets (R134, R159). DEDUCED: log entry 162. -/
def Chip.linkWord (c : Chip) (a : Nat) : Word :=
  if a = Reg.LINK_FEATURE then (c.reg a).withField 0 2 c.ringsPlaced
  else if a = Reg.LINK_PSCHED_NEXT_LO ∨ a = Reg.LINK_PSCHED_NEXT_HI then (refreshNext c).reg a
  else if 0xC080 ≤ a ∧ a < 0xC0C0 ∧ a % 8 = 4 then .mk' .int (c.chargeNow (256 + (a - 0xC080) / 8))
  else match dwellPlace a with
    | some k => .mk' .int (c.chargeNow k)
    | none => c.reg a

/-- The pads among 32 from a first one whose function is GPIO, as a mask (R265, R425). -/
def Chip.gpioMask (c : Chip) (first : Nat) : Nat :=
  (List.range 32).foldl (fun m i => if first + i < 40 && c.f (Fld.PAD_CFG_FUNCTION (first + i)) == 0 then m + 2 ^ i else m) 0

/-- The word of a register that is present and served. -/
def readServed (who : Nat) (o : Store Nat) (a : Nat) (c : Chip) : Word × Chip :=
  match dpdPlace a, otpPlace a with
  | some k, _ => (c.dpdWord k, c)
  | _, some r => (otpMirror o r, c)
  | none, none =>
    if a = Reg.SYS_SERIAL_LO then (.bits (serial o % 2 ^ 32), c)
    else if a = Reg.SYS_SERIAL_HI then (.bits (serial o / 2 ^ 32), c)
    else if a = Reg.PWR_NOW_LO then readNow who c
    else if a = Reg.PWR_NOW_HI then readShadow who a (.grain (c.now / 2 ^ 36)) c
    else if a = Reg.RTC_SECONDS then readSeconds who c
    else if a = Reg.RTC_FRAC ∨ a = Reg.RTC_CAL_DATE ∨ a = Reg.RTC_CAL_TIME then readShadow who a (c.reg a) c
    else if 0x3000 ≤ a ∧ a < 0x3200 ∧ a % 32 = 1 then readCount who ((a - 0x3000) / 32) c
    else if 0x3200 ≤ a ∧ a < 0x3210 then (⟨.grain, c.tmrCount (a - 0x3200)⟩, c)
    else if 0x3280 ≤ a ∧ a < 0x32C0 ∧ a % 8 = 2 then readCapture ((a - 0x3280) / 8) c
    else if a = Reg.MEM_DDR_STATUS then ((c.reg a).withField 20 9 c.dramHeld, c)
    else if 0x6020 ≤ a ∧ a < 0x6028 then readConflict (a - 0x6020) c
    else if a = Reg.SEC_LIFECYCLE then (secLifecycle o, c)
    else if a = Reg.SEC_STATUS then (c.secStatus o, c)
    else if a = Reg.SEC_KEY_CELLS then (c.secKeyCells, c)
    else if a = Reg.UPD_STATUS then ((c.reg a).withField 22 1 (b2n (c.pin pinMotion)), c)
    else if a = Reg.HOST_CHAIN_TRAIN_LIMIT then (.mk' .int c.bootLimit, c)
    else if 0xC000 ≤ a ∧ a < 0x10000 then (c.linkWord a, c)
    else if a = Reg.PAD_STATUS && c.scan then (.bits 5, c)
    else if a = Reg.PAD_GPIO_IN_LO ∨ a = Reg.PAD_GPIO_IN_HI then (.bits (Nat.land (c.regN a) (c.gpioMask (32 * (a % 2)))), c)
    else (c.reg a, c)

/-- A read of a word of space 5 by the core (0) or a host path (1 to 4) (R12, R38). -/
def readReg (who : Nat) (o : Store Nat) (a : Nat) (c : Chip) : Word × Chip :=
  if ! c.regPresent a then (.absent, c)
  else if ! c.regServed a then (c.stateRefused, c)
  else readServed who o a c

/-! ### Writing -/

/-- The tag a register accepts (R27): its own, but for mailbox arguments, which take every tag that memory keeps, mailbox
replies, which hold words of every tag and ignore what is written (R5, R382), and the words of a schedule record (R143).
DEDUCED: log entry 21. -/
def regTakes (a : Nat) (t : Tag) : Bool :=
  if (0x18040 ≤ a ∧ a < 0x18140) ∧ a % 64 < 16 then t != .poison && t != .refused && t != .absent
  else if (0x18040 ≤ a ∧ a < 0x18140) ∧ 0x18 ≤ a % 64 ∧ a % 64 < 0x20 then true
  else if 0xC110 ≤ a ∧ a < 0xC118 then
    t == (if a = 0xC114 ∨ a = 0xC115 then Tag.grain else if a = 0xC116 then Tag.int else Tag.bits)
  else match dpdPlace a with
    | some _ => true
    | none => (if (otpPlace a).isSome then Tag.bits else (regReset a).tag) == t

/-- The fields of a register. -/
def regFields (a : Nat) : List FieldInfo := match regInfo a with
  | some r => r.fields
  | none => []

/-- Whether a value written to a field is reserved: the map's range, or a rule of the register's own. -/
def FieldInfo.reserved (f : FieldInfo) (bad : Nat → Nat → Bool) (n : Nat) : Bool :=
  (f.acc == .rw || f.acc == .wo) && (! f.legal.admits f.w (bitsOf n f.lo f.w) || bad f.lo (bitsOf n f.lo f.w))

/-- A field's part of a write: an RW field takes its value unless it is reserved, a W1C field is cleared by ones, and a RO or
WO field keeps nothing (R5, R37). -/
def FieldInfo.write (f : FieldInfo) (bad : Nat → Nat → Bool) (n old : Nat) : Nat :=
  match f.acc with
  | .rw => if f.reserved bad n then old else putBits old f.lo f.w (bitsOf n f.lo f.w)
  | .w1c => putBits old f.lo f.w (bitsOf old f.lo f.w - Nat.land (bitsOf old f.lo f.w) (bitsOf n f.lo f.w))
  | _ => old

/-- Whether a write holds a reserved encoding in any field. -/
def anyReserved (a : Nat) (bad : Nat → Nat → Bool) (n : Nat) : Bool := (regFields a).any fun f => f.reserved bad n

/-- No rule beyond the map. -/
def noRule : Nat → Nat → Bool := fun _ _ => false

/-- A write to a register: its fields take their values, but those the register handles itself; a reserved encoding sets
REG_REJECT (R37). DEDUCED: log entry 24. -/
def storeFields (a : Nat) (own : List Nat) (bad : Nat → Nat → Bool) (n : Nat) (c : Chip) : Chip :=
  let v := Nat.lor ((regFields a).foldl (fun v f => if own.contains f.lo then v else f.write bad n v) (c.regN a)) (c.justSetMask a)
  let c1 := c.setRegN a v
  if anyReserved a bad n then c1.regReject else c1

/-- The action of a write, withheld by a reserved encoding in any of its fields (R37). -/
def actUnless (a : Nat) (bad : Nat → Nat → Bool) (n : Nat) (g : Chip → Chip) (c : Chip) : Chip :=
  if anyReserved a bad n then c.regReject else g c

/-! Each block's registers. -/

/-- Writes of the PWR block (R351). PINS of PWR_WAKE_PINS is one field: an entry that names a reserved GPIO leaves all of it unchanged
(R37). DEDUCED: log entry 203. -/
def writePwr (a n : Nat) (c : Chip) : Chip :=
  if a = Reg.PWR_REQUEST then (if n < 8 then powerRequest n c else c.regReject)
  else if a = Reg.PWR_IDLE_ARM then idleArmWrite n c
  else if a = Reg.PWR_WAKE_PINS then
    storeFields a [] (fun lo v => lo == 0 && [0, 1, 2, 3].any fun m => decide (40 ≤ bitsOf v (8 * m) 6)) n c
  else storeFields a [] noRule n c

/-- A write of RTC_CMD (R317, R320, R330). DEDUCED: log entry 46. -/
def rtcCmdWrite (n : Nat) (c : Chip) : Chip :=
  let op := bitsOf n 32 4
  if 4 ≤ op ∨ bitsOf n 16 16 ≠ 0 ∨ (op = 2 ∧ n % 2 ^ 16 = 2 ^ 15) then c.regReject
  else if op = 1 then rtcCommand .set c
  else if op = 2 then rtcShift (BitVec.ofNat 16 n) c
  else if op = 3 then rtcSnap c
  else c

/-- Writes of the RTC block (R324, R327, R330): without a cell LOW_BACKUP stays 0. -/
def writeRtc (a n : Nat) (c : Chip) : Chip :=
  if a = Reg.RTC_CMD then rtcCmdWrite n c
  else if a = Reg.RTC_CTRL then
    let c1 := storeFields a [] noRule n c
    if c1.b Fld.RTC_CTRL_NO_BACKUP then c1.setB Fld.RTC_STATUS_LOW_BACKUP false else c1
  else if 0x2020 ≤ a ∧ a < 0x2030 then
    let x := (a - 0x2020) / 4
    if a % 4 = 2 then
      let c1 := storeFields a [0] noRule n c
      if bitOf n 0 then alarmArm x c1 else alarmDisarm x c1
    else if c.alarmArmed x then c.regReject
    else storeFields a [] noRule n c
  else storeFields a [] noRule n c

/-- Writes of a timer's registers (R294 to R299, R304). -/
def writeTimer (t off n : Nat) (c : Chip) : Chip :=
  let a := 0x3000 + 0x20 * t + off
  if off = 0 then
    let odd := t % 2 == 1
    let run := c.b (Fld.TMR_CTRL_RUN t)
    let mode := bitsOf n 2 1
    let bad (lo v : Nat) : Bool :=
      (lo == 3 && odd && v != 0) ||
      ((lo == 4 || lo == 2 || lo == 3) && run && v != bitsOf (c.regN a) lo (if lo = 4 then 4 else 1)) ||
      (lo == 4 && mode == 1 && v != 0)
    let c1 := storeFields a [0] bad n c
    if bitOf n 0 then c1.onFab fun f => { f with goStart := f.goStart ++ [t] }
    else c1.onFab fun f => { f with goStop := f.goStop ++ [t] }
  else if off = 1 then tmrCountWrite t (BitVec.ofNat 36 n) c
  else if 4 ≤ off ∧ off < 8 then tmrCmpWrite t (off - 4) (BitVec.ofNat 36 n) c
  else if 12 ≤ off ∧ off < 16 then
    let i := off - 12
    let bad (lo v : Nat) : Bool := lo == 3 && v == 1 && ! c.tmrChainedOdd t
    let c1 := storeFields a [0] bad n c
    if bitOf n 0 then judge (c1.setB (Fld.TMR_CCFG_ARMED t i) true) t i
    else clearDue (c1.setB (Fld.TMR_CCFG_ARMED t i) false) (channel t i)
  else storeFields a [] noRule n c

/-- Writes of the TMR block (R304). -/
def writeTmr (a n : Nat) (c : Chip) : Chip :=
  if a < 0x3200 then writeTimer ((a - 0x3000) / 32) (a % 32) n c
  else if a = Reg.TMR_GO then actUnless a noRule n (tmrGo (n % 2 ^ 16) (bitsOf n 16 16)) c
  else if 0x3280 ≤ a ∧ a < 0x32C0 ∧ a % 8 = 0 then
    let t := bitsOf n 4 4
    let bad (lo v : Nat) : Bool := lo == 1 && v == 1 && ! (t % 2 == 0 && c.b (Fld.TMR_CTRL_CHAIN t))
    let k := (a - 0x3280) / 8
    let c1 := storeFields a [] bad n c
    if c1.b (Fld.CAP_CTRL_ENABLE k) && ! c.b (Fld.CAP_CTRL_ENABLE k) then
      c1.onFab fun f => { f with capAt := Store.put 0 f.capAt k (c.now + 1) }
    else c1
  else storeFields a [] noRule n c

/-- Writes of the EVF block (R303). -/
def writeEvf (a n : Nat) (c : Chip) : Chip :=
  if a = Reg.EVF_SW_FIRE then
    if bitsOf n 28 4 = 0 ∧ bitsOf n 32 4 < 12 then swFire (bitsOf n 32 4) (n % 2 ^ 28) c else c.regReject
  else if a = Reg.EVF_GPIO_EDGE 2 then
    let c1 := c.setRegN a (n % 2 ^ 8)
    if n < 2 ^ 8 then c1 else c1.regReject
  else if Reg.EVF_SRC_MASK 0 ≤ a ∧ a ≤ Reg.EVF_SRC_MASK 7 then storeFields a [] noRule n (noteMask (a - Reg.EVF_SRC_MASK 0) c)
  else if a = Reg.EVF_GANG_DELAY then storeFields a [] noRule n (noteDelay c)
  else storeFields a [] noRule n c

/-- Whether a check unit's SEL names a stream of SRC (R307). -/
def Chip.chkSelOk (c : Chip) (src sel : Nat) : Bool :=
  match src with
  | 0 => sel == 0
  | 1 => c.laneDeclared sel
  | 2 => decide (1 ≤ sel) && decide (sel ≤ 3)
  | 5 => decide (sel < 18) || (decide (sel < 50) && c.isOn .memT)
  | 6 => decide (sel < 3)
  | 7 => decide (sel < 4)
  | _ => decide (sel < 2) && c.isOn .chain

/-- Whether the values a unit holds fit an algorithm and width (R305, R306): VALUE counts where octets have been folded, since
else it starts from INIT. DEDUCED: log entry 200. -/
def Chip.chkFits (c : Chip) (k : Nat) (fletcher : Bool) (w : Nat) : Bool :=
  let held := c.regN (Reg.CHK_COUNT k) != 0
  let ok (n : Nat) : Bool := if fletcher then n % 2 ^ 16 != 0xFFFF && bitsOf n 16 16 != 0xFFFF else decide (n < 2 ^ w)
  ok (c.regN (Reg.CHK_INIT k)) && (! held || ok (c.regN (Reg.CHK_VALUE k))) &&
    (fletcher || [Reg.CHK_POLY k, Reg.CHK_XOROUT k, Reg.CHK_EXPECT k].all fun a => ok (c.regN a))

/-- Whether a frame of a framed stream is in progress: one that a unit enabled now does not join (R308). A chain frame passes
whole. -/
def Chip.midFrame (c : Chip) (src sel : Nat) : Bool :=
  if src = 1 then (c.laneFrame sel).any fun f => f.started
  else if src = 2 then c.radio.carriers.any fun k => k.onAir && k.kind != .page && k.kind != .training && sel.testBit (b2n k.isAck)
  else false

/-- A write of a check unit's CTRL (R307, R308, R310, R312): the values written before are judged as the unit is enabled
(R305, R306). A unit that is enabled with no octet folded starts from INIT. DEDUCED: log entry 45. -/
def chkCtrlWrite (k n : Nat) (c : Chip) : Chip :=
  let a := Reg.CHK_CTRL k
  let on := c.b (Fld.CHK_CTRL_ENABLE k)
  let width (lo : Nat) : Nat := match lo with
    | 24 => 6 | 21 => 3 | 19 => 2 | 17 => 2 | 8 => 5 | _ => 1
  let src := bitsOf n 21 3
  let bad (lo v : Nat) : Bool :=
    (on && lo != 0 && lo != 16 && v != bitsOf (c.regN a) lo (width lo)) ||
    (lo == 0 && v == 1 && ! on && ! c.chkFits k (bitOf n 13) (bitsOf n 8 5 + 1)) ||
    (lo == 24 && ! c.chkSelOk src v) ||
    (lo == 21 && (v == 3 || v == 4) && ! c.isOn .chain) ||
    (lo == 19 && v == 0 && src == 5) ||
    (lo == 19 && v == 1 && c.regN (Reg.CHK_LENGTH k) == 0)
  let c1 := storeFields a [] bad n c
  if ! on && c1.b (Fld.CHK_CTRL_ENABLE k) then
    let s := c1.f (Fld.CHK_CTRL_SRC k)
    let c2 := c1.setChk k { (c1.chkUnit k) with waitFrame := c1.midFrame s (c1.f (Fld.CHK_CTRL_SEL k)), txCarrier := none, seen := 0 }
    if c2.regN (Reg.CHK_COUNT k) = 0 then c2.setRegN (Reg.CHK_VALUE k) (c2.regN (Reg.CHK_INIT k)) else c2
  else c1

/-- Whether a unit accepts a value of POLY, INIT, XOROUT, EXPECT or VALUE (R305, R306): while it is not enabled its algorithm
and width are still to be chosen. DEDUCED: log entry 200. -/
def Chip.chkValueOk (c : Chip) (k off n : Nat) : Bool :=
  if ! c.b (Fld.CHK_CTRL_ENABLE k) then true
  else if c.chkFletcher k then off != 2 || (n % 2 ^ 16 != 0xFFFF && bitsOf n 16 16 != 0xFFFF)
  else decide (n < 2 ^ c.chkWidth k)

/-- Writes of the CHK block (R305, R310, R312, R313). -/
def writeChk (a n : Nat) (c : Chip) : Chip :=
  if 0x5080 ≤ a then storeFields a [] noRule n c
  else
    let k := (a - 0x5000) / 16
    let off := a % 16
    if off = 0 then chkCtrlWrite k n c
    else if (off = 4 ∨ off = 8) ∧ c.b (Fld.CHK_CTRL_ENABLE k) = true then c.regReject
    else if 1 ≤ off ∧ off ≤ 6 ∧ off ≠ 5 then storeFields a [] (fun lo v => lo == 0 && ! c.chkValueOk k off v) n c
    else if off = 7 then
      storeFields a [] (fun lo v => lo == 0 && v == 0 && c.f (Fld.CHK_CTRL_END_MODE k) == 1) n c
    else storeFields a [] noRule n c

/-- Writes of the MEM block (R175, R186, R187). -/
def writeMemReg (a n : Nat) (c : Chip) : Chip :=
  if a = Reg.MEM_MIRROR_CTRL then
    let own := c.f Fld.SYS_STATE_CHIP_NUMBER
    let bad (lo v : Nat) : Bool :=
      ((lo == 6 || lo == 7) && v == 1 && ! c.b Fld.MEM_FEATURE_MIRROR) || ((lo == 0 || lo == 8) && v == own)
    let c1 := storeFields a [] bad n c
    if ! c.b Fld.MEM_MIRROR_CTRL_ACCEPT && c1.b Fld.MEM_MIRROR_CTRL_ACCEPT then { c1 with gang := { c1.gang with breakSeen := false } }
    else c1
  else if a = Reg.MEM_DDR_CTRL then
    let c1 := storeFields a [] noRule n c
    if bitOf n 1 && ! anyReserved a noRule n then retrain c1 else c1
  else if a = Reg.MEM_CONFLICT 3 then storeFields a [] noRule (putBits (putBits n 15 1 0) 31 1 0) c
  else storeFields a [] noRule n c

/-- A write that blanks a chain while a carrier is on air abandons the frame the chain receives (R57). -/
def blankStops (before c : Chip) : Chip :=
  [0, 1].foldl (fun d x => if d.blanked x && ! before.blanked x then chainStops x 5 d else d) c

/-- A write of a chain's CTRL (R48, R55, R57, R73). -/
def chainCtrlWrite (x n : Nat) (c : Chip) : Chip :=
  let a := Reg.RF_CHAIN_CTRL x
  let bad (lo v : Nat) : Bool := x == 0 && lo == 7 && v == 1
  let c1 := blankStops c (storeFields a [0, 7] bad n c)
  let c2 := if x = 1 then followWrite (bitOf n 7) c1 else c1
  chainEnableWrite x (bitOf n 0) c2

/-- A write of RF_TX_CTRL (R57, R58, R61, R69). -/
def txCtrlWrite (n : Nat) (c : Chip) : Chip :=
  let bad (lo v : Nat) : Bool := lo == 5 && v == 1 && ! c.b Fld.RF_FEATURE_EXT_PA
  chainEnableWrite 2 (bitOf n 0) (blankStops c (storeFields Reg.RF_TX_CTRL [0] bad n c))

/-- Writes of the RF block (R45 to R73). -/
def writeRf (a n : Nat) (c : Chip) : Chip :=
  if a = Reg.RF_CHAIN_CTRL 0 then chainCtrlWrite 0 n c
  else if a = Reg.RF_CHAIN_CTRL 1 then chainCtrlWrite 1 n c
  else if a = Reg.RF_CHAIN_FREQ 1 ∧ c.follows = true then c.regReject
  else if a = Reg.RF_CHAIN_RETUNE_AT 0 then retuneAtWrite 0 (BitVec.ofNat 36 n) c
  else if a = Reg.RF_CHAIN_RETUNE_AT 1 then retuneAtWrite 1 (BitVec.ofNat 36 n) c
  else if a = Reg.RF_TX_RETUNE_AT then retuneAtWrite 2 (BitVec.ofNat 36 n) c
  else if a = Reg.RF_AGC_CONFIG then
    storeFields a [] (fun lo _ => (lo == 10 || lo == 4) && decide (bitsOf n 10 6 < bitsOf n 4 6 + 12)) n c
  else if a = Reg.RF_TX_CTRL then txCtrlWrite n c
  else if a = Reg.RF_TX_POWER then
    let top : Int := if c.f Fld.RF_TX_CTRL_PA_SELECT = 1 then 120 else 80
    storeFields a [] (fun _ v => decide (signed 8 v < -40) || decide (top < signed 8 v)) n c
  else if a = Reg.RF_DPD_CTRL then
    let c1 := activeChanged c.allowed (storeFields a [] noRule n c)
    if bitOf n 15 && ! anyReserved a noRule n then trainNow c1 else c1
  else if a = Reg.RF_DPD_TEMP_EDGES then
    let asc := decide (signed 8 (bitsOf n 0 8) < signed 8 (bitsOf n 8 8)) && decide (signed 8 (bitsOf n 8 8) < signed 8 (bitsOf n 16 8))
    activeChanged c.allowed (storeFields a [] (fun lo _ => lo != 32 && ! asc) n c)
  else if groupEdges.contains a then
    (if anyReserved a noRule n then c.regReject else activeChanged c.allowed (c.setRegN a n))
  else if a = Reg.RF_CAL_CTRL then
    let c1 := storeFields a [] noRule n c
    if anyReserved a noRule n then c1
    else
      let c2 := if bitOf n 7 then startCal (bitsOf n 4 3) c1 else c1
      if bitOf n 0 then calSave c2 else c2
  else storeFields a [] noRule n c

/-- A write of LANE_PHY (R37, R105): FAMILY and PARAMS each take their value unless it is reserved, PARAMS as the family then
in force reads it; bits 35:16 are read-only. -/
def lanePhyWrite (k n : Nat) (c : Chip) : Chip :=
  let a := Reg.LANE_PHY k
  let old := c.regN a
  let good := decide (bitsOf n 14 2 < 3) && (c.laneFamilies k).testBit (bitsOf n 14 2)
  let v := if good then putBits old 14 2 (bitsOf n 14 2) else old
  let w := putBits v 0 14 (bitsOf n 0 14)
  let fits := phyLegal (c.laneFamilies k) w
  let c1 := c.setRegN a (if fits then w else v)
  if good && fits then c1 else c1.regReject

/-- Writes of a lane's registers (R77 to R79, R105, R274). On a SCHEDULED lane, a write of LANE_CTRL that leaves LISTEN as it
stands is no write of LISTEN, and is taken; the command LISTEN_WRITE writes LISTEN whatever its value, and is discarded.
DEDUCED: log entry 216. -/
def writeLane (k off n : Nat) (c : Chip) : Chip :=
  let a := 0xA000 + 64 * k + off
  if off < 4 ∧ c.laneState k = laneQuiesced then c.regReject
  else if off = 0 then
    let c1 := storeFields a [0, 1] noRule n c
    let c2 := if c1.b (Fld.LANE_CTRL_LISTEN k) == bitOf n 1 then c1 else listenWrite k (bitOf n 1) c1
    if bitOf n 0 then laneEnable k c2 else laneDisable k c2
  else if (off = 1 ∨ off = 2 ∨ off = 3) ∧ c.b (Fld.LANE_STATUS_SCHEDULED k) = true then c.regReject
  else if off = 2 then lanePhyWrite k n c
  else if off = 3 then laneSwitchAtWrite k (BitVec.ofNat 36 n) c
  else storeFields a [] noRule n c

/-- A write of LINK_CTRL (R125, R131, R142, R134). DEDUCED: log entry 114. -/
def linkCtrlWrite (n : Nat) (c : Chip) : Chip :=
  let bad (lo v : Nat) : Bool :=
    lo == 8 && ((v == 1 && ! c.b Fld.LINK_FEATURE_TSCH) || (v == 2 && ! c.b Fld.LINK_FEATURE_PSCHED) ||
      (v != c.f Fld.LINK_CTRL_SCHED_MODE && c.b Fld.LINK_TSCH_CTRL_RUN))
  let old := c.f Fld.LINK_CTRL_SCHED_MODE
  let c1 := storeFields Reg.LINK_CTRL [0] bad n c
  let c2 := if old = 2 ∧ c1.f Fld.LINK_CTRL_SCHED_MODE ≠ 2 then
      finishWhere (fun j => j.kind == 3 && j.phase == .queued) txStateRefused (pschedStop c1)
    else c1
  if bitOf n 0 then c2.setB Fld.LINK_CTRL_ENABLE true else linkDisable c2

/-- Whether a number is a power of two from 4 to 256, or 0: the sizes of a ring (R130). -/
def ringSize (n : Nat) : Bool := [0, 4, 8, 16, 32, 64, 128, 256].contains n

/-- Writes of a receive ring's registers (R130, R134): its areas only while the link controller is disabled. -/
def writeRing (r off n : Nat) (c : Chip) : Chip :=
  let a := 0xC040 + 8 * r + off
  if off = 3 then ringConsWrite r n c
  else if c.b Fld.LINK_CTRL_ENABLE then c.regReject
  else
    let ok := if off = 0 ∨ off = 4 then spaceOf n == 1 && n % 2 == 0
      else if off = 1 then ringSize n
      else decide (512 ≤ n) && decide (n ≤ 8192) && n % 2 == 0
    if ok then refreshRing r (c.setRegN a n) else c.regReject

/-- Writes of LINK_TSCH_CTRL and LINK_PSCHED_CTRL (R118, R125, R142). -/
def tschCtrlWrite (n : Nat) (c : Chip) : Chip :=
  let bad (lo v : Nat) : Bool := lo == 0 && v == 1 && c.f Fld.LINK_CTRL_SCHED_MODE != 1
  let c0 := storeFields Reg.LINK_TSCH_CTRL [0] bad n c
  let c1 := if bitOf n 1 == c.b Fld.LINK_TSCH_CTRL_COORD then c0 else c0.setB Fld.LINK_STATUS_TSCH_SYNCED (bitOf n 1)
  if bitOf n 0 then (if c1.b Fld.LINK_TSCH_CTRL_RUN || c1.f Fld.LINK_CTRL_SCHED_MODE != 1 then c1 else tschRunSet c1)
  else tschRunClear c1
def pschedCtrlWrite (n : Nat) (c : Chip) : Chip :=
  let bad (lo v : Nat) : Bool :=
    lo == 0 && v == 1 && (c.f Fld.LINK_CTRL_SCHED_MODE != 2 || c.regN Reg.LINK_PSCHED_OUI == 0)
  let c1 := storeFields Reg.LINK_PSCHED_CTRL [0] bad n c
  let c2 := if bitOf n 0 then
      (if bad 0 1 then c1 else c1.setB Fld.LINK_PSCHED_CTRL_RUN true)
    else pschedRunClear c1
  refreshNext c2

/-- Writes of the LINK block (R134, R159). -/
def writeLink (a n : Nat) (c : Chip) : Chip :=
  if a = Reg.LINK_CTRL then linkCtrlWrite n c
  else if a = Reg.LINK_CSMA then
    storeFields a [] (fun lo _ => (lo == 4 || lo == 0) && decide (bitsOf n 4 4 < n % 16)) n c
  else if a = Reg.LINK_DWELL_WINDOW then
    let c1 := storeFields a [0] noRule n c
    if windowLegal (n % 2 ^ 22) then budgetWindowWrite 8 (n % 2 ^ 22) c1 else c1
  else if 0xC040 ≤ a ∧ a < 0xC050 ∧ a % 8 < 6 ∧ a % 8 ≠ 2 then writeRing ((a - 0xC040) / 8) (a % 8) n c
  else if a = Reg.LINK_TSCH_CTRL then tschCtrlWrite n c
  else if (a = Reg.LINK_TSCH_ASN_LO ∨ a = Reg.LINK_TSCH_ASN_HI) ∧ c.b Fld.LINK_TSCH_CTRL_RUN = true then c.regReject
  else if a = Reg.LINK_TSCH_TABLE then (if spaceOf n = 1 ∧ n % 2 = 0 then c.setRegN a n else c.regReject)
  else if a = Reg.LINK_TSCH_HOP_BASE ∨ a = Reg.LINK_TSCH_EB then (if spaceOf n = 1 then c.setRegN a n else c.regReject)
  else if 0xC058 ≤ a ∧ a < 0xC060 then
    storeFields a [] (fun lo v => lo == 0 && decide (v < bitsOf n 10 10)) n c
  else if 0xC080 ≤ a ∧ a < 0xC0C0 then
    let k := (a - 0xC080) / 8
    if a % 8 = 2 then
      (if n < 2 ^ 22 ∧ windowLegal n = true then budgetWindowWrite k n c else c.regReject)
    else refreshUsed (storeFields a [] noRule n c)
  else if a = Reg.LINK_PARTNER_CMD then partnerCmdWrite n c
  else if a = Reg.LINK_PSCHED_CTRL then pschedCtrlWrite n c
  else if a = Reg.LINK_PSCHED_OUI ∧ c.b Fld.LINK_PSCHED_CTRL_RUN = true then c.regReject
  else storeFields a [] noRule n c

/-- Writes of the SEC block (R206, R210): the outcome of the health tests is a free value. DESIGN CHOICE: log entry 23. -/
def writeSec (a n : Nat) (c : Chip) : Chip :=
  if a = Reg.SEC_DRBG_CTRL then
    let c1 := storeFields a [] noRule n c
    if bitOf n 35 && ! anyReserved a noRule n then
      let (v, c2) := takeFree 2 c1
      reinit (v == 1) c2
    else c1
  else storeFields a [] noRule n c

/-- Writes of the UPD block (R373, R380). -/
def writeUpd (a n : Nat) (c : Chip) : Chip :=
  if a = Reg.UPD_SETTINGS_REPORT then settingsReport (if n < 2 ^ 12 then n else 1) c
  else storeFields a [] noRule n c

/-! ### Mailboxes and the host block (R381 to R393) -/

/-- The system ports of the recipe: 0 ticket, 1 internal mailbox, 2 event and timer (R240, R264). -/
def Chip.sysPort (c : Chip) (k : Nat) : Bool :=
  match c.recipe with
  | some r => r.sysPorts.testBit k
  | none => false

/-- The codes of the mailbox command rows (R387). -/
def mbxKnown (code : Nat) : Bool :=
  [0x00, 0x01, 0x02, 0x03, 0x04, 0x05, 0x08, 0x09, 0x30, 0x32, 0x33, 0x3F, 0x41, 0x42, 0x43, 0x50, 0x51, 0x52, 0x53, 0x54, 0x55,
    0x56, 0x57, 0x58, 0x59, 0x60, 0x61, 0x62, 0x63].contains code

/-- Whether a command is legal in the device state (R363, R388). -/
def Chip.mbxLegal (c : Chip) (code : Nat) : Bool :=
  let d := c.dev
  if code = 0x01 then true
  else if d = devDead then false
  else if code = 0x00 ∨ code = 0x03 ∨ code = 0x04 then true
  else if d = devBoot then false
  else if code = 0x05 ∨ code = 0x08 then d == devRun
  else if 0x60 ≤ code ∧ code ≤ 0x63 then d == devRecovery
  else if code = 0x43 then true
  else d == devRun || d == devGerminate

/-- The islands a command needs (R389). DEDUCED: log entry 144. -/
def mbxNeeds (code : Nat) : List Island :=
  if code = 0x05 then [.core, .lane, .mram]
  else if code = 0x08 then [.chain]
  else if code = 0x09 then [.chain, .ddr]
  else if 0x30 ≤ code ∧ code ≤ 0x43 then [.core]
  else if 0x50 ≤ code then [.mram]
  else []

/-- The result with which a command is refused at once (R387 to R389). -/
def Chip.mbxRefusal (c : Chip) (code : Nat) : Option Word :=
  if c.dev = devDead ∧ code ≠ 0x01 then some (refused .dead)
  else if ! mbxKnown code then some (refused .unknownCommand)
  else if ! c.mbxLegal code then some c.stateRefused
  else if (mbxNeeds code).any fun i => ! c.isOn i then some c.stateRefused
  else none

/-- Where a mailbox keeps its arguments: the core ports for path 0, registers for paths 1 to 4 (R382). -/
def Chip.mbxArg (c : Chip) (p k : Nat) : Word :=
  if p = 0 then c.port (0xA00 + k) else c.reg (Reg.MBX_ARG (p - 1) k)

/-- The status word of a mailbox, and a change of it. -/
def Chip.mbxStatus (c : Chip) (p : Nat) : Word := if p = 0 then c.port 0xA11 else c.reg (Reg.MBX_STATUS (p - 1))
def setMbxStatus (p : Nat) (w : Word) (c : Chip) : Chip := if p = 0 then c.setPort 0xA11 w else c.setReg (Reg.MBX_STATUS (p - 1)) w

/-- A write of MBX_GO (R383): while BUSY it is discarded, COLLIDE and REG_REJECT being set; else the arguments are taken and
the command begins, which no idle tick spans (R338). -/
def mbxGo (p n : Nat) (c : Chip) : Chip :=
  let code := n % 256
  let seq := bitsOf n 12 8
  if n / 2 ^ 20 ≠ 0 ∨ bitsOf n 8 4 ≠ 0 then c.regReject
  else if (c.mbxOf p).busy then (setMbxStatus p ((c.mbxStatus p).withField 2 1 1) c).regReject
  else
    let m : Mbx := {
      busy := true
      code := code
      seq := seq
      args := (List.range 16).map (c.mbxArg p)
      at_ := c.now
      steps := 0
      prog := 0
      result := (c.mbxRefusal code).map fun w => [w] }
    setMbx p m (setMbxStatus p ((c.mbxStatus p).withField 0 1 1) { c with pwr := { c.pwr with used := true } })

/-- An MSI-X vector is signalled, where the PCIe block is on (R391). DESIGN CHOICE: log entry 226. -/
def Chip.msi (c : Chip) (v : Nat) : Chip := if c.isOn .pcie then { c with msix := c.msix ++ [v] } else c

/-- HOST_DOORBELL_OUT (R391): firmware signals an MSI-X vector, 2 to 31. -/
def doorbellOut (v : Nat) (c : Chip) : Chip :=
  if 2 ≤ v ∧ v ≤ 31 then (if c.isOn .pcie then c.msi v else c.regReject) else c.regReject

/-- HOST_DOORBELL_OUT (R391). -/
def execHostDoorbellOut (v : BitVec 6) (s : State) : Host.Outcome State Fault Refusal := onChip (doorbellOut v.toNat) s

/-- A host write of HOST_DOORBELL_IN (R393): DOORBELL is set, and it is a wake source. -/
def doorbellIn (n : Nat) (c : Chip) : Chip :=
  let c1 := (c.setRegN Reg.HOST_DOORBELL_IN n).raise .host 0
  latchWake c1 4

/-- Writes of the HOST block (R407); `host` tells a host's doorbell from a write by the core. -/
def writeHost (host : Bool) (a n : Nat) (w : Word) (c : Chip) : Chip :=
  if 0x18040 ≤ a ∧ a < 0x18140 then
    let p := (a - 0x18040) / 64
    let off := a % 64
    if off < 16 then c.setReg a w
    else if off = 16 then mbxGo (p + 1) n c
    else storeFields a [] noRule n c
  else if a = Reg.HOST_DOORBELL_IN then (if host then doorbellIn n c else c.setRegN a n)
  else if a = Reg.HOST_DOORBELL_OUT then doorbellOut n c
  else if a = Reg.HOST_CHAIN_TRAIN_LIMIT then
    (if anyReserved a noRule n then c.regReject else writeBootLimit n c)
  else if 0x18208 ≤ a ∧ a < 0x1820C then
    (if n / 2 ^ 34 ≠ 0 ∨ bitsOf n 11 13 ≠ 0 then c.regReject else c.setRegN a n)
  else storeFields a [] noRule n c

/-- The pads that PAD_GPIO_CLR has cleared in this grain (R425). -/
def Chip.clearedNow (c : Chip) : Nat := if c.fab.padCleared.1 = c.now + 1 then c.fab.padCleared.2 else 0

/-- Note the pads that have been cleared in this grain. -/
def Chip.setPadCleared (c : Chip) (m : Nat) : Chip := { c with fab := { c.fab with padCleared := (c.now + 1, m) } }

/-- Writes of the GPIO registers (R425): pads that are not GPIOs ignore them; CLR wins over SET in one grain. -/
def writeGpio (a n : Nat) (c : Chip) : Chip :=
  let hi := a % 2
  let mask := c.gpioMask (32 * hi)
  let v := Nat.land (n % 2 ^ (if hi = 0 then 32 else 8)) mask
  let out := if hi = 0 then Reg.PAD_GPIO_OUT_LO else Reg.PAD_GPIO_OUT_HI
  if a = Reg.PAD_GPIO_OUT_LO ∨ a = Reg.PAD_GPIO_OUT_HI ∨ a = Reg.PAD_GPIO_OE_LO ∨ a = Reg.PAD_GPIO_OE_HI then
    c.setRegN a (c.regN a - Nat.land (c.regN a) mask + v)
  else if a = Reg.PAD_GPIO_SET_LO ∨ a = Reg.PAD_GPIO_SET_HI then
    c.setRegN out (Nat.lor (c.regN out) (v - Nat.land v (c.clearedNow / 2 ^ (32 * hi))))
  else (c.setRegN out (c.regN out - Nat.land (c.regN out) v)).setPadCleared (Nat.lor c.clearedNow (v * 2 ^ (32 * hi)))

/-- Writes of the PAD block (R349, R425). The bits above a GPIO field are reserved: a write that sets one leaves the levels and
enables it writes, and withholds a set or a clear (R37). DEDUCED: log entry 203. -/
def writePad (a n : Nat) (c : Chip) : Chip :=
  if a = Reg.PAD_RELEASE then (if 2 ≤ n then c.regReject else if n = 1 then padRelease c else c)
  else if Reg.PAD_GPIO_OUT_LO ≤ a ∧ a ≤ Reg.PAD_GPIO_OE_HI then
    let c1 := writeGpio a n c
    if anyReserved a noRule n then c1.regReject else c1
  else if Reg.PAD_GPIO_SET_LO ≤ a ∧ a ≤ Reg.PAD_GPIO_CLR_HI then actUnless a noRule n (writeGpio a n) c
  else storeFields a [] noRule n c

/-- A write to a register that is present, served and takes the word's tag. DEDUCED: log entry 16. -/
def writeServed (host : Bool) (a : Nat) (w : Word) (c : Chip) : Chip :=
  let n := w.nat
  match dpdPlace a with
  | some k => dpdStoreWrite k w c
  | none =>
    if a < 0x1000 then storeFields a [] noRule n c
    else if a < 0x2000 then writePwr a n c
    else if a < 0x3000 then writeRtc a n c
    else if a < 0x4000 then writeTmr a n c
    else if a < 0x5000 then writeEvf a n c
    else if a < 0x6000 then writeChk a n c
    else if a < 0x8000 then writeMemReg a n c
    else if a < 0xA000 then writeRf a n c
    else if a < 0xB000 then writeLane ((a - 0xA000) / 64) (a % 64) n c
    else if 0xC108 ≤ a ∧ a < 0xC118 then c.setReg a w
    else if a < 0x10000 then writeLink a n c
    else if a < 0x14000 then writeSec a n c
    else if a < 0x18000 then writeUpd a n c
    else if a < 0x1C000 then writeHost host a n w c
    else writePad a n c

/-- A write to a word of space 5 (R12, R37, R38, R40): discarded, with REG_REJECT set, at a reserved address, in an island that
does not serve it, or with a tag the register does not accept; a store of the core as well (R222). -/
def writeReg (host : Bool) (a : Nat) (w : Word) (c : Chip) : Chip :=
  if ! c.regPresent a || ! c.regServed a || ! regTakes a w.tag then c.regReject else writeServed host a w c

/-- An access by the host or the core: HOST_REJECT tells whose write was rejected last (R407). -/
def asWriter (host : Bool) (g : Chip → Chip) (c : Chip) : Chip :=
  let old := c.b Fld.SYS_STATUS_REG_REJECT
  let c1 := g (c.setB Fld.SYS_STATUS_REG_REJECT false)
  if c1.b Fld.SYS_STATUS_REG_REJECT then
    (if host then c1.hostReject else c1.setB Fld.SYS_STATUS_HOST_REJECT false)
  else c1.setB Fld.SYS_STATUS_REG_REJECT old

/-- A register write by the core or a host, with HOST_REJECT kept. -/
def writeRegBy (host : Bool) (a : Nat) (w : Word) (c : Chip) : Chip :=
  if a = Reg.SYS_STATUS then writeReg host a w c else asWriter host (writeReg host a w) c

/-! ### Rows -/

/-- A command that reads: the word read is left in the output latch. -/
def readOut (g : Store Nat → Chip → Word × Chip) (o : Store Nat) (c : Chip) : Chip :=
  let (w, c1) := g o c
  c1.reply [w]

/-- A read of a register by a reader, whose slot the check units see where it is a host's (R307). -/
def readRegBy (who a : Nat) (o : Store Nat) (c : Chip) : Word × Chip :=
  let (w, c1) := readReg who o a c
  (w, dmaSeen who 1 (wordBytes w) true c1)

/-- RTC_SECONDS_READ (R316): reader 0 is the core, 1 to 4 the host paths. -/
def execRtcSecondsRead (who : Fin 5) (s : State) : Host.Outcome State Fault Refusal :=
  onChipOtp (readOut (readRegBy who.val Reg.RTC_SECONDS)) s

/-- TMR_PAIR_READ (R300): a read of the COUNT of the even or the odd timer of a pair. -/
def execTmrPairRead (who : Fin 5) (p : Fin 8) (odd : Bool) (s : State) : Host.Outcome State Fault Refusal :=
  onChipOtp (readOut (readRegBy who.val (Reg.TMR_COUNT (2 * p.val + b2n odd)))) s

/-- CAP_VALUE_READ (R301, R304). -/
def execCapValueRead (k : Fin 8) (s : State) : Host.Outcome State Fault Refusal :=
  onChipOtp (readOut fun o c => readReg 0 o (Reg.CAP_VALUE_LO k.val) c) s

/-- REGISTER_WRITE (R37). -/
def execRegisterWrite (host : Bool) (a : BitVec 17) (w : Word) (s : State) : Host.Outcome State Fault Refusal :=
  onChip (writeRegBy host a.toNat w) s

end Sys2Proof.Machine
end

