-- ==== Sys2Proof/Machine/Activate.lean ====
section
/-! DEFINITION. Activation of a new image and fallback to the old one (16_startup_update_recovery.md, R369 to R375; R20, R21,
R237). -/

namespace Sys2Proof.Machine

/-- The core starts again at bundle 0 of the active bank without its island having stopped (R237, R239): the ports of the
ticket unit and of the mailbox, the tickets, the error counts of the instruction memory and the pending events stay; all
else is as at a core start. Activity in the core island is discarded. -/
def handOver (cause : Nat) (c : Chip) : Chip :=
  let kept := c.core.ports.filter fun e => decide (0x900 ≤ e.1) || e.1 == 0x869
  let c1 := coreStart cause c
  { c1 with core := { c1.core with ports := kept } }

/-- The end of the pause (R231): an input in latch mode is left pending with its first payload alone. -/
def settleInputs (old c : Chip) : Chip :=
  evInputs.foldl (fun c j => if old.evCount j then c else
    let x := c.input j
    if 1 < x.count then setInput c j { x with count := 1 } else c) c

/-- The banks swap and the core starts in the new active bank (R237): the previous image is left in the shadow. -/
def swapBanks (cause : Nat) (c : Chip) : Chip :=
  let c1 := settleInputs c (handOver cause { c with core := { c.core with bank := 1 - c.core.bank } })
  let c2 := { c1 with core := { c1.core with paused := false } }
  if c2.power = 4 then transitionEnd (setPower c2.pwr.level c2) else c2

/-- The core stops for a handover once the bundle in progress and its accesses are complete (R237, R370): whether they have. -/
def pauseCore (c : Chip) : Bool × Chip :=
  if c.core.accesses.isEmpty && c.core.stalled == none then (true, c) else (false, { c with core := { c.core with paused := true } })

/-- The trial starts: its end in long time (R372). -/
def startTrial (c : Chip) : Chip :=
  let e := c.now + c.slotRec.window * 67108864
  ((c.onUpd fun u => { u with trialEnd := e, unreadable := false }).setReg Reg.UPD_TRIAL_END_LO (.grain e)).setReg
    Reg.UPD_TRIAL_END_HI (.grain (e / 2 ^ 36))

/-- The operation that armed an activation completes with the activation grain: with QUIET 0 the grain given (R369). -/
def activated (a : Activation) (c : Chip) : Chip :=
  let g := Word.grain (a.at_.getD c.now)
  lastResult 0 (finishArmed a g (c.setReg Reg.UPD_ACTIVATE_GRAIN g))

/-- The image signature in a slot. -/
def Chip.slotSignature (c : Chip) (s : Nat) : List Nat :=
  signaturePart (c.mramBytes (slotBase s) (min 0x600000 (c.mramLe (slotBase s + 12) 4)))

/-- ACTIVATION (R370, R371): at the activation grain, or in the first quiet gap, the banks swap; in restart mode the device
resets into a trial. A restarting core waits for its restart, and a Germinate under way for its end. DEDUCED: log entry 125. DEDUCED:
log entry 194. -/
def activation (o : Store Nat) (c : Chip) : Chip :=
  match c.upd.armed with
  | none => c
  | some a =>
    let due := match a.at_ with
      | some g => decide (g ≤ c.now)
      | none => c.core.paused || c.quietGap
    if ! due || c.dev ≠ devGerminate || ! c.isOn .core || c.upd.germinating ≠ 0 then c
    else
      let s := c.slotRec.staging
      if c.b Fld.UPD_STATUS_RESTART_MODE then
        let c1 := activated a (c.onUpd fun u => { u with armed := none })
        resetDevice none false o (putRec { c1.slotRec.setSlot s slotTrial with restartTrial := true } c1)
      else
        let (ready, c1) := pauseCore c
        if ! ready then c1
        else
          let c2 := activated a (c1.onUpd fun u => { u with armed := none })
          let c3 := (swapBanks 2 (putRec (c2.slotRec.setSlot s slotTrial) c2)).onUpd fun u => { u with slot := s }
          ((startTrial (measExtend 1 (c3.slotSignature s) (c3.setB Fld.SYS_STATE_TRIAL true))).raise .upd updActivated)

/-- ACTIVATION (R370). -/
def execActivation (s : State) : Host.Outcome State Fault Refusal := onChipBurn activation s

/-- What every fallback does (R375): the trial slot is STAGED again, the device runs, FELL_BACK is raised. -/
def fellBack (c : Chip) : Chip :=
  let r := c.slotRec
  let c1 := putRec { r.setSlot r.staging slotStaged with restartTrial := false } c
  ((setDev devRun (c1.setB Fld.SYS_STATE_TRIAL false)).setB Fld.UPD_STATUS_RESTART_MODE false).raise .upd updFellBack

/-- Whether a fallback has first to reload the shadow (R375). -/
def Chip.reloads (c : Chip) : Bool := c.trial && ! c.b Fld.UPD_STATUS_RESTART_MODE && ! c.core.shadowValid

/-- The shadow holds the confirmed slot's instruction section again (R375). -/
def reloadAll (c : Chip) : Chip :=
  let l := loadSlot (1 - c.core.bank) (1 - c.slotRec.staging) c
  ({ l with core := { l.core with shadowValid := true } }).onUpd fun u => { u with reload := none }

/-- One step of a reload, of `chunk` octets; the shadow is valid at the end of the last, and the trial image runs on meanwhile (R375).
DEDUCED: log entry 126. -/
def reloadStep (chunk : Nat) (c : Chip) : Chip :=
  let n := ((findSection (c.imageTable (1 - c.slotRec.staging)) 1).map fun r => r.length).getD 0
  let k := c.upd.reload.getD 0 + chunk
  if n ≤ k then reloadAll c else c.onUpd fun u => { u with reload := some k }

/-- Fallback as the stage requires (R375): whether it is complete, or waits for the core's accesses to drain, or for an
activation that has stopped the core (R371); a shadow that was lost is reloaded first. After a restart
activation the device resets, and the start that follows finds the slot in TRIAL and falls back (R362). DEDUCED: log entry 126. -/
def fallback (o : Store Nat) (c : Chip) : Bool × Chip :=
  if ! c.trial && c.core.paused then (false, c)
  else if ! c.trial then
    let c1 := (disarm .superseded c).onUpd fun u => { u with germinating := 0 }
    (true, fellBack { c1 with core := { c1.core with shadowValid := false } })
  else if c.b Fld.UPD_STATUS_RESTART_MODE then (true, resetDevice none false o c)
  else
    let (ready, c1) := pauseCore (if c.reloads then reloadAll c else c)
    if ! ready then (false, c1) else (true, (swapBanks 3 (fellBack c1)).onUpd fun u => { u with slot := 1 - c1.slotRec.staging })

/-- UPD_FALLBACK as an operation (R363, R365, R375): none of a result while the core drains, or where the device resets. -/
def opUpdFallback (o : Store Nat) (host : Bool) (args : List Word) (c : Chip) : Option Word × Chip :=
  match c.updRefusal 0x56 host args with
  | some w => (some w, c)
  | none =>
    let reset := c.trial && c.b Fld.UPD_STATUS_RESTART_MODE
    match fallback o c with
    | (true, c1) => (if reset then none else some (.int 0), c1)
    | (false, c1) => (none, c1)

/-- TRIAL_EXPIRY (R372): the trial ended without confirmation, and the chip is awake to fall back: in a sleep state, Dusk among them, it
waits for the wake. A lost shadow is first reloaded in steps (R375). LAST_RESULT says
SETTINGS_UNREADABLE where the trial firmware reported it; the spec states no other code for the outcome.
DESIGN CHOICE: log entry 124. -/
def trialExpiry (o : Store Nat) (c : Chip) : Chip :=
  if c.dev = devGerminate ∧ c.trial = true ∧ c.upd.trialEnd ≤ c.now ∧ c.power < 4 ∧ c.isOn .core = true then
    if c.reloads then c.onUpd fun u => { u with reload := some (u.reload.getD 0) } else
    let (v, c1) := takeStatus c
    let code := if c1.upd.unreadable then Status.settingsUnreadable.code else v
    match fallback o c1 with
    | (true, c2) => lastResult code c2
    | (false, c2) => c2
  else c

/-- TRIAL_EXPIRY (R372). -/
def execTrialExpiry (s : State) : Host.Outcome State Fault Refusal := onChipBurn trialExpiry s

end Sys2Proof.Machine
end

