-- ==== Sys2Proof/Machine/Remash.lean ====
section
/-! DEFINITION. The re-mash: a new lane plan while the chip runs (R272 to R275). -/

namespace Sys2Proof.Machine

/-- Sections that a re-mash may not change, as type, length and digest (R273). -/
def Recipe.fixedSections (r : Recipe) : List (Nat × Nat × List Nat) :=
  ((interpreted r.sections).filter fun s => s.type != 2).map fun s => (s.type, s.length, s.digest)

/-- The conditions of R273 against the recipe in force, after checks 1 to 18. DEDUCED: log entry 92. -/
def remashRefusal (old new : Recipe) : Option Word :=
  if old.fixedSections != new.fixedSections || old.role != new.role || old.minRevision != new.minRevision then
    some (rejection .badArg 19 0)
  else if new.rollback < old.rollback then some (refused .rollback)
  else none

/-- The lanes whose entries differ between two plans, by number (R274). -/
def changedLanes (p q : LanePlan) : List Nat :=
  (List.range 64).filter fun n => (p.lanes.find? fun e => e.lane == n) != (q.lanes.find? fun e => e.lane == n)

/-- Whether a plan changes a chain's setting or initial centre (R274). -/
def chainChanged (p q : LanePlan) (x : Nat) : Bool :=
  if x = 0 then p.settingA != q.settingA || p.centreA != q.centreA else p.settingB != q.settingB || p.centreB != q.centreB

/-- A plan with the entry of one lane taken from another plan. -/
def planWithLane (p q : LanePlan) (n : Nat) : LanePlan :=
  let e := q.lanes.find? fun e => e.lane == n
  { p with lanes := (p.lanes.filter fun d => decide (d.lane < n)) ++ e.toList ++ p.lanes.filter fun d => decide (n < d.lane) }

/-- Replace the plan in force. -/
def setPlan (p : LanePlan) (c : Chip) : Chip := { c with recipe := c.recipe.map fun r => { r with plan := p } }

/-- Whether a lane may be QUIESCED: no frame is in reception, it is not switching, and no reservation covers it (R274).
DEDUCED: log entry 93. -/
def Chip.laneStill (c : Chip) (n : Nat) : Bool :=
  let st := c.laneState n
  st != laneDetect && st != laneReceive && st != laneFlush && st != laneSwitching && (c.laneSt n).owner.isNone

/-- A waiting lane becomes QUIESCED if it may (R274 step 2). -/
def laneQuiesce (n : Nat) (c : Chip) : Chip :=
  let s := c.laneSt n
  if s.quiesce.isSome && c.laneStill n then
    setLaneState n laneQuiesced (setLaneSt n { s with quiesce := none, hold := some (c.now + 64), switchAt := none, late := false } c)
  else c

/-- Step 1 of a lane: it stops new detections, and waits to become QUIESCED (R274). -/
def laneStop (n wait : Nat) (c : Chip) : Chip := laneQuiesce n (setLaneSt n { (c.laneSt n) with quiesce := some (c.now + wait) } c)

/-- The registers of a lane return to reset. -/
def resetLane (n : Nat) (c : Chip) : Chip :=
  setLaneSt n .idle { c with regs := Store.drop c.regs fun a => decide (0xA000 + 64 * n ≤ a) && decide (a < 0xA000 + 64 * (n + 1)) }

/-- A lane takes its entry of the new plan, which is in force for it (R274 step 3): a removed lane is gone, and an enabled one
is brought up at once, or as R266 enables it where its chain has just locked. A scheduler lane is driven again where TSCH runs
(R79). -/
def laneBringUp (r : Recipe) (n : Nat) (relocked : Bool) (c : Chip) : Chip :=
  let c1 := setPlan (planWithLane ((c.plan).getD r.plan) r.plan n) (resetLane n c)
  match r.plan.lanes.find? fun e => e.lane == n with
  | none => c1
  | some e =>
    let c2 := lanesReserved (applyLane r e c1)
    let c3 := setLaneSt n { (c2.laneSt n) with awaitLock := false } c2
    if ! e.enable then c3
    else if relocked then laneEnable n c3
    else laneRest n (laneTake n (c3.setB (Fld.LANE_CTRL_ENABLE n) true))

/-- Whether the entry of a lane in a plan hears a chain. -/
def LanePlan.laneHears (p : LanePlan) (n x : Nat) : Bool := (p.lanes.find? fun e => e.lane == n).any fun e => hears e.chain x

/-- Whether a lane, by its old entry or its new, is one of a chain that the plan changes (R274). `p` is the old plan. -/
def Remash.laneOf (m : Remash) (p : LanePlan) (x n : Nat) : Bool :=
  chainChanged p m.recipe.plan x && (p.laneHears n x || m.recipe.plan.laneHears n x)

/-- Whether a lane's new entry hears a chain that the plan changes: it is brought up once such a chain has locked. -/
def Remash.onChanged (m : Remash) (p : LanePlan) (n : Nat) : Bool :=
  [0, 1].any fun x => chainChanged p m.recipe.plan x && m.recipe.plan.laneHears n x

/-- Whether a changed chain that a lane's new entry hears has yet to take its setting or to lock on it. -/
def Remash.awaits (m : Remash) (p : LanePlan) (n : Nat) (c : Chip) : Bool :=
  [0, 1].any fun x => chainChanged p m.recipe.plan x && m.recipe.plan.laneHears n x && ! (m.took.contains x && c.locked x)

/-- Whether a lane's new channel would break rule 6 against a lane still to be processed (R274). DEDUCED: log entry 94. -/
def Remash.clashes (m : Remash) (n : Nat) (c : Chip) : Bool :=
  match m.recipe.plan.lanes.find? fun e => e.lane == n with
  | some e => m.todo.any fun k => k != n && c.laneState k != laneOff && phyFamily (c.laneSt k).phy == phyFamily e.phy &&
      shareChain (c.laneChain k) e.chain && overlaps (c.laneSt k).freq (planBandwidth (c.laneSt k).phy) e.freq (planBandwidth e.phy)
  | none => false

/-- A changed chain takes its new setting and retunes as an ENABLE transition (R274, R49). DEDUCED: log entry 95. -/
def retuneChain (r : Recipe) (x : Nat) (c : Chip) : Chip :=
  let on := c.b (synthEnable x)
  let c1 := applyChain x r (if on then chainEnableWrite x false c else c)
  if on then chainEnableWrite x true c1 else c1

/-- The re-mash completes (R275): the new recipe is the one in force and in AON's copy, M2 is extended, the link controller takes
the plan's lanes and scheduler lanes (R79, R134), and the mailbox command ends. -/
def remashEnd (m : Remash) (c : Chip) : Chip :=
  let c1 := clearCells { tschDrive false c with recipe := some m.recipe, kept := some m.recipe, remash := none }
  let c2 := measExtend 2 m.recipe.digestList c1
  let c3 := if c2.isOn .link then
      lanesReserved (linkFeature m.recipe ((c2.setRegN Reg.LINK_SCHED_LANES_LO (m.recipe.plan.schedLanes % 2 ^ 32)).setRegN
        Reg.LINK_SCHED_LANES_HI (m.recipe.plan.schedLanes / 2 ^ 32)))
    else c2
  if (c3.mbxOf m.path).code = 0x05 then finishMbx m.path (.int m.count) [] c3 else c3

/-- Held lanes that no longer clash with a lane to come, and whose changed chains have locked, are brought up. -/
def remashHeld (p : LanePlan) (m : Remash) (c : Chip) : Remash × Chip :=
  m.held.foldl (fun (m, c) n =>
    if m.awaits p n c || m.clashes n c then (m, c)
    else ({ m with held := m.held.filter (· != n) }, laneBringUp m.recipe n (m.onChanged p n) c)) (m, c)

/-- A chain that a plan changes takes its setting and initial centre, and retunes. -/
def chainTake (x : Nat) (r : Recipe) (c : Chip) : Chip :=
  let q := r.plan
  let p := (c.plan).getD q
  let p1 := if x = 0 then { p with settingA := q.settingA, centreA := q.centreA }
    else { p with settingB := q.settingB, centreB := q.centreB }
  applyRfFeature { r with plan := p1 } (retuneChain r x (setPlan p1 c))

/-- Each changed chain whose changed lanes are all QUIESCED takes its setting and retunes (R274). `p` is the old plan. -/
def remashChains (p : LanePlan) (m : Remash) (c : Chip) : Remash × Chip :=
  [0, 1].foldl (fun (m, c) x =>
    if ! chainChanged p m.recipe.plan x || m.took.contains x || m.todo.any (m.laneOf p x) then (m, c)
    else ({ m with took := m.took ++ [x] }, chainTake x m.recipe c)) (m, c)

/-- The plan that a re-mash began with: AON's copy of it. -/
def Chip.oldPlan (c : Chip) : LanePlan := match c.kept with
  | some r => r.plan
  | none => (c.plan).getD (parsePlan [])

/-- The re-mash goes on: the next lane begins, or the whole is complete. -/
def remashNext (m : Remash) (c : Chip) : Chip :=
  match m.todo with
  | n :: _ => laneStop n m.wait { c with remash := some m }
  | [] => if m.held.isEmpty then remashEnd m c else { c with remash := some m }

/-- The lane at hand has been QUIESCED for 64 gr: its old entry is gone, and its new one is applied, or it is held for its chain
or under rule 6 (R274 step 3). A held lane has no present channel, so lanes may trade channels. DEDUCED: log entry 94. `p` is the plan the re-mash began with. -/
def remashApply (p : LanePlan) (m : Remash) (n : Nat) (c : Chip) : Chip :=
  let c0 := setLaneSt n { (c.laneSt n) with hold := none, freq := 0, phy := 0 } c
  let m1 := { m with todo := m.todo.filter (· != n), count := m.count + 1 }
  let (m2, c2) := remashChains p { m1 with held := m1.held ++ [n] } c0
  let (m3, c3) := remashHeld p m2 c2
  remashNext m3 c3

/-- A chain has locked: the lanes of the re-mash that waited for it are brought up, and where they were the last it completes
(R274, R275). While the LANE island restarts they wait for its return. -/
def remashLocked (c : Chip) : Chip :=
  match c.remash with
  | some m =>
    if ! c.isOn .lane then c else
    let (m1, c1) := remashHeld c.oldPlan m c
    if m.todo.isEmpty then remashNext m1 c1 else { c1 with remash := some m1 }
  | none => c

/-- A synthesizer locks, and a re-mash that waits for it goes on (R49, R274). -/
def chainRelocked (x : Nat) (c : Chip) : Chip := remashLocked (retuneLocked x c)

/-- RETUNE_LOCKED (R49, R50, R274). -/
def execRetuneLocked (x : Fin 3) (s : State) : Host.Outcome State Fault Refusal := onChip (chainRelocked x.val) s

/-- REMASH_LANE_QUIESCED (R274): the lane at hand becomes QUIESCED if it may; once it has been for 64 gr, its new entry is
applied. -/
def remashLane (c : Chip) : Chip :=
  match c.remash with
  | none => c
  | some m =>
    match m.todo with
    | [] => c
    | n :: _ =>
      if ! c.isOn .lane then c
      else match (c.laneSt n).hold with
        | some g => if g ≤ c.now then remashApply c.oldPlan m n c else c
        | none => laneQuiesce n c

/-- REMASH_LANE_QUIESCED (R274). -/
def execRemashLaneQuiesced (s : State) : Host.Outcome State Fault Refusal := onChip remashLane s

/-- QUIESCE_WAIT_EXPIRY (R274): a frame still in reception is abandoned with cause QUIESCE. -/
def quiesceExpiry (c : Chip) : Chip :=
  match c.remash with
  | none => c
  | some m =>
    match m.todo with
    | [] => c
    | n :: _ =>
      match (c.laneSt n).quiesce with
      | some g =>
        let st := c.laneState n
        if g ≤ c.now ∧ (st = laneDetect ∨ st = laneReceive) then laneAbandon n 7 c else c
      | none => c

/-- QUIESCE_WAIT_EXPIRY (R274). -/
def execQuiesceWaitExpiry (s : State) : Host.Outcome State Fault Refusal := onChip quiesceExpiry s

/-- Start a re-mash with a recipe that passed every check; a changed chain with no changed lane retunes at once, and a plan
that changes no lane completes at once. -/
def remashBegin (path wait : Nat) (old new : Recipe) (c : Chip) : Chip :=
  let m : Remash :=
    { path := path, recipe := new, wait := wait, todo := changedLanes old.plan new.plan, held := [], took := [], count := 0 }
  let (m1, c1) := remashChains old.plan m { c with kept := some old }
  remashNext m1 c1

/-- REMASH as a mailbox command (R272, R273): the refusal, or none where the re-mash is under way. -/
def opRemash (o : Store Nat) (path : Nat) (args : List Word) (c : Chip) : Option Word × Chip :=
  let len := argOf args 1
  let wait := argOf args 2
  match c.recipe with
  | none => (some c.stateRefused, c)
  | some old =>
    if c.remash.isSome then (some (refused .busy), c)
    else if len.tag ≠ .int ∨ 262144 < len.nat ∨ len.nat = 0 ∨ wait.tag ≠ .int ∨ 67108864 < wait.nat then (some (refused .badArg), c)
    else if ! c.bufferOk (argOf args 0) len.nat [0, 1, 2, 3] then (some (refused .badArg), c)
    else match readOctets (argOf args 0).nat len.nat c with
      | (.fail w, c1) => (some w, c1)
      | (.ok x, c1) =>
        match c1.checkRecipe o x with
        | .error w => (some w, (noteAuth (w, c1)).2)
        | .ok new =>
          match remashRefusal old new with
          | some w => (some w, c1)
          | none => (none, remashBegin path wait.nat old new c1)

/-- The LANE island is about to come back during a re-mash: the new plan is in force for all of it, and the changed chains that
have not yet taken their settings do so (R275). -/
def remashAdopt (c : Chip) : Chip :=
  match c.remash with
  | some m => { (remashChains c.oldPlan { m with todo := [] } c).2 with recipe := some m.recipe }
  | none => c

/-- The LANE island has come back during a re-mash, which completes (R275). -/
def remashRestart (c : Chip) : Chip :=
  match c.remash with
  | some m => remashEnd { m with count := m.count + m.todo.length } c
  | none => c

end Sys2Proof.Machine
end

