-- ==== Sys2Proof/Machine/Takeover.lean ====
section
/-! DEFINITION. The takeover of a lost neighbour's endpoint records (R406). -/

namespace Sys2Proof.Machine

/-- Change the chain's hidden state. -/
def Chip.onGang (c : Chip) (g : Gang → Gang) : Chip := { c with gang := g c.gang }

/-- Whether a chip is marked alive. -/
def Chip.alive (c : Chip) (n : Nat) : Bool :=
  if n < 32 then bitOf (c.regN Reg.HOST_GANG_ALIVE_LO) n else bitOf (c.regN Reg.HOST_GANG_ALIVE_HI) (n - 32)

/-- Copy a record from the mirror region to its home (R406). -/
def takeoverCopy (h : Nat) (c : Chip) : Chip :=
  let src := ptrOf 3 (0x8000000 + 4 * h)
  let (r0, c1) := readPair src c
  let (r1, c2) := readPair (src + 2) c1
  writePair (c2.recordPtr h + 2) r1.even r1.odd (writePair (c2.recordPtr h) r0.even r0.odd c2)

/-- One step of a takeover: 1024 records, or what is left (R406). -/
def takeoverStep (c : Chip) : Chip :=
  match c.gang.takeover with
  | none => c
  | some (a, e) =>
    let n := min 1024 (e - a)
    let c1 := (List.range n).foldl (fun c i => takeoverCopy (a + i) c) c
    c1.onGang fun g => { g with takeover := if a + n < e then some (a + n, e) else none }

/-- The refusal of a takeover (R406). DEDUCED: log entry 149. -/
def takeoverRefusal (lost first count : Word) (c : Chip) : Option Word :=
  if lost.tag ≠ .int ∨ 64 ≤ lost.nat ∨ count.tag ≠ .int ∨ count.toInt < 0 ∨ first.tag ≠ .handle ∨ first.field 34 2 ≠ 1 then
    some (refused .badArg)
  else if ¬ c.b Fld.MEM_MIRROR_CTRL_ACCEPT = true ∨ c.f Fld.MEM_MIRROR_CTRL_SOURCE ≠ lost.nat then some (refused .badArg)
  else if c.regN Reg.MEM_ENDPOINT_LIMIT < first.field 0 34 + count.nat then some (refused .badArg)
  else if c.alive lost.nat then some c.stateRefused
  else if c.spaceAccess 3 ≠ .served ∨ ¬ c.isOn .memT = true then some c.stateRefused
  else none

/-- One step of GANG_TAKEOVER, `steps` having been done (R406): in the first it is checked, ACCEPT is cleared and the copy begins; after
the last it ends, the records copied its result. A memory that has stopped meanwhile ends it (R12). -/
def opTakeover (args : List Word) (steps : Nat) (c : Chip) : Option Word × Nat × Chip :=
  let count := argOf args 2
  let step (d : Chip) : Option Word × Nat × Chip :=
    let e := takeoverStep d
    if e.gang.takeover.isNone then (some (.int count.toInt), 0, e.raise .host 6) else (none, 0, e)
  if steps ≠ 0 then
    (if c.spaceAccess 3 ≠ .served ∨ ¬ c.isOn .memT = true then (some c.stateRefused, 0, c.onGang fun g => { g with takeover := none }) else step c)
  else match takeoverRefusal (argOf args 0) (argOf args 1) count c with
    | some w => (some w, 0, c)
    | none =>
      if c.gang.takeover.isSome then (some (refused .busy), 0, c)
      else
        let a := (argOf args 1).field 0 34
        let c1 := c.setB Fld.MEM_MIRROR_CTRL_ACCEPT false
        step (if count.nat = 0 then c1 else c1.onGang fun g => { g with takeover := some (a, a + count.nat) })

end Sys2Proof.Machine
end

