-- ==== Sys2Proof/Machine/Tickets.lean ====
section
/-! DEFINITION. The ticket unit, the completion ring and the engines (10_operations_in_flight.md), and the operations they run
for tickets and mailboxes. -/

namespace Sys2Proof.Machine

/-! ### Launching (R242 to R247) -/

/-- Whether an operation code is defined (R244, R363). -/
def opKnown (code : Nat) : Bool :=
  code == 0x01 || (decide (0x10 ≤ code) && decide (code ≤ 0x13)) || code == 0x18 || code == 0x20
    || (decide (0x30 ≤ code) && decide (code ≤ 0x43)) || (decide (0x50 ≤ code) && decide (code ≤ 0x59))

/-- The class of an operation (R244). -/
def opClass (code : Nat) : Nat :=
  if code = 0x01 then 0 else if code ≤ 0x13 then 1 else if code = 0x18 then 4
  else if code = 0x20 then 3 else if code ≤ 0x43 then 2 else 3

/-- Operations whose launch needs PRIV (R244). -/
def opPrivileged (code : Nat) : Bool :=
  code == 0x32 || code == 0x3A || code == 0x3B || code == 0x40 || code == 0x43 || (decide (0x50 ≤ code) && decide (code ≤ 0x5F))

/-- RESERVE and LIMIT of a class (R245). -/
def Chip.quota (c : Chip) (k : Nat) : Nat × Nat := match c.recipe with
  | some r => r.quotas.getD k (0, 0)
  | none => (0, 0)

/-- Tickets a class holds. -/
def Chip.heldOf (c : Chip) (k : Nat) : Nat := (c.tk.held.filter fun t => t.cls == k).length

/-- The classes. -/
def classes : List Nat := List.range 8

/-- TK_POOL (R245): 512, less the reserves, less what classes hold above them. -/
def Chip.pool (c : Chip) : Nat :=
  512 - ((classes.map fun k => (c.quota k).1).sum + (classes.map fun k => c.heldOf k - (c.quota k).1).sum)

/-- Whether a class is granted a ticket (R246). -/
def Chip.grants (c : Chip) (k : Nat) : Bool :=
  decide (c.heldOf k < (c.quota k).1) || (decide (c.heldOf k < (c.quota k).2) && decide (0 < c.pool))

/-- Whether the recipe leaves an operation's engine out (R243, R255). -/
def Chip.engineOut (c : Chip) (code : Nat) : Bool :=
  let out (i : Island) : Bool := c.island i == .absent
  match engineOf code with
  | 5 => out .link
  | 3 => out .memT && out .ddr
  | 4 => out .mram
  | _ => false

/-- Numbers of the tickets that are free. -/
def Chip.freeTickets (c : Chip) : List Nat := (List.range 512).filter fun n => (c.ticket n).isNone

/-- Count a NO_TICKET refusal (R242). -/
def countNoTicket (c : Chip) : Chip :=
  let w := c.port 0x921
  if w.field 18 18 + 1 < 2 ^ 18 then c.setPort 0x921 (w.withField 18 18 (w.field 18 18 + 1)) else c

/-- A launch (R243 to R247, R207): the word for TK_RES. Which free ticket number is issued the spec does not say. A fifth
operation in the queue of the ML-DSA or ML-KEM unit completes at once, a TOKEN with TOKEN_REFUSED (R210). DEDUCED: log entry 73. DESIGN CHOICE: log entry 87. -/
def tkLaunch (code : Nat) (args : List Word) (c : Chip) : Word × Chip :=
  if ! opKnown code then (refused .unknownCommand, c)
  else if c.engineOut code || (c.port 0x911).nat = 0 then (c.stateRefused, c)
  else if ! c.grants (opClass code) || c.freeTickets.isEmpty then (refused .noTicket, countNoTicket c)
  else
    let (v, c1) := takeFree c.freeTickets.length c
    let n := c.freeTickets.getD v 0
    let gen := (Store.get 0 c.tk.gens n + 1) % 2 ^ 24
    let queued := (c.tk.held.filter fun t => engineOf t.code == engineOf code && decide (t.state < 3)).length
    let t : Ticket := {
      number := n
      cls := opClass code
      gen := gen
      code := code
      args := args
      state := 1
      steps := 0
      result := .int 0
      doneAt := 0
      priv := c.priv
      prog := 0
      sweep := none
      stalled := false
      dram := none }
    let c2 := c1.onTk fun k => { k with held := k.held ++ [t], gens := Store.put 0 k.gens n gen }
    let unit := engineOf code == 1 || engineOf code == 2
    let full (d : Chip) : Chip := finishTicket n (refused .busy) (if code = 0x43 then d.raise .sec secTokenRefused else d)
    (ticketWord t, if unit && decide (4 ≤ queued) then full c2 else c2)

/-- The state a TICKET word names (R249): STALE where it is not held as launched. -/
def Chip.peekState (c : Chip) (w : Word) : Nat := match c.tk.held.find? fun t => ticketWord t == w with
  | some t => t.state
  | none => 0

/-! ### Posting (R250, R251) -/

/-- Entries posted and not consumed. -/
def Chip.ringUsed (c : Chip) : Nat := ((c.port 0x912).nat + 65536 - (c.port 0x913).nat) % 65536

/-- The DONE ticket that finished first; of one grain, the lowest number (R250). -/
def Chip.nextPost (c : Chip) : Option Ticket :=
  (c.tk.held.filter fun t => t.state == 3).foldl (fun b t => match b with
    | none => some t
    | some x => if t.doneAt < x.doneAt ∨ (t.doneAt = x.doneAt ∧ t.number < x.number) then some t else some x) none

/-- A completion entry (R250). -/
def entryWords (t : Ticket) : Word × Word × Word × Word :=
  (ticketWord t, t.result, .grain t.doneAt, .bits (t.code * 2 ^ 28 + min t.steps 65535 * 2 ^ 12 + resultStatus t.result))

/-- A DONE ticket finds no room: RING_STALL, its count and its event (R251). -/
def ringStall (t : Ticket) (c : Chip) : Chip :=
  if t.stalled then c
  else
    let n := (c.port 0x921).field 0 18
    let c1 := (putTicket { t with stalled := true } c).setPort 0x914 ((c.port 0x914).withField 2 1 1)
    (if n + 1 < 2 ^ 18 then c1.setPort 0x921 ((c.port 0x921).withField 0 18 (n + 1)) else c1).fire 0xC7 (some 0)

/-- Whether a completion entry may be written at an address: four words that exist, none of the partner region (R34, R138). -/
def Chip.ringEntryOk (c : Chip) (p : Nat) : Bool := c.ptrValid p && c.ptrValid (p + 3) && ! c.spanInPartners p 4

/-- COMPLETION_POST (R250, R251): words 2 and 3 of the entry, then words 0 and 1; PROD advances, the ticket is freed and
TICKET_DONE fires. Without ring room every finished operation stalls. DEDUCED: log entry 91. -/
def completionPost (c : Chip) : Chip :=
  if ! c.isOn .core then c
  else match c.nextPost with
    | none => c
    | some t =>
      if (c.port 0x911).nat ≤ c.ringUsed then (c.tk.held.filter fun x => x.state == 3).foldl (fun c x => ringStall x c) c
      else
        let prod := (c.port 0x912).nat
        let p := (c.port 0x910).nat + 4 * (prod % max 1 (c.port 0x911).nat)
        let (w0, w1, w2, w3) := entryWords t
        let c1 := if c.spaceAccess 0 = .served ∧ c.ringEntryOk p then writePair p w0 w1 (writePair (p + 2) w2 w3 c) else c.regReject
        let next := (prod + 1) % 65536
        ((c1.onTk fun k => { k with held := k.held.filter fun x => x.number != t.number }).setPort 0x912 (.int next)).fire 0xC6
          (some next)

/-- COMPLETION_POST (R250). -/
def execCompletionPost (s : State) : Host.Outcome State Fault Refusal := onChip completionPost s

/-- A write of TK_RING_CONS (R242, R251): none where it raises VALUE. -/
def tkConsWrite (w : Word) (c : Chip) : Option Chip :=
  let out := ((c.port 0x912).nat + 65536 - w.nat % 65536) % 65536
  if 65536 ≤ w.nat ∨ c.ringUsed < out ∨ (c.port 0x911).nat < out then none else some (c.setPort 0x913 w)

/-! ### Engines (R255, R256) -/

/-- A piece of work an engine may take: a ticket by number, a mailbox by path, or an operation orphaned by a restart, by
place. -/
inductive Job
  | held (n : Nat)
  | mbx (p : Nat)
  | orphan (k : Nat)
  deriving DecidableEq, Repr

/-- The job of an operation asked for by ticket or mailbox. -/
def jobOf : Via → Job
  | .ticket n => .held n.toNat
  | .mailbox p => .mbx p.val

/-- What an engine needs to know of a job. -/
structure Work where
  code : Nat
  args : List Word
  steps : Nat
  prog : Nat
  sweep : Option Sweep
  running : Bool
  host : Bool
  deriving DecidableEq, Repr

/-- The engine of a mailbox command; the commands that need none run at once (R385, R387). -/
def mbxEngine (code : Nat) : Option Nat :=
  if code < 0x30 && code != 0x05 && code != 0x09 then none else if 0x60 ≤ code then some 4 else some (engineOf code)

/-- A mailbox command as work. -/
def mbxWork (m : Mbx) : Work :=
  { code := m.code, args := m.args, steps := m.steps, prog := m.prog, sweep := none, running := decide (0 < m.steps), host := true }

/-- A ticket as work. -/
def Ticket.work (t : Ticket) : Work :=
  { code := t.code, args := t.args, steps := t.steps, prog := t.prog, sweep := t.sweep, running := t.state == 2, host := t.cls == 8 }

/-- Whether an operation waits on something other than its engine: PARTNER_KEY on its partner operation (R139, R200),
UPD_ACTIVATE_AT on its grain (R369), REMASH on its lanes (R274). -/
def Chip.parked (c : Chip) (v : Via) : Bool :=
  c.upd.armed.any (fun a => a.posts && a.via == v) || (match v with
    | .ticket n => c.radio.op.any fun p => p.ticket == some n.toNat
    | .mailbox p => (c.mbxOf p.val).code == 0x05 && (c.mbxOf p.val).prog == 1)

/-- The octets of sections that IMAGE_VERIFY, or UPD_VERIFY of the staging slot, has to digest: none where the image's form fails first
(R195, R366). -/
def Chip.digestOctets (c : Chip) (w : Work) : Option Nat :=
  let s := if w.code = 0x52 then c.slotRec.staging else (argOf w.args 0).nat % 2
  let x := c.mramBytes (slotBase s) (min 0x600000 (c.mramLe (slotBase s + 12) 4))
  if c.spaceAccess 4 = .served ∧ imageForm x = true then some ((c.imageTable s).map fun r => r.length).sum else none

/-- The engine that an operation needs next (R244, R255): IMAGE_VERIFY runs its section digests on the hash engine and then its
signature on the ML-DSA unit; UPD_VERIFY and UPD_GERMINATE, and a fallback that reloads the shadow, take the hash engine for what they
digest or load. DEDUCED: log entry 223. -/
def Chip.engineNow (c : Chip) (w : Work) : Nat :=
  match w.code with
  | 0x32 => match c.digestOctets w with
    | some n => if w.prog < n then 0 else 1
    | none => 0
  | 0x52 => match c.digestOctets w with
    | some n => if w.prog < n then 0 else 4
    | none => 4
  | 0x53 => if w.steps = 0 ∨ w.prog < areaLen then 4 else 0
  | 0x56 => if c.reloads then 0 else 4
  | code => engineOf code

/-- The engine that an operation goes on to when it has done with one. -/
def nextEngine (code e : Nat) : Option Nat :=
  if code = 0x32 ∧ e = 0 then some 1
  else if (code = 0x52 ∨ code = 0x56) ∧ e = 0 then some 4
  else if code = 0x53 ∧ e = 4 then some 0 else none

/-- The operations without an end, orphans first, in launch order (R253). -/
def Chip.launched (c : Chip) : List (Job × Ticket) :=
  (((List.range c.tk.orphans.length).zip c.tk.orphans).map fun e => (Job.orphan e.1, e.2)) ++
    (c.tk.held.map fun t => (Job.held t.number, t)).filter fun e => decide (e.2.state < 3)

/-- What an engine may choose among: the ML-DSA and ML-KEM units run what is in their queues one at a time in launch order, and so take
nothing but the oldest (R207, R252). -/
def Chip.standing (c : Chip) (e : Nat) : List (Job × Ticket) :=
  if e = 1 ∨ e = 2 then (c.launched.filter fun x => engineOf x.2.code == e).take 1 else c.launched

/-- The operations waiting for an engine, in launch order; one whose DRAM transactions are under way does not (R248). -/
def Chip.queueOf (c : Chip) (e : Nat) : List (Job × Ticket) :=
  (c.standing e).filter fun x => c.engineNow x.2.work == e && e != 5 && x.2.dram.isNone &&
    (match x.1 with
      | .held n => ! c.parked (.ticket (BitVec.ofNat 9 n))
      | _ => true)

/-- The mailboxes waiting for an engine; MBX_GO order, the lower path first in one grain (R385). -/
def Chip.mailboxOf (c : Chip) (e : Nat) : Option Nat :=
  let waits (p : Nat) : Bool :=
    let m := c.mbxOf p
    m.busy && m.result.isNone && (mbxEngine m.code).isSome && c.engineNow (mbxWork m) == e &&
      ! c.parked (.mailbox (Fin.ofNat 5 p))
  ([0, 1, 2, 3, 4].filter waits).foldl (fun b p => match b with
    | none => some p
    | some q => if (c.mbxOf p).at_ < (c.mbxOf q).at_ then some p else some q) none

/-- The work of a job. -/
def Chip.work (c : Chip) (j : Job) : Option Work := match j with
  | .held n => (c.ticket n).map Ticket.work
  | .orphan k => (c.tk.orphans[k]?).map Ticket.work
  | .mbx p => some (mbxWork (c.mbxOf p))

/-- The core clock at the performance level in force, MHz (R331). -/
def Chip.clockMhz (c : Chip) : Nat := match (if c.power ≤ 3 then c.power else c.pwr.level) with
  | 0 => 400 | 1 => 256 | 2 => 128 | _ => 32

/-- How many octets an operation of the hash engine covers; of EP_OPEN, the frame's length in its descriptor. -/
def Chip.hashLength (c : Chip) (w : Work) : Nat := match w.code with
  | 0x30 => (argOf w.args 2).nat
  | 0x31 => (argOf w.args 2).nat
  | 0x35 => (c.peek (argOf w.args 0).nat).field 0 11
  | 0x36 => (argOf w.args 1).nat
  | 0x3F => (argOf w.args 1).nat
  | 0x40 => (argOf w.args 2).nat
  | _ => 0

/-- A step count at Noon as it is at the level in force (R207). -/
def Chip.scaled (c : Chip) (n : Nat) : Nat := ceilDiv (n * 400) c.clockMhz

/-- Octets of MRAM that a step digests: 4 KiB, or 1 KiB at Twilight (R207). -/
def Chip.digestStep (c : Chip) : Nat := if c.clockMhz = 32 then 1024 else 4096

/-- Steps an operation takes (R207, R255): counts rise, and the octets of a step fall, with the clock; none where the spec only
says about how many, or where they depend on signing attempts. DEDUCED: log entry 166. -/
def Chip.stepsOf (c : Chip) (w : Work) : Option Nat :=
  match w.code with
  | 0x32 => none
  | 0x05 => none
  | 0x33 => none
  | 0x41 => none
  | 0x43 => none
  | 0x52 => none
  | 0x53 => none
  | 0x56 => if c.reloads then none else some 1
  | 0x62 => none
  | 0x3C => some (c.scaled 6)
  | 0x3D => some (c.scaled 8)
  | 0x3E => some (c.scaled 10)
  | _ => some (max 1 (ceilDiv (c.hashLength w) (2047 * c.clockMhz / 400)))

/-- Operations whose steps each have an effect of their own. -/
def opStepped (code : Nat) : Bool := [0x09, 0x18, 0x20, 0x41, 0x51, 0x53, 0x55, 0x58, 0x61].contains code

/-- The first endpoint and the number of records a sweep still has to visit. -/
def Chip.sweepRange (c : Chip) (w : Work) : Nat × Nat := match w.sweep with
  | some s => (s.next, s.left)
  | none =>
    let p := (argOf w.args 0).nat
    ((c.peek p).field 0 34, (c.peek (p + 1)).nat)

/-- How many records of a sweep its next step may take, from its first endpoint on (R185). -/
def Chip.sweepFirst (c : Chip) (w : Work) : Nat :=
  c.sweepStepSize { next := (c.sweepRange w).1, left := 0, matched := 0, poisoned := 0, listed := 0, full := false }

/-- Whether an operation is a single step (R255, R256): a stepped one that has all to do in one step too. -/
def Chip.single (c : Chip) (w : Work) : Bool :=
  match w.code with
  | 0x18 => w.sweep.isNone && decide ((c.sweepRange w).2 ≤ c.sweepFirst w)
  | 0x20 | 0x51 => decide ((argOf w.args 2).nat ≤ 256)
  | 0x58 => decide ((argOf w.args 3).nat ≤ 256)
  | 0x61 => decide ((argOf w.args 2).nat ≤ 256)
  | _ => c.stepsOf w == some 1

/-- The endpoints that a table operation, or what is left of a sweep, names. -/
def Chip.tableRange (c : Chip) (w : Work) : Option (Nat × Nat) :=
  if 0x10 ≤ w.code ∧ w.code ≤ 0x13 then some ((argOf w.args 0).field 0 34, 1)
  else if w.code = 0x18 then some (c.sweepRange w) else none

/-- Whether a table operation or a sweep waits for one launched before it that names an endpoint of its own (R252).
DEDUCED: log entry 54. -/
def Chip.blocked (c : Chip) (j : Job) (w : Work) : Bool :=
  match c.tableRange w with
  | none => false
  | some (a, n) => (c.launched.takeWhile fun x => x.1 != j).any fun x =>
    match c.tableRange x.2.work with
    | some (b, m) => decide (a < b + m) && decide (b < a + n)
    | none => false

/-- Whether the next step of an operation works in DRAM (R182, R248); of a sweep, where its descriptor is well formed (R185). -/
def Chip.worksInDram (c : Chip) (w : Work) : Bool :=
  if 0x10 ≤ w.code ∧ w.code ≤ 0x13 then
    (match c.endpointOf (argOf w.args 0) with
      | some i => spaceOf (c.recordPtr i) == 3
      | none => false)
  else w.code == 0x18 && spaceOf (c.recordPtr (c.sweepRange w).1) == 3 &&
    c.sweepOk ((List.range 6).map fun k => c.peek ((argOf w.args 0).nat + k))

/-- Whether an operation waits for a DRAM transaction slot (R177, R248). -/
def Chip.noSlot (c : Chip) (w : Work) : Bool := c.worksInDram w && decide (128 ≤ c.dramHeld)

/-- Whether an operation may take a step now, its engine free. -/
def Chip.ready (c : Chip) (x : Job × Ticket) : Bool := ! c.blocked x.1 x.2.work && ! c.noSlot x.2.work

/-- Whether an engine has left its last boundary to a single-step operation (R256). -/
def Chip.yielded (c : Chip) (e : Nat) : Bool := Store.get false c.tk.yielded e

/-- The multi-step operation in progress on an engine, if it may go on. -/
def Chip.inProgress (c : Chip) (e : Nat) : Option Job :=
  ((c.queueOf e).find? fun x => ! c.single x.2.work && x.2.state == 2 && c.ready x).map Prod.fst

/-- The oldest single-step operation that waits for an engine. -/
def Chip.singleWaiting (c : Chip) (e : Nat) : Option Job :=
  ((c.queueOf e).find? fun x => c.single x.2.work && c.ready x).map Prod.fst

/-- The next piece of work of an engine at a step boundary (R256). -/
def Chip.pick (c : Chip) (e : Nat) : Option Job :=
  match c.mailboxOf e with
  | some p => some (.mbx p)
  | none =>
    match c.singleWaiting e, c.inProgress e with
    | some t, none => some t
    | some t, some j => if c.yielded e then some j else some t
    | none, some j => some j
    | none, none => ((c.queueOf e).find? fun x => ! c.single x.2.work && x.2.state != 2 && c.ready x).map Prod.fst

/-! ### Running -/

/-- The host path a job came by: that of its mailbox, which an orphan keeps in its number (R377, R393); 0 for a ticket. -/
def Chip.jobPath (c : Chip) : Job → Nat
  | .mbx p => p
  | .orphan k => ((c.tk.orphans[k]?).map fun t => t.number - 512).getD 0
  | .held _ => 0

/-- Whether a table operation names a handle that a takeover has yet to copy (R406). -/
def Chip.takeoverAhead (c : Chip) (h : Word) : Bool :=
  c.gang.takeover.any fun r => decide (r.1 ≤ h.field 0 34) && decide (h.field 0 34 < r.2)

/-- Whether a sweep that has not begun would visit a record that a takeover has yet to copy (R406). -/
def Chip.takeoverMeets (c : Chip) (w : Work) : Bool :=
  w.sweep.isNone && c.gang.takeover.any fun r =>
    decide (r.1 < (c.sweepRange w).1 + (c.sweepRange w).2) && decide ((c.sweepRange w).1 < r.2)

/-- The number by which a job's keys are kept. -/
def Job.key : Job → Nat
  | .held n => n
  | .mbx p => 512 + p
  | .orphan k => 520 + k

/-- The master keys a job works with: those it started with (R197). -/
def Chip.keysOf (c : Chip) (j : Job) (w : Work) : Store (List Nat) :=
  if w.steps = 0 then c.sec.nmk else Store.get [] c.tk.keys j.key

/-- Keep, or drop, the master keys a job started with (R197). -/
def keepKeys (j : Job) (ks : Store (List Nat)) (c : Chip) : Chip :=
  c.onTk fun k => { k with keys := Store.put [] k.keys j.key ks }

/-- A re-mash is asked for (R272, R385): its recipe has been verified; none of a result while its lanes are processed. One whose path has
been reset since answers no one. -/
def runRemash (j : Job) (path : Nat) (w : Work) (o : Store Nat) (c : Chip) : Option Word × Chip :=
  match opRemash o path w.args c, j with
  | (none, c1), .mbx p => (none, setMbx p { (c1.mbxOf p) with prog := 1 } c1)
  | (none, c1), _ => (some (.int 0), c1)
  | r, _ => r

/-- The whole effect of an operation whose steps have none of their own (R184, R200, R244, R363, R377): its result word, or
none where it goes on waiting or the device resets. -/
def runOp (j : Job) (w : Work) (o : Store Nat) (c : Chip) : Option Word × Chip :=
  let a (k : Nat) : Word := argOf w.args k
  let of (r : Word × Chip) : Option Word × Chip := (some r.1, r.2)
  let path := c.jobPath j
  let num : Nat := match j with
    | .held n => n
    | _ => 512
  let via : Via := match j with
    | .mbx p => .mailbox (Fin.ofNat 5 p)
    | _ => .ticket (BitVec.ofNat 9 num)
  if 0x10 ≤ w.code ∧ w.code ≤ 0x13 ∧ c.takeoverAhead (a 0) = true then (some (refused .busy), c)
  else match w.code with
  | 0x05 => runRemash j path w o c
  | 0x10 => of (recRead (a 0) (a 1) c)
  | 0x11 => of (recWrite (a 0) (a 1) c)
  | 0x12 => of (recTouch (a 0) (a 1) (a 2) c)
  | 0x13 => of (recAdvance (a 0) (a 1) (a 2) c)
  | 0x30 => of (opHash w.args c)
  | 0x31 => of (opKmac w.args c)
  | 0x32 => of (opImageVerify o w.args c)
  | 0x33 => of (opSigVerify w.args c)
  | 0x34 => opPartnerKey num w.args c
  | 0x35 => of (opEpOpen (c.keysOf j w) w.args c)
  | 0x36 => of (opEpSeal (c.keysOf j w) w.args c)
  | 0x37 => of (opKeyGen w.args c)
  | 0x38 => of (opKeyWrap w.args c)
  | 0x39 => of (opKeyUnwrap w.args c)
  | 0x3A => of (opNmkStore o w.args c)
  | 0x3B => of (opNmkErase w.args c)
  | 0x3C => of (opKemKeygen w.args c)
  | 0x3D => of (opKemEncaps w.args c)
  | 0x3E => of (opKemDecaps w.args c)
  | 0x3F => of (opRandom w.args c)
  | 0x40 => of (opMeasExtend w.args c)
  | 0x42 => of (opIdCert w.args c)
  | 0x43 => of (opToken o w.args c)
  | 0x50 => of (opUpdBegin w.host w.args c)
  | 0x52 => of (opUpdVerify o w.host w.args c)
  | 0x54 => opUpdActivateAt via (match j with | .orphan _ => false | _ => true) w.args c
  | 0x56 => opUpdFallback o w.host w.args c
  | 0x57 => of (opUpdAbort w.host w.args c)
  | 0x59 => of (opLedgerClear w.host w.args c)
  | 0x60 => of (opRcvBegin o path w.args c)
  | 0x62 => opRcvEnd o path c
  | 0x63 => of (opRcvAbort o path c)
  | _ => (some (refused .unknownCommand), c)

/-- One step of an operation whose steps have effects (R181, R185, R208, R363, R368, R374, R377, R406); a SWEEP of records that a takeover
has yet to copy is BUSY (R406). DEDUCED: log entry 149. -/
def runStep (j : Job) (w : Work) (o : Store Nat) (c : Chip) : Option Word × Nat × Option Sweep × Chip :=
  let a (k : Nat) : Word := argOf w.args k
  let write (r : Option Word × Nat × Chip) : Option Word × Nat × Option Sweep × Chip := (r.1, r.2.1, none, r.2.2)
  match w.code with
  | 0x09 => write (opTakeover w.args w.steps c)
  | 0x41 => write (attestStep o w.args (c.scaled 60) w.steps w.prog c)
  | 0x53 => write (germinateStep w.host w.args c.digestStep w.steps w.prog c)
  | 0x55 =>
    let (r, c1) := opUpdConfirm o w.host w.args w.steps c
    (r, w.prog, none, c1)
  | 0x18 =>
    if c.takeoverMeets w then (some (refused .busy), 0, none, c)
    else
      let (r, s, c1) := sweepStep (a 0) w.sweep c
      (r, 0, s, c1)
  | 0x20 => write (mramWriteStep (a 0) (a 1) (a 2) w.prog c)
  | 0x51 => write (stepUpdWrite w.host w.args w.prog c)
  | 0x58 => write (stepSetWrite w.host w.args w.prog c)
  | _ => write (stepRcvData (c.jobPath j) w.args w.prog c)

/-- Note the progress of a job. -/
def noteStep (j : Job) (steps prog : Nat) (sw : Option Sweep) (c : Chip) : Chip :=
  let run (t : Ticket) : Ticket := { t with state := 2, steps := steps, prog := prog, sweep := sw }
  match j with
  | .held n => match c.ticket n with
    | some t => if t.state < 3 then putTicket (run t) c else c
    | none => c
  | .mbx p =>
    let m := c.mbxOf p
    if m.busy then setMbx p { m with steps := steps, prog := prog } c else c
  | .orphan k => c.onTk fun x => { x with orphans := x.orphans.modify k run }

/-- A job ends with a result; that of an update operation is also LAST_RESULT (R380). An orphan posts nothing (R253). -/
def finishJobWith (j : Job) (code : Nat) (w : Word) (c : Chip) : Chip :=
  let c1 := keepKeys j [] (if 0x50 ≤ code ∧ code ≤ 0x59 then lastResult (resultStatus w) c else c)
  match j with
  | .held n => finishTicket n w c1
  | .mbx p => finishMbx p w (if code = 0x09 ∧ resultStatus w = 0 then [.bits (b2n c.gang.breakSeen)] else []) c1
  | .orphan k => c1.onTk fun x => { x with orphans := x.orphans.eraseIdx k }

/-- What refuses an operation in its first step, before it reads an image or reloads the shadow (R365, R366, R375). -/
def Chip.opFirst (c : Chip) (w : Work) : Option Word :=
  if w.steps ≠ 0 then none
  else if w.code = 0x52 then c.verifyRefusal w.host w.args
  else if w.code = 0x56 then c.updRefusal 0x56 w.host w.args else none

/-- Whether the next step of an operation without stepped effects is its last, and the octets it digests (R207, R255): an
image that fails before its signature ends at once, and a shadow is reloaded first. Where the spec says only about how
many steps there are a free bit decides. DESIGN CHOICE: log entry 88. -/
def lastStep (w : Work) (o : Store Nat) (c : Chip) : Bool × Nat × Chip :=
  match c.stepsOf w with
  | some n => (decide (n ≤ w.steps + 1), w.prog, c)
  | none =>
    if w.code = 0x56 then (false, w.prog, reloadStep c.digestStep c)
    else if (w.code = 0x32 ∨ w.code = 0x52) ∧ c.engineNow w = 0 then
      (! c.imageSigned o (if w.code = 0x52 then c.slotRec.staging else (argOf w.args 0).nat % 2), w.prog + c.digestStep, c)
    else
      let (v, c1) := takeFree 2 c
      (v == 1, w.prog, c1)

/-- The operation of a job notes a step. -/
def onOp (j : Job) (g : Ticket → Ticket) (c : Chip) : Chip :=
  match j with
  | .held k => match c.ticket k with
    | some t => putTicket (g t) c
    | none => c
  | .orphan k => c.onTk fun x => { x with orphans := x.orphans.modify k g }
  | .mbx _ => c

/-- An operation on records in DRAM takes its transactions, which end within the length of a step (R177, R248, R255): one for a record,
and for a step of a SWEEP up to 32 of the slots that are free. How many it takes and how long they last the spec leaves to DRAM.
DESIGN CHOICE: log entry 53. -/
def dramBegin (j : Job) (w : Work) (c : Chip) : Chip :=
  let (n, c1) := takeFree 1341 c
  let (k, c2) := if w.code = 0x18 then takeFree (max 1 (min 32 (128 - c.dramHeld))) c1 else (0, c1)
  onOp j (fun t => { t with state := 2, steps := w.steps + 1, dram := some (c.now + 1 + n, 1 + k) }) c2

/-- One step of an operation with stepped effects, and its end with it. -/
def effectStep (j : Job) (w : Work) (o : Store Nat) (c : Chip) : Chip :=
  let (r, prog, sw, c1) := runStep j w o c
  let c2 := noteStep j (w.steps + 1) prog sw c1
  match r with
  | some x => finishJobWith j w.code x c2
  | none => c2

/-- One step of a job (R255): the last one of an operation without stepped effects carries its whole effect. -/
def stepJob (j : Job) (o : Store Nat) (c : Chip) : Chip := match c.work j with
  | none => c
  | some w =>
    if c.worksInDram w then dramBegin j w c
    else if opStepped w.code then effectStep j w o c
    else
      match c.opFirst w with
      | some x => finishJobWith j w.code x (noteStep j (w.steps + 1) w.prog w.sweep c)
      | none =>
        let (last, prog, c0) := lastStep w o c
        let c1 := noteStep j (w.steps + 1) prog w.sweep c0
        if ! last then keepKeys j (c.keysOf j w) c1
        else match runOp j w o c1 with
          | (some x, c2) => finishJobWith j w.code x c2
          | (none, c2) => c2

/-- An engine notes whether it left a boundary to a single-step operation while a longer one was in progress (R256). -/
def noteYield (e : Nat) (j : Job) (c : Chip) : Chip :=
  match j with
  | .mbx _ => c
  | _ =>
    let single := (c.work j).any fun w => c.single w
    c.onTk fun k => { k with yielded := Store.put false k.yielded e (single && (c.inProgress e).isSome) }

/-- An engine at a step boundary (R256); when nothing else waits the MRAM writer releases a settings area (R374), and the hash engine
reloads the shadow for a trial that has expired (R375). -/
def engineStep (e : Nat) (o : Store Nat) (c : Chip) : Chip := match c.pick e with
  | none => if e = 4 then releaseStep c else if e = 0 && c.reloads && c.upd.reload.isSome then reloadStep c.digestStep c else c
  | some j => stepJob j o (noteYield e j c)

/-- ENGINE_STEP (R256): 0 the hash engine, 1 the ML-DSA unit, 2 the ML-KEM unit, 3 the table engine, 4 the MRAM writer, 5 the
link controller, whose TX is not stepped. -/
def execEngineStep (e : Fin 6) (s : State) : Host.Outcome State Fault Refusal := onChipBurn (engineStep e.val) s

/-- The first operation whose DRAM transaction has ended. -/
def Chip.dramEnded (c : Chip) : Option (Job × Ticket) :=
  c.launched.find? fun x => x.2.dram.any fun g => decide (g.1 ≤ c.now)

/-- The transactions of DRAM that have ended: each operation, or step of a SWEEP, takes effect, in launch order (R184, R248). -/
def dramGrainFuel (o : Store Nat) : Nat → Chip → Chip
  | 0, c => c
  | n + 1, c => match c.dramEnded with
    | none => c
    | some (j, t) =>
      let c1 := onOp j (fun x => { x with dram := none }) c
      dramGrainFuel o n (if opStepped t.code then effectStep j { t.work with steps := t.steps - 1 } o c1
        else match runOp j t.work o c1 with
          | (some x, c2) => finishJobWith j t.code x c2
          | (none, c2) => c2)

/-- A grain of the DRAM controller. -/
def dramGrain (c : Chip) : Chip := dramGrainFuel [] (c.dramHeld) c

/-- The remaining steps of a stepped operation, one after another, as far as they go; a step in DRAM begins its transactions. -/
def runSteps (j : Job) (o : Store Nat) : Nat → Chip → Chip
  | 0, c => c
  | n + 1, c => match c.work j with
    | none => c
    | some w =>
      if c.worksInDram w then (if c.noSlot w then c else dramBegin j w c)
      else
        match runStep j w o c with
        | (some x, prog, sw, c1) => finishJobWith j w.code x (noteStep j (w.steps + 1) prog sw c1)
        | (none, prog, sw, c1) => runSteps j o n (noteStep j (w.steps + 1) prog sw c1)

/-- The steps an operation without stepped effects has taken at its end, never fewer than it took before: free where the spec says only
about how many (R250). -/
def stepCount (w : Work) (c : Chip) : Nat × Chip :=
  match c.stepsOf w with
  | some n => (max n (w.steps + 1), c)
  | none =>
    let (v, c1) := takeFree 65536 c
    let digests := if w.code = 0x32 ∨ w.code = 0x52 then ceilDiv ((c.digestOctets w).getD 0 - w.prog) c.digestStep else 0
    (w.steps + digests + 1 + v, c1)

/-- A whole operation, from where it stands to its end: its engine takes it as its next work and nothing comes between. One on a record
in DRAM begins its transaction, and ends with it (R248). -/
def runJob (j : Job) (o : Store Nat) (c : Chip) : Chip := match c.work j with
  | none => c
  | some w =>
    if c.worksInDram w then dramBegin j w c
    else if opStepped w.code then runSteps j o 65536 c
    else
      match c.opFirst w with
      | some x => finishJobWith j w.code x (noteStep j (w.steps + 1) w.prog w.sweep c)
      | none =>
        let (n, c0) := stepCount w c
        match runOp j w o (noteStep j n w.prog w.sweep c0) with
        | (some x, c2) => finishJobWith j w.code x c2
        | (none, c2) => c2

/-- Whether nothing comes between the steps of the work an engine takes next (R256): it is a single step or a mailbox command, or
no mailbox command and no single-step operation waits; and one that goes on to another engine finds that idle too. -/
def Chip.alone (c : Chip) (e : Nat) (j : Job) : Bool :=
  (match j with
    | .mbx _ => true
    | _ => ((c.work j).any fun w => c.single w) || ((c.mailboxOf e).isNone && (c.singleWaiting e).isNone)) &&
  ((c.work j).all fun w => (nextEngine w.code e).all fun x => (c.pick x).isNone)

/-- The engine whose next work is a job. -/
def Chip.engineFor (c : Chip) (j : Job) : Option Nat := [0, 1, 2, 3, 4].find? fun e => c.pick e == some j

/-- The command of an operation: it runs where an engine's next work is the operation of that code asked for by ticket or
mailbox, to its end, or for one step where other work comes between; else nothing happens. DESIGN CHOICE: log entry 89. -/
def opRow (code : Nat) (v : Via) (o : Store Nat) (c : Chip) : Chip :=
  match c.engineFor (jobOf v) with
  | none => c
  | some e =>
    if ! ((c.work (jobOf v)).any fun w => w.code == code) then c
    else if c.alone e (jobOf v) then runJob (jobOf v) o (noteYield e (jobOf v) c)
    else engineStep e o c

/-! ### The operations, one row each -/

/-- REMASH (R272, R273): the command of a path is verified and its re-mash begins; its reply comes when the last lane is
processed. -/
def execRemash (p : Fin 5) (s : State) : Host.Outcome State Fault Refusal := onChipBurn (opRow 0x05 (.mailbox p)) s
/-- One step of the takeover of a path, where it is the table engine's next work (R385, R406). -/
def takeoverRow (p : Nat) (o : Store Nat) (c : Chip) : Chip :=
  if c.pick 3 == some (.mbx p) && (c.mbxOf p).code == 0x09 then engineStep 3 o c else c
/-- GANG_TAKEOVER (R406). -/
def execGangTakeover (p : Fin 5) (s : State) : Host.Outcome State Fault Refusal := onChipBurn (takeoverRow p.val) s
/-- REC_READ (R184). -/
def execRecRead (v : Via) (s : State) : Host.Outcome State Fault Refusal := onChipBurn (opRow 0x10 v) s
/-- REC_WRITE (R184). -/
def execRecWrite (v : Via) (s : State) : Host.Outcome State Fault Refusal := onChipBurn (opRow 0x11 v) s
/-- REC_TOUCH (R184). -/
def execRecTouch (v : Via) (s : State) : Host.Outcome State Fault Refusal := onChipBurn (opRow 0x12 v) s
/-- REC_ADVANCE (R184). -/
def execRecAdvance (v : Via) (s : State) : Host.Outcome State Fault Refusal := onChipBurn (opRow 0x13 v) s
/-- SWEEP (R185). -/
def execSweep (v : Via) (s : State) : Host.Outcome State Fault Refusal := onChipBurn (opRow 0x18 v) s
/-- MRAM_WRITE (R181). -/
def execMramWrite (v : Via) (s : State) : Host.Outcome State Fault Refusal := onChipBurn (opRow 0x20 v) s
/-- HASH (R200). -/
def execHash (v : Via) (s : State) : Host.Outcome State Fault Refusal := onChipBurn (opRow 0x30 v) s
/-- KMAC (R200). -/
def execKmac (v : Via) (s : State) : Host.Outcome State Fault Refusal := onChipBurn (opRow 0x31 v) s
/-- IMAGE_VERIFY (R195, R200). -/
def execImageVerify (v : Via) (s : State) : Host.Outcome State Fault Refusal := onChipBurn (opRow 0x32 v) s
/-- SIG_VERIFY (R200). -/
def execSigVerify (v : Via) (s : State) : Host.Outcome State Fault Refusal := onChipBurn (opRow 0x33 v) s
/-- PARTNER_KEY (R200). -/
def execPartnerKey (v : Via) (s : State) : Host.Outcome State Fault Refusal := onChipBurn (opRow 0x34 v) s
/-- EP_OPEN (R200). -/
def execEpOpen (v : Via) (s : State) : Host.Outcome State Fault Refusal := onChipBurn (opRow 0x35 v) s
/-- EP_SEAL (R200). -/
def execEpSeal (v : Via) (s : State) : Host.Outcome State Fault Refusal := onChipBurn (opRow 0x36 v) s
/-- KEY_GEN (R200). -/
def execKeyGen (v : Via) (s : State) : Host.Outcome State Fault Refusal := onChipBurn (opRow 0x37 v) s
/-- KEY_WRAP (R199). -/
def execKeyWrap (v : Via) (s : State) : Host.Outcome State Fault Refusal := onChipBurn (opRow 0x38 v) s
/-- KEY_UNWRAP (R199). -/
def execKeyUnwrap (v : Via) (s : State) : Host.Outcome State Fault Refusal := onChipBurn (opRow 0x39 v) s
/-- NMK_STORE (R200). -/
def execNmkStore (v : Via) (s : State) : Host.Outcome State Fault Refusal := onChipBurn (opRow 0x3A v) s
/-- NMK_ERASE (R200). -/
def execNmkErase (v : Via) (s : State) : Host.Outcome State Fault Refusal := onChipBurn (opRow 0x3B v) s
/-- KEM_KEYGEN (R200). -/
def execKemKeygen (v : Via) (s : State) : Host.Outcome State Fault Refusal := onChipBurn (opRow 0x3C v) s
/-- KEM_ENCAPS (R200). -/
def execKemEncaps (v : Via) (s : State) : Host.Outcome State Fault Refusal := onChipBurn (opRow 0x3D v) s
/-- KEM_DECAPS (R200). -/
def execKemDecaps (v : Via) (s : State) : Host.Outcome State Fault Refusal := onChipBurn (opRow 0x3E v) s
/-- RANDOM (R200). -/
def execRandom (v : Via) (s : State) : Host.Outcome State Fault Refusal := onChipBurn (opRow 0x3F v) s
/-- MEAS_EXTEND (R204). -/
def execMeasExtend (v : Via) (s : State) : Host.Outcome State Fault Refusal := onChipBurn (opRow 0x40 v) s
/-- ATTEST (R205). -/
def execAttest (v : Via) (s : State) : Host.Outcome State Fault Refusal := onChipBurn (opRow 0x41 v) s
/-- ID_CERT (R200). -/
def execIdCert (v : Via) (s : State) : Host.Outcome State Fault Refusal := onChipBurn (opRow 0x42 v) s
/-- TOKEN (R201). -/
def execToken (v : Via) (s : State) : Host.Outcome State Fault Refusal := onChipBurn (opRow 0x43 v) s
/-- UPD_BEGIN (R366). -/
def execUpdBegin (v : Via) (s : State) : Host.Outcome State Fault Refusal := onChipBurn (opRow 0x50 v) s
/-- UPD_WRITE (R366). -/
def execUpdWrite (v : Via) (s : State) : Host.Outcome State Fault Refusal := onChipBurn (opRow 0x51 v) s
/-- UPD_VERIFY (R366). -/
def execUpdVerify (v : Via) (s : State) : Host.Outcome State Fault Refusal := onChipBurn (opRow 0x52 v) s
/-- UPD_GERMINATE (R368). -/
def execUpdGerminate (v : Via) (s : State) : Host.Outcome State Fault Refusal := onChipBurn (opRow 0x53 v) s
/-- UPD_ACTIVATE_AT (R369). -/
def execUpdActivateAt (v : Via) (s : State) : Host.Outcome State Fault Refusal := onChipBurn (opRow 0x54 v) s
/-- UPD_CONFIRM (R374). -/
def execUpdConfirm (v : Via) (s : State) : Host.Outcome State Fault Refusal := onChipBurn (opRow 0x55 v) s
/-- UPD_FALLBACK (R375). -/
def execUpdFallback (v : Via) (s : State) : Host.Outcome State Fault Refusal := onChipBurn (opRow 0x56 v) s
/-- UPD_ABORT (R364). -/
def execUpdAbort (v : Via) (s : State) : Host.Outcome State Fault Refusal := onChipBurn (opRow 0x57 v) s
/-- SET_WRITE (R363). -/
def execSetWrite (v : Via) (s : State) : Host.Outcome State Fault Refusal := onChipBurn (opRow 0x58 v) s
/-- LEDGER_CLEAR (R360). -/
def execLedgerClear (v : Via) (s : State) : Host.Outcome State Fault Refusal := onChipBurn (opRow 0x59 v) s
/-- RCV_BEGIN (R377). -/
def execRcvBegin (p : Fin 5) (s : State) : Host.Outcome State Fault Refusal := onChipBurn (opRow 0x60 (.mailbox p)) s
/-- RCV_DATA (R377). -/
def execRcvData (p : Fin 5) (s : State) : Host.Outcome State Fault Refusal := onChipBurn (opRow 0x61 (.mailbox p)) s
/-- RCV_END (R377). -/
def execRcvEnd (p : Fin 5) (s : State) : Host.Outcome State Fault Refusal := onChipBurn (opRow 0x62 (.mailbox p)) s
/-- RCV_ABORT (R378). -/
def execRcvAbort (p : Fin 5) (s : State) : Host.Outcome State Fault Refusal := onChipBurn (opRow 0x63 (.mailbox p)) s

/-! ### Replies (R383, R384) -/

/-- Where a mailbox shows its reply. -/
def setReply (p k : Nat) (w : Word) (c : Chip) : Chip :=
  if p = 0 then c.setPort (0xA18 + k) w else c.setReg (Reg.MBX_REPLY (p - 1) k) w

/-- The eight words of a reply: the result, its summary and what the command adds (R384). -/
def replyWords (m : Mbx) (ws : List Word) : List Word :=
  let w := ws.getD 0 (.int 0)
  [w, .bits (m.seq * 2 ^ 28 + m.code * 2 ^ 20 + resultStatus w)] ++ (List.range 6).map fun k => ws.getD (k + 1) (.int 0)

/-- A reply frame on UART0 (R395): 0x7E, OP, the five address bytes, COUNT, the data in slots of eight bytes (R39), and the CRC-16, least
significant octet first. -/
def uartReply (op sp a n : Nat) (ws : List Word) : List Nat :=
  let body := [op, sp, a / 2 ^ 24 % 256, a / 2 ^ 16 % 256, a / 2 ^ 8 % 256, a % 256, n] ++
    ws.flatMap fun w => wordBytes w ++ [0, 0, 0]
  0x7E :: body ++ leOctets 2 (fcs16 body)

/-- Octets that leave, each in the output latch as one word. -/
def Chip.replyOctets (c : Chip) (bs : List Nat) : Chip := c.reply (bs.map Word.bits)

/-- The owner of a path is signalled that its command has ended (R383): path 0 by source 0xCE, path 1 by MSI-X vector 0, path 2 by
HOST_IRQ_N, which follows DONE (R394), path 3 by a reply frame; on path 4 DONE is read. The frame is the read reply of the eight reply
words. DESIGN CHOICE: log entry 143. -/
def mbxSignal (p : Nat) (m : Mbx) (rs : List Word) (c : Chip) : Chip :=
  match p with
  | 0 => c.fire 0xCE (some (m.seq * 2 ^ 20 + m.code * 2 ^ 12 + resultStatus (rs.getD 0 (.int 0))))
  | 1 => c.msi 0
  | 3 => c.replyOctets (uartReply 0x81 5 (Reg.MBX_REPLY 2 0) 8 rs)
  | _ => c

/-- MBX_REPLY (R383): the reply is filled, BUSY clears, DONE sets, and the path's owner is signalled. -/
def mbxReply (p : Nat) (c : Chip) : Chip :=
  let m := c.mbxOf p
  match m.result with
  | none => c
  | some ws =>
    if ! m.busy then c
    else
      let rs := replyWords m ws
      let c1 := (List.range 8).foldl (fun c k => setReply p k (rs.getD k (.int 0)) c) (setMbx p .idle c)
      mbxSignal p m rs (setMbxStatus p ((((c1.mbxStatus p).withField 0 1 0).withField 1 1 1).withField 16 8 m.seq) c1)

/-- MBX_REPLY (R383). -/
def execMbxReply (p : Fin 5) (s : State) : Host.Outcome State Fault Refusal := onChip (mbxReply p.val) s

end Sys2Proof.Machine
end

