-- ==== Sys2Proof/Machine/Host.lean ====
section
/-! DEFINITION. The host paths: word access, PCIe apertures, the quad SPI target and UART0 (17_host_and_gang.md, R390 to
R395). -/

namespace Sys2Proof.Machine

/-! ### Word access (R390) -/

/-- Whether a path serves word accesses (R381): its island is on, and the recipe, or the ROM where none is in force, serves
it. Path 4 comes over the chain to a chip that is not chip 0. A device held in reset serves none (R339). DEDUCED: log entry 138. -/
def Chip.pathServed (c : Chip) (p : Nat) : Bool :=
  ! c.pwr.heldInReset && (match p with
  | 1 | 2 =>
    c.isOn .pcie && decide (c.power ≠ 7) && (match c.recipe with
      | none => true
      | some r => if p = 1 then r.pciePath && ! c.farChip else decide (2 ≤ r.hostPath))
  | 3 => c.dev == devRecovery || c.dev == devDead
  | 4 => c.isOn .chain && c.farChip
  | _ => false)

/-- The word address of a mailbox register. -/
def mailboxReg (a : Nat) : Bool := decide (0x18040 ≤ a) && decide (a < 0x18140)

/-- The ledger words of space 4. -/
def ledgerWord (sp a : Nat) : Bool := sp == 4 && decide (0x380000 ≤ a) && decide (a < 0x3A0000)

/-- The refusal of a host read in the present device state, if any (R390); the identity registers are readable in every
state (R25, R210, R407), and addresses beyond their space are bad arguments (R35). DEDUCED: log entry 137. -/
def Chip.hostRefusal (c : Chip) (sp a : Nat) : Option Word :=
  if c.dev = devRun ∨ c.dev = devGerminate then
    (if sp = 7 then some .absent
     else if c.ptrValid (ptrOf sp a) then none else some (refused .badArg))
  else if c.dev = devDead then
    (if (sp == 5 && (a == Reg.SYS_ID || a == Reg.SYS_SERIAL_LO || a == Reg.SYS_SERIAL_HI || a == Reg.SYS_STATE ||
        a == Reg.SEC_LIFECYCLE || mailboxReg a)) || ledgerWord sp a then none else some (refused .dead))
  else if (sp == 5 && (decide (a < 0x1000) || a == Reg.SEC_LIFECYCLE || mailboxReg a)) || ledgerWord sp a ||
      (c.dev == devRecovery && sp == 0 && decide (a < 0x8000)) then none
  else some c.stateRefused

/-- A host read of one word by a path (R390). -/
def hostRead (p : Nat) (o : Store Nat) (sp a : Nat) (c : Chip) : Word × Chip :=
  match c.hostRefusal sp a with
  | some w => (w, c)
  | none => if sp = 5 then readReg p o a c else readWordBy .a (ptrOf sp a) c

/-- Whether a host write to a word of memory is within the limits (R138, R390). -/
def Chip.hostWritable (c : Chip) (sp a : Nat) : Bool :=
  (c.hostRefusal sp a).isNone && sp != 4 && ! c.inPartners (ptrOf sp a)

/-- A host write of one slot (R40, R390): whether it was discarded, and the chip. A discarded write sets REG_REJECT and
HOST_REJECT. -/
def hostWrite (sp a : Nat) (x : SlotWrite) (c : Chip) : Bool × Chip :=
  match Tag.ofNum x.tag.toNat, x.full && c.hostWritable sp a with
  | some t, true =>
    let w : Word := ⟨t, x.payload⟩
    let old := c.b Fld.SYS_STATUS_REG_REJECT
    if sp = 5 ∧ a = Reg.SYS_STATUS then (! regTakes a t, writeRegBy true a w c)
    else
      let c0 := c.setB Fld.SYS_STATUS_REG_REJECT false
      let c1 := if sp = 5 then writeReg true a w c0 else writeWordByA (ptrOf sp a) w c0
      if c1.b Fld.SYS_STATUS_REG_REJECT then (true, c1.hostReject) else (false, c1.setB Fld.SYS_STATUS_REG_REJECT old)
  | _, _ => (true, c.regReject.hostReject)

/-- What the check units see of a word read by a host path: the slot moved, and the bytes of MRAM (R307). -/
def readSeen (p sp : Nat) (w : Word) (last : Bool) (c : Chip) : Chip :=
  dmaSeen p 1 (wordBytes w) last (if sp = 4 then mramSeen 2 [w] last c else c)

/-- What they see of a slot written: one cut short moves no whole word. -/
def writeSeen (p : Nat) (x : SlotWrite) (last : Bool) (c : Chip) : Chip :=
  dmaSeen p 0 (if x.full then slotBytes x.tag.toNat x.payload.toNat else []) last c

/-- The slots of a host read at consecutive addresses. -/
def hostReads (p : Nat) (o : Store Nat) (sp : Nat) : Nat → Nat → Chip → List Word × Chip
  | _, 0, c => ([], c)
  | a, n + 1, c =>
    let (w, c1) := hostRead p o sp a c
    let (ws, c2) := hostReads p o sp ((a + 1) % 2 ^ 32) n (readSeen p sp w (n == 0) c1)
    (w :: ws, c2)

/-- The slots of a host write at consecutive addresses: whether the last one was discarded. -/
def hostWrites (p sp : Nat) : Nat → List SlotWrite → Chip → Bool × Chip
  | _, [], c => (false, c)
  | a, [x], c => hostWrite sp a x (writeSeen p x true c)
  | a, x :: xs, c => hostWrites p sp ((a + 1) % 2 ^ 32) xs (hostWrite sp a x (writeSeen p x false c)).2

/-- A host read that a path serves: the word goes to the output latch. -/
def hostWordRead (p sp a : Nat) (o : Store Nat) (c : Chip) : Chip :=
  if c.pathServed p then
    let (w, c1) := hostRead p o sp a c
    (readSeen p sp w true c1).reply [w]
  else c

/-- HOST_WORD_READ (R390) on path 1 to 4, one more than the operand. -/
def execHostWordRead (p : Fin 4) (sp : BitVec 4) (a : BitVec 32) (s : State) : Host.Outcome State Fault Refusal :=
  onChipOtp (hostWordRead (p.val + 1) sp.toNat a.toNat) s

/-- A host write that a path serves. -/
def hostWordWrite (p sp a : Nat) (x : SlotWrite) (c : Chip) : Chip := 
  if c.pathServed p then (hostWrite sp a x (writeSeen p x true c)).2 else c

/-- HOST_WORD_WRITE (R40, R390) on path 1 to 4, one more than the operand. -/
def execHostWordWrite (p : Fin 4) (sp : BitVec 4) (a : BitVec 32) (x : SlotWrite) (s : State) :
    Host.Outcome State Fault Refusal :=
  onChip (hostWordWrite (p.val + 1) sp.toNat a.toNat x) s

/-! ### MBX_GO (R383) -/

/-- Whether a path can write its MBX_GO (R381, R382): path 0 from a core that has the mailbox ports, the others where they are
served and the HOST block is on. -/
def Chip.mbxOpen (c : Chip) (p : Nat) : Bool :=
  if p = 0 then c.isOn .core && c.sysPort 1 else c.pathServed p && c.regServed (Reg.MBX_GO (p - 1))

/-- A write to the MBX_GO of a path by the core (path 0) or a host (R383); one to a HOST block that is off is discarded. -/
def mbxGoBy (p n : Nat) (c : Chip) : Chip :=
  if p = 0 then (if c.mbxOpen 0 then asWriter false (mbxGo 0 n) c else c)
  else if c.pathServed p then writeRegBy true (Reg.MBX_GO (p - 1)) (.bits n) (dmaSeen p 0 (slotBytes Tag.bits.num n) true c)
  else c

/-- MBX_GO (R383): CODE and SEQ written to the MBX_GO of a path. -/
def execMbxGo (p : Fin 5) (code seq : BitVec 8) (s : State) : Host.Outcome State Fault Refusal :=
  onChip (mbxGoBy p.val (code.toNat + 2 ^ 12 * seq.toNat)) s

/-! ### Apertures (R392) -/

/-- Whether the breaks this chip knows of cut chip `k` off from chip 0 (R403): one breaks the ring between chip 0 and it, and
one between it and chip 0. CHAIN1 of a chip leads to the next chip and CHAIN0 to the one before, that of chip 0 to the last.
DEDUCED: log entry 139. -/
def Chip.cutOff (c : Chip) (k : Nat) : Bool :=
  k != 0 && (c.gang.breaks.any fun b => if b.2 then decide (b.1 < k) else b.1 != 0 && decide (b.1 ≤ k)) &&
    c.gang.breaks.any fun b => if b.2 then decide (k ≤ b.1) else b.1 == 0 || decide (k < b.1)

/-- Whether this chip's apertures reach a chip (R392, R403). -/
def Chip.reaches (c : Chip) (n : Nat) : Bool :=
  c.isOn .chain && decide (n < c.f Fld.HOST_CHAIN_STATUS_GANG_SIZE) && ! c.b Fld.HOST_CHAIN_STATUS_ISOLATED && ! c.cutOff n

/-- The time a remote read waits for its response (R392). -/
abbrev remoteWait : Nat := 1342177

/-- An access through aperture `k` to its word `w` (R392): a read, or a write of a slot. -/
def apertureAccess (k w : Nat) (x : Option SlotWrite) (o : Store Nat) (c : Chip) : Chip :=
  let n := c.f (Fld.HOST_APERTURE_CHIP k)
  let sp := c.f (Fld.HOST_APERTURE_SPACE k)
  let a := c.f (Fld.HOST_APERTURE_BASE_HI k) * 2 ^ 21 + w % 2 ^ 21
  if ! c.pathServed 1 then c
  else if n = c.f Fld.SYS_STATE_CHIP_NUMBER then
    match x with
    | none => hostWordRead 1 sp a o c
    | some y => hostWordWrite 1 sp a y c
  else
    match x with
    | none =>
      if ! c.reaches n then c.reply [c.stateRefused]
      else
        let c1 := sendFrame 4 false n 0 [.mk' .ptr (ptrOf sp a), .int 1] c
        { c1 with gang := { c1.gang with remote := c1.gang.remote ++ [{ chip := n, count := 1, due := c.now + remoteWait }] } }
    | some y =>
      match Tag.ofNum y.tag.toNat, y.full && c.reaches n with
      | some t, true => sendFrame 4 false n 1 [.mk' .ptr (ptrOf sp a), ⟨t, y.payload⟩] (writeSeen 1 y true c)
      | _, _ => (writeSeen 1 y true c).regReject.hostReject

/-- APERTURE_ACCESS (R392): a read, or a write of a slot. -/
def execApertureAccess (k : Fin 4) (w : BitVec 21) (x : Option SlotWrite) (s : State) : Host.Outcome State Fault Refusal :=
  onChipOtp (apertureAccess k.val w.toNat x) s

/-- ACCESS_TIMEOUT (R392): the oldest remote read has waited its time, and returns TIMEOUT. -/
def accessTimeout (c : Chip) : Chip :=
  match c.gang.remote with
  | r :: rest =>
    if r.due ≤ c.now then ({ c with gang := { c.gang with remote := rest } }).reply [refused .timeout] else c
  | [] => c

/-- ACCESS_TIMEOUT (R392). -/
def execAccessTimeout (s : State) : Host.Outcome State Fault Refusal := onChip accessTimeout s

/-! ### PCIe (R391, R393) -/

/-- Commands of the host paths that an engine has in hand go on after their mailboxes are reset, and answer no one (R393).
DEDUCED: log entry 141. -/
def orphanCommands (c : Chip) : Chip :=
  let take (p : Nat) : Option Ticket :=
    let m := c.mbxOf p
    if m.busy && m.result.isNone && (mbxEngine m.code).isSome && ! c.parked (.mailbox (Fin.ofNat 5 p)) then
      some {
        number := 512 + p
        cls := 8
        gen := 0
        code := m.code
        args := m.args
        state := if m.steps = 0 then 1 else 2
        steps := m.steps
        result := .int 0
        doneAt := 0
        priv := true
        prog := m.prog
        sweep := none
        stalled := false
        dram := none }
    else none
  c.onTk fun k => { k with orphans := k.orphans ++ [1, 2, 3, 4].filterMap take }

/-- The PCIe island stops and begins to restart: the mailbox registers return to reset, and a command in progress completes
with its reply discarded (R13, R393). -/
def pcieRestart (c : Chip) : Chip := (islandDown .pcie (orphanCommands c)).setIsland .pcie .restarting

/-- PERST_N, or a hot reset (R393). -/
def execPerstN (s : State) : Host.Outcome State Fault Refusal :=
  onChip (fun c => if c.isOn .pcie then pcieRestart c else c) s

/-- HOST_DOORBELL_IN (R393): a host writes a value to its doorbell. -/
def hostDoorbell (w : Payload) (c : Chip) : Chip :=
  if c.isOn .pcie then writeRegBy true Reg.HOST_DOORBELL_IN ⟨.bits, w⟩ (dmaSeen 1 0 (slotBytes Tag.bits.num w.toNat) true c) else c

/-- HOST_DOORBELL_IN (R393). -/
def execHostDoorbellIn (w : Payload) (s : State) : Host.Outcome State Fault Refusal := onChip (hostDoorbell w) s

/-- PCIE_LINK_CHANGE (R391): the link stands at a rate (0 down, 1 to 3) and a width (1 or 2 lanes), in L1 or not; a change of
LINK_UP raises PCIE_LINK. -/
def pcieLink (rate width : Nat) (l1 : Bool) (c : Chip) : Chip :=
  if ! c.isOn .pcie then c
  else
    let up := rate != 0
    let was := c.b Fld.HOST_PCIE_STATUS_LINK_UP
    let c1 := (((c.setF Fld.HOST_PCIE_STATUS_RATE (rate % 4)).setF Fld.HOST_PCIE_STATUS_WIDTH (if up then width else 0)).setB
      Fld.HOST_PCIE_STATUS_L1 (up && l1)).setB Fld.HOST_PCIE_STATUS_LINK_UP up
    if was == up then c1 else c1.raise .host 1

/-- PCIE_LINK_CHANGE (R391): `wide` is a width of two lanes. -/
def execPcieLinkChange (rate : Fin 4) (wide l1 : Bool) (s : State) : Host.Outcome State Fault Refusal :=
  onChip (pcieLink rate.val (1 + b2n wide) l1) s

/-! ### Quad SPI (R394) -/

/-- The slots of a quad SPI read: one whose data are not ready when its data phase begins reads REFUSED with BUSY. -/
def qspiReads (o : Store Nat) (sp : Nat) : Nat → List Bool → Chip → List Word × Chip
  | _, [], c => ([], c)
  | a, late :: more, c =>
    let (w, c1) := if late then (refused .busy, c) else hostRead 2 o sp (a % 2 ^ 32) c
    let (ws, c2) := qspiReads o sp (a + 1) more (readSeen 2 sp w more.isEmpty c1)
    (w :: ws, c2)

/-- QSPI_READ (R394): opcode 0x0B or 0xEB, the five address bytes' space and word address, and for each slot whether its data
come too late. -/
def qspiRead (op sp a : Nat) (late : List Bool) (o : Store Nat) (c : Chip) : Chip :=
  if c.pathServed 2 && (op == 0x0B || op == 0xEB) then
    let (ws, c1) := qspiReads o sp a late c
    c1.reply ws
  else c

/-- QSPI_READ (R394). -/
def execQspiRead (op : BitVec 8) (sp : BitVec 4) (a : BitVec 32) (late : List Bool) (s : State) :
    Host.Outcome State Fault Refusal :=
  onChipOtp (qspiRead op.toNat sp.toNat a.toNat late) s

/-- QSPI_WRITE (R394): opcode 0x02 or 0x38; LAST_REJECT follows the last slot. A last slot that CS_N cut short is not full. -/
def qspiWrite (op sp a : Nat) (xs : List SlotWrite) (c : Chip) : Chip :=
  if c.pathServed 2 && (op == 0x02 || op == 0x38) && ! xs.isEmpty then
    let (rej, c1) := hostWrites 2 sp a xs c
    { c1 with qspiReject := rej }
  else c

/-- QSPI_WRITE (R394). -/
def execQspiWrite (op : BitVec 8) (sp : BitVec 4) (a : BitVec 32) (xs : List SlotWrite) (s : State) :
    Host.Outcome State Fault Refusal :=
  onChip (qspiWrite op.toNat sp.toNat a.toNat xs) s

/-- The status byte (R394). -/
def Chip.qspiStatus (c : Chip) : Word :=
  let st := c.mbxStatus 2
  .bits (st.field 0 3 + b2n c.qspiReject * 8 + b2n (c.dev == devRecovery) * 16 + b2n (c.dev == devDead) * 32)

/-- QSPI_STATUS_BYTE (R394). -/
def execQspiStatusByte (s : State) : Host.Outcome State Fault Refusal :=
  onChip (fun c => if c.pathServed 2 then c.reply [c.qspiStatus] else c) s

/-! ### UART0 (R395) -/

/-- The bytes of a UART frame after 0x7E, CRC included, once its COUNT is known; none before. -/
def uartLength (op : Nat) (bs : List Nat) : Option Nat :=
  match bs[6]? with
  | none => none
  | some n => some (if op = 2 then 9 + 8 * n else 9)

/-- A slot of 8 bytes (R39). -/
def slotOfBytes (bs : List Nat) : SlotWrite :=
  { tag := BitVec.ofNat 4 (bs.getD 4 0 / 16)
    payload := BitVec.ofNat 36 (leNat (bs.take 4) + bs.getD 4 0 % 16 * 2 ^ 32)
    full := true }

/-- The slots of a frame's data. -/
def slotsOfBytes : Nat → List Nat → List SlotWrite
  | 0, _ => []
  | n + 1, bs => slotOfBytes bs :: slotsOfBytes n (bs.drop 8)

/-- A complete frame, OP to CRC: its space, word address, COUNT and data, where its CRC and COUNT are good. -/
def uartFrame (bs : List Nat) : Option (Nat × Nat × Nat × List Nat) :=
  let n := bs.getD 6 0
  let body := bs.take (bs.length - 2)
  if bs.drop (bs.length - 2) == leOctets 2 (fcs16 body) && decide (1 ≤ n) && decide (n ≤ 32) && decide (bs.getD 1 0 < 16) then
    some (bs.getD 1 0, bs.getD 2 0 * 2 ^ 24 + bs.getD 3 0 * 2 ^ 16 + bs.getD 4 0 * 2 ^ 8 + bs.getD 5 0, n, body.drop 7)
  else none

/-- Bytes as a receiver that hunts sees them: what follows the first 0x7E, if there is one. -/
def uartHunt (bs : List Nat) : Option (List Nat) :=
  match bs.dropWhile (· != 0x7E) with
  | [] => none
  | _ :: rest => some rest

/-- The receiver takes bytes: while it hunts it skips to 0x7E. It answers the complete frame, if the bytes end one, and
holds what it has of one that is not complete, or of the next. -/
def uartTake (bs : List Nat) (c : Chip) : Option (List Nat) × Chip :=
  let got := match c.uart.bytes with
    | some x => some (x ++ bs)
    | none => uartHunt bs
  match got with
  | none => (none, { c with uart := { c.uart with at_ := c.now } })
  | some x =>
    match uartLength (x.headD 0) x with
    | some n => if n ≤ x.length then (some (x.take n), { c with uart := { bytes := uartHunt (x.drop n), at_ := c.now } })
      else (none, { c with uart := { bytes := some x, at_ := c.now } })
    | none => (none, { c with uart := { bytes := some x, at_ := c.now } })

/-- Bytes of a read request arrive on UART0: a complete one with a good CRC is answered by a read reply (R395). -/
def uartRead (bs : List Nat) (o : Store Nat) (c : Chip) : Chip :=
  if ! c.pathServed 3 then c
  else
    let (f, c1) := uartTake bs c
    match f with
    | none => c1
    | some x =>
      match uartFrame x with
      | some (sp, a, n, _) =>
        if x.headD 0 = 0x01 then
          let (ws, c2) := hostReads 3 o sp a n c1
          c2.replyOctets (uartReply 0x81 sp a n ws)
        else c1
      | none => c1

/-- UART_READ_REQUEST (R395): the bytes as they arrive. -/
def execUartReadRequest (bs : List Byte) (s : State) : Host.Outcome State Fault Refusal :=
  onChipOtp (uartRead (bs.map BitVec.toNat)) s

/-- Bytes of a write request arrive on UART0: a complete one with a good CRC is applied and answered by a write reply (R395). -/
def uartWrite (bs : List Nat) (c : Chip) : Chip :=
  if ! c.pathServed 3 then c
  else
    let (f, c1) := uartTake bs c
    match f with
    | none => c1
    | some x =>
      match uartFrame x with
      | some (sp, a, n, d) =>
        if x.headD 0 = 0x02 then ((hostWrites 3 sp a (slotsOfBytes n d) c1).2).replyOctets (uartReply 0x82 sp a n []) else c1
      | none => c1

/-- UART_WRITE_REQUEST (R395): the bytes as they arrive. -/
def execUartWriteRequest (bs : List Byte) (s : State) : Host.Outcome State Fault Refusal := onChip (uartWrite (bs.map BitVec.toNat)) s

/-- 100 ms in grains (R395, R4). -/
abbrev uartIdle : Nat := 6710886

/-- UART_IDLE_TIMEOUT (R395): no byte for 100 ms, and the receiver hunts for 0x7E again. -/
def uartTimeout (c : Chip) : Chip :=
  if c.uart.bytes.isSome && decide (c.uart.at_ + uartIdle ≤ c.now) then { c with uart := { c.uart with bytes := none } } else c

/-- UART_IDLE_TIMEOUT (R395). -/
def execUartIdleTimeout (s : State) : Host.Outcome State Fault Refusal := onChip uartTimeout s

end Sys2Proof.Machine
end

