-- ==== Sys2Proof/Machine/Commands.lean ====
section
/-! DEFINITION. The mailbox commands that no engine serves, and the restart of one island (R13, R387 to R389). -/

namespace Sys2Proof.Machine

/-- Run a mailbox command that waits in the mailbox of path `p` under a code: its result and further words, or none where it
goes on. -/
def mbxRow (p code : Nat) (g : Mbx → Chip → Option (Word × List Word) × Chip) (c : Chip) : Chip :=
  let m := c.mbxOf p
  if m.busy && m.result.isNone && m.code == code then
    match g m c with
    | (some (w, ws), c1) => finishMbx p w ws c1
    | (none, c1) => c1
  else c

/-- PING (R387). -/
def ping (p : Nat) (c : Chip) : Chip :=
  mbxRow p 0x00 (fun _ c => (some (.int 0, [⟨.grain, c.grain⟩, c.reg Reg.SYS_STATE]), c)) c

/-- PING (R387). -/
def execPing (p : Fin 5) (s : State) : Host.Outcome State Fault Refusal := onChip (ping p.val) s

/-- IDENTITY (R387). -/
def identity (p : Nat) (o : Store Nat) (c : Chip) : Chip :=
  mbxRow p 0x01 (fun _ c => (some (.int 0, [c.reg Reg.SYS_ID, .bits (serial o % 2 ^ 32), .bits (serial o / 2 ^ 32),
    c.reg Reg.SYS_STATE, secLifecycle o]), c)) c

/-- IDENTITY (R387). -/
def execIdentity (p : Fin 5) (s : State) : Host.Outcome State Fault Refusal := onChipOtp (identity p.val) s

/-- The island that carries a host path (R387). -/
def pathIsland (p : Nat) : Option Island :=
  match p with
  | 0 => some .core
  | 1 => some .pcie
  | 2 => some .pcie
  | 4 => some .chain
  | _ => none

/-- An island stops and begins to restart (R13). -/
def restartIsland (i : Island) (c : Chip) : Chip :=
  match i with
  | .core => coreRestart 5 0 c
  | .pcie => pcieRestart c
  | _ => (islandDown i c).setIsland i .restarting

/-- ISLAND_RESTART (R387): the refusal, or none while the island restarts. A command that names the island of its own path
completes with no reply. DEDUCED: log entry 142. -/
def opIslandRestart (p : Nat) (m : Mbx) (c : Chip) : Option (Word × List Word) × Chip :=
  let a := argOf m.args 0
  if m.steps ≠ 0 then (none, c)
  else match allIslands[a.nat]? with
    | none => (some (refused .badArg, []), c)
    | some i =>
      if a.tag ≠ .int ∨ i = .aon ∨ i = .rtc ∨ i = .evf then (some (refused .badArg, []), c)
      else if ! c.isOn i then (some (c.stateRefused, []), c)
      else if pathIsland p = some i then (none, restartIsland i (setMbx p .idle (setMbxStatus p ((c.mbxStatus p).withField 0 1 0) c)))
      else (none, restartIsland i (setMbx p { m with steps := 1 } c))

/-- ISLAND_RESTART (R13, R387). -/
def execIslandRestart (p : Fin 5) (s : State) : Host.Outcome State Fault Refusal :=
  onChip (mbxRow p.val 0x02 (opIslandRestart p.val)) s

/-- Whether the rates a start allows hold this chip to 2.5 Gb/s (R360, R397). -/
def Chip.chainSlow (c : Chip) : Bool := c.stepCode 12 == 2

/-- The rate at which a port locks, 0 for none, 1 for 2.5 Gb/s, 2 for 5 Gb/s, within what this chip advertises (R397). -/
def Chip.chainRate (c : Chip) (rate : Nat) : Nat := if c.chainSlow then min 1 (rate % 3) else rate % 3

/-- The chain's ports lock at rates. -/
def chainRates (r0 r1 : Nat) (c : Chip) : Chip :=
  (c.setF Fld.HOST_CHAIN_STATUS_RATE_0 (c.chainRate r0)).setF Fld.HOST_CHAIN_STATUS_RATE_1 (c.chainRate r1)

/-- DRAM of a controller that has restarted is trained; its array kept its contents (R13, R175). -/
def ddrBack (found : Option (Nat × Nat)) (c : Chip) : Chip :=
  match found with
  | some (size, rate) => (ddrTrained size rate false c).setB Fld.MEM_DDR_STATUS_INIT_DONE true
  | none => ddrFailed c

/-- The restart of an island completes (R13, R169, R275): what it holds comes back, memory islands after their scrub and DRAM
after its training, the chain's ports at the rates found; firmware starts where the core had stopped. -/
def islandBack (i : Island) (found : Option (Nat × Nat)) (r0 r1 : Nat) (o : Store Nat) (c : Chip) : Chip :=
  match i with
  | .memD | .memT => islandUp o i (memoryScrubDone i c)
  | .ddr => ddrBack found (islandUp o .ddr (memoryScrubDone .ddr c))
  | .core =>
    let cause := c.core.startCause
    coreStart cause (islandUp o .core (imScrubWhere (fun _ => true) c))
  | .chain =>
    let c1 := chainRates r0 r1 (islandUp o .chain c)
    if c1.pin pinGangHead then { c1 with gang := { c1.gang with enumAt := some c1.now } } else c1
  | .lane => remashRestart (islandUp o .lane (remashAdopt c))
  | _ => islandUp o i c

/-- The commands that wait for the restart of an island end. -/
def restartEnds (i : Island) (c : Chip) : Chip :=
  [0, 1, 2, 3, 4].foldl (fun c p =>
    mbxRow p 0x02 (fun m c => (if m.steps = 1 ∧ (argOf m.args 0).nat = i.num then some (.int 0, []) else none, c)) c) c

/-- ISLAND_RESTART_DONE (R13): a restarting island comes back, and the commands that wait for it end. -/
def islandRestartDone (i : Island) (found : Option (Nat × Nat)) (r0 r1 : Nat) (o : Store Nat) (c : Chip) : Chip :=
  if c.island i = .restarting then restartEnds i (islandBack i found r0 r1 o c) else c

/-- ISLAND_RESTART_DONE (R13): the island by number, what DRAM training finds, and the rates at which CHAIN0 and CHAIN1
lock. -/
def execIslandRestartDone (k : Fin 16) (found : Option DdrFound) (r0 r1 : Fin 3) (s : State) :
    Host.Outcome State Fault Refusal :=
  onChipOtp (islandRestartDone (allIslands.getD k.val .aon) (found.map fun f => (f.size.val, f.rate.val)) r0.val r1.val) s

/-- The island of a memory island name. -/
def memIslandOf : MemIsland → Island
  | .memD => .memD | .memT => .memT | .ddr => .ddr

/-- The full scrub of a restarting memory island ends and its words are served (R13, R169); DRAM that is not trained yet
trains first. -/
def memoryServed (i : Island) (o : Store Nat) (c : Chip) : Chip :=
  if c.island i = .restarting then
    let c1 := islandUp o i (memoryScrubDone i c)
    restartEnds i (if i = .ddr ∧ ¬ c1.b Fld.MEM_DDR_STATUS_TRAINED = true then c1.onMems fun m => { m with training := true } else c1)
  else c

/-- MEMORY_SCRUB_DONE (R169). -/
def execMemoryScrubDone (i : MemIsland) (s : State) : Host.Outcome State Fault Refusal := onChipOtp (memoryServed (memIslandOf i)) s

/-- DEVICE_RESET (R387): it acts as RESET_N and gives no reply; with the wrong guard it is refused. DEDUCED: log entry 39. -/
def deviceResetCommand (p : Nat) (o : Store Nat) (c : Chip) : Chip :=
  mbxRow p 0x03 (fun m c =>
    if argOf m.args 0 = c.reg Reg.SYS_ID then (none, resetDevice (some causePin) false o c)
    else (some (refused .badArg, []), c)) c

/-- DEVICE_RESET (R387). -/
def execDeviceReset (p : Fin 5) (s : State) : Host.Outcome State Fault Refusal := onChipBurn (deviceResetCommand p.val) s

/-- POWER (R334, R387, R389): the same write to PWR_REQUEST, whose sequence number it answers; in Night it counts as a host
doorbell. -/
def powerCommand (p : Nat) (c : Chip) : Chip :=
  mbxRow p 0x04 (fun m c =>
    let a := argOf m.args 0
    if a.tag ≠ .int ∨ 8 ≤ a.nat then (some (refused .badArg, []), c)
    else
      let c1 := powerRequest a.nat (if c.power = 5 then latchWake c 4 else c)
      (some (.int (c1.f Fld.PWR_STATUS_LAST_SEQ), []), c1)) c

/-- POWER (R387). -/
def execPower (p : Fin 5) (s : State) : Host.Outcome State Fault Refusal := onChip (powerCommand p.val) s

end Sys2Proof.Machine
end

