-- ==== Sys2Proof/Machine/Chain.lean ====
section
/-! DEFINITION. The Aumin chain: frames, numbering, break and fold, gang time, members and mirroring
(17_host_and_gang.md, R396 to R406). -/

namespace Sys2Proof.Machine

/-- This chip's number. -/
def Chip.chipNumber (c : Chip) : Nat := c.f Fld.SYS_STATE_CHIP_NUMBER

/-- Whether this chip is chip 0: its GANG_HEAD ball is high (R401). -/
def Chip.isHead (c : Chip) : Bool := c.pin pinGangHead

/-! ### Frames (R398 to R400) -/

/-- A frame as it arrived. -/
def headFrame (h : FrameHead) (type op : Nat) (ws : List Word) : ChainFrame :=
  { type := type
    bcast := h.bcast
    dst := h.dst.toNat
    src := h.src.toNat
    hops := h.hops.toNat
    seq := h.seq.toNat
    op := op
    words := ws
    back := h.back
    own := false }

/-- A frame that passes on, with one more hop and in the direction it came, waits for a port (R398, R400, R402). -/
def forwardFrame (h : FrameHead) (type op : Nat) (ws : List Word) (c : Chip) : Chip :=
  let f := headFrame h type op ws
  c.onGang fun g => { g with waiting := g.waiting ++ [{ f with hops := f.hops + 1 }] }

/-- The frame that arrives at its port, as the check units there see it (R307). -/
def arrivesAt (h : FrameHead) (type op : Nat) (ws : List Word) (c : Chip) : Chip :=
  if ! c.isOn .chain then c else chainSeen 3 (b2n h.back) (headFrame h type op ws) c

/-- A frame with a bad CRC, a reserved TYPE or HOPS at 127 is dropped and counted (R398). -/
def dropChainFrame (c : Chip) : Chip := if c.isOn .chain then c.bump Fld.HOST_CHAIN_COUNTS_CRC_ERRORS else c

/-- Whether a broadcast has been acted on already: its (SRC, SEQ) has been (R400). -/
def Chip.frameSeen (c : Chip) (h : FrameHead) : Bool := c.gang.seen.any fun x => x.1 == h.src.toNat && x.2 == h.seq.toNat

/-- A broadcast is acted on: its (SRC, SEQ) is kept, and those of its source 128 or more SEQs back, which SEQ comes round to again, are
forgotten. DEDUCED: log entry 148. -/
def noteSeen (h : FrameHead) (c : Chip) : Chip :=
  c.onGang fun g => { g with
    seen := (g.seen.filter fun x => x.1 != h.src.toNat || decide ((h.seq.toNat + 256 - x.2) % 256 < 128)) ++
      [(h.src.toNat, h.seq.toNat)] }

/-- Whether a number in a frame is this chip's: a chip that holds none, and is not chip 0, is named by none (R401). -/
def Chip.isChip (c : Chip) (n : Nat) : Bool := (c.gang.numbered || c.isHead) && n == c.chipNumber

/-- Whether a broadcast of this chip has come round: it would go out forward once more. On its way back through a fold it passes its source
(R400, R402). DEDUCED: log entry 225. -/
def Chip.comeRound (c : Chip) (h : FrameHead) : Bool :=
  c.isChip h.src.toNat && (! h.back || c.f Fld.HOST_CHAIN_STATUS_RATE_0 == 0)

/-- What becomes of a frame that has arrived (R398, R400): a unicast is consumed by its DST, a broadcast is acted on once by each other chip
and removed by its source, and what is not consumed passes on. -/
def consume (h : FrameHead) (type op : Nat) (ws : List Word) (act : Chip → Chip) (c : Chip) : Chip :=
  if ! c.isOn .chain then c
  else if h.hops.toNat = 127 then dropChainFrame c
  else if h.bcast then
    if c.comeRound h then c
    else forwardFrame h type op ws (if c.frameSeen h || c.isChip h.src.toNat then c else act (noteSeen h c))
  else if c.isChip h.dst.toNat then act c
  else forwardFrame h type op ws c

/-- A frame arrives: the check units at its port see it, and it is consumed or passes on. -/
def arrive (h : FrameHead) (type op : Nat) (ws : List Word) (act : Chip → Chip) (c : Chip) : Chip :=
  consume h type op ws act (arrivesAt h type op ws c)

/-- CHAIN_FRAME_CRC_ERROR (R398). -/
def execChainFrameCrcError (s : State) : Host.Outcome State Fault Refusal := onChip dropChainFrame s

/-! ### Numbering (R401) -/

/-- ENUM_SEND (R401): chip 0 sends ENUM with NEXT 1, every 10 ms until it returns. -/
def enumSend (c : Chip) : Chip :=
  match c.gang.enumAt with
  | some g =>
    if c.isHead && c.isOn .chain && decide (g ≤ c.now) then
      sendFrame 1 false 0 0 [.int 1] (c.onGang fun x => { x with enumAt := some (c.now + 671089) })
    else c
  | none => c

/-- ENUM_SEND (R401). -/
def execEnumSend (s : State) : Host.Outcome State Fault Refusal := onChip enumSend s

/-- The ENUM of chip 0 has come back with the gang size (R401). -/
def enumReturned (n : Nat) (c : Chip) : Chip :=
  let size := (c.recipe.map fun r => r.gangSize).getD 0
  let c1 := ((c.setF Fld.HOST_CHAIN_STATUS_GANG_SIZE n).setB Fld.HOST_CHAIN_STATUS_SIZE_MISMATCH (n != size)).setB
    Fld.HOST_CHAIN_STATUS_SYNCED true
  c.gang.enumPaths.foldl (fun c p => if (c.mbxOf p).code = 0x08 then finishMbx p (.int n) [] c else c)
    (c1.onGang fun g => { g with enumAt := none, numbered := true, enumPaths := [] })

/-- The chip takes its number, and HOST_FEATURE shows the paths it serves with it (R381, R401, R407). -/
def takeNumber (n : Nat) (c : Chip) : Chip :=
  let c1 := (c.setF Fld.SYS_STATE_CHIP_NUMBER n).onGang fun g => { g with numbered := true }
  match c1.recipe with
  | some r => if c1.isOn .pcie then hostFeature r c1 else c1
  | none => c1

/-- ENUM arrives (R401): `own` says that it is the frame this chip sent, `reordered` that the ring order has changed
since this chip was numbered, and the delays measured by echo are those of the lanes that lead in, in 1/16 gr. One on the backward lane
of CHAIN1 passes on as it is. DESIGN CHOICE: log entry 146. -/
def enumArrives (h : FrameHead) (next : Word) (own reordered : Bool) (d0 d1 : Nat) (c : Chip) : Chip :=
  if ! c.isOn .chain then c
  else if h.hops.toNat = 127 then dropChainFrame c
  else
    let n := next.nat
    let c0 := arrivesAt h 1 0 [next] c
    let c1 := c0.onGang fun g => { g with delay0 := d0, delay1 := d1 }
    if h.back then forwardFrame h 1 0 [next] c0
    else if c.isHead then (if own then enumReturned (n % 128) c1 else c0.setB Fld.HOST_CHAIN_STATUS_HEAD_CONFLICT true)
    else if 64 ≤ n then c0
    else
      let c2 := if ! c.gang.numbered || reordered then
          takeNumber n c1 else c1
      forwardFrame h 1 0 [.int (n + 1)] c2

/-- ENUM (R401). -/
def execEnum (h : FrameHead) (next : Word) (own reordered : Bool) (d0 d1 : BitVec 16) (s : State) :
    Host.Outcome State Fault Refusal :=
  onChip (enumArrives h next own reordered d0.toNat d1.toNat) s

/-- GANG_ENUMERATE (R387, R401): chip 0 repeats enumeration; the reply is the gang size, when the frame returns.
DEDUCED: log entry 145. -/
def gangEnumerate (p : Nat) (c : Chip) : Chip :=
  mbxRow p 0x08 (fun m c =>
    if m.steps ≠ 0 then (none, c)
    else if ! c.isHead then (some (c.stateRefused, []), c)
    else (none, (setMbx p { m with steps := 1 } c).onGang fun g => { g with enumAt := some c.now, enumPaths := g.enumPaths ++ [p] })) c

/-- GANG_ENUMERATE (R401). -/
def execGangEnumerate (p : Fin 5) (s : State) : Host.Outcome State Fault Refusal := onChip (gangEnumerate p.val) s

/-! ### Break and fold (R402, R403) -/

/-- RING_BREAK is raised, and forwards may have been lost (R402). -/
def ringBroken (c : Chip) : Chip :=
  let c1 := (c.raise .host 3).onGang fun g => { g with breakSeen := true }
  if c1.b Fld.MEM_MIRROR_CTRL_SEND then c1.setB Fld.MEM_MIRROR_STATUS_GAP true else c1

/-- RATE of a port. -/
def portRate (port : Bool) : Field := if port then Fld.HOST_CHAIN_STATUS_RATE_1 else Fld.HOST_CHAIN_STATUS_RATE_0

/-- A break becomes known, or its end: ISOLATED follows whether chip 0 is in this chip's segment (R403). -/
def noteBreak (chip : Nat) (port broken : Bool) (c : Chip) : Chip :=
  let rest := c.gang.breaks.filter (· != (chip, port))
  let c1 := c.onGang fun g => { g with breaks := if broken then rest ++ [(chip, port)] else rest }
  c1.setB Fld.HOST_CHAIN_STATUS_ISOLATED (c1.cutOff c1.chipNumber)

/-- RING_RESTORED is raised, and chip 0 runs enumeration, so that a newly joined chip takes its number (R402). -/
def ringMended (c : Chip) : Chip :=
  let c1 := c.raise .host 4
  if c1.isHead then c1.onGang fun g => { g with enumAt := some c.now } else c1

/-- The next retraining of a port (R397). -/
def Chip.retrainAt (c : Chip) (port : Bool) : Nat := Store.get 0 c.gang.retrainAt (b2n port)

/-- A port that is DOWN retrains 10 ms from now (R397). -/
def retrainLater (port : Bool) (c : Chip) : Chip :=
  c.onGang fun g => { g with retrainAt := Store.put 0 g.retrainAt (b2n port) (c.now + 671089) }

/-- CHAIN_PORT_DOWN (R402): a port has seen nothing for 67 gr. This chip folds, tells the others, and counts the frames it
lost. -/
def chainPortDown (port : Bool) (lost : Nat) (c : Chip) : Chip :=
  if ! c.isOn .chain || c.f (portRate port) == 0 then c
  else
    let c1 := ((c.setF (portRate port) 0).setB Fld.HOST_CHAIN_STATUS_FOLDED true).bumpBy Fld.HOST_CHAIN_COUNTS_LOST_FRAMES lost
    ringBroken (sendFrame 8 true 0 0 [.bits (c.chipNumber * 2 + b2n port)] (noteBreak c.chipNumber port true (retrainLater port c1)))

/-- CHAIN_PORT_DOWN (R402): `port` true for CHAIN1. -/
def execChainPortDown (port : Bool) (lost : BitVec 18) (s : State) : Host.Outcome State Fault Refusal :=
  onChip (chainPortDown port lost.toNat) s

/-- A DOWN port locks again at a rate (R402): the fold is undone, the others are told, and chip 0 enumerates.
DEDUCED: log entry 151. -/
def ringRestored (port : Bool) (rate : Nat) (c : Chip) : Chip :=
  if ! c.isOn .chain || c.f (portRate port) != 0 || rate == 0 then c
  else
    let c1 := c.setF (portRate port) (c.chainRate rate)
    let c2 := if c1.f (portRate (! port)) = 0 then c1 else c1.setB Fld.HOST_CHAIN_STATUS_FOLDED false
    ringMended (sendFrame 8 true 0 1 [.bits (c.chipNumber * 2 + b2n port)] (noteBreak c.chipNumber port false c2))

/-- RING_RESTORED (R402): the rate is 1 for 2.5 Gb/s, 2 for 5 Gb/s. -/
def execRingRestored (port : Bool) (rate : Fin 3) (s : State) : Host.Outcome State Fault Refusal :=
  onChip (ringRestored port rate.val) s

/-- CHAIN_RETRAIN (R397): every 10 ms a DOWN port retrains; the operand is the rate at which it locks, 0 for none. -/
def chainRetrain (port : Bool) (rate : Nat) (c : Chip) : Chip :=
  if c.isOn .chain && c.f (portRate port) == 0 && decide (c.retrainAt port ≤ c.now) then
    ringRestored port rate (retrainLater port c)
  else c

/-- CHAIN_RETRAIN (R397). -/
def execChainRetrain (port : Bool) (rate : Fin 3) (s : State) : Host.Outcome State Fault Refusal :=
  onChip (chainRetrain port rate.val) s

/-- RING (R399, R402): a break or a restoration elsewhere, at the chip and port its word names. -/
def ringFrame (h : FrameHead) (restored : Bool) (w : Word) (c : Chip) : Chip :=
  arrive h 8 (b2n restored) [w] (fun c =>
    let c1 := noteBreak (w.field 1 6) (bitOf w.nat 0) (! restored) c
    if restored then ringMended c1 else ringBroken c1) c

/-- RING (R399). -/
def execRing (h : FrameHead) (restored : Bool) (w : Word) (s : State) : Host.Outcome State Fault Refusal :=
  onChip (ringFrame h restored w) s

/-! ### Members (R404) -/

/-- Set or clear a chip's alive bit. -/
def setAlive (n : Nat) (v : Bool) (c : Chip) : Chip :=
  c.setF ⟨if n < 32 then Reg.HOST_GANG_ALIVE_LO else Reg.HOST_GANG_ALIVE_HI, n % 32, 1⟩ (b2n v)

/-- STATUS_SEND (R404): every 2^20 gr. -/
def statusSend (c : Chip) : Chip :=
  if c.isOn .chain && c.gang.numbered && decide (c.gang.statusAt ≤ c.now) then
    sendFrame 7 true 0 0 [c.reg Reg.SYS_STATE, .grain c.now] (c.onGang fun g => { g with statusAt := c.now + 2 ^ 20 })
  else c

/-- STATUS_SEND (R404). -/
def execStatusSend (s : State) : Host.Outcome State Fault Refusal := onChip statusSend s

/-- STATUS (R404): its source is alive. DEDUCED: log entry 147. -/
def statusFrame (h : FrameHead) (w0 w1 : Word) (c : Chip) : Chip :=
  arrive h 7 0 [w0, w1] (fun c =>
    setAlive h.src.toNat true (c.onGang fun g => { g with heard := Store.put 0 g.heard h.src.toNat (c.now + 1) })) c

/-- STATUS (R404). -/
def execStatus (h : FrameHead) (w0 w1 : Word) (s : State) : Host.Outcome State Fault Refusal := onChip (statusFrame h w0 w1) s

/-- MEMBER_LOST (R404): every chip marked alive and not heard for 2^22 gr is lost. -/
def memberLost (c : Chip) : Chip :=
  if ! c.isOn .chain then c
  else
    let lost := (List.range 64).filter fun n => c.alive n && decide (Store.get 0 c.gang.heard n + 2 ^ 22 ≤ c.now + 1)
    if lost.isEmpty then c else (lost.foldl (fun c n => setAlive n false c) c).raise .host 2

/-- MEMBER_LOST (R404). -/
def execMemberLost (s : State) : Host.Outcome State Fault Refusal := onChip memberLost s

/-! ### Gang time (R405) -/

/-- TIME_SEND (R405): chip 0, every 2^16 gr. -/
def timeSend (c : Chip) : Chip :=
  if c.isOn .chain && c.isHead && c.gang.numbered && decide (c.gang.timeAt ≤ c.now) then
    sendFrame 2 true 0 0 [.grain c.now, .grain (c.now / 2 ^ 36)] (c.onGang fun g => { g with timeAt := c.now + 2 ^ 16 })
  else c

/-- TIME_SEND (R405). -/
def execTimeSend (s : State) : Host.Outcome State Fault Refusal := onChip timeSend s

/-- The correction for an offset from gang time, in 1/16 gr (R405): within 2 gr none but that a slew under way goes on to below
half a grain; beyond, a step while the link controller is off, else a slew; beyond 64 gr SYNC_LOST as well. DEDUCED: log
entry 150. -/
def gangCorrect (z : Int) (c : Chip) : Chip :=
  let c1 := c.setRegI Reg.HOST_GANG_OFFSET z
  let c2 := if 1024 < z.natAbs then c1.raise .host 5 else c1
  if z.natAbs ≤ 32 then
    (c2.onGang fun g => { g with slew := if g.slew = 0 || decide (z.natAbs < 8) then 0 else z }).setB
      Fld.HOST_CHAIN_STATUS_SYNCED true
  else if c.b Fld.LINK_CTRL_ENABLE then
    (c2.onGang fun g => { g with slew := z }).setB Fld.HOST_CHAIN_STATUS_SYNCED false
  else { (c2.onGang fun g => { g with slew := 0 }).setB Fld.HOST_CHAIN_STATUS_SYNCED true with
    now := ((c.now : Int) + Config.roundHalf 3 z 16).toNat % 2 ^ 72 }

/-- The slew of the grain to come: 1 where one is added, −1 where one is withheld, at most once per 1024 gr (R405). -/
def Chip.slewStep (c : Chip) : Int :=
  if c.gang.slew.natAbs < 8 || decide (c.now + 1 < c.gang.slewAt + 1024) then 0 else if 0 < c.gang.slew then 1 else -1

/-- A grain has been added or withheld: the offset left, which is done with below half a grain (R405). -/
def slewDone (step : Int) (c : Chip) : Chip :=
  if step = 0 then c
  else
    let left := c.gang.slew - 16 * step
    let c1 := c.onGang fun g => { g with slew := if left.natAbs < 8 then 0 else left, slewAt := c.now }
    if left.natAbs < 8 then c1.setB Fld.HOST_CHAIN_STATUS_SYNCED true else c1

/-- TIME arrives (R405): the stamp, and whether on the lane of CHAIN1. It is re-stamped as it leaves (chainLeave). -/
def timeFrame (h : FrameHead) (lo hi : Payload) (port : Bool) (c : Chip) : Chip :=
  arrive { h with back := port } 2 0 [⟨.grain, lo⟩, ⟨.grain, hi⟩] (fun c =>
    let d := if port then c.gang.delay1 else c.gang.delay0
    gangCorrect (16 * ((lo.toNat + hi.toNat * 2 ^ 36 : Nat) : Int) + d - 16 * c.now) c) c

/-- TIME (R405). -/
def execTime (h : FrameHead) (lo hi : Payload) (port : Bool) (s : State) : Host.Outcome State Fault Refusal :=
  onChip (timeFrame h lo hi port) s

/-- EVENT (R291, R399): held until its delivery grain. -/
def eventFrame (h : FrameHead) (line : Nat) (stamp : Payload) (w : Payload) (c : Chip) : Chip :=
  arrive h 3 line [⟨.grain, stamp⟩, ⟨.bits, w⟩] (fun c =>
    if c.isOn .evf then
      holdGang line h.src.toNat (w.toNat % 2 ^ 22) (c.longOf stamp + c.gangDelay (c.longOf stamp)).toNat c
    else c) c

/-- EVENT (R291). -/
def execEvent (h : FrameHead) (line : Fin 16) (stamp w : Payload) (s : State) : Host.Outcome State Fault Refusal :=
  onChip (eventFrame h line.val stamp w) s

/-! ### Access frames (R392, R399) -/

/-- A request is served on its target chip by the rules of R390: the words read, or one REFUSED word. -/
def serveAccess (src sp a : Nat) (write : Bool) (count : Nat) (xs : List Word) (o : Store Nat) (c : Chip) : Chip :=
  if write then
    (hostWrites 4 sp a (xs.map fun w => { tag := BitVec.ofNat 4 w.tag.num, payload := w.payload, full := true }) c).2
  else
    let (ws, c1) := match c.hostRefusal sp a with
      | some w => ([w], c)
      | none => if 1 ≤ count ∧ count ≤ 64 then hostReads 4 o sp a count c else ([refused .badArg], c)
    sendFrame 5 false src 0 ws c1

/-- ACCESS_REQ (R392, R399): a read of a number of words, or a write of words. -/
def accessReq (h : FrameHead) (sp a : Nat) (write : Bool) (count : Nat) (xs : List Word) (o : Store Nat) (c : Chip) : Chip :=
  arrive h 4 (b2n write) (.mk' .ptr (ptrOf sp a) :: (if write then xs else [.int count]))
    (serveAccess h.src.toNat sp a write count xs o) c

/-- ACCESS_REQ (R399). -/
def execAccessReq (h : FrameHead) (sp : BitVec 4) (a : BitVec 32) (write : Bool) (count : Nat) (xs : List Word) (s : State) :
    Host.Outcome State Fault Refusal :=
  onChipOtp (accessReq h sp.toNat a.toNat write count xs) s

/-- ACCESS_RSP (R392, R399): the oldest remote read of its source completes. DEDUCED: log entry 140. -/
def accessRsp (h : FrameHead) (ws : List Word) (c : Chip) : Chip :=
  arrive h 5 0 ws (fun c =>
    match c.gang.remote.find? fun r => r.chip == h.src.toNat with
    | some r =>
      (ws.foldl (fun c w => dmaSeen 1 1 (wordBytes w) true c) (c.onGang fun g => { g with remote := g.remote.erase r })).reply ws
    | none => c) c

/-- ACCESS_RSP (R399). -/
def execAccessRsp (h : FrameHead) (ws : List Word) (s : State) : Host.Outcome State Fault Refusal := onChip (accessRsp h ws) s

/-! ### Mirroring (R186) -/

/-- The codewords a MIRROR frame carries, by word number (R399). -/
def mirrorWords (op : Nat) (ws : List Word) : List (Nat × Word) :=
  ((if op % 2 = 1 then [0, 1] else []) ++ (if op / 2 % 2 = 1 then [2, 3] else [])).zip ws

/-- MIRROR (R186): a forward is written into the mirror region, or rejected. -/
def mirrorFrame (h : FrameHead) (op : Nat) (handle : Word) (ws : List Word) (c : Chip) : Chip :=
  arrive h 6 op (handle :: ws) (mirrorIn h.src.toNat (handle.field 0 34) (mirrorWords op ws)) c

/-- MIRROR (R186). -/
def execMirror (h : FrameHead) (op : Fin 4) (handle : Word) (ws : List Word) (s : State) : Host.Outcome State Fault Refusal :=
  onChip (mirrorFrame h op.val handle ws) s

/-- The oldest forward leaves, when no other frame waits and its port has a credit (R186, R400). -/
def mirrorOut (c : Chip) : Chip :=
  match c.mems.forwards, c.portOut false with
  | f :: rest, some p =>
    if ! c.isOn .chain || ! c.isOn .memD || ! c.gang.waiting.isEmpty ||
        decide (chainCredits ≤ (c.gang.sent.filter fun x => x.port == p).length) then c
    else
      let op := b2n (f.words.any fun w => decide (w.1 < 2)) + 2 * b2n (f.words.any fun w => decide (2 ≤ w.1))
      let c1 := (c.onMems fun m => { m with forwards := rest }).setF Fld.MEM_MIRROR_STATUS_QUEUED rest.length
      chainOut (sendFrame 6 false (c1.f Fld.MEM_MIRROR_CTRL_TARGET) op (endpointHandle f.handle :: f.words.map fun w => w.2) c1)
  | _, _ => c

end Sys2Proof.Machine
end

