-- ==== Sys2Proof/Machine/Boot.lean ====
section
/-! DEFINITION. The start: boot steps S0 to S13, failed starts, and the start record (16_startup_update_recovery.md, R352 to
R362; R22). -/

namespace Sys2Proof.Machine

/-! ### The boot ledger (R357, R359, R360) -/

/-- The fuses as they stand within a command that has burned some. -/
def Chip.fuses (c : Chip) (o : Store Nat) : Store Nat := burned o c.sec.burns

/-- Record the code of a step: 1 OK, 2 ALTERNATE, 3 FAILED (R357). -/
def setStepCode (k code : Nat) (c : Chip) : Chip := c.onUpd fun u => { u with codes := putBits u.codes (2 * k) 2 code }

/-- The steps that have an alternate (R358). -/
def stepHasAlt (k : Nat) : Bool := [2, 3, 9, 10, 11, 12].contains k

/-- Whether a step runs its alternate at this start (R360). DEDUCED: log entry 128. -/
def Chip.stepAlt (c : Chip) (k : Nat) : Bool := stepHasAlt k && c.slotRec.alt.testBit k

/-- Consecutive failed starts so far: in the state record, or in AON while none can be read. -/
def Chip.failCount (c : Chip) : Nat :=
  match c.upd.record with
  | some r => r.fails + c.upd.aonFails
  | none => c.upd.aonFails

/-- Set the count of consecutive failed starts. -/
def setFailCount (n : Nat) (c : Chip) : Chip :=
  match c.upd.record with
  | some r => (if r.fails = n then c else putRec { r with fails := n } c).onUpd fun u => { u with aonFails := 0 }
  | none => c.onUpd fun u => { u with aonFails := n }

/-- The registers that report the last start (R380). -/
def bootRegs (started : Bool) (c : Chip) : Chip :=
  (((c.setRegN Reg.UPD_BOOT_LEDGER (c.upd.codes % 2 ^ 28)).setF Fld.UPD_BOOT_INFO_FAILED_STEP c.upd.failed).setF
    Fld.UPD_BOOT_INFO_SLOT (if started then c.upd.slot else 3)).setF Fld.UPD_BOOT_INFO_START_SEQ (c.upd.startSeq % 256)

/-- The octets of a start record (R357): the device state entered, the failed step and its status, and whether a slot was
started. -/
def Chip.startOctets (c : Chip) (dev failed status alt : Nat) (started : Bool) : List Nat :=
  leOctets 4 (c.upd.startSeq % 2 ^ 32) ++ leOctets 4 (c.upd.codes % 2 ^ 28) ++ leOctets 2 alt
    ++ [if failed = 15 then 255 else failed, c.failCount % 256, if started then c.upd.slot else 255, dev,
        c.regN Reg.PWR_RESET_CAUSE % 32, 0]
    ++ leOctets 2 status ++ List.replicate 6 0 ++ leOctets 8 (if c.oscStop then 0 else c.rtcSeconds)

/-- The start record as it stands, in the place of its sequence number in the ring (R355, R357): it is opened at S4, so a start that
ended before leaves none, and rewritten as each step ends. DEDUCED: log entry 130. -/
def writeStartRecord (dev failed status alt : Nat) (c : Chip) : Chip :=
  let started := decide (c.stepCode 5 ≠ 0)
  let c1 := bootRegs started c
  if c.stepCode 4 = 0 then c1
  else writeMramBytes (ledgerBase + 0x2000 + 32 * (c.upd.startSeq % 256)) (c1.startOctets dev failed status alt started) c1

/-- How a step ends: done with a code; failed with a status the spec names, or none; or the start ends in another device
state. -/
inductive StepEnd
  | done (code : Nat) (c : Chip)
  | failed (status : Option Nat) (c : Chip)
  | left (dev : Nat) (c : Chip)
  deriving DecidableEq, Repr

/-- A failed step (R359): S0 enters DEAD; else the ALT bit is set and the failed start counted, and the third in a row
enters RECOVERY; otherwise the device resets. DESIGN CHOICE: log entry 129. -/
def startFailed (k : Nat) (status : Option Nat) (alt : Nat) (o : Store Nat) (c : Chip) : Chip :=
  let (v, c0) := match status with
    | some x => (x, c)
    | none => takeStatus c
  let c1 := (setStepCode k 3 c0).onUpd fun u => { u with failed := k }
  if k = 0 then bootRegs false (enterDead o c1)
  else
    let c2 := if stepHasAlt k && c1.upd.record.isSome then putRec { c1.slotRec with alt := Nat.lor c1.slotRec.alt (2 ^ k) } c1 else c1
    let n := c2.failCount + 1
    if 3 ≤ n then enterRecovery (writeStartRecord devRecovery k v alt (setFailCount 0 c2))
    else resetDevice none false (c2.fuses o) (writeStartRecord devBoot k v alt (setFailCount n c2))

/-! ### The steps (R358) -/

/-- S0: the ROM checks itself, and M0 takes its digest and the lifecycle and key rows of the fuses (R204). -/
def stepS0 (f : StartFacts) (o : Store Nat) (c : Chip) : StepEnd :=
  if f.romGood then .done 1 (measExtend 3 (otpOctets o 2 4) (measExtend 0 Config.romDigest c)) else .failed none c

/-- S1: the supply, the pads and RECOVERY_N. DEDUCED: log entry 131. DEDUCED: log entry 156. -/
def stepS1 (f : StartFacts) (c : Chip) : StepEnd :=
  let c1 := latchPads 0 (((c.setPin pinRecovery (! f.recoveryLow)).setPin pinMotion f.motion).setPin pinGangHead f.gangHead)
  if f.vsys.toNat < 1850 then .failed none c1
  else if f.recoveryLow then .left devRecovery (setFailCount 0 (setStepCode 1 1 c1))
  else .done 1 c1

/-- A step whose alternate needs nothing done here: S2, the crystal, and S3, the system PLL. -/
def stepClock (k : Nat) (good : Bool) (c : Chip) : StepEnd :=
  if c.stepAlt k then .done 2 c else if good then .done 1 c else .failed none c

/-- S4: the state record; a recovery session cut short is charged (R378); pending burns are made (R361), a Kiln's reported (R210). A spent recovery
count, or four revoked keys, enters DEAD (R22). DEDUCED: log entry 134. -/
def stepS4 (o : Store Nat) (c : Chip) : StepEnd :=
  match c.upd.record with
  | none =>
    if 16 ≤ recoveryCount (c.fuses o) ∨ revokedMask (c.fuses o) = 15 then .left devDead (setStepCode 4 3 c) else .failed none c
  | some r0 =>
    let c1 := if r0.recoveryOpen then putRec { r0 with recoveryOpen := false, countPending := true } c else c
    let r1 := c1.slotRec
    let bs := rollbackBurns r1.burnTarget
    let c2 := if r1.burnPending && c1.mayBurn then fuseBurned o bs (putRec { r1 with burnPending := false } (burn bs c1)) else c1
    let r2 := c2.slotRec
    let c3 := if r2.countPending && c2.mayBurn then putRec { r2 with countPending := false } (burn (recoveryBurn o) c2) else c2
    if 16 ≤ recoveryCount (c3.fuses o) ∨ revokedMask (c3.fuses o) = 15 then .left devDead (setStepCode 4 1 c3) else .done 1 c3

/-- The slot that S5 starts, the record it writes first, and whether a trial ended in fallback (R362, R372, R375). -/
def selectSlot (c : Chip) : Option Nat × Chip :=
  let r := c.slotRec
  let t := r.staging
  if r.restartTrial then
    (if r.slot t = slotTrial then some t else r.confirmed, putRec { r with restartTrial := false } c)
  else if r.slot t = slotTrial then
    let c1 := (putRec (r.setSlot t slotStaged) c).raise .upd updFellBack
    let c2 := if c1.upd.unreadable then lastResult Status.settingsUnreadable.code c1 else c1
    (r.confirmed, c2.onUpd fun u => { u with unreadable := false })
  else (r.confirmed, c)

/-- S5: slot selection and verification; M1 takes the image's signature (R195, R204, R269). DEDUCED: log entry 133. -/
def stepS5 (o : Store Nat) (c : Chip) : StepEnd :=
  match selectSlot c with
  | (none, c1) => .failed none c1
  | (some s, c1) =>
    let c2 := imageSeen s (c1.onUpd fun u => { u with slot := s })
    match c2.verifyImage (c2.fuses o) s with
    | .error w => .failed (some (resultStatus w)) c2
    | .ok i => .done 1 (measExtend 1 i.signature c2)

/-- A receive chain in use is enabled and locks, and its lanes that the recipe enables are enabled (R266).
DESIGN CHOICE: log entry 136. -/
def startChain (x : Nat) (r : Recipe) (c : Chip) : Chip :=
  if ! r.plan.uses x || ! c.isOn (synthIsland x) || c.stepCode 2 == 2 then c
  else
    let c1 := chainEnableWrite x true c
    let c2 := retuneLocked x (setSynth x { (c1.synth x) with lockAt := some c1.now } c1)
    c2.laneNumbers.foldl (fun c n =>
      if (c.laneSt n).until_.isSome then laneSwitchDone n (setLaneSt n { (c.laneSt n) with until_ := some c.now } c) else c) c2

/-- S6: the recipe is applied and kept, M2 takes its digest list, the die temperature is measured as RF-TX comes up, and
master keys are unsealed (R64, R197, R204, R266, R270, R271). DEDUCED: log entry 155. -/
def stepS6 (f : StartFacts) (o : Store Nat) (c : Chip) : StepEnd :=
  let r := parseRecipe (c.slotSection c.upd.slot 2)
  let c1 := dieTempMeasure f.temp.toInt (applyRecipe r c)
  let c2 := startChain 1 r (startChain 0 r c1)
  .done 1 (unsealNmks (c2.fuses o) (measExtend 2 r.digestList { c2 with kept := some r }))

/-- S7: the instruction section is loaded into the active bank (R352). -/
def stepS7 (c : Chip) : StepEnd :=
  let x := c.slotSection c.upd.slot 1
  if c.sectionReads c.upd.slot 1 && imageCodeOk x then .done 1 (loadSlot c.core.bank c.upd.slot c) else .failed none c

/-- Data-initialisation words are written (R353). -/
def writeInit (rs : List InitRec) (c : Chip) : Chip :=
  rs.foldl (fun c r => ((List.range r.words.length).zip r.words).foldl (fun c e => match e.2 with
    | some w => writeWord (ptrOf r.space (r.addr + e.1)) w c
    | none => c) c) c

/-- S8: DDR_PWR_EN raised (R413), retirements restored (R171), memories cleared, retention SRAM decoded, data initialisation applied, the DRBG and the identity started.
DEDUCED: log entry 135. -/
def stepS8 (f : StartFacts) (o : Store Nat) (c : Chip) : StepEnd :=
  let c1 := loseWords (fun p => decide (spaceOf p ≤ 2)) (restoreRetired (ddrPowered c))
  let c2 := (c1.mems.flaws.filter fun e => spaceOf e.1 == 6).foldl (fun c e => (readPair e.1 c).2) c1
  match c2.initSection (c2.slotSection c2.upd.slot 4) with
  | none => .failed none c2
  | some rs => if f.health then .done 1 (secUp (c2.fuses o) (writeInit rs c2)) else .failed none c2

/-- S9: RF calibration, which finishes as one that is commanded does, or the newest stored record (R71, R72); not run on the RC
reference. DEDUCED: log entry 192. -/
def stepS9 (f : StartFacts) (c : Chip) : StepEnd :=
  if c.stepCode 2 = 2 then .done 0 c
  else if c.stepAlt 9 then
    match calLoad (calRead c) with
    | some d => .done 2 d
    | none => .failed none (calRead c)
  else if f.cal then .done 1 ((calResult .ok (calTaken c)).raise .rf 9) else .failed none c

/-- S10: the active set is trained with the transmit chain enabled and locked, and the chain is left off (R68). -/
def stepS10 (f : StartFacts) (c : Chip) : StepEnd :=
  if c.stepCode 2 = 2 then .done 0 c
  else if c.stepAlt 10 then .done 2 c
  else if ! f.dpd then .failed none c
  else
    let c1 := chainEnableWrite 2 true c
    let c2 := retuneLocked 2 (setSynth 2 { (c1.synth 2) with lockAt := some c1.now } c1)
    let c3 := (calResult .ok (trainSet c2.activeSet f.temp.toInt c2)).raise .rf 9
    .done 1 (refreshTx ((chainEnableWrite 2 false c3).setReg Reg.RF_TX_CTRL (regReset Reg.RF_TX_CTRL)))

/-- S11: DRAM training (R175, R176). -/
def stepS11 (f : StartFacts) (c : Chip) : StepEnd :=
  if ! c.isOn .ddr then .done 0 c
  else if c.stepAlt 11 then .done 2 (ddrFailed c)
  else match f.ddr with
    | some d => .done 1 (ddrTrained d.size.val d.rate.val true c)
    | none => .failed none c

/-- The rate at which a port locks in S12: 0 none, 1 2.5 Gb/s, 2 5 Gb/s, which the receiver must reach within CHAIN_TRAIN_LIMIT
(R358, R397). -/
def Chip.lockRate (c : Chip) (x : Option PortLock) : Nat :=
  match x with
  | none => 0
  | some l => if l.slow || c.stepAlt 12 then 1 else if l.grains.toNat ≤ c.bootLimit then 2 else 0

/-- S12: chain training at 5 Gb/s, at 2.5 Gb/s by its alternate, or at 2.5 Gb/s on a link whose other end trains by its own;
the chip at the head then starts enumeration (R358, R397, R400). -/
def stepS12 (f : StartFacts) (c : Chip) : StepEnd :=
  if ! c.isOn .chain then .done 0 c
  else if c.lockRate f.lock0 = 0 ∨ c.lockRate f.lock1 = 0 then .failed (some Status.timeout.code) c
  else
    let c1 := chainRates (c.lockRate f.lock0) (c.lockRate f.lock1) c
    .done (if c.stepAlt 12 then 2 else 1) (if c1.isHead then c1.onGang fun g => { g with enumAt := some c.now } else c1)

/-- The steps before the hand-off, in order. -/
def bootSteps (f : StartFacts) (o : Store Nat) : List (Nat × (Chip → StepEnd)) :=
  [(0, stepS0 f o), (1, stepS1 f), (2, stepClock 2 f.xtal), (3, stepClock 3 f.pll), (4, stepS4 o), (5, stepS5 o),
    (6, stepS6 f o), (7, stepS7), (8, stepS8 f o), (9, stepS9 f), (10, stepS10 f), (11, stepS11 f), (12, stepS12 f)]

/-- S13: hand-off (R239, R358, R372): RUN, or the trial of a restart activation. -/
def handOff (alt : Nat) (c : Chip) : Chip :=
  let trial := c.slotRec.slot c.upd.slot == slotTrial
  let dev := if trial then devGerminate else devRun
  let c1 := setDev dev (setFailCount 0 (setStepCode 13 1 c))
  let c2 := if trial then startTrial ((c1.setB Fld.SYS_STATE_TRIAL true).setB Fld.UPD_STATUS_RESTART_MODE true) else c1
  coreStart 0 (writeStartRecord dev 15 0 alt c2)

/-- Run steps in order, from S4 on the start record rewritten as each ends (R357), until one fails, the start ends in another device state, or firmware is handed the chip. -/
def runBoot (alt : Nat) (o : Store Nat) : List (Nat × (Chip → StepEnd)) → Chip → Chip
  | [], c => handOff alt c
  | (k, g) :: gs, c => match g c with
    | .done code c1 => runBoot alt o gs (writeStartRecord devBoot 15 0 alt (setStepCode k code c1))
    | .failed st c1 => startFailed k st alt o c1
    | .left dev c1 =>
      if dev = devDead then enterDead (c1.fuses o) (writeStartRecord dev 15 0 alt c1)
      else enterRecovery (writeStartRecord dev 15 0 alt c1)

/-- START (R358): in BOOT, with the supply up, the ROM runs a whole start. DESIGN CHOICE: log entry 5.
DESIGN CHOICE: log entry 127. -/
def start (f : StartFacts) (o : Store Nat) (c : Chip) : Chip :=
  if c.dev ≠ devBoot ∨ c.pwr.heldInReset = true ∨ c.power = 7 then c
  else
    let c1 := c.onPwr fun p => { p with vsys := f.vsys.toNat }
    let c2 := (mramLines (ledgerBase + 0x1000) 128 (mramLines ledgerBase 512 c1)).onUpd fun u => { u with
      record := c1.readRecord, codes := 0, startSeq := u.startSeq + 1 }
    runBoot c2.slotRec.alt o (bootSteps f o) c2

/-- START (R358). -/
def execStart (f : StartFacts) (s : State) : Host.Outcome State Fault Refusal := onChipBurn (start f) s

end Sys2Proof.Machine
end

