-- ==== Sys2Proof/Machine/Lsu.lean ====
section
/-! DEFINITION. The load-store units of the core: their queues, the checks of a trigger, and an access at its bank
(R162, R165, R222, R223). -/

namespace Sys2Proof.Machine

/-- The result queue of the LSU in window `w`, oldest first: none for a result still outstanding (R223). -/
def Chip.queue (c : Chip) (w : Nat) : List (Option Word) := Store.get [] c.core.results w

/-- Set the result queue of a window. -/
def setQueue (w : Nat) (q : List (Option Word)) (c : Chip) : Chip :=
  { c with core := { c.core with results := Store.put [] c.core.results w q } }

/-- A read of RES: the oldest result, which this removes; REFUSED with BAD_ARG where nothing is queued or outstanding; none
where the oldest access is still outstanding, and the bundle stalls (R223). DEDUCED: log entry 77. -/
def readRes (w : Nat) (c : Chip) : Option (Word × Chip) :=
  match c.queue w with
  | [] => some (refused .badArg, c)
  | none :: _ => none
  | some x :: q => some (x, setQueue w q c)

/-- Whether an access stores. -/
def LsuKind.stores : LsuKind → Bool
  | .ld | .ld2 => false
  | _ => true

/-- Whether an access takes a codeword pair. -/
def LsuKind.pair : LsuKind → Bool
  | .ld2 | .st2 => true
  | _ => false

/-- Whether an access is atomic. -/
def LsuKind.atomic : LsuKind → Bool
  | .aadd | .swap => true
  | _ => false

/-- Results an access queues (R222). -/
def LsuKind.results : LsuKind → Nat
  | .ld => 1 | .ld2 => 2 | .st => 0 | .st2 => 0 | .aadd => 1 | .swap => 1

/-- The trap a trigger raises (R222, R165): `w` is its value and `data` the word in DATA. DEDUCED: log entry 83. -/
def Chip.lsuTrap (c : Chip) (k : LsuKind) (w data : Word) : Option TrapCause :=
  let sp := spaceOf w.nat
  if w.tag ≠ .ptr then some .tag
  else if ! c.priv && (sp == 7 || (sp == 5 && k.stores)) then some .privilege
  else if k = .aadd ∧ data.tag ≠ .int then some .tag
  else if ! c.ptrValid w.nat || sp == 3 || (k.stores && (sp == 4 || sp == 7)) || (k.pair && w.nat % 2 != 0) ||
      (k.atomic && sp != 0 && sp != 2) ||
      (k.stores && (c.inPartners w.nat || (k.pair && c.inPartners (w.nat + 1)))) then some .address
  else none

/-- Whether a trigger finds room: in its unit's queue of 4, or its buffer of 8 stores (R223). -/
def Chip.lsuRoom (c : Chip) (w : Nat) (k : LsuKind) : Bool :=
  if k.results = 0 then decide ((c.core.accesses.filter fun a => a.window == w && a.kind.results == 0).length < 8)
  else decide ((c.queue w).length + k.results ≤ 4)

/-- A trigger issues its access: the places of its results are kept in the queue (R223). -/
def lsuIssue (w : Nat) (k : LsuKind) (p : Nat) (c : Chip) : Chip :=
  let a : LsuAccess := {
    window := w
    kind := k
    ptr := p
    data := c.port (windowBase w)
    data2 := c.port (windowBase w + 1)
    slots := k.results }
  let c1 := setQueue w (c.queue w ++ List.replicate k.results none) c
  { c1 with core := { c1.core with accesses := c1.core.accesses ++ [a] } }

/-- A slot of the instruction memory as a word: its four upper bits are the tag (R26, R236). Where those bits name no tag of
the device, the tag is one the spec does not state. DEDUCED: log entry 57. -/
def slotWord (n : Nat) (c : Chip) : Word × Chip :=
  if n = imPoison then (.poisoned, c)
  else
    match Tag.ofNum (n / 2 ^ 36) with
    | some t => (.mk' t n, c)
    | none =>
      let (v, c1) := takeFree 16 c
      (.mk' ((Tag.ofNum v).getD .bits) n, c1)

/-- Read one word for a load (R222, R236). -/
def loadWord (o : Store Nat) (p : Nat) (c : Chip) : Word × Chip :=
  match spaceOf p with
  | 5 => readReg 0 o (addrOf p) c
  | 7 =>
    let (n, c1) := imRead (c.imPlace (addrOf p)) c
    slotWord n c1
  | _ => readMem p c

/-- Write one word for a store (R222). -/
def storeWord (p : Nat) (w : Word) (c : Chip) : Chip :=
  if spaceOf p = 5 then writeRegBy false (addrOf p) w c else writeMem p w c

/-- What an access does at its bank: the words it returns (R165, R222). -/
def accessBank (o : Store Nat) (a : LsuAccess) (c : Chip) : List Word × Chip :=
  match a.kind with
  | .ld =>
    let (w, c1) := loadWord o a.ptr c
    portRead .a a.ptr [w] (if spaceOf a.ptr = 4 then mramSeen 1 [w] true c1 else c1)
  | .ld2 =>
    if spaceOf a.ptr = 7 then
      let (x, y, c1) := imReadPair (c.imPlace (addrOf a.ptr)) c
      let (w0, c2) := slotWord x c1
      let (w1, c3) := slotWord y c2
      ([w0, w1], c3)
    else if spaceOf a.ptr = 5 then
      let (w0, c1) := loadWord o a.ptr c
      let (w1, c2) := loadWord o (a.ptr + 1) c1
      ([w0, w1], c2)
    else
      let (ws, c1) := readMemPair a.ptr c
      portRead .a a.ptr ws (if spaceOf a.ptr = 4 then mramSeen 1 ws true c1 else c1)
  | .st => ([], portAWrite a.ptr [a.data] [c.stored a.ptr] (storeWord a.ptr a.data c))
  | .st2 =>
    if spaceOf a.ptr = 5 then ([], storeWord (a.ptr + 1) a.data2 (storeWord a.ptr a.data c))
    else if c.spaceAccess (spaceOf a.ptr) = .served then
      ([], portAWrite a.ptr [a.data, a.data2] [c.stored a.ptr, c.stored (a.ptr + 1)] (writePair a.ptr a.data a.data2 c))
    else ([], c.regReject)
  | .aadd | .swap =>
    match c.spaceAccess (spaceOf a.ptr) with
    | .missing => ([.absent], c)
    | .stopped => ([c.stateRefused], c)
    | .served =>
      let (w, c1) := if a.kind = .aadd then atomicAdd a.ptr a.data c else atomicSwap a.ptr a.data c
      ([w], c1)

/-- Fill the first places of a queue that are still outstanding. -/
def fillQueue : List (Option Word) → List Word → List (Option Word)
  | q, [] => q
  | [], _ => []
  | some x :: q, ws => some x :: fillQueue q ws
  | none :: q, w :: ws => some w :: fillQueue q ws

/-- The oldest access of the core completes: accesses complete in the order of issue, so a load sees every earlier store
(R223). DEDUCED: log entry 82. -/
def lsuAccessDone (o : Store Nat) (c : Chip) : Chip :=
  match c.core.accesses with
  | [] => c
  | a :: rest =>
    if ! c.isOn .core then c
    else
      let (ws, c1) := accessBank o a c
      let c2 := { c1 with core := { c1.core with accesses := rest } }
      setQueue a.window (fillQueue (c2.queue a.window) ws) c2

/-- LSU_ACCESS_DONE (R223). -/
def execLsuAccessDone (s : State) : Host.Outcome State Fault Refusal := onChipOtp lsuAccessDone s

end Sys2Proof.Machine
end

