-- ==== Sys2Proof/Machine/Operands.lean ====
section
/-! DEFINITION. The operand forms of the core's one instruction: the layout of a move slot and its sources (R215, R216). -/

namespace Sys2Proof.Machine

/-- A move slot, its fields as R215 lays them out. -/
structure SlotCode where
  inv : Nat
  guard : Nat
  form : Nat
  dst : Nat
  src : Nat
  deriving DecidableEq, Repr

/-- The fields of a 40-bit slot (R215). -/
def slotCode (n : Nat) : SlotCode :=
  { inv := bitsOf n 39 1, guard := bitsOf n 36 3, form := bitsOf n 34 2, dst := bitsOf n 22 12, src := bitsOf n 0 22 }

/-- The 40 bits of a slot. -/
def SlotCode.bits (x : SlotCode) : Nat :=
  x.inv * 2 ^ 39 + x.guard * 2 ^ 36 + x.form * 2 ^ 34 + x.dst * 2 ^ 22 + x.src

/-- The source port of a slot of FORM 00. -/
def SlotCode.srcPort (x : SlotCode) : Nat := x.src / 2 ^ 10

/-- Whether a slot of FORM 00, 01 or 10 has non-zero bits where its form requires zero, or names a tag that does not exist
(R216, R28). -/
def SlotCode.reservedBits (x : SlotCode) : Bool :=
  match x.form with
  | 0 => x.src % 2 ^ 10 != 0
  | 1 => x.src % 4 != 0
  | 2 => x.src % 4 != 0 || (Tag.ofNum (x.src / 2 ^ 18)).isNone
  | _ => false

/-- The word of an immediate source (R215); none for a port. -/
def SlotCode.immediate (x : SlotCode) : Option Word :=
  match x.form with
  | 1 => some (.int (signed 20 (x.src / 4)))
  | 2 => (Tag.ofNum (x.src / 2 ^ 18)).map fun t => .mk' t (x.src / 4 % 2 ^ 16)
  | _ => none

/-- The FORM and source field of a move's source (R215). -/
def sourceForm : MoveSource → Nat × Nat
  | .port p => (0, p.toNat * 2 ^ 10)
  | .int v => (1, v.toNat * 4)
  | .tagged t v => (2, t.toNat * 2 ^ 18 + v.toNat * 4)

/-- The 40 bits of an unguarded move from a source to a port (R215). -/
def moveBits (dst : Nat) (src : MoveSource) : Nat :=
  SlotCode.bits { inv := 0, guard := 0, form := (sourceForm src).1, dst := dst, src := (sourceForm src).2 }

/-- A bundle of one move in slot `bus`, the other slots the all-zero no-op (R216). -/
def oneMove (bus : Fin 4) (dst : Nat) (src : MoveSource) : List Nat :=
  (List.range 4).map fun s => if s = bus.val then moveBits dst src else 0

end Sys2Proof.Machine
end

