-- ==== Sys2Proof/Machine/Bundle.lean ====
section
/-! DEFINITION. The issue of bundles: the port space as a move sees it, the checks of a bundle, and what its moves do
(R211 to R218, R224 to R227). -/

namespace Sys2Proof.Machine

/-! ### The port space (R217 to R220, R224, R226, R235, R240, R242, R302, R382) -/

/-- The window of a port, and its offset there. -/
def portWindow (p : Nat) : Option (Nat × Nat) :=
  if 0x100 ≤ p ∧ p < 0x800 then some ((p - 0x100) / 64, (p - 0x100) % 64) else none

/-- Offsets a unit of a type takes moves at (R220). -/
def unitWritable (type off : Nat) : Bool :=
  match type with
  | 1 => off == 0 || (decide (0x08 ≤ off) && decide (off ≤ 0x18))
  | 2 => off == 0 || (decide (0x08 ≤ off) && decide (off ≤ 0x0D))
  | 3 => off == 0 || off == 1 || (decide (0x08 ≤ off) && decide (off ≤ 0x0D))
  | 4 => off == 0 || off == 1 || (decide (0x08 ≤ off) && decide (off ≤ 0x0B))
  | 5 => off == 0 || off == 0x08 || off == 0x09
  | _ => false

/-- Offsets a unit of a type is read at (R220). -/
def unitReadable (type off : Nat) : Bool :=
  match type with
  | 1 => off == 0 || off == 0x38
  | 2 => off == 0 || off == 0x38 || off == 0x39 || off == 0x3A
  | 3 => off == 0 || off == 1 || off == 0x38 || off == 0x39
  | 4 => off == 0 || off == 1 || off == 0x38
  | 5 => off == 0 || off == 0x38
  | _ => false

/-- Whether a number lies in a range of ports. -/
def inPorts (lo hi p : Nat) : Bool := decide (lo ≤ p) && decide (p ≤ hi)

/-- Whether a port can be written on a bus (R218). -/
def Chip.portWritable (c : Chip) (bus p : Nat) : Bool :=
  match portWindow p with
  | some (w, off) => (c.window w).writeBuses.testBit bus && unitWritable (c.window w).type off
  | none =>
    p == 0 || inPorts 0x20 0x67 p || p == 0x80 || inPorts 0x91 0x97 p ||
    inPorts 0x800 0x804 p || p == 0x808 || p == 0x809 || p == 0x811 || p == 0x812 || p == 0x814 ||
    inPorts 0x822 0x824 p || inPorts 0x828 0x82B p || inPorts 0x838 0x847 p || p == 0x869 || inPorts 0x880 0x89F p ||
    (c.sysPort 0 && (inPorts 0x900 0x908 p || p == 0x90A || p == 0x910 || p == 0x911 || p == 0x913 || p == 0x914 || p == 0x921)) ||
    (c.sysPort 1 && inPorts 0xA00 0xA11 p) ||
    (c.sysPort 2 && (p == 0xE20 || inPorts 0xE40 0xE7F p || inPorts 0xE80 0xE8B p))

/-- Whether a port can be read on a bus (R218). DEDUCED: log entry 76. -/
def Chip.portReadable (c : Chip) (bus p : Nat) : Bool :=
  match portWindow p with
  | some (w, off) => (c.window w).readBuses.testBit bus && unitReadable (c.window w).type off
  | none =>
    p == 0 || inPorts 0x20 0x67 p || inPorts 0x80 0x82 p || p == 0x804 || p == 0x808 || p == 0x80A || p == 0x80B ||
    p == 0x810 || p == 0x811 || p == 0x813 || inPorts 0x820 0x823 p || inPorts 0x828 0x82B p || inPorts 0x831 0x833 p ||
    inPorts 0x838 0x847 p || p == 0x860 || p == 0x861 || p == 0x868 || p == 0x869 || inPorts 0x880 0x8BF p ||
    (c.sysPort 0 && (inPorts 0x900 0x907 p || p == 0x909 || p == 0x90B || inPorts 0x910 0x914 p || inPorts 0x918 0x921 p)) ||
    (c.sysPort 1 && (inPorts 0xA00 0xA0F p || p == 0xA11 || inPorts 0xA18 0xA1F p)) ||
    (c.sysPort 2 && (inPorts 0xE00 0xE1F p || inPorts 0xE40 0xE7F p)) ||
    inPorts 0xF00 0xF03 p || inPorts 0xF10 0xF2B p

/-- The privileged ports (R235, R242, R302). -/
def portPrivileged (p : Nat) : Bool :=
  p == 0x811 || inPorts 0x822 0x824 p || inPorts 0x828 0x82B p || inPorts 0x838 0x847 p || p == 0x869 || inPorts 0x880 0x89F p ||
  p == 0x910 || p == 0x911 || p == 0x914 || p == 0x921 || p == 0xE20 || inPorts 0xE40 0xE7F p

/-- Ports that act when they are written: their moves take effect after those to ports that hold a word (R211). -/
def portTriggers (p : Nat) : Bool :=
  match portWindow p with
  | some (_, off) => decide (8 ≤ off)
  | none => inPorts 0x800 0x803 p || p == 0x809 || p == 0x812 || p == 0x814 || p == 0x824 || p == 0x908 || p == 0x90A ||
    p == 0xA10 || p == 0xE20 || inPorts 0xE80 0xE8B p

/-- Whether a move goes to a branch trigger or to EV_RETI (R225, R227). -/
def portBranches (p : Nat) : Bool := inPorts 0x800 0x803 p || p == 0x824

/-- The tags a port outside the triggers of a unit accepts (R219, R220, R224, R226, R235, R242, R302, R382).
DEDUCED: log entry 78. -/
def Chip.portTakes (c : Chip) (p : Nat) (t : Tag) : Bool :=
  let plain := t != .poison && t != .refused && t != .absent
  match portWindow p with
  | some (w, off) =>
    match (c.window w).type, off with
    | 3, _ => true
    | 4, 1 => t == .bits
    | 5, 0 => t == .int
    | _, _ => plain
  | none =>
    if p == 0x060 then t == .bits
    else if inPorts 0x61 0x67 p then t == .int || t == .bits
    else if p == 0x800 || p == 0x802 || p == 0x804 then t == .code
    else if p == 0x801 || p == 0x803 || p == 0x808 || p == 0x809 || p == 0x814 then t == .int
    else if p == 0x811 || p == 0x822 || p == 0x823 || p == 0x869 || inPorts 0x880 0x89F p then t == .bits
    else if inPorts 0x828 0x82B p then t == .code
    else if inPorts 0x838 0x847 p then
      (if (p - 0x838) % 4 = 0 then t == .code else if (p - 0x838) % 4 = 1 then t == .bits else t == .int)
    else if inPorts 0x900 0x907 p || inPorts 0xA00 0xA0F p then plain
    else if p == 0x908 || p == 0x911 || p == 0x913 then t == .int
    else if p == 0x90A then t == .ticket
    else if p == 0x910 then t == .ptr
    else if p == 0x914 || p == 0x921 || p == 0xA10 || p == 0xA11 || p == 0xE20 then t == .bits
    else if inPorts 0xE40 0xE7F p then t == .grain
    else if inPorts 0xE80 0xE8B p then t == .int || t == .bits
    else true

/-! ### Reading a port -/

/-- How many units of a window's type lie in lower windows (R240). -/
def Chip.unitInstance (c : Chip) (w : Nat) : Nat :=
  ((List.range w).filter fun i => (c.window i).type == (c.window w).type).length

/-- FEAT_WINDOW_w (R240). -/
def Chip.featWindow (c : Chip) (w : Nat) : Word :=
  let x := c.window w
  .bits (x.readBuses % 16 * 2 ^ 20 + x.writeBuses % 16 * 2 ^ 16 + (if x.type = 0 then 0 else c.unitInstance w) * 2 ^ 8 + x.type)

/-- FEAT_RECIPE_ID (R240). -/
def Chip.featRecipe (c : Chip) : Word :=
  match c.recipe with
  | some r => .bits r.id
  | none => .bits 0

/-- IM_STATUS (R238): an accepted UPD_GERMINATE of mode 0 is writing the shadow (R368). -/
def Chip.imStatus (c : Chip) : Word :=
  .bits (b2n c.core.shadowValid * 4 + b2n (c.upd.germinating == 1) * 2 + c.core.bank % 2)

/-- TK_CLASS_k (R242). -/
def Chip.tkClass (c : Chip) (k : Nat) : Word :=
  .bits ((c.quota k).1 % 1024 * 2 ^ 20 + (c.quota k).2 % 1024 * 2 ^ 10 + c.heldOf k)

/-- The word of a port that is readable, EV_OVERRUN being the flags of EVF_OVERRUN_0 (R283); none where the bundle stalls on a
result still outstanding (R223). Only a result queue changes here: what other reads take is taken as the bundle commits.
DEDUCED: log entry 165. -/
def readPort (p : Nat) (c : Chip) : Option (Word × Chip) :=
  match portWindow p with
  | some (w, off) =>
    if (c.window w).type = 3 ∧ off = 0x38 then readRes w c
    else if (c.window w).type = 3 ∧ off = 0x39 then some (.int (c.queue w).length, c)
    else some (c.port p, c)
  | none =>
    if 0x831 ≤ p ∧ p ≤ 0x833 then some ((readCause c (p - 0x830)).1, c)
    else if 0x8A0 ≤ p ∧ p ≤ 0x8BF then some ((consumeInput c (p - 0x8A0)).1, c)
    else if 0xE00 ≤ p ∧ p ≤ 0xE0F then some ((readCount 0 (p - 0xE00) c).1, c)
    else some (
      if p = 0 then .int 0
      else if p = 0x060 then .bits (c.core.guards / 2 * 2 % 256 + 1)
      else if 0x061 ≤ p ∧ p ≤ 0x067 then .bits (b2n (c.core.guards.testBit (p - 0x060)))
      else if p = 0x081 then .int (c.port 0x80).tag.num
      else if p = 0x082 then .bits (c.port 0x80).nat
      else if p = 0x80A then .int c.core.rptIndex
      else if p = 0x80B then .int c.core.rptLeft
      else if p = 0x810 then .grain c.now
      else if p = 0x813 then .bits (c.core.trapCause2 % 16 * 16 + c.core.startCause % 16)
      else if p = 0x820 then .int c.core.cur
      else if p = 0x821 then .bits ((evInputs.filter fun j => decide (0 < (c.input j).count)).foldl (fun n j => n + 2 ^ j) 0)
      else if p = 0x822 then .bits (c.regN (Reg.EVF_OVERRUN 0))
      else if p = 0x868 then c.imStatus
      else if p = 0x914 then (c.port p).withField 1 1 (b2n (! c.tk.held.isEmpty))
      else if 0x918 ≤ p ∧ p ≤ 0x91F then c.tkClass (p - 0x918)
      else if p = 0x920 then .int c.pool
      else if 0xE10 ≤ p ∧ p ≤ 0xE1F then ⟨.grain, c.tmrCount (p - 0xE10)⟩
      else if 0xE40 ≤ p ∧ p ≤ 0xE7F then c.reg (Reg.TMR_CMP ((p - 0xE40) / 4) ((p - 0xE40) % 4))
      else if p = 0xF00 then .bits (4 * 2 ^ 32 + 2 ^ 24 + 32 * 2 ^ 16 + 0xC000)
      else if p = 0xF01 then .bits (c.f Fld.SYS_STATE_ROLE_VALID * 4 + c.f Fld.SYS_STATE_ROLE)
      else if p = 0xF02 then .bits (b2n (c.sysPort 0) + 2 * b2n (c.sysPort 1) + 4 * b2n (c.sysPort 2))
      else if p = 0xF03 then c.featRecipe
      else if 0xF10 ≤ p ∧ p ≤ 0xF2B then c.featWindow (p - 0xF10)
      else c.port p, c)

/-! ### The moves of a bundle -/

/-- An executed move: its slot, the slot's 40 bits, its destination and the word it carries. -/
structure Move where
  slot : Nat
  bits : Nat
  dst : Nat
  word : Word
  deriving DecidableEq, Repr

/-- A slot with its number, 40 bits and fields. -/
structure SlotAt where
  slot : Nat
  bits : Nat
  code : SlotCode
  deriving DecidableEq, Repr

/-- The four slots of a bundle. -/
def slotsOf (ns : List Nat) : List SlotAt :=
  (List.range 4).map fun s => { slot := s, bits := ns.getD s 0 % 2 ^ 40, code := slotCode (ns.getD s 0 % 2 ^ 40) }

/-- Whether a slot executes (R215). -/
def Chip.executes (c : Chip) (x : SlotAt) : Bool :=
  if x.code.guard = 0 then x.code.inv == 0 else c.guard x.code.guard != (x.code.inv == 1)

/-- The encoding causes of one slot (R216, R218), whatever its guard. -/
def Chip.slotTrap (c : Chip) (x : SlotAt) : Option TrapCause :=
  if x.code.form = 3 then some .illegalForm
  else if x.code.reservedBits then some .reservedBits
  else if ! c.portWritable x.slot x.code.dst then some .noPort
  else none

/-- The registers of a file that a list of ports names, each once. -/
def filePorts (lo : Nat) (ps : List Nat) : List Nat := (ps.filter fun p => inPorts lo (lo + 31) p).eraseDups

/-- Whether the slots up to one go beyond a limit of R213: a port other than null written twice, or more than two registers
of a file named as sources or as destinations. DEDUCED: log entry 74. -/
def Chip.beyondLimit (c : Chip) (xs : List SlotAt) : Bool :=
  let ds := (xs.filter fun x => c.executes x && x.code.dst != 0).map fun x => x.code.dst
  let all := xs.map fun x => x.code.dst
  let src := (xs.filter fun x => x.code.form == 0).map fun x => x.code.srcPort
  decide (ds.eraseDups.length < ds.length) || [all, src].any fun ps => [0x20, 0x40].any fun lo => decide (2 < (filePorts lo ps).length)

/-- The lowest slot at which the bundle goes beyond the limits of R213. -/
def Chip.portLimit (c : Chip) (xs : List SlotAt) : Option Nat := (List.range 4).find? fun k => c.beyondLimit (xs.take (k + 1))

/-- Of traps of several slots, the first cause of R228, and of one cause the lowest slot. -/
def firstTrap (ts : List Trap) : Option Trap :=
  ts.foldl (fun b t => match b with
    | none => some t
    | some x => if t.cause.code < x.cause.code ∨ (t.cause.code = x.cause.code ∧ t.slot < x.slot) then some t else some x) none

/-- The encoding trap of a bundle (R213, R216, R218). -/
def Chip.codeTrap (c : Chip) (xs : List SlotAt) : Option Trap :=
  let ts := xs.filterMap fun x => (c.slotTrap x).map fun z => { cause := z, slot := x.slot, bits := x.bits, word := .int 0, access := false }
  let lim := match c.portLimit xs with
    | some k => [{ cause := .portLimit, slot := k, bits := (xs.getD k ⟨0, 0, slotCode 0⟩).bits, word := .int 0, access := false }]
    | none => []
  firstTrap (ts ++ lim)

/-- Whether a port reads the result queue of a load-store unit (R223). -/
def Chip.readsQueue (c : Chip) (p : Nat) : Bool :=
  match portWindow p with
  | some (w, off) => (c.window w).type == 3 && off == 0x38
  | none => false

/-- Read the source of one move as it stood at the start `b` of the bundle (R211), a result queue after the moves of lower slots;
none in the word where its result is still outstanding (R218, R223). -/
def Chip.readSource (b c : Chip) (x : SlotAt) : Option Word × Chip :=
  match x.code.immediate with
  | some w => (some w, c)
  | none =>
    if ! c.portReadable x.slot x.code.srcPort then (some .absent, c)
    else
      match readPort x.code.srcPort (if c.readsQueue x.code.srcPort then c else b) with
      | some (w, c1) => (some w, if c.readsQueue x.code.srcPort then c1 else c)
      | none => (none, c)

/-- Read the sources of the executed moves of a bundle that starts at `b`. -/
def readSources (b : Chip) : List SlotAt → Chip → List (Option Word) × Chip
  | [], c => ([], c)
  | x :: xs, c =>
    let (w, c1) := b.readSource c x
    let (ws, c2) := readSources b xs c1
    (w :: ws, c2)

/-- The ports that executed moves read. -/
def Chip.portsRead (c : Chip) (es : List SlotAt) : List Nat :=
  (es.filter fun x => x.code.immediate.isNone && c.portReadable x.slot x.code.srcPort).map fun x => x.code.srcPort

/-- The event input that a read of a port takes from, if any (R234). -/
def Chip.portInput (c : Chip) (p : Nat) : Option Nat :=
  if 0x831 ≤ p ∧ p ≤ 0x833 then evInputs.find? fun j => c.evReady j && c.evLevel j == p - 0x830
  else if 0x8A0 ≤ p ∧ p ≤ 0x8BF then some (p - 0x8A0)
  else none

/-- The events that the reads of a bundle take: each input once, however many moves read it. -/
def Chip.eventsTaken (c : Chip) (ps : List Nat) : List (Nat × Nat) :=
  (ps.filterMap c.portInput).eraseDups.map fun j => (j, (c.input j).count)

/-- Take events from inputs; those that came since they were read stay (R214, R231). -/
def takeEvents (ts : List (Nat × Nat)) (c : Chip) : Chip :=
  ts.foldl (fun c t =>
    let x := c.input t.1
    if t.2 = 0 then c else setInput c t.1 (if x.count ≤ t.2 then .none else { x with count := x.count - t.2 })) c

/-- What reads of counts leave in the core's shadows: that of the even timer of a chained pair latches the odd count, that of the
odd one empties the shadow (R300). -/
def Chip.countsLatched (c : Chip) (ps : List Nat) : List (Nat × Word) :=
  (ps.filter fun p => decide (0xE00 ≤ p) && decide (p ≤ 0xE0F)).filterMap fun p =>
    let t := p - 0xE00
    if c.tmrChainedOdd t then some (Reg.TMR_COUNT t, .absent)
    else if t % 2 = 0 ∧ c.tmrChainedOdd (t + 1) = true then some (Reg.TMR_COUNT (t + 1), ⟨.grain, c.tmrCount (t + 1)⟩)
    else none

/-- Words read before a stall are kept through it (R214). DEDUCED: log entry 85. -/
def keepRead (old new : List (Option Word)) : List (Option Word) :=
  (List.range new.length).map fun i => match old.getD i none with
    | some w => some w
    | none => new.getD i none

/-! ### Writing a port -/

/-- A move to a port that holds a word (R219, R235, R242, R283, R382). DEDUCED: log entry 79. -/
def writePort (p : Nat) (w : Word) (c : Chip) : Chip :=
  if p = 0 then c
  else if p = 0x060 then { c with core := { c.core with guards := w.nat / 2 * 2 % 256 } }
  else if 0x061 ≤ p ∧ p ≤ 0x067 then setGuard c (p - 0x060) (w.payload != 0)
  else if 0x091 ≤ p ∧ p ≤ 0x097 then setGuard c (p - 0x090) w.exceptional
  else if p = 0x822 then
    let a := Reg.EVF_OVERRUN 0
    c.setRegN a (Nat.lor (c.regN a - Nat.land (c.regN a) w.nat) (c.justSetMask a))
  else if p = 0x823 then c.setPort p (.bits (Nat.land w.nat 0xE))
  else if 0x880 ≤ p ∧ p ≤ 0x89F then c.setPort p (.bits (Nat.land w.nat 0x1D))
  else if 0x838 ≤ p ∧ p ≤ 0x847 ∧ (p - 0x838) % 4 = 1 then
    let n := if 3 ≤ w.field 34 2 then putBits w.nat 34 2 ((c.port p).field 34 2) else w.nat
    let c1 := c.setPort p (.bits (n / 64 * 64))
    if 3 ≤ w.field 34 2 then asWriter false Chip.regReject c1 else c1
  else if p = 0x913 then
    (match tkConsWrite w c with
      | some c1 => c1
      | none => c)
  else if p = 0x914 then c.setPort p ((c.port p).withField 2 1 ((c.port p).field 2 1 - w.field 2 1))
  else if p = 0xA11 then
    c.setPort p (((c.port p).withField 2 1 ((c.port p).field 2 1 - w.field 2 1)).withField 1 1 ((c.port p).field 1 1 - w.field 1 1))
  else if 0xE40 ≤ p ∧ p ≤ 0xE7F then asWriter false (tmrCmpWrite ((p - 0xE40) / 4) ((p - 0xE40) % 4) w.payload) c
  else c.setPort p w

/-- Whether a value is out of the range a port states (R219, R226, R233, R235, R242). DEDUCED: log entry 80. -/
def Chip.portValueBad (c : Chip) (p : Nat) (w : Word) : Bool :=
  if p = 0x060 then decide (2 ^ 8 ≤ w.nat)
  else if p = 0x808 then decide (1048575 < w.nat)
  else if p = 0x811 then decide (1 < w.nat)
  else if p = 0x814 then decide (w.toInt < 0)
  else if p = 0x824 then c.core.cur == 0
  else if p = 0x910 then spaceOf w.nat != 0 || w.nat % 4 != 0 || ! c.tk.held.isEmpty
  else if p = 0x911 then ! ([0, 16, 32, 64, 128, 256, 512, 1024].contains w.nat) || ! c.tk.held.isEmpty
  else if p = 0x913 then (tkConsWrite w c).isNone
  else false

/-- The operations of a trigger of a unit. -/
inductive Trigger
  | alu (op : AluOp)
  | mul (op : MulOp)
  | lsu (k : LsuKind)
  | bit (op : BitOp)
  | retag
  | untag
  deriving DecidableEq, Repr

/-- The trigger at an offset of a unit's window (R220). -/
def triggerAt (type off : Nat) : Option Trigger :=
  match type with
  | 1 => ([AluOp.add, .sub, .and, .or, .xor, .andn, .shl, .shr, .sar, .eq, .ne, .lt, .le, .ltu, .min, .max, .cat16].find? fun x =>
      x.offset == off).map .alu
  | 2 => ([MulOp.mul, .mulh, .cmul, .scale, .mag2, .div].find? fun x => x.offset == off).map .mul
  | 3 => ([LsuKind.ld, .ld2, .st, .st2, .aadd, .swap].find? fun x => x.offset == off).map .lsu
  | 4 => ([BitOp.ext, .ins, .clz, .popc].find? fun x => x.offset == off).map .bit
  | 5 => if off = 8 then some .retag else if off = 9 then some .untag else none
  | _ => none

/-- What a trigger answers but for an LSU's (R221). -/
def Chip.unitResult (c : Chip) (w : Nat) (t : Trigger) (b : Word) : UnitResult :=
  let a := c.port (windowBase w)
  match t with
  | .alu op => alu op a b
  | .mul op => mulUnit op a b
  | .bit op => bitUnit op a (c.port (windowBase w + 1)) b
  | .retag => retag a b
  | .untag => untag b
  | .lsu _ => .ok b

/-- The target of a branch, as a signed bundle number (R224). -/
def branchTarget (pc p : Nat) (w : Word) : Int := if p = 0x801 ∨ p = 0x803 then pc + w.toInt else w.nat

/-- The trap an executed move raises, its operands written (R218, R221 to R227, R233, R235, R242, R244): the first of its
causes. -/
def Chip.moveTrap (c : Chip) (m : Move) : Option TrapCause :=
  match portWindow m.dst with
  | some (w, off) =>
    match triggerAt (c.window w).type off with
    | some (.lsu k) => c.lsuTrap k m.word (c.port (windowBase w))
    | some t =>
      match c.unitResult w t m.word with
      | .ok _ => none
      | .trap z => some z
    | none => if c.portTakes m.dst m.word.tag then none else some .tag
  | none =>
    if portPrivileged m.dst && ! c.priv then some .privilege
    else if m.dst = 0x908 ∧ m.word.tag = .int ∧ opPrivileged m.word.nat = true ∧ c.priv = false then some .privilege
    else if decide (0 < c.core.rptLeft) && (portBranches m.dst || m.dst == 0x809) then some .repeatNest
    else if c.core.transfer && portBranches m.dst then some .delayBranch
    else if ! c.portTakes m.dst m.word.tag then some .tag
    else if c.portValueBad m.dst m.word then some .value
    else if inPorts 0x800 0x803 m.dst &&
        (decide (branchTarget c.core.pc m.dst m.word < 0) || decide (49152 ≤ branchTarget c.core.pc m.dst m.word)) then some .address
    else if m.dst = 0x812 then some .soft
    else none

/-- Whether a move loads or stores. -/
def Chip.isAccess (c : Chip) (m : Move) : Bool :=
  match portWindow m.dst with
  | some (w, off) => (c.window w).type == 3 && decide (8 ≤ off)
  | none => false

/-- The trap of the executed moves, if any: `b` is the bundle's start, `c` has the operands written. -/
def movesTrap (b c : Chip) (ms : List Move) : Option Trap :=
  firstTrap (ms.filterMap fun m =>
    ((if portTriggers m.dst then c else b).moveTrap m).map fun z => { cause := z, slot := m.slot, bits := m.bits, word := m.word, access := b.isAccess m })

/-- A trigger of a unit: its result comes after its latency (R212, R220, R221). A division waits for the one in progress
(R214), whose results are placed first. DEDUCED: log entry 75. -/
def unitTrigger (w : Nat) (t : Trigger) (b : Word) (c : Chip) : Chip :=
  match t with
  | .lsu k => lsuIssue w k b.nat c
  | .mul .div =>
    match c.unitResult w t b with
    | .ok q =>
      let a := c.port (windowBase w)
      (c.inFlight 20 (windowBase w + 0x3A) q).inFlight 20 (windowBase w + 0x39) (divRem a b)
    | .trap _ => c
  | .mul _ =>
    match c.unitResult w t b with
    | .ok x => c.inFlight 3 (windowBase w + 0x38) x
    | .trap _ => c
  | _ =>
    match c.unitResult w t b with
    | .ok x => c.inFlight 1 (windowBase w + 0x38) x
    | .trap _ => c

/-- A branch is taken after two delay bundles (R224, R225). -/
def branch (p : Nat) (w : Word) (c : Chip) : Chip :=
  let c1 := if p = 0x802 ∨ p = 0x803 then c.setPort 0x804 (.mk' .code (c.core.pc + 3)) else c
  { c1 with core := { c1.core with
      delayLeft := 2, transfer := true, delayIsReti := false, brTarget := (branchTarget c.core.pc p w).toNat } }

/-- A move to a port that acts (R224 to R226, R233, R235, R243, R249, R290, R302, R383). -/
def triggerPort (p : Nat) (w : Word) (c : Chip) : Chip :=
  match portWindow p with
  | some (k, off) =>
    match triggerAt (c.window k).type off with
    | some t => unitTrigger k t w c
    | none => c
  | none =>
    if 0x800 ≤ p ∧ p ≤ 0x803 then branch p w c
    else if p = 0x809 then { c with core := { c.core with rptGo := some ((c.port 0x808).nat, w.toInt) } }
    else if p = 0x814 then
      { c with core := { c.core with waiting := true, waitUntil := if w.nat = 0 then none else some (c.now + w.nat) } }
    else if p = 0x824 then
      { c with core := { c.core with delayLeft := 2, transfer := true, delayIsReti := true, brTarget := 0 } }
    else if p = 0x908 then
      let (r, c1) := tkLaunch w.nat ((List.range 8).map fun k => c.port (0x900 + k)) c
      c1.inFlight 1 0x909 r
    else if p = 0x90A then c.inFlight 1 0x90B (.int (c.peekState w))
    else if p = 0xA10 then asWriter false (mbxGo 0 w.nat) c
    else if p = 0xE20 then asWriter false (tmrGo (w.nat % 2 ^ 16) (w.field 16 16)) c
    else if 0xE80 ≤ p ∧ p ≤ 0xE8B then swFire (p - 0xE80) (w.nat % 2 ^ 28) c
    else c

/-- A trigger that finds no room in its unit's queue or buffer (R214, R223), after the triggers of lower slots. -/
def moveStalls (m : Move) (c : Chip) : Bool :=
  match portWindow m.dst with
  | some (w, off) =>
    match triggerAt (c.window w).type off with
    | some (.lsu k) => ! c.lsuRoom w k
    | _ => false
  | none => false

/-- Run the triggers in slot order; none where one of them stalls the bundle. -/
def runTriggers : List Move → Chip → Option Chip
  | [], c => some c
  | m :: ms, c => if moveStalls m c then none else runTriggers ms (triggerPort m.dst m.word c)

/-- A division in progress is awaited before another in its unit: its results are in their ports when the bundle's moves take
effect (R214). -/
def awaitDivision (ms : List Move) (c : Chip) : Chip :=
  let ws := ms.filterMap fun m => match portWindow m.dst with
    | some (w, off) => if triggerAt (c.window w).type off = some (.mul .div) ∧ c.dividing w = true then some w else none
    | none => none
  ws.foldl (fun c w =>
    let mine (x : InFlight) : Bool := x.port == windowBase w + 0x3A || x.port == windowBase w + 0x39
    let c1 := (c.core.inflight.filter mine).foldl (fun c x => c.setPort x.port x.word) c
    { c1 with core := { c1.core with inflight := c1.core.inflight.filter fun x => ! mine x } }) c

/-- What issuing a bundle comes to: it completes or traps, or it stalls with the words read so far. -/
inductive Issue
  | done (c : Chip)
  | stall (w : Stall)
  deriving DecidableEq, Repr

/-- Issue a bundle of four slots at the present bundle address (R211 to R214): checks, guards, sources, then operand writes
before triggers; no move commits where a trap arises or the bundle stalls. CORE_MODE is written last. -/
def runBundle (ns : List Nat) (c : Chip) : Issue :=
  let xs := slotsOf ns
  match c.codeTrap xs with
  | some t => .done (takeTrap t c)
  | none =>
    let es := xs.filter c.executes
    let (new, c0) := readSources c es c
    let ps := c.portsRead es
    let st : Stall := match c.core.stalled with
      | some x => { x with words := keepRead x.words new }
      | none => { slots := ns, words := new, taken := c.eventsTaken ps, latched := c.countsLatched ps }
    let ws := st.words
    if ws.any fun w => w.isNone then .stall st
    else
      let c1 := st.latched.foldl (fun c e => latchShadow 0 e.1 e.2 c) (takeEvents st.taken c0)
      let ms := (es.zip ws).map fun e => { slot := e.1.slot, bits := e.1.bits, dst := e.1.code.dst, word := e.2.getD .absent }
      let holds := ms.filter fun m => ! portTriggers m.dst && m.dst != 0x811
      let ops := holds.foldl (fun c m => writePort m.dst m.word c)
      match movesTrap c (ops c1) ms with
      | some t => .done (takeTrap t c)
      | none =>
        let c2 := ops (awaitDivision ms c1)
        match runTriggers (ms.filter fun m => portTriggers m.dst) c2 with
        | none => .stall st
        | some c3 =>
          let c4 := (ms.filter fun m => m.dst == 0x811).foldl (fun c m => c.setPort 0x811 m.word) c3
          let c5 := advance c (stepInFlight c4)
          .done { c5 with core := { c5.core with stalled := none } }

/-- Whether the core issues the bundle at hand: it fetches, or a pause waits for the bundle that is stalled (R237). -/
def Chip.issues (c : Chip) : Bool :=
  c.canIssue || (c.core.stalled.isSome && c.core.paused && c.core.running && c.isOn .core && decide (c.power ≤ 3))

/-- Fetch the four slots of the bundle at the PC, two codewords (R236). -/
def fetchBundle (c : Chip) : List Nat × Chip :=
  let a := 4 * (c.core.pc % 2 ^ 16)
  let (x0, x1, c1) := imReadPair (c.imPlace a) c
  let (x2, x3, c2) := imReadPair (c.imPlace (a + 2)) c1
  ([x0, x1, x2, x3], c2)

/-- BUNDLE_ISSUE (R211): an interrupt that is due is entered first (R232); the bundle at the PC is fetched and issued, a
stalled one as it was fetched. An
uncorrectable codeword traps; what TRAP_CAUSE and TRAP_WORD say of its lost bits is a free value. DESIGN CHOICE: log entry 81.
DEDUCED: log entry 84. -/
def bundleIssue (c : Chip) : Chip :=
  if ! c.issues then c
  else
    let (ns, c1) := match c.core.stalled with
      | some x => (x.slots, c)
      | none => fetchBundle (interruptEntry c)
    if ns.contains imPoison then
      let (v, c2) := takeFree (2 ^ 40) c1
      takeTrap { cause := .fetchPoison, slot := 0, bits := v, word := .int 0, access := false } { c2 with core := { c2.core with stalled := none } }
    else
      match runBundle ns c1 with
      | .done c2 => { c2 with core := { c2.core with stalled := none } }
      | .stall w => { c1 with core := { c1.core with stalled := some w } }

/-- BUNDLE_ISSUE (R211). -/
def execBundleIssue (s : State) : Host.Outcome State Fault Refusal := onChip bundleIssue s

/-! ### Rows of single moves -/

/-- A bundle whose only move goes from a source to a port on a bus is issued at the present bundle address: the row of a
trigger or of a port. The core does nothing where it does not issue, an interrupt is to be entered first, or the bundle
stalls. DESIGN CHOICE: log entry 15. -/
def issueOne (bus : Fin 4) (dst : Nat) (src : MoveSource) (c : Chip) : Chip :=
  if c.canIssue && c.core.stalled == none && c.interruptLevel == 0 then
    match runBundle (oneMove bus dst src) c with
    | .done c1 => c1
    | .stall _ => c
  else c

/-- A move to a trigger of the unit in window `w`. -/
def issueUnit (bus : Fin 4) (w : Fin 28) (off : Nat) (src : MoveSource) (s : State) : Host.Outcome State Fault Refusal :=
  onChip (issueOne bus (windowBase w.val + off) src) s

/-- ADD (R221). -/
def execAdd (bus : Fin 4) (w : Fin 28) (src : MoveSource) (s : State) : Host.Outcome State Fault Refusal :=
  issueUnit bus w (AluOp.add).offset src s

/-- SUB (R221). -/
def execSub (bus : Fin 4) (w : Fin 28) (src : MoveSource) (s : State) : Host.Outcome State Fault Refusal :=
  issueUnit bus w (AluOp.sub).offset src s

/-- AND (R221). -/
def execAnd (bus : Fin 4) (w : Fin 28) (src : MoveSource) (s : State) : Host.Outcome State Fault Refusal :=
  issueUnit bus w (AluOp.and).offset src s

/-- OR (R221). -/
def execOr (bus : Fin 4) (w : Fin 28) (src : MoveSource) (s : State) : Host.Outcome State Fault Refusal :=
  issueUnit bus w (AluOp.or).offset src s

/-- XOR (R221). -/
def execXor (bus : Fin 4) (w : Fin 28) (src : MoveSource) (s : State) : Host.Outcome State Fault Refusal :=
  issueUnit bus w (AluOp.xor).offset src s

/-- ANDN (R221). -/
def execAndn (bus : Fin 4) (w : Fin 28) (src : MoveSource) (s : State) : Host.Outcome State Fault Refusal :=
  issueUnit bus w (AluOp.andn).offset src s

/-- SHL (R221). -/
def execShl (bus : Fin 4) (w : Fin 28) (src : MoveSource) (s : State) : Host.Outcome State Fault Refusal :=
  issueUnit bus w (AluOp.shl).offset src s

/-- SHR (R221). -/
def execShr (bus : Fin 4) (w : Fin 28) (src : MoveSource) (s : State) : Host.Outcome State Fault Refusal :=
  issueUnit bus w (AluOp.shr).offset src s

/-- SAR (R221). -/
def execSar (bus : Fin 4) (w : Fin 28) (src : MoveSource) (s : State) : Host.Outcome State Fault Refusal :=
  issueUnit bus w (AluOp.sar).offset src s

/-- EQ (R221). -/
def execEq (bus : Fin 4) (w : Fin 28) (src : MoveSource) (s : State) : Host.Outcome State Fault Refusal :=
  issueUnit bus w (AluOp.eq).offset src s

/-- NE (R221). -/
def execNe (bus : Fin 4) (w : Fin 28) (src : MoveSource) (s : State) : Host.Outcome State Fault Refusal :=
  issueUnit bus w (AluOp.ne).offset src s

/-- LT (R221). -/
def execLt (bus : Fin 4) (w : Fin 28) (src : MoveSource) (s : State) : Host.Outcome State Fault Refusal :=
  issueUnit bus w (AluOp.lt).offset src s

/-- LE (R221). -/
def execLe (bus : Fin 4) (w : Fin 28) (src : MoveSource) (s : State) : Host.Outcome State Fault Refusal :=
  issueUnit bus w (AluOp.le).offset src s

/-- LTU (R221). -/
def execLtu (bus : Fin 4) (w : Fin 28) (src : MoveSource) (s : State) : Host.Outcome State Fault Refusal :=
  issueUnit bus w (AluOp.ltu).offset src s

/-- MIN (R221). -/
def execMin (bus : Fin 4) (w : Fin 28) (src : MoveSource) (s : State) : Host.Outcome State Fault Refusal :=
  issueUnit bus w (AluOp.min).offset src s

/-- MAX (R221). -/
def execMax (bus : Fin 4) (w : Fin 28) (src : MoveSource) (s : State) : Host.Outcome State Fault Refusal :=
  issueUnit bus w (AluOp.max).offset src s

/-- CAT16 (R221). -/
def execCat16 (bus : Fin 4) (w : Fin 28) (src : MoveSource) (s : State) : Host.Outcome State Fault Refusal :=
  issueUnit bus w (AluOp.cat16).offset src s

/-- MUL (R221). -/
def execMul (bus : Fin 4) (w : Fin 28) (src : MoveSource) (s : State) : Host.Outcome State Fault Refusal :=
  issueUnit bus w (MulOp.mul).offset src s

/-- MULH (R221). -/
def execMulh (bus : Fin 4) (w : Fin 28) (src : MoveSource) (s : State) : Host.Outcome State Fault Refusal :=
  issueUnit bus w (MulOp.mulh).offset src s

/-- CMUL (R221). -/
def execCmul (bus : Fin 4) (w : Fin 28) (src : MoveSource) (s : State) : Host.Outcome State Fault Refusal :=
  issueUnit bus w (MulOp.cmul).offset src s

/-- SCALE (R221). -/
def execScale (bus : Fin 4) (w : Fin 28) (src : MoveSource) (s : State) : Host.Outcome State Fault Refusal :=
  issueUnit bus w (MulOp.scale).offset src s

/-- MAG2 (R221). -/
def execMag2 (bus : Fin 4) (w : Fin 28) (src : MoveSource) (s : State) : Host.Outcome State Fault Refusal :=
  issueUnit bus w (MulOp.mag2).offset src s

/-- DIV (R221). -/
def execDiv (bus : Fin 4) (w : Fin 28) (src : MoveSource) (s : State) : Host.Outcome State Fault Refusal :=
  issueUnit bus w (MulOp.div).offset src s

/-- LD (R222). -/
def execLd (bus : Fin 4) (w : Fin 28) (src : MoveSource) (s : State) : Host.Outcome State Fault Refusal :=
  issueUnit bus w (LsuKind.ld).offset src s

/-- LD2 (R222). -/
def execLd2 (bus : Fin 4) (w : Fin 28) (src : MoveSource) (s : State) : Host.Outcome State Fault Refusal :=
  issueUnit bus w (LsuKind.ld2).offset src s

/-- ST (R222). -/
def execSt (bus : Fin 4) (w : Fin 28) (src : MoveSource) (s : State) : Host.Outcome State Fault Refusal :=
  issueUnit bus w (LsuKind.st).offset src s

/-- ST2 (R222). -/
def execSt2 (bus : Fin 4) (w : Fin 28) (src : MoveSource) (s : State) : Host.Outcome State Fault Refusal :=
  issueUnit bus w (LsuKind.st2).offset src s

/-- AADD (R222). -/
def execAadd (bus : Fin 4) (w : Fin 28) (src : MoveSource) (s : State) : Host.Outcome State Fault Refusal :=
  issueUnit bus w (LsuKind.aadd).offset src s

/-- SWAP (R222). -/
def execSwap (bus : Fin 4) (w : Fin 28) (src : MoveSource) (s : State) : Host.Outcome State Fault Refusal :=
  issueUnit bus w (LsuKind.swap).offset src s

/-- EXT (R221). -/
def execExt (bus : Fin 4) (w : Fin 28) (src : MoveSource) (s : State) : Host.Outcome State Fault Refusal :=
  issueUnit bus w (BitOp.ext).offset src s

/-- INS (R221). -/
def execIns (bus : Fin 4) (w : Fin 28) (src : MoveSource) (s : State) : Host.Outcome State Fault Refusal :=
  issueUnit bus w (BitOp.ins).offset src s

/-- CLZ (R221). -/
def execClz (bus : Fin 4) (w : Fin 28) (src : MoveSource) (s : State) : Host.Outcome State Fault Refusal :=
  issueUnit bus w (BitOp.clz).offset src s

/-- POPC (R221). -/
def execPopc (bus : Fin 4) (w : Fin 28) (src : MoveSource) (s : State) : Host.Outcome State Fault Refusal :=
  issueUnit bus w (BitOp.popc).offset src s

/-- RETAG (R221). -/
def execRetag (bus : Fin 4) (w : Fin 28) (src : MoveSource) (s : State) : Host.Outcome State Fault Refusal :=
  issueUnit bus w 8 src s

/-- UNTAG (R221). -/
def execUntag (bus : Fin 4) (w : Fin 28) (src : MoveSource) (s : State) : Host.Outcome State Fault Refusal :=
  issueUnit bus w 9 src s

/-- LSU_RES_READ (R223): RES of a load-store unit moves to a port. -/
def execLsuResRead (bus : Fin 4) (w : Fin 28) (dst : BitVec 12) (s : State) : Host.Outcome State Fault Refusal :=
  onChip (issueOne bus dst.toNat (.port (BitVec.ofNat 12 (windowBase w.val + 0x38)))) s

/-- BR_JUMP (R224). -/
def execBrJump (bus : Fin 4) (src : MoveSource) (s : State) : Host.Outcome State Fault Refusal := onChip (issueOne bus 0x800 src) s

/-- BR_REL (R224). -/
def execBrRel (bus : Fin 4) (src : MoveSource) (s : State) : Host.Outcome State Fault Refusal := onChip (issueOne bus 0x801 src) s

/-- BR_CALL (R224). -/
def execBrCall (bus : Fin 4) (src : MoveSource) (s : State) : Host.Outcome State Fault Refusal := onChip (issueOne bus 0x802 src) s

/-- BR_CALLR (R224). -/
def execBrCallr (bus : Fin 4) (src : MoveSource) (s : State) : Host.Outcome State Fault Refusal := onChip (issueOne bus 0x803 src) s

/-- RPT_GO (R226). -/
def execRptGo (bus : Fin 4) (src : MoveSource) (s : State) : Host.Outcome State Fault Refusal := onChip (issueOne bus 0x809 src) s

/-- CORE_WAIT (R235). -/
def execCoreWait (bus : Fin 4) (src : MoveSource) (s : State) : Host.Outcome State Fault Refusal := onChip (issueOne bus 0x814 src) s

/-- CORE_TRAP (R235). -/
def execCoreTrap (bus : Fin 4) (src : MoveSource) (s : State) : Host.Outcome State Fault Refusal := onChip (issueOne bus 0x812 src) s

/-- EV_RETI (R233). -/
def execEvReti (bus : Fin 4) (src : MoveSource) (s : State) : Host.Outcome State Fault Refusal := onChip (issueOne bus 0x824 src) s

/-- CORE_MODE_WRITE (R235). -/
def execCoreModeWrite (bus : Fin 4) (src : MoveSource) (s : State) : Host.Outcome State Fault Refusal := onChip (issueOne bus 0x811 src) s

/-- TK_LAUNCH (R243). -/
def execTkLaunch (bus : Fin 4) (src : MoveSource) (s : State) : Host.Outcome State Fault Refusal := onChip (issueOne bus 0x908 src) s

/-- TK_PEEK (R249). -/
def execTkPeek (bus : Fin 4) (src : MoveSource) (s : State) : Host.Outcome State Fault Refusal := onChip (issueOne bus 0x90A src) s

/-- TK_RING_CONS_WRITE (R251). -/
def execTkRingConsWrite (bus : Fin 4) (src : MoveSource) (s : State) : Host.Outcome State Fault Refusal := onChip (issueOne bus 0x913 src) s

/-- TESTX (R219): a move to TESTXk, k one more than the operand. -/
def execTestx (bus : Fin 4) (k : Fin 7) (src : MoveSource) (s : State) : Host.Outcome State Fault Refusal :=
  onChip (issueOne bus (0x091 + k.val) src) s

/-- EV_CAUSE (R234): EV_CAUSE_l, l one more than the operand, moves to a port. -/
def execEvCause (bus : Fin 4) (l : Fin 3) (dst : BitVec 12) (s : State) : Host.Outcome State Fault Refusal :=
  onChip (issueOne bus dst.toNat (.port (BitVec.ofNat 12 (0x831 + l.val)))) s

/-- EV_POLL (R234): EV_POLL_j moves to a port. -/
def execEvPoll (bus : Fin 4) (j : Fin 32) (dst : BitVec 12) (s : State) : Host.Outcome State Fault Refusal :=
  onChip (issueOne bus dst.toNat (.port (BitVec.ofNat 12 (0x8A0 + j.val)))) s

end Sys2Proof.Machine
end

