-- ==== Sys2Proof/Machine/Dispatch.lean ====
section
/-! DEFINITION. Which meaning each command has: one arm for each row of the table. -/

namespace Sys2Proof.Machine

/-- The meaning of a command on everything but the queue. -/
def exec (i : Instr) (s : State) : Host.Outcome State Fault Refusal :=
  match i with
  | .powerUp held mv io33 => Sys2Proof.Machine.execPowerUp held mv io33 s
  | .resetN ns => Sys2Proof.Machine.execResetN ns s
  | .brownOut => Sys2Proof.Machine.execBrownOut s
  | .brownOutExit mv => Sys2Proof.Machine.execBrownOutExit mv s
  | .start f => Sys2Proof.Machine.execStart f s
  | .ddrFillDone => Sys2Proof.Machine.execDdrFillDone s
  | .pwrRequest target => Sys2Proof.Machine.execPwrRequest target s
  | .transitionDone => Sys2Proof.Machine.execTransitionDone s
  | .duskEntry => Sys2Proof.Machine.execDuskEntry s
  | .duskWake => Sys2Proof.Machine.execDuskWake s
  | .sleepEntryDrained => Sys2Proof.Machine.execSleepEntryDrained s
  | .wake found => Sys2Proof.Machine.execWake found s
  | .idleFired => Sys2Proof.Machine.execIdleFired s
  | .pwrIdleArmWrite v => Sys2Proof.Machine.execPwrIdleArmWrite v s
  | .thermalSample t mv => Sys2Proof.Machine.execThermalSample t mv s
  | .padRelease => Sys2Proof.Machine.execPadRelease s
  | .rtcLockout => Sys2Proof.Machine.execRtcLockout s
  | .switchToVbat => Sys2Proof.Machine.execSwitchToVbat s
  | .mainValid held => Sys2Proof.Machine.execMainValid held s
  | .oscStopped => Sys2Proof.Machine.execOscStopped s
  | .oscRecovered => Sys2Proof.Machine.execOscRecovered s
  | .set => Sys2Proof.Machine.execSet s
  | .shift field => Sys2Proof.Machine.execShift field s
  | .snap => Sys2Proof.Machine.execSnap s
  | .rtcCmdApply => Sys2Proof.Machine.execRtcCmdApply s
  | .snapTaken => Sys2Proof.Machine.execSnapTaken s
  | .compPeriod temp vbatMv refPpb => Sys2Proof.Machine.execCompPeriod temp vbatMv refPpb s
  | .compAdjust => Sys2Proof.Machine.execCompAdjust s
  | .rangeEnd => Sys2Proof.Machine.execRangeEnd s
  | .alarmFire a => Sys2Proof.Machine.execAlarmFire a s
  | .alarmArm a => Sys2Proof.Machine.execAlarmArm a s
  | .rtcSecondsRead who => Sys2Proof.Machine.execRtcSecondsRead who s
  | .bundleIssue => Sys2Proof.Machine.execBundleIssue s
  | .interruptEntry => Sys2Proof.Machine.execInterruptEntry s
  | .add bus w src => Sys2Proof.Machine.execAdd bus w src s
  | .sub bus w src => Sys2Proof.Machine.execSub bus w src s
  | .and bus w src => Sys2Proof.Machine.execAnd bus w src s
  | .or bus w src => Sys2Proof.Machine.execOr bus w src s
  | .xor bus w src => Sys2Proof.Machine.execXor bus w src s
  | .andn bus w src => Sys2Proof.Machine.execAndn bus w src s
  | .shl bus w src => Sys2Proof.Machine.execShl bus w src s
  | .shr bus w src => Sys2Proof.Machine.execShr bus w src s
  | .sar bus w src => Sys2Proof.Machine.execSar bus w src s
  | .eq bus w src => Sys2Proof.Machine.execEq bus w src s
  | .ne bus w src => Sys2Proof.Machine.execNe bus w src s
  | .lt bus w src => Sys2Proof.Machine.execLt bus w src s
  | .le bus w src => Sys2Proof.Machine.execLe bus w src s
  | .ltu bus w src => Sys2Proof.Machine.execLtu bus w src s
  | .min bus w src => Sys2Proof.Machine.execMin bus w src s
  | .max bus w src => Sys2Proof.Machine.execMax bus w src s
  | .cat16 bus w src => Sys2Proof.Machine.execCat16 bus w src s
  | .mul bus w src => Sys2Proof.Machine.execMul bus w src s
  | .mulh bus w src => Sys2Proof.Machine.execMulh bus w src s
  | .cmul bus w src => Sys2Proof.Machine.execCmul bus w src s
  | .scale bus w src => Sys2Proof.Machine.execScale bus w src s
  | .mag2 bus w src => Sys2Proof.Machine.execMag2 bus w src s
  | .div bus w src => Sys2Proof.Machine.execDiv bus w src s
  | .ld bus w src => Sys2Proof.Machine.execLd bus w src s
  | .ld2 bus w src => Sys2Proof.Machine.execLd2 bus w src s
  | .st bus w src => Sys2Proof.Machine.execSt bus w src s
  | .st2 bus w src => Sys2Proof.Machine.execSt2 bus w src s
  | .aadd bus w src => Sys2Proof.Machine.execAadd bus w src s
  | .swap bus w src => Sys2Proof.Machine.execSwap bus w src s
  | .lsuAccessDone => Sys2Proof.Machine.execLsuAccessDone s
  | .lsuResRead bus w dst => Sys2Proof.Machine.execLsuResRead bus w dst s
  | .ext bus w src => Sys2Proof.Machine.execExt bus w src s
  | .ins bus w src => Sys2Proof.Machine.execIns bus w src s
  | .clz bus w src => Sys2Proof.Machine.execClz bus w src s
  | .popc bus w src => Sys2Proof.Machine.execPopc bus w src s
  | .retag bus w src => Sys2Proof.Machine.execRetag bus w src s
  | .untag bus w src => Sys2Proof.Machine.execUntag bus w src s
  | .brJump bus src => Sys2Proof.Machine.execBrJump bus src s
  | .brRel bus src => Sys2Proof.Machine.execBrRel bus src s
  | .brCall bus src => Sys2Proof.Machine.execBrCall bus src s
  | .brCallr bus src => Sys2Proof.Machine.execBrCallr bus src s
  | .rptGo bus src => Sys2Proof.Machine.execRptGo bus src s
  | .coreWait bus src => Sys2Proof.Machine.execCoreWait bus src s
  | .coreWaitEnd => Sys2Proof.Machine.execCoreWaitEnd s
  | .coreTrap bus src => Sys2Proof.Machine.execCoreTrap bus src s
  | .evReti bus src => Sys2Proof.Machine.execEvReti bus src s
  | .coreModeWrite bus src => Sys2Proof.Machine.execCoreModeWrite bus src s
  | .testx bus k src => Sys2Proof.Machine.execTestx bus k src s
  | .evCause bus l dst => Sys2Proof.Machine.execEvCause bus l dst s
  | .evPoll bus j dst => Sys2Proof.Machine.execEvPoll bus j dst s
  | .coreEventInput j source payload => Sys2Proof.Machine.execCoreEventInput j source payload s
  | .tkLaunch bus src => Sys2Proof.Machine.execTkLaunch bus src s
  | .tkPeek bus src => Sys2Proof.Machine.execTkPeek bus src s
  | .completionPost => Sys2Proof.Machine.execCompletionPost s
  | .tkRingConsWrite bus src => Sys2Proof.Machine.execTkRingConsWrite bus src s
  | .engineStep e => Sys2Proof.Machine.execEngineStep e s
  | .tx t => Sys2Proof.Machine.execTx t s
  | .recRead v => Sys2Proof.Machine.execRecRead v s
  | .recWrite v => Sys2Proof.Machine.execRecWrite v s
  | .recTouch v => Sys2Proof.Machine.execRecTouch v s
  | .recAdvance v => Sys2Proof.Machine.execRecAdvance v s
  | .sweep v => Sys2Proof.Machine.execSweep v s
  | .mramWrite v => Sys2Proof.Machine.execMramWrite v s
  | .hash v => Sys2Proof.Machine.execHash v s
  | .kmac v => Sys2Proof.Machine.execKmac v s
  | .imageVerify v => Sys2Proof.Machine.execImageVerify v s
  | .sigVerify v => Sys2Proof.Machine.execSigVerify v s
  | .partnerKey v => Sys2Proof.Machine.execPartnerKey v s
  | .epOpen v => Sys2Proof.Machine.execEpOpen v s
  | .epSeal v => Sys2Proof.Machine.execEpSeal v s
  | .keyGen v => Sys2Proof.Machine.execKeyGen v s
  | .keyWrap v => Sys2Proof.Machine.execKeyWrap v s
  | .keyUnwrap v => Sys2Proof.Machine.execKeyUnwrap v s
  | .nmkStore v => Sys2Proof.Machine.execNmkStore v s
  | .nmkErase v => Sys2Proof.Machine.execNmkErase v s
  | .kemKeygen v => Sys2Proof.Machine.execKemKeygen v s
  | .kemEncaps v => Sys2Proof.Machine.execKemEncaps v s
  | .kemDecaps v => Sys2Proof.Machine.execKemDecaps v s
  | .random v => Sys2Proof.Machine.execRandom v s
  | .measExtend v => Sys2Proof.Machine.execMeasExtend v s
  | .attest v => Sys2Proof.Machine.execAttest v s
  | .idCert v => Sys2Proof.Machine.execIdCert v s
  | .token v => Sys2Proof.Machine.execToken v s
  | .lockExpiry => Sys2Proof.Machine.execLockExpiry s
  | .debugUnlockExpiry => Sys2Proof.Machine.execDebugUnlockExpiry s
  | .trngHealthFail proportion => Sys2Proof.Machine.execTrngHealthFail proportion s
  | .reinit pass => Sys2Proof.Machine.execReinit pass s
  | .updBegin v => Sys2Proof.Machine.execUpdBegin v s
  | .updWrite v => Sys2Proof.Machine.execUpdWrite v s
  | .updVerify v => Sys2Proof.Machine.execUpdVerify v s
  | .updGerminate v => Sys2Proof.Machine.execUpdGerminate v s
  | .updActivateAt v => Sys2Proof.Machine.execUpdActivateAt v s
  | .activation => Sys2Proof.Machine.execActivation s
  | .quietGapTimeout => Sys2Proof.Machine.execQuietGapTimeout s
  | .updConfirm v => Sys2Proof.Machine.execUpdConfirm v s
  | .updFallback v => Sys2Proof.Machine.execUpdFallback v s
  | .trialExpiry => Sys2Proof.Machine.execTrialExpiry s
  | .updAbort v => Sys2Proof.Machine.execUpdAbort v s
  | .setWrite v => Sys2Proof.Machine.execSetWrite v s
  | .ledgerClear v => Sys2Proof.Machine.execLedgerClear v s
  | .updSettingsReportWrite code => Sys2Proof.Machine.execUpdSettingsReportWrite code s
  | .rcvBegin p => Sys2Proof.Machine.execRcvBegin p s
  | .rcvData p => Sys2Proof.Machine.execRcvData p s
  | .rcvEnd p => Sys2Proof.Machine.execRcvEnd p s
  | .rcvAbort p => Sys2Proof.Machine.execRcvAbort p s
  | .mbxGo p code seq => Sys2Proof.Machine.execMbxGo p code seq s
  | .mbxReply p => Sys2Proof.Machine.execMbxReply p s
  | .ping p => Sys2Proof.Machine.execPing p s
  | .identity p => Sys2Proof.Machine.execIdentity p s
  | .islandRestart p => Sys2Proof.Machine.execIslandRestart p s
  | .islandRestartDone k found r0 r1 => Sys2Proof.Machine.execIslandRestartDone k found r0 r1 s
  | .deviceReset p => Sys2Proof.Machine.execDeviceReset p s
  | .power p => Sys2Proof.Machine.execPower p s
  | .remash p => Sys2Proof.Machine.execRemash p s
  | .remashLaneQuiesced => Sys2Proof.Machine.execRemashLaneQuiesced s
  | .quiesceWaitExpiry => Sys2Proof.Machine.execQuiesceWaitExpiry s
  | .gangEnumerate p => Sys2Proof.Machine.execGangEnumerate p s
  | .gangTakeover p => Sys2Proof.Machine.execGangTakeover p s
  | .hostWordRead p sp a => Sys2Proof.Machine.execHostWordRead p sp a s
  | .hostWordWrite p sp a x => Sys2Proof.Machine.execHostWordWrite p sp a x s
  | .apertureAccess k w x => Sys2Proof.Machine.execApertureAccess k w x s
  | .accessTimeout => Sys2Proof.Machine.execAccessTimeout s
  | .qspiRead op sp a late => Sys2Proof.Machine.execQspiRead op sp a late s
  | .qspiWrite op sp a xs => Sys2Proof.Machine.execQspiWrite op sp a xs s
  | .qspiStatusByte => Sys2Proof.Machine.execQspiStatusByte s
  | .uartReadRequest bs => Sys2Proof.Machine.execUartReadRequest bs s
  | .uartWriteRequest bs => Sys2Proof.Machine.execUartWriteRequest bs s
  | .uartIdleTimeout => Sys2Proof.Machine.execUartIdleTimeout s
  | .perstN => Sys2Proof.Machine.execPerstN s
  | .hostDoorbellIn w => Sys2Proof.Machine.execHostDoorbellIn w s
  | .hostDoorbellOut v => Sys2Proof.Machine.execHostDoorbellOut v s
  | .enumSend => Sys2Proof.Machine.execEnumSend s
  | .enum h next own reordered d0 d1 => Sys2Proof.Machine.execEnum h next own reordered d0 d1 s
  | .timeSend => Sys2Proof.Machine.execTimeSend s
  | .time h lo hi port => Sys2Proof.Machine.execTime h lo hi port s
  | .event h line stamp w => Sys2Proof.Machine.execEvent h line stamp w s
  | .gangInFire => Sys2Proof.Machine.execGangInFire s
  | .accessReq h sp a write count xs => Sys2Proof.Machine.execAccessReq h sp a write count xs s
  | .accessRsp h ws => Sys2Proof.Machine.execAccessRsp h ws s
  | .mirror h op handle ws => Sys2Proof.Machine.execMirror h op handle ws s
  | .statusSend => Sys2Proof.Machine.execStatusSend s
  | .status h w0 w1 => Sys2Proof.Machine.execStatus h w0 w1 s
  | .memberLost => Sys2Proof.Machine.execMemberLost s
  | .ring h restored w => Sys2Proof.Machine.execRing h restored w s
  | .chainPortDown port lost => Sys2Proof.Machine.execChainPortDown port lost s
  | .ringRestored port rate => Sys2Proof.Machine.execRingRestored port rate s
  | .chainRetrain port rate => Sys2Proof.Machine.execChainRetrain port rate s
  | .retuneAtWrite x g => Sys2Proof.Machine.execRetuneAtWrite x g s
  | .retuneStart x => Sys2Proof.Machine.execRetuneStart x s
  | .retuneLocked x => Sys2Proof.Machine.execRetuneLocked x s
  | .chainEnableWrite x v => Sys2Proof.Machine.execChainEnableWrite x v s
  | .followWrite v => Sys2Proof.Machine.execFollowWrite v s
  | .gainStepDown x emergency => Sys2Proof.Machine.execGainStepDown x emergency s
  | .gainStepUp x => Sys2Proof.Machine.execGainStepUp x s
  | .manualIndexWrite x ix => Sys2Proof.Machine.execManualIndexWrite x ix s
  | .txConfigApply => Sys2Proof.Machine.execTxConfigApply s
  | .dieTempMeasure t => Sys2Proof.Machine.execDieTempMeasure t s
  | .dpdCapture imd papr steady => Sys2Proof.Machine.execDpdCapture imd papr steady s
  | .dpdSolveDone better => Sys2Proof.Machine.execDpdSolveDone better s
  | .dpdSwap => Sys2Proof.Machine.execDpdSwap s
  | .trainNow => Sys2Proof.Machine.execTrainNow s
  | .trainingBurstDone => Sys2Proof.Machine.execTrainingBurstDone s
  | .dpdStoreWrite k w => Sys2Proof.Machine.execDpdStoreWrite k w s
  | .startCal t => Sys2Proof.Machine.execStartCal t s
  | .calDone => Sys2Proof.Machine.execCalDone s
  | .save => Sys2Proof.Machine.execSave s
  | .laneEnable n => Sys2Proof.Machine.execLaneEnable n s
  | .laneDisable n => Sys2Proof.Machine.execLaneDisable n s
  | .listenWrite n v => Sys2Proof.Machine.execListenWrite n v s
  | .laneSwitchAtWrite n g => Sys2Proof.Machine.execLaneSwitchAtWrite n g s
  | .laneSwitch n => Sys2Proof.Machine.execLaneSwitch n s
  | .switchDone n => Sys2Proof.Machine.execSwitchDone n s
  | .preambleDetect n p => Sys2Proof.Machine.execPreambleDetect n p s
  | .sfdTimeout n => Sys2Proof.Machine.execSfdTimeout n s
  | .delimiterFound n h => Sys2Proof.Machine.execDelimiterFound n h s
  | .psduStart n soft => Sys2Proof.Machine.execPsduStart n soft s
  | .partnerLookup n => Sys2Proof.Machine.execPartnerLookup n s
  | .capture n p => Sys2Proof.Machine.execCapture n p s
  | .saturation k => Sys2Proof.Machine.execSaturation k s
  | .frameEnd n m => Sys2Proof.Machine.execFrameEnd n m s
  | .frameVerdict => Sys2Proof.Machine.execFrameVerdict s
  | .ackSent => Sys2Proof.Machine.execAckSent s
  | .ackWaitExpiry => Sys2Proof.Machine.execAckWaitExpiry s
  | .txCommit => Sys2Proof.Machine.execTxCommit s
  | .carrierEnd => Sys2Proof.Machine.execCarrierEnd s
  | .csmaCca t energy => Sys2Proof.Machine.execCsmaCca t energy s
  | .dwellBucketBoundary => Sys2Proof.Machine.execDwellBucketBoundary s
  | .budgetWindowWrite b w => Sys2Proof.Machine.execBudgetWindowWrite b w s
  | .linkDisable => Sys2Proof.Machine.execLinkDisable s
  | .linkRingConsWrite r v => Sys2Proof.Machine.execLinkRingConsWrite r v s
  | .tschTimeslot => Sys2Proof.Machine.execTschTimeslot s
  | .tschRunClear => Sys2Proof.Machine.execTschRunClear s
  | .pschedRunClear => Sys2Proof.Machine.execPschedRunClear s
  | .read h => Sys2Proof.Machine.execRead h s
  | .write h => Sys2Proof.Machine.execWrite h s
  | .writeKeep h => Sys2Proof.Machine.execWriteKeep h s
  | .invalidate h => Sys2Proof.Machine.execInvalidate h s
  | .schedWrite h => Sys2Proof.Machine.execSchedWrite h s
  | .schedClear h => Sys2Proof.Machine.execSchedClear h s
  | .page h => Sys2Proof.Machine.execPage h s
  | .pageCancel h => Sys2Proof.Machine.execPageCancel h s
  | .partnerOpEffect => Sys2Proof.Machine.execPartnerOpEffect s
  | .rendezvousReserve => Sys2Proof.Machine.execRendezvousReserve s
  | .windowClose => Sys2Proof.Machine.execWindowClose s
  | .downlinkSend => Sys2Proof.Machine.execDownlinkSend s
  | .pageStart => Sys2Proof.Machine.execPageStart s
  | .resyncWaitExpiry => Sys2Proof.Machine.execResyncWaitExpiry s
  | .resyncGrant => Sys2Proof.Machine.execResyncGrant s
  | .wurMatch bits => Sys2Proof.Machine.execWurMatch bits s
  | .wurHoldoffEnd => Sys2Proof.Machine.execWurHoldoffEnd s
  | .scrubRead m upsets => Sys2Proof.Machine.execScrubRead m upsets s
  | .memoryScrubDone ix => Sys2Proof.Machine.execMemoryScrubDone ix s
  | .marchSegment fails => Sys2Proof.Machine.execMarchSegment fails s
  | .retrain => Sys2Proof.Machine.execRetrain s
  | .dramTrainDone found => Sys2Proof.Machine.execDramTrainDone found s
  | .tmrStart t => Sys2Proof.Machine.execTmrStart t s
  | .tmrStop t => Sys2Proof.Machine.execTmrStop t s
  | .tmrClear t => Sys2Proof.Machine.execTmrClear t s
  | .tmrSnap t => Sys2Proof.Machine.execTmrSnap t s
  | .tmrGoStart mask => Sys2Proof.Machine.execTmrGoStart mask s
  | .tmrGoStop mask => Sys2Proof.Machine.execTmrGoStop mask s
  | .tmrCountWrite t v => Sys2Proof.Machine.execTmrCountWrite t v s
  | .tmrCmpWrite t ix v => Sys2Proof.Machine.execTmrCmpWrite t ix v s
  | .compareFire t ix => Sys2Proof.Machine.execCompareFire t ix s
  | .tmrWrap t => Sys2Proof.Machine.execTmrWrap t s
  | .tmrPairRead who p odd => Sys2Proof.Machine.execTmrPairRead who p odd s
  | .captureEdge k level => Sys2Proof.Machine.execCaptureEdge k level s
  | .capTrig k => Sys2Proof.Machine.execCapTrig k s
  | .capValueRead k => Sys2Proof.Machine.execCapValueRead k s
  | .gpioEdge p level => Sys2Proof.Machine.execGpioEdge p level s
  | .gpioTask m => Sys2Proof.Machine.execGpioTask m s
  | .swFire k payload => Sys2Proof.Machine.execSwFire k payload s
  | .gangOut k payload => Sys2Proof.Machine.execGangOut k payload s
  | .cellFilterChange ix => Sys2Proof.Machine.execCellFilterChange ix s
  | .eventDelivery => Sys2Proof.Machine.execEventDelivery s
  | .restart n => Sys2Proof.Machine.execRestart n s
  | .chkEnd n => Sys2Proof.Machine.execEnd n s
  | .chkSnap n => Sys2Proof.Machine.execChkSnap n s
  | .chkStreamEnd n octets dropped abandoned => Sys2Proof.Machine.execChkStreamEnd n octets dropped abandoned s
  | .registerWrite host a w => Sys2Proof.Machine.execRegisterWrite host a w s
  | .carrierRampStart => Sys2Proof.Machine.execCarrierRampStart s
  | .lockoutRelease => Sys2Proof.Machine.execLockoutRelease s
  | .retentionSupplyDip upsets => Sys2Proof.Machine.execRetentionSupplyDip upsets s
  | .deadFuseBurn => Sys2Proof.Machine.execDeadFuseBurn s
  | .pcieLinkChange rate wide l1 => Sys2Proof.Machine.execPcieLinkChange rate wide l1 s
  | .chainFrameCrcError => Sys2Proof.Machine.execChainFrameCrcError s
  | .boundaryScan takes => Sys2Proof.Machine.execBoundaryScan takes s

end Sys2Proof.Machine
end

