-- ==== Sys2Proof/Machine/Idle.lean ====
section
/-! DEFINITION. How time passes: what the hardware does of itself in one grain, or from one 32.768 kHz edge to the next while
it sleeps. -/

namespace Sys2Proof.Machine

/-- The long time moves on (R344). -/
def moveTime (n : Nat) (c : Chip) : Chip := { c with now := (c.now + n) % 2 ^ 72 }

/-- Whether the chip sleeps with only its 32.768 kHz tick running: Night or deeper, outside the wake sequence (R333). -/
def Chip.dozing (c : Chip) : Bool := decide (5 ≤ c.power) && c.pwr.doneAt.isNone

/-- What a 32.768 kHz edge does, and the end of the cycle before it (R278, R314, R338, R342). -/
def slowEdge (c : Chip) : Chip := idleTimerTick (sleepTick (rtcTick (c.onFab fun f => { f with justSet := f.justSet.filter fun x => ! slowReg x.1 })))

/-- The long time moves on by one grain, and the timers with it (R294). -/
def grainStep (c : Chip) : Chip :=
  let c1 := moveTime 1 c
  if c1.isOn .evf then timersGrain c c1 else c1

/-- The grain counter moves on: by one grain; by two, each a grain of the timers, where gang time adds one; not at all where it
withholds one (R294, R405). DEDUCED: log entry 217. -/
def grainsStep (step : Int) (c : Chip) : Chip :=
  slewDone step (if step < 0 then c else if 0 < step then grainStep (grainStep c) else grainStep c)

/-- A tick's messages: vector 1 where HOST_INT_STATUS, gated by HOST_INT_ENABLE, has fired its source in it (R391). DESIGN CHOICE: log entry 226. -/
def msixTick (c : Chip) : Chip :=
  let c1 := { c with msix := [] }
  if c.fab.fired.any fun f => f.source == 0xD9 && decide (f.due ≤ c.now) then c1.msi 1 else c1

/-- One grain: the end of the present one for the event fabric and the frames that leave in it; the grain, with gang time; the timers; a mirror forward; the
health tests of the random numbers; the wake from Dusk; and a 32.768 kHz edge where the grain counter has reached one (R186, R276, R294, R341, R405). -/
def oneGrain (c : Chip) : Chip :=
  let c1 := chainOut (fabricEnd (msixTick ((contestDecided c).onGang fun g => { g with sent := [] })))
  let c2 := grainsStep c1.slewStep c1
  let c3 := idleNote <| testsEnd <| duskMark (mirrorOut (dramGrain (marchGrain (symbolsEnd (chainsGrain (lanesGrain c2))))))
  if c.now / 2048 = c3.now / 2048 then c3 else slowEdge c3

/-- Time passes (the model's choice where no command waits): one grain, or in a sleep the time to the next edge.
DESIGN CHOICE: log entry 2. -/
def timePasses (c : Chip) : Chip := if c.dozing then slowEdge (moveTime (2048 - c.now % 2048) c) else oneGrain c

end Sys2Proof.Machine
end

