-- ==== Sys2Proof/Machine/Pins.lean ====
section
/-! DEFINITION. What the balls show: the multiplexed pads, latched or released (R265, R349, R411, R413, R425), and the
fixed-function pads (R394, R412). Nothing here changes the state: a pad follows it. -/

namespace Sys2Proof.Machine

/-- What a pad does at its ball. -/
inductive PadState where
  | low
  | high
  /-- an input, pulled down, pulled up, or with no pull. -/
  | inputDown
  | inputUp
  | input
  /-- an open-drain output, released. -/
  | released
  | highZ
  /-- follows the boundary scan (R349). -/
  | scan
  /-- follows the block of its function (R411, R412). -/
  | block
  /-- the 40 MHz crystal: running, sustained in Night, stopped (R333, R412). -/
  | running
  | sustained
  | stopped
  deriving DecidableEq, Repr

/-- RF_TR_SEL (R411): high from the first grain of a carrier's ramp up to the last grain of its ramp down. -/
def Chip.trSelOn (c : Chip) : Bool :=
  c.radio.carriers.any fun k => decide (k.ramp ≤ c.now) && decide (c.now < k.last)

/-- DDR_PWR_EN (R413): high from step S8 or a wake on, while the DDR island has its supply, or holds its contents in
self-refresh. -/
def Chip.ddrPwrEn (c : Chip) : Bool :=
  c.mems.ddrPower.isSome && (c.isOn .ddr || c.island .ddr == .restarting || c.mems.ddrKept)

/-- Whether the DDR balls may be driven: 2 ms have passed since DDR_PWR_EN rose (R413). -/
def Chip.ddrMayDrive (c : Chip) : Bool := c.mems.ddrPower.any fun g => decide (g + 134218 ≤ c.now)

/-- A HELD state of PIN_MUX (R265). -/
def heldState (held : Nat) : PadState :=
  match held with
  | 0 => .low
  | 1 => .high
  | 3 => .inputUp
  | _ => .inputDown

/-- A level that is driven. -/
def drivenState (v : Bool) : PadState := if v then .high else .low

/-- A PULL (R425). -/
def pulledState (pull : Nat) : PadState := if pull = 1 then .inputDown else if pull = 2 then .inputUp else .input

/-- The OE bit of GPIO `p`. -/
def gpioOe (p : Nat) : Field := ⟨if p < 32 then Reg.PAD_GPIO_OE_LO else Reg.PAD_GPIO_OE_HI, p % 32, 1⟩

/-- A released pad follows its function (R69, R411, R425). -/
def Chip.releasedPad (c : Chip) (p : Nat) : PadState :=
  let fn := c.f (Fld.PAD_CFG_FUNCTION p)
  if fn = 0 then (if c.b (gpioOe p) then drivenState (c.b (gpioOut p)) else pulledState (c.f (Fld.PAD_CFG_PULL p)))
  else if fn = 9 then drivenState c.extPaOn
  else if fn = 10 then drivenState c.trSelOn
  else if fn = 11 then drivenState c.ddrPwrEn
  else if 16 ≤ fn then pulledState (c.f (Fld.PAD_CFG_PULL p))
  else .block

/-- A multiplexed pad (R349, R412): in Small Hours none is driven; it follows a boundary scan that holds it; while latched it holds what the cause of the latch says,
else it follows its function. DEDUCED: log entry 170. -/
def Chip.padState (c : Chip) (p : Nat) : PadState :=
  if c.power = 7 then .highZ
  else if c.scan then .scan
  else if c.b Fld.PAD_STATUS_LATCHED then
    (if c.f Fld.PAD_STATUS_LATCH_CAUSE = 3 ∨ c.recipe = none then .inputDown
     else heldState (c.f (Fld.PAD_CFG_HELD p)))
  else c.releasedPad p

/-- The fixed-function pads of R412; one name stands for pads of one kind. -/
inductive FixedPad where
  | resetN | recoveryN | motion | gangHead | testEn
  | tck | trstN | tms | tdi | tdo
  | uart0Tx | uart0Rx
  | qspiSck | qspiCsN | qspiIo | perstN
  | hostIrqN | clkreqN | wakeN
  | ddrResetN | ddrCke | ddrOther
  | xo40 | txOut | paObs | antB
  deriving DecidableEq, Repr

/-- The island of a fixed-function pad (R412). -/
def FixedPad.island : FixedPad → Island
  | .resetN | .recoveryN | .motion | .gangHead | .testEn | .tck | .trstN | .tms | .tdi | .tdo => .aon
  | .uart0Tx | .uart0Rx | .qspiSck | .qspiCsN | .qspiIo | .perstN | .hostIrqN | .clkreqN | .wakeN => .pcie
  | .ddrResetN | .ddrCke | .ddrOther => .ddr
  | .xo40 | .txOut | .paObs => .rfTx
  | .antB => .rfRxB

/-- HOST_IRQ_N is low while DONE of path 2 and HOST_QSPI_CFG.IRQ are both 1 (R394). -/
def Chip.hostIrqLow (c : Chip) : Bool := (c.mbxStatus 2).field 1 1 == 1 && c.b Fld.HOST_QSPI_CFG_IRQ

/-- The state of a fixed-function pad (R412, R413). When the TAP shifts is left free. DESIGN CHOICE: log entry 218. -/
def Chip.fixedPad (c : Chip) (x : FixedPad) : PadState :=
  let on := c.isOn x.island
  if c.power = 7 then .highZ
  else match x with
    | .resetN | .recoveryN | .tms | .tdi => .inputUp
    | .motion | .gangHead | .testEn | .tck | .trstN => .inputDown
    | .tdo => if Config.tapShifts c.now then .scan else .highZ
    | .uart0Tx => if on then .block else .highZ
    | .uart0Rx => .inputUp
    | .qspiSck | .qspiCsN | .perstN => .input
    | .qspiIo => if on then .block else .input
    | .hostIrqN => if on && c.hostIrqLow then .low else .released
    | .clkreqN | .wakeN => if on then .block else .released
    | .ddrResetN => if on then .block else drivenState c.mems.ddrKept
    | .ddrCke | .ddrOther => if ! on then .low else if c.ddrMayDrive then .block else .highZ
    | .xo40 => if c.power = 5 then .sustained else if c.power = 6 then .stopped else .running
    | .txOut | .paObs | .antB => if on then .block else .highZ

end Sys2Proof.Machine
end

