-- ==== Sys2Proof/Safety.lean ====
section
/-! DEFINITION. What counts as a safe run: fuses that only burn, tables in their one canonical form, and steps that answer. -/

namespace Sys2Proof.Safety

open Sys2Proof.Machine

/-- The fuses hold rows of 32 bits in canonical form (R188): rows rising, none listed that holds no burned bit. -/
def fusesOk (o : Store Nat) : Bool := Store.ok (fun _ => 0) o && o.all fun e => decide (e.2 < 2 ^ 32)

/-- Every fuse burned in `o` is burned in `o'` (R188). -/
def FusesKept (o o' : Store Nat) : Prop := ∀ r b, b < 32 → (otpRow o r).testBit b = true → (otpRow o' r).testBit b = true

/-- The memories are in canonical form: addresses rising, no entry equal to what an unlisted address reads as. -/
def memsOk (m : Mems) : Bool :=
  Store.ok (fun _ => Word.int 0) m.words && Store.ok (fun _ => []) m.flaws && Store.ok (fun _ => 0) m.mram
    && Store.ok (fun _ => 0) m.mramFlaws

/-- A step that stops the machine. -/
def stops (o : Host.Outcome State Fault Refusal) : Bool :=
  match o with
  | .next _ => false
  | _ => true

/-! ### What the statements about the core speak of -/

/-- The core stands between bundles with nothing in hand: it issues, no interrupt is due, no stall, repeat, transfer or result
in flight. -/
def coreAtRest (c : Chip) : Bool :=
  c.canIssue && c.core.stalled == none && c.interruptLevel == 0 && c.core.rptLeft == 0 && ! c.core.transfer
    && c.core.rptGo == none && c.core.inflight.isEmpty && c.core.delayLeft == 0

/-- The word a source gives (R215): an immediate, or a register of the two files. -/
def operandWord (c : Chip) : MoveSource → Option Word
  | .int v => some (.int (signed 20 v.toNat))
  | .tagged t v => (Tag.ofNum t.toNat).map fun t => .mk' t v.toNat
  | .port p => if 0x20 ≤ p.toNat ∧ p.toNat < 0x60 then some (c.port p.toNat) else none

/-- Whether a port is a register of the two files (R219). -/
def filePort (p : BitVec 12) : Bool := decide (0x20 ≤ p.toNat) && decide (p.toNat < 0x60)

/-- The core moves on to the next bundle. -/
def nextBundle (c : Chip) : Chip := { c with core := { c.core with pc := c.core.pc + 1 } }

/-- The trap of a lone move on a bus (R228, R229). -/
def moveTrapOf (z : TrapCause) (bus : Fin 4) (dst : Nat) (src : MoveSource) (b : Word) (access : Bool) : Trap :=
  { cause := z, slot := bus.val, bits := moveBits dst src % 2 ^ 40, word := b, access := access }

/-- Whether a move on a bus reaches a unit of a type in a window (R220, R264). -/
def unitOn (c : Chip) (bus : Fin 4) (w : Fin 28) (type : Nat) : Prop :=
  (c.window w.val).type = type ∧ (c.window w.val).writeBuses.testBit bus.val = true

/-- A row of the table for a unit's trigger: the command, and the operation. -/
abbrev Row (α : Type) := (Fin 4 → Fin 28 → MoveSource → Instr) × α

/-- The ALU's rows. -/
def aluRows : List (Row AluOp) :=
  [(.add, .add), (.sub, .sub), (.and, .and), (.or, .or), (.xor, .xor), (.andn, .andn), (.shl, .shl), (.shr, .shr), (.sar, .sar),
   (.eq, .eq), (.ne, .ne), (.lt, .lt), (.le, .le), (.ltu, .ltu), (.min, .min), (.max, .max), (.cat16, .cat16)]

/-- The multiplier's rows that answer in RES. -/
def mulRows : List (Row MulOp) := [(.mul, .mul), (.mulh, .mulh), (.cmul, .cmul), (.scale, .scale), (.mag2, .mag2)]

/-- The rows of the BIT unit. -/
def bitRows : List (Row BitOp) := [(.ext, .ext), (.ins, .ins), (.clz, .clz), (.popc, .popc)]

/-- The rows of a load-store unit. -/
def lsuRows : List (Row LsuKind) := [(.ld, .ld), (.ld2, .ld2), (.st, .st), (.st2, .st2), (.aadd, .aadd), (.swap, .swap)]

/-! ### Commands that burn fuses -/

/-- The state in which a command that may burn fuses leaves the machine: what the chip asked to burn is burned. -/
def settled (s : State) (c : Chip) : State :=
  { s with chip := c.onSec fun x => { x with burns := [] }, otp := burned s.otp c.sec.burns }

/-! ### Operations in engines -/

/-- An operation of a code, asked for by ticket or mailbox, is the next work of its engine and nothing comes between its steps
(R256). -/
def opNext (c : Chip) (code : Nat) (v : Via) (w : Work) : Prop :=
  (∃ e, c.engineFor (jobOf v) = some e ∧ c.alone e (jobOf v) = true) ∧ c.work (jobOf v) = some w ∧ w.code = code

/-- The chip as an engine takes an operation: it notes whether it leaves a boundary to it (R256). -/
def opTaken (v : Via) (c : Chip) : Chip := noteYield ((c.engineFor (jobOf v)).getD 0) (jobOf v) c

/-- The chip as the whole effect of an operation finds it: the steps it takes are noted; free where the spec says only about how
many (R255). -/
def opNoted (v : Via) (w : Work) (c : Chip) : Chip :=
  let r := stepCount w c
  noteStep (jobOf v) r.1 w.prog w.sweep r.2

/-- The same from the moment its engine takes it. -/
def opBegun (v : Via) (w : Work) (c : Chip) : Chip := opNoted v w (opTaken v c)

/-- An operation ends with a result: that of its ticket, or of its mailbox's reply (R249, R250, R383). -/
def opEnded (v : Via) (w : Work) (x : Word) (c : Chip) : Chip := finishJobWith (jobOf v) w.code x c

/-- The machine after an operation that ended with a result. -/
def opDone (s : State) (v : Via) (w : Work) (x : Word) (c : Chip) : State := settled s (opEnded v w x c)

/-- A buffer at an argument word holds octets, which reading finds (R35, R200). -/
def octets (c : Chip) (w : Word) (n : Nat) (spaces : List Nat) (xs : List Nat) (c' : Chip) : Prop :=
  c.bufferOk w n spaces = true ∧ readOctets w.nat n c = (.ok xs, c')

/-- A destination of `n` octets in space 0 takes them (R35, R138). -/
def destReady (c : Chip) (w : Word) (n : Nat) : Prop := c.destOk w n [0] = true ∧ c.spaceAccess 0 = .served

/-! ### Starts -/

/-- The chip after the steps of a start, in order, where each of them ends done, its code in the ledger (R358). -/
def stepsDone (alt : Nat) : List (Nat × (Chip → StepEnd)) → Chip → Option Chip
  | [], c => some c
  | (k, g) :: gs, c => match g c with
    | .done code c1 => stepsDone alt gs (writeStartRecord devBoot 15 0 alt (setStepCode k code c1))
    | _ => none

end Sys2Proof.Safety
end

