-- ==== Sys2Proof/WellFormed.lean ====
section
/-! DEFINITION. Which commands are well formed: what the spec's own limits say of operands beyond their types. The machine
answers every command; these checks say which ones the world can send. -/

namespace Sys2Proof

/-- DRAM has an installed size (R174). -/
def DdrFound.wellFormed (d : DdrFound) : Bool := d.size != 0

/-- A codeword holds thirteen bytes (R163), and a line of MRAM thirty-two (R180); a fault is in a memory with a code. -/
def Upset.wellFormed (u : Upset) : Bool :=
  u.bytes.length == (if u.space = 4 then 32 else 13) && [0, 1, 2, 3, 4, 6, 7].contains u.space.toNat

/-- An optional training result. -/
def ddrWellFormed : Option DdrFound → Bool
  | some d => d.wellFormed
  | none => true

/-- The words a MIRROR frame carries after its handle: two for each half its OP names (R186, R399). -/
def mirrorCount (op : Nat) : Nat := 2 * (op % 2) + 2 * (op / 2 % 2)

/-- Whether a command is well formed. -/
def Instr.wellFormed : Instr → Bool
  | .start f => ddrWellFormed f.ddr
  | .wake found => ddrWellFormed found
  | .dramTrainDone found => ddrWellFormed found
  | .islandRestartDone _ found _ _ => ddrWellFormed found
  | .scrubRead _ us => us.all Upset.wellFormed
  | .retentionSupplyDip us => us.all Upset.wellFormed
  | .psduStart _ xs => decide (xs.length ≤ 262144)
  | .delimiterFound _ d => decide (d.header.length ≤ 4096)
  | .mirror _ op _ ws => op != 0 && ws.length == mirrorCount op.val
  | .accessReq _ _ _ w n xs => decide (1 ≤ n) && decide (n ≤ if w then 63 else 64) && xs.length == (if w then n else 0)
  | .accessRsp _ ws => decide (1 ≤ ws.length) && decide (ws.length ≤ 64)
  | _ => true

end Sys2Proof
end

