-- ==== Sys2Proof/Certificates/Slice0/Obligations.lean ====
section
/-! DEFINITION. The statements for the provers. -/

open Sys2Proof Sys2Proof.Machine


/-- R334, R335: a write of a state code to PWR_REQUEST takes the next sequence number; a request that a check refuses is
answered at once in PWR_RESULT with its status, and the power state and any active transition go on as they were.

R334 to R337, R341: a request that no check refuses, in a chip that is not in Small Hours and not held in reset. With no
transition active and another state asked for, a level transition (or an entry to Dusk) becomes active under the new sequence
number, a level change to end after its settling time; with one active, it becomes the one pending request; for the state
already in force it is answered OK. -/
def Obligations.PowerRequests : Prop :=
  (∀ (s : State) (target : BitVec 4) (st : Status), target.toNat < 8 → s.chip.power ≠ 7 → s.chip.pwr.heldInReset = false →
      (s.chip.setF Fld.PWR_STATUS_LAST_SEQ ((s.chip.f Fld.PWR_STATUS_LAST_SEQ + 1) % 256)).powerRefusal target.toNat = some st →
      ∃ t, exec (.pwrRequest target) s = .next t ∧
        t.chip.f Fld.PWR_STATUS_LAST_SEQ = (s.chip.f Fld.PWR_STATUS_LAST_SEQ + 1) % 256 ∧
        t.chip.f Fld.PWR_RESULT_SEQ = (s.chip.f Fld.PWR_STATUS_LAST_SEQ + 1) % 256 ∧
        t.chip.f Fld.PWR_RESULT_TARGET = target.toNat ∧ t.chip.f Fld.PWR_RESULT_STATUS = st.code ∧
        t.chip.b Fld.PWR_STATUS_ACTIVE = s.chip.b Fld.PWR_STATUS_ACTIVE ∧ t.chip.power = s.chip.power ∧
        t.chip.pwr = s.chip.pwr ∧ t.chip.radio = s.chip.radio ∧ t.chip.core = s.chip.core ∧ t.otp = s.otp) ∧
  (∀ (s : State) (target : BitVec 4), target.toNat < 8 → s.chip.power ≠ 7 → s.chip.pwr.heldInReset = false →
      let seq := (s.chip.f Fld.PWR_STATUS_LAST_SEQ + 1) % 256
      (s.chip.setF Fld.PWR_STATUS_LAST_SEQ seq).powerRefusal target.toNat = none →
      (s.chip.b Fld.PWR_STATUS_ACTIVE = false → target.toNat ≠ s.chip.power → target.toNat ≤ 4 →
        ∃ t, exec (.pwrRequest target) s = .next t ∧ t.chip.b Fld.PWR_STATUS_ACTIVE = true ∧
          t.chip.f Fld.PWR_STATUS_ACTIVE_TARGET = target.toNat ∧ t.chip.f Fld.PWR_STATUS_ACTIVE_SEQ = seq ∧
          t.chip.f Fld.PWR_STATUS_LAST_SEQ = seq ∧ t.chip.power = s.chip.power ∧
          t.chip.pwr.doneAt = (if target.toNat ≤ 3 then some (s.chip.now + levelTime s.chip.power target.toNat) else none)) ∧
      (s.chip.b Fld.PWR_STATUS_ACTIVE = true →
        ∃ t, exec (.pwrRequest target) s = .next t ∧ t.chip.b Fld.PWR_STATUS_ACTIVE = true ∧
          t.chip.b Fld.PWR_STATUS_PENDING = true ∧ t.chip.f Fld.PWR_STATUS_PENDING_TARGET = target.toNat ∧
          t.chip.pwr.pendingSeq = seq ∧ t.chip.power = s.chip.power) ∧
      (s.chip.b Fld.PWR_STATUS_ACTIVE = false → target.toNat = s.chip.power →
        ∃ t, exec (.pwrRequest target) s = .next t ∧ t.chip.f Fld.PWR_RESULT_SEQ = seq ∧
          t.chip.f Fld.PWR_RESULT_STATUS = Status.ok.code ∧ t.chip.power = s.chip.power))

/-- R336, R341: how transitions end. TRANSITION_DONE at the settling time puts the chip at the target level and answers the
request OK; DUSK_ENTRY gates the core clock at a bundle boundary with no core access outstanding; DUSK_WAKE returns to the level in force.
Stated with no forced transition and no pending request, so that nothing follows.

R338: a write of PWR_IDLE_ARM with legal fields takes them and restarts the count; a reserved one keeps its field and withholds the
arming (log entry 28, DEDUCED). When the
count has reached TICKS the armed timer disarms, raises its flag and makes its request as a write of PWR_REQUEST would. -/
def Obligations.TransitionsAndIdleTimer : Prop :=
  (∀ (s : State), s.chip.b Fld.PWR_STATUS_ACTIVE = true → s.chip.b Fld.PWR_STATUS_PENDING = false →
      s.chip.pwr.activeForced = false → s.chip.pwr.forcedNext = false →
      (∀ g, s.chip.pwr.doneAt = some g → g ≤ s.chip.now → s.chip.f Fld.PWR_STATUS_ACTIVE_TARGET ≤ 3 → s.chip.power ≤ 3 →
        ∃ t, exec .transitionDone s = .next t ∧ t.chip.power = s.chip.f Fld.PWR_STATUS_ACTIVE_TARGET ∧
          t.chip.b Fld.PWR_STATUS_ACTIVE = false ∧ t.chip.f Fld.PWR_RESULT_SEQ = s.chip.f Fld.PWR_STATUS_ACTIVE_SEQ ∧
          t.chip.f Fld.PWR_RESULT_TARGET = s.chip.f Fld.PWR_STATUS_ACTIVE_TARGET ∧ t.chip.f Fld.PWR_RESULT_STATUS = 0 ∧
          t.chip.pwr.level = s.chip.f Fld.PWR_STATUS_ACTIVE_TARGET) ∧
      (s.chip.f Fld.PWR_STATUS_ACTIVE_TARGET = 4 → s.chip.power ≤ 3 → s.chip.core.accesses = [] → s.chip.core.stalled = none →
        ∃ t, exec .duskEntry s = .next t ∧ t.chip.power = 4 ∧ t.chip.pwr.level = s.chip.power ∧
          t.chip.core = s.chip.core ∧ t.chip.b Fld.PWR_STATUS_ACTIVE = true) ∧
      (∀ g, s.chip.pwr.doneAt = some g → g ≤ s.chip.now → s.chip.power = 4 → s.chip.pwr.level ≤ 3 →
        ∃ t, exec .duskWake s = .next t ∧ t.chip.power = s.chip.pwr.level ∧ t.chip.b Fld.PWR_STATUS_ACTIVE = false ∧
          t.chip.core = s.chip.core)) ∧
  (∀ (s : State),
      (∀ v : Payload, bitsOf v.toNat 28 4 < 8 → ¬ (bitOf v.toNat 32 = true ∧ v.toNat % 2 ^ 24 = 0) →
        ∃ t, exec (.pwrIdleArmWrite v) s = .next t ∧ t.chip.b Fld.PWR_IDLE_ARM_ARMED = bitOf v.toNat 32 ∧
          t.chip.f Fld.PWR_IDLE_ARM_TARGET = bitsOf v.toNat 28 4 ∧ t.chip.f Fld.PWR_IDLE_ARM_TICKS = v.toNat % 2 ^ 24 ∧
          t.chip.regN Reg.PWR_IDLE_COUNT = 0) ∧
      (∀ v : Payload, 8 ≤ bitsOf v.toNat 28 4 → ∃ t, exec (.pwrIdleArmWrite v) s = .next t ∧
        t.chip.f Fld.PWR_IDLE_ARM_TARGET = s.chip.f Fld.PWR_IDLE_ARM_TARGET ∧ t.chip.b Fld.SYS_STATUS_REG_REJECT = true ∧
        t.chip.b Fld.PWR_IDLE_ARM_ARMED = (bitOf v.toNat 32 && s.chip.b Fld.PWR_IDLE_ARM_ARMED) ∧
        t.chip.regN Reg.PWR_IDLE_COUNT = s.chip.regN Reg.PWR_IDLE_COUNT) ∧
      (∀ v : Payload, bitOf v.toNat 32 = true → v.toNat % 2 ^ 24 = 0 → ∃ t, exec (.pwrIdleArmWrite v) s = .next t ∧
        t.chip.f Fld.PWR_IDLE_ARM_TICKS = s.chip.f Fld.PWR_IDLE_ARM_TICKS ∧ t.chip.b Fld.SYS_STATUS_REG_REJECT = true ∧
        t.chip.b Fld.PWR_IDLE_ARM_ARMED = s.chip.b Fld.PWR_IDLE_ARM_ARMED ∧
        t.chip.regN Reg.PWR_IDLE_COUNT = s.chip.regN Reg.PWR_IDLE_COUNT) ∧
      (s.chip.b Fld.PWR_IDLE_ARM_ARMED = true → s.chip.f Fld.PWR_IDLE_ARM_TICKS ≤ s.chip.regN Reg.PWR_IDLE_COUNT →
        exec .idleFired s = .next { s with
          chip := powerRequest (s.chip.f Fld.PWR_IDLE_ARM_TARGET) ((s.chip.setB Fld.PWR_IDLE_ARM_ARMED false).raise .pwr 5) }))

/-- R341, R349: when an entry to Night or deeper finds no frame, carrier or ACK left, the islands of the sleep state are put
down, the pads latch, the power state becomes the target, and entry completes at the next 32.768 kHz edge.

R343, R271: at the end of the wake sequence of Night or Midnight, with a kept recipe that re-applies, firmware starts at
bundle 0 with CORE_CAUSE WAKE; with one that does not, the wake counts as a failed start, in the state record or where there is none in
AON, and the device resets into BOOT. -/
def Obligations.SleepAndWake : Prop :=
  (∀ (s : State), s.chip.entering = true → s.chip.b Fld.PWR_STATUS_ENTRY_WAIT = true → s.chip.power ≤ 3 →
      s.chip.radio.frames = [] → s.chip.radio.carriers = [] → s.chip.radio.acks = [] →
      let target := s.chip.f Fld.PWR_STATUS_ACTIVE_TARGET
      exec .sleepEntryDrained s = .next { s with
        chip := (setPower target (latchPads 1 ((sleepDown target s.chip).setB Fld.PWR_STATUS_ENTRY_WAIT false))).onPwr fun p =>
          { p with
            wakeEdge := none
            entered := nextEdge s.chip.now
            doneAt := none } } ∧
      ∃ t, exec .sleepEntryDrained s = .next t ∧ t.chip.power = target ∧ t.chip.b Fld.PAD_STATUS_LATCHED = true ∧
        t.chip.pwr.entered = (s.chip.now / 2048 + 1) * 2048) ∧
  (∀ (s : State) (found : Option DdrFound) (g : Nat), s.chip.pwr.doneAt = some g → g ≤ s.chip.now →
      s.chip.power = 5 ∨ s.chip.power = 6 →
      let back := (sleepOff s.chip.power s.chip).foldl (fun c i => if c.island i == .absent then c else c.setIsland i .on) s.chip
      (back.wakeFails (s.chip.kept.getD (parseRecipe [])) = false →
        ∃ t, exec (.wake found) s = .next t ∧ t.chip.core.running = true ∧ t.chip.core.pc = 0 ∧
          t.chip.core.startCause = 1 ∧ t.otp = s.otp) ∧
      (back.wakeFails (s.chip.kept.getD (parseRecipe [])) = true →
        ∃ t, exec (.wake found) s = .next t ∧ t.chip.dev = devBoot ∧ t.chip.core = Core.reset ∧
          t.chip.regN Reg.PWR_RESET_CAUSE = 2 ^ causeWakeFail ∧ t.otp = s.otp ∧
          (∀ r, s.chip.upd.record = some r → t.chip.mems.mram = (putRec { r with fails := r.fails + 1 } back).mems.mram ∧
            t.chip.upd.aonFails = s.chip.upd.aonFails) ∧
          (s.chip.upd.record = none → t.chip.upd.aonFails = s.chip.upd.aonFails + 1 ∧ t.chip.mems.mram = s.chip.mems.mram)))

/-- R22, R339, R414: POWER_UP, RESET_N held for at least 1 µs, and the end of a brown-out each put a chip whose DEAD fuse is
not burned into BOOT with its cause recorded and no firmware running; a RESET_N pulse below 100 ns changes nothing. -/
def Obligations.ResetsIntoBoot : Prop :=
  ∀ (s : State), deadFused s.otp = false →
    (∀ (held : Bool) (mv : BitVec 12) (io33 : Bool), ∃ t, exec (.powerUp held mv io33) s = .next t ∧
      t.chip.dev = devBoot ∧ t.chip.regN Reg.PWR_RESET_CAUSE = 2 ^ causePowerUp ∧ t.chip.core.running = false) ∧
    (∀ ns, 1000 ≤ ns → s.chip.pwr.brownout = false → ∃ t, exec (.resetN ns) s = .next t ∧
      t.chip.dev = devBoot ∧ t.chip.regN Reg.PWR_RESET_CAUSE = 2 ^ causePin ∧ t.chip.core.running = false ∧
      t.chip.mems.mram = s.chip.mems.mram) ∧
    (∀ ns, ns < 100 → exec (.resetN ns) s = .next s) ∧
    (∀ mv : BitVec 12, s.chip.pwr.brownout = true → ∃ t, exec (.brownOutExit mv) s = .next t ∧
      t.chip.dev = devBoot ∧ t.chip.regN Reg.PWR_RESET_CAUSE = 2 ^ causeBrownout ∧ t.chip.pwr.brownout = false ∧
      t.chip.core.running = false ∧
      t.chip.pwr.vsys = mv.toNat)

/-- R414: between 100 ns and 1 µs the outcome of a RESET_N pulse is not defined, and the machine stops by name; it is the one
stop of the model. -/
def Obligations.OnlyTheUndefinedPulseStops : Prop :=
  (∀ (s : State) (ns : Nat), 100 ≤ ns → ns < 1000 → exec (.resetN ns) s = .fault .resetPulseUndefined) ∧
  ∀ (s : State) (i : Instr), Safety.stops (exec i s) = true → ∃ ns, i = .resetN ns ∧ 100 ≤ ns ∧ ns < 1000

/-- R339: a brown-out on a board with a backup cell puts the chip into Small Hours with its pads latched and the RTC domain on
VBAT; on a board without one it holds the device in reset, in BOOT. -/
def Obligations.BrownOut : Prop :=
  ∀ (s : State), s.chip.pwr.brownout = false → s.chip.b Fld.PWR_STATUS_ACTIVE = false → s.chip.b Fld.PWR_STATUS_PENDING = false →
    (s.chip.b Fld.RTC_CTRL_NO_BACKUP = false →
      ∃ t, exec .brownOut s = .next t ∧ t.chip.power = 7 ∧ t.chip.b Fld.PAD_STATUS_LATCHED = true ∧ t.chip.pwr.brownout = true ∧
        t.chip.rtc.onVbat = true ∧ t.chip.mems.mram = s.chip.mems.mram) ∧
    (s.chip.b Fld.RTC_CTRL_NO_BACKUP = true → deadFused s.otp = false →
      ∃ t, exec .brownOut s = .next t ∧ t.chip.dev = devBoot ∧ t.chip.pwr.heldInReset = true ∧ t.chip.pwr.brownout = true)

/-- R340, R349: a junction sample is reported with the supply; the second in a row at 125 °C or more trips the thermal guard
and the second below 115 °C releases it. PAD_RELEASE releases latched pads in RUN and GERMINATE, and is rejected in BOOT,
RECOVERY and DEAD and while boundary scan holds the pads; boundary scan takes the pads, and gives them back with
PAD_STATUS as what latched or released them meanwhile left it (log entry 38, DEDUCED). -/
def Obligations.GuardAndPads : Prop :=
  ∀ (s : State),
    (∀ (x : BitVec 8) (mv : BitVec 12), s.chip.awake = true → s.chip.pwr.brownout = false →
      (∃ t, exec (.thermalSample x mv) s = .next t ∧ t.chip.pwr.vsys = mv.toNat ∧
        t.chip.f Fld.PWR_MONITOR_VSYS_MV = mv.toNat ∧ t.chip.fI Fld.PWR_MONITOR_JUNCTION = x.toInt) ∧
      (125 ≤ x.toInt → 1 ≤ s.chip.pwr.hot → ∃ t, exec (.thermalSample x mv) s = .next t ∧
        t.chip.b Fld.PWR_STATUS_THERMAL_HOLD = true) ∧
      (x.toInt < 115 → 1 ≤ s.chip.pwr.cool → ∃ t, exec (.thermalSample x mv) s = .next t ∧
        t.chip.b Fld.PWR_STATUS_THERMAL_HOLD = false)) ∧
    (s.chip.dev = devRun ∨ s.chip.dev = devGerminate → s.chip.scan = false →
      exec .padRelease s = .next { s with chip := s.chip.setB Fld.PAD_STATUS_LATCHED false }) ∧
    (s.chip.dev = devBoot ∨ s.chip.dev = devRecovery ∨ s.chip.dev = devDead ∨ s.chip.scan = true →
      exec .padRelease s = .next { s with chip := s.chip.regReject }) ∧
    (let held : Chip := { s.chip with scan := true };
      exec (.boundaryScan true) s = .next { s with chip := held } ∧
      (s.chip.power ≠ 7 → ∀ p, held.padState p = .scan) ∧
      (held.regServed Reg.PAD_STATUS = true → ∀ who, (readReg who s.otp Reg.PAD_STATUS held).1 = .bits 5)) ∧
    (∃ t, exec (.boundaryScan false) s = .next t ∧ t.chip.scan = false ∧
      t.chip.regN Reg.PAD_STATUS = s.chip.regN Reg.PAD_STATUS ∧ t.chip.b Fld.PAD_STATUS_LATCHED = s.chip.b Fld.PAD_STATUS_LATCHED)


/-- R317, R320, R321: SET and SHIFT wait for their tick as the pending command, one already pending being answered
SUPERSEDED, or taking effect first where its tick has come; SHIFT by 0x8000 is reserved; SNAP waits for the next tick. With the RTC locked out each is rejected.

R317, R320, R321: at its tick a pending SET within the range puts its time into the counter, clears OSC_STOP and
RANGE_END, names itself as the time source and answers OK; one outside the range answers BAD_ARG and leaves the counter, and
before its tick nothing happens; while the crystal is stopped every command answers STATE_REFUSED. A snapshot takes the counter
and the grain of its tick, after the adjustment and the command of that tick. A SHIFT
moves the counter by its field, less an adjustment made within the last 2 ticks, and loses one that comes within the next 2 (erratum E5; log
entry 48, DEDUCED). Stated for SET and SHIFT with no alarm armed. That a command
whose tick has come is applied late, and a refusal at once, is the model's choice (log entry 202). -/
def Obligations.RtcCommands : Prop :=
  (∀ (s : State),
      (s.chip.isOn .rtc = true → s.chip.rtc.pending = none →
        exec .set s = .next { s with
          chip := ({ s.chip with rtc := { s.chip.rtc with pending := some .set, cmdDue := false } }).setB Fld.RTC_STATUS_CMD_PENDING true } ∧
        ∀ n : BitVec 16, n ≠ 0x8000#16 → exec (.shift n) s = .next { s with
          chip := ({ s.chip with rtc := { s.chip.rtc with pending := some (.shift n.toInt), cmdDue := false } }).setB Fld.RTC_STATUS_CMD_PENDING true }) ∧
      (s.chip.isOn .rtc = true → s.chip.power ≠ 7 → s.chip.rtc.pending.isSome = true → s.chip.rtc.cmdDue = true →
        exec .set s = exec .set { s with chip := rtcApply s.chip }) ∧
      (s.chip.isOn .rtc = true → s.chip.rtc.pending.isSome = true → s.chip.rtc.cmdDue = false →
        ∃ t, exec .set s = .next t ∧ t.chip.rtc.pending = some .set ∧
          t.chip.f Fld.RTC_STATUS_CMD_RESULT = Status.superseded.code ∧ t.chip.b ⟨Reg.RTC_INT_STATUS, 3, 1⟩ = true) ∧
      (s.chip.isOn .rtc = true → s.chip.rtc.pending.isSome = true → s.chip.rtc.cmdDue = false →
        ∀ n : BitVec 16, n ≠ 0x8000#16 → ∃ t, exec (.shift n) s = .next t ∧ t.chip.rtc.pending = some (.shift n.toInt) ∧
          t.chip.b Fld.RTC_STATUS_CMD_PENDING = true ∧
          t.chip.f Fld.RTC_STATUS_CMD_RESULT = Status.superseded.code ∧ t.chip.b ⟨Reg.RTC_INT_STATUS, 3, 1⟩ = true) ∧
      exec (.shift 0x8000#16) s = .next { s with chip := s.chip.regReject } ∧
      (s.chip.isOn .rtc = true → exec .snap s = .next { s with chip := { s.chip with rtc := { s.chip.rtc with snap := true } } }) ∧
      (s.chip.isOn .rtc = false → exec .set s = .next { s with chip := s.chip.regReject } ∧
        (∀ n, exec (.shift n) s = .next { s with chip := s.chip.regReject }) ∧
        exec .snap s = .next { s with chip := s.chip.regReject })) ∧
  (∀ (s : State), s.chip.b Fld.RTC_STATUS_OSC_RUNNING = false → s.chip.rtc.pending.isSome = true →
    ∃ t, exec .rtcCmdApply s = .next t ∧ t.chip.rtcNow = s.chip.rtcNow ∧ t.chip.b Fld.RTC_STATUS_CMD_PENDING = false ∧
      t.chip.f Fld.RTC_STATUS_CMD_RESULT = Status.stateRefused.code ∧ t.chip.rtc.pending = none) ∧
  (∀ (s : State), s.chip.b Fld.RTC_STATUS_OSC_RUNNING = true →
      (s.chip.rtc.pending = none ∨ s.chip.rtc.cmdDue = false → exec .rtcCmdApply s = .next s) ∧
      (s.chip.rtc.pending = some .set → s.chip.rtc.cmdDue = true → 0 ≤ s.chip.regI Reg.RTC_SET_SECONDS → s.chip.regI Reg.RTC_SET_SECONDS ≤ rtcLastSecond →
        s.chip.regN Reg.RTC_SET_FRAC < 32768 → (∀ a, a < 4 → s.chip.alarmArmed a = false) →
        ∃ t, exec .rtcCmdApply s = .next t ∧ t.chip.regN Reg.RTC_SECONDS = s.chip.regN Reg.RTC_SET_SECONDS ∧
          t.chip.regN Reg.RTC_FRAC = s.chip.regN Reg.RTC_SET_FRAC ∧ t.chip.b Fld.RTC_STATUS_OSC_STOP = false ∧
          t.chip.b Fld.RTC_STATUS_RANGE_END = false ∧ t.chip.f Fld.RTC_STATUS_TIME_SOURCE = 1 ∧
          t.chip.f Fld.RTC_STATUS_CMD_RESULT = Status.ok.code ∧ t.chip.rtc.pending = none) ∧
      (s.chip.rtc.pending = some .set → s.chip.rtc.cmdDue = true → (rtcLastSecond : Int) < s.chip.regI Reg.RTC_SET_SECONDS →
        ∃ t, exec .rtcCmdApply s = .next t ∧ t.chip.rtcNow = s.chip.rtcNow ∧
          t.chip.f Fld.RTC_STATUS_CMD_RESULT = Status.badArg.code ∧ t.chip.rtc.pending = none) ∧
      (s.chip.rtc.pending = some .set → s.chip.rtc.cmdDue = true → s.chip.regI Reg.RTC_SET_SECONDS < 0 →
        ∃ t, exec .rtcCmdApply s = .next t ∧ t.chip.rtcNow = s.chip.rtcNow ∧
          t.chip.f Fld.RTC_STATUS_CMD_RESULT = Status.badArg.code ∧ t.chip.rtc.pending = none) ∧
      (∀ z : Int, s.chip.rtc.pending = some (.shift z) → s.chip.rtc.cmdDue = true →
        let tm : Int := s.chip.rtcNow - s.chip.rtc.adjMade + z
        (z = 0 → ∃ t, exec .rtcCmdApply s = .next t ∧ t.chip.rtcNow = s.chip.rtcNow ∧
          t.chip.f Fld.RTC_STATUS_CMD_RESULT = Status.ok.code ∧ t.chip.rtc.pending = none) ∧
        (z ≠ 0 → 0 ≤ tm → tm < ((rtcLastSecond + 1) * 32768 : Nat) → (∀ a, a < 4 → s.chip.alarmArmed a = false) →
          ∃ t, exec .rtcCmdApply s = .next t ∧ (t.chip.rtcNow : Int) = tm ∧ t.chip.b Fld.RTC_STATUS_RANGE_END = false ∧
            t.chip.b Fld.RTC_STATUS_OSC_STOP = s.chip.b Fld.RTC_STATUS_OSC_STOP ∧
            t.chip.f Fld.RTC_STATUS_TIME_SOURCE = s.chip.f Fld.RTC_STATUS_TIME_SOURCE ∧
            t.chip.f Fld.RTC_STATUS_CMD_RESULT = Status.ok.code ∧ t.chip.rtc.pending = none ∧ t.chip.rtc.adjMade = 0 ∧
            (4094 ≤ s.chip.rtc.periodTick % 4096 ∨ s.chip.rtc.adjDue = true → t.chip.rtc.adjLost = true)) ∧
        (z ≠ 0 → tm < 0 ∨ ((rtcLastSecond + 1) * 32768 : Nat) ≤ tm →
          ∃ t, exec .rtcCmdApply s = .next t ∧ t.chip.rtcNow = s.chip.rtcNow ∧
            t.chip.f Fld.RTC_STATUS_CMD_RESULT = Status.badArg.code ∧ t.chip.rtc.pending = none)) ∧
      (s.chip.rtc.snapDue = false → exec .snapTaken s = .next s) ∧
      (s.chip.rtc.snapDue = true → s.chip.rtc.adjDue = true ∨ s.chip.rtc.cmdDue = true →
        exec .snapTaken s = exec .snapTaken { s with chip := compAdjust (if s.chip.rtc.cmdDue then rtcApply s.chip else s.chip) }) ∧
      (s.chip.rtc.snapDue = true → s.chip.rtc.adjDue = false → s.chip.rtc.cmdDue = false → ∃ t, exec .snapTaken s = .next t ∧
        t.chip.regN Reg.RTC_SNAP_SECONDS = s.chip.regN Reg.RTC_SECONDS ∧ t.chip.regN Reg.RTC_SNAP_FRAC = s.chip.regN Reg.RTC_FRAC ∧
        (∃ d, d < 3 ∧ t.chip.regN Reg.RTC_SNAP_GRAIN = (s.chip.now / 2048 * 2048 + d + 2 ^ 36 - 1) % 2 ^ 36) ∧
        t.chip.rtc.snap = false ∧ t.chip.b ⟨Reg.RTC_INT_STATUS, 4, 1⟩ = true))

/-- R314, R319, R324, R325, R327: what the tick brings. COMP_PERIOD that is due takes the temperature, forms the error at it and
the period's adjustment, keeps in the accumulator what the adjustment leaves, records each, and measures VBAT; without
compensation it leaves no adjustment. COMP_ADJUST adds or drops one fraction, unless it is lost or the counter holds.
RANGE_END sets its flag and holds the counter. ALARM_ARM judges the alarm's present time, and one that
has passed falls due, skipped, with the next tick; ALARM_FIRE fires an armed alarm that
is due once, disarmed, with its source, after the adjustment and the command of its tick, and from Small Hours it is a cold start. What is not due changes nothing. -/
def Obligations.RtcTicks : Prop :=
  ∀ (s : State),
    (∀ (temp : Int) (mv : Nat) (ppb : Int),
      (s.chip.rtc.periodDue = false → exec (.compPeriod temp mv ppb) s = .next s) ∧
      (s.chip.rtc.periodDue = true →
        let here := if s.chip.rtc.onVbat then s.chip.rtc.lastTemp else temp
        let acc := s.chip.rtc.acc - s.chip.errorPpb here * 1048576
        let want := roundNear acc 1000000000
        ∃ t, exec (.compPeriod temp mv ppb) s = .next t ∧ t.chip.rtc.periodDue = false ∧ t.chip.rtc.refArmed = true ∧
          t.chip.rtc.lastTemp = here ∧ t.chip.rtcNow = s.chip.rtcNow ∧
          (s.chip.rtc.refArmed = true → t.chip.regN Reg.RTC_REF_PPB = unsigned 36 ppb) ∧
          (s.chip.b Fld.RTC_CTRL_COMP_ENABLE = true →
            t.chip.rtc.acc = acc - clamp255 want * 1000000000 ∧ t.chip.compTicks = clamp255 want ∧
            t.chip.b Fld.RTC_COMP_STATUS_CLAMPED = decide (clamp255 want ≠ want) ∧
            t.chip.regN Reg.RTC_COMP_ERROR = unsigned 36 (s.chip.errorPpb here) ∧
            t.chip.f Fld.RTC_COMP_STATUS_TEMP = unsigned 8 here ∧ t.chip.rtc.adjDue = (decide (clamp255 want ≠ 0) && ! s.chip.rtc.setNow) ∧
            (clamp255 want ≠ want → t.chip.b ⟨Reg.RTC_INT_STATUS, 6, 1⟩ = true)) ∧
          (s.chip.b Fld.RTC_CTRL_COMP_ENABLE = false →
            t.chip.rtc.acc = s.chip.rtc.acc ∧ t.chip.compTicks = 0 ∧ t.chip.b Fld.RTC_COMP_STATUS_CLAMPED = false ∧
            t.chip.rtc.adjDue = s.chip.rtc.adjDue) ∧
          (s.chip.rtc.onVbat = false → s.chip.b Fld.RTC_CTRL_NO_BACKUP = false → mv < 2 ^ 36 →
            t.chip.regN Reg.RTC_BACKUP_NOW = mv ∧
            (mv < s.chip.regN Reg.RTC_BACKUP_LEVEL →
              t.chip.b Fld.RTC_STATUS_LOW_BACKUP = true ∧ t.chip.b ⟨Reg.RTC_INT_STATUS, 1, 1⟩ = true) ∧
            (s.chip.regN Reg.RTC_BACKUP_LEVEL + 100 ≤ mv → t.chip.b Fld.RTC_STATUS_LOW_BACKUP = false) ∧
            (s.chip.regN Reg.RTC_BACKUP_LEVEL ≤ mv → mv < s.chip.regN Reg.RTC_BACKUP_LEVEL + 100 →
              t.chip.b Fld.RTC_STATUS_LOW_BACKUP = s.chip.b Fld.RTC_STATUS_LOW_BACKUP)) ∧
          (s.chip.rtc.onVbat = true ∨ s.chip.b Fld.RTC_CTRL_NO_BACKUP = true →
            t.chip.regN Reg.RTC_BACKUP_NOW = s.chip.regN Reg.RTC_BACKUP_NOW ∧
            t.chip.b Fld.RTC_STATUS_LOW_BACKUP = s.chip.b Fld.RTC_STATUS_LOW_BACKUP))) ∧
    ((s.chip.rtc.adjDue = false → exec .compAdjust s = .next s) ∧
      (s.chip.rtc.adjDue = true → s.chip.rtc.adjLost = true ∨ s.chip.b Fld.RTC_STATUS_RANGE_END = true →
        exec .compAdjust s = .next { s with
          chip := { s.chip with rtc := { s.chip.rtc with adjDue := false, adjLost := false } } }) ∧
      (s.chip.rtc.adjDue = true → s.chip.rtc.adjLost = false → s.chip.b Fld.RTC_STATUS_RANGE_END = false →
        (0 < s.chip.compTicks → s.chip.rtcNow + 1 < (rtcLastSecond + 1) * 32768 →
          exec .compAdjust s = .next { s with
            chip := markAlarms (rtcSetCounter { s.chip with
              rtc := { s.chip.rtc with adjDue := false, adjLost := false, adjMade := 1 } } (s.chip.rtcNow + 1)) } ∧
          ∃ t, exec .compAdjust s = .next t ∧ t.chip.rtcNow = s.chip.rtcNow + 1 ∧
            ∀ a : Fin 4, s.chip.alarmArmed a.val = true → s.chip.alarmTime a.val = s.chip.rtcNow + 1 →
              s.chip.rtc.alarmSkipped.contains a.val = false → t.chip.rtc.alarmDue.contains a.val = true) ∧
        (0 < s.chip.compTicks → (rtcLastSecond + 1) * 32768 ≤ s.chip.rtcNow + 1 →
          ∃ t, exec .compAdjust s = .next t ∧ t.chip.rtcNow = s.chip.rtcNow ∧ t.chip.rtc.endDue = true ∧
            t.chip.rtc.adjDue = false) ∧
        (s.chip.compTicks < 0 → s.chip.rtc.endDue = true →
          ∃ t, exec .compAdjust s = .next t ∧ t.chip.rtcNow = s.chip.rtcNow ∧ t.chip.rtc.endDue = false ∧ t.chip.rtc.adjDue = false) ∧
        (s.chip.compTicks < 0 → s.chip.rtc.endDue = false → 0 < s.chip.rtcNow → s.chip.rtcNow < (rtcLastSecond + 1) * 32768 →
          ∃ t, exec .compAdjust s = .next t ∧ t.chip.rtcNow = s.chip.rtcNow - 1 ∧ t.chip.rtc.adjDue = false ∧
            t.chip.regN Reg.RTC_CAL_TIME = calTime (t.chip.regN Reg.RTC_SECONDS) ∧
            ∀ a : Fin 4, t.chip.rtc.alarmDue.contains a.val =
              (s.chip.rtc.alarmDue.contains a.val && decide (s.chip.alarmTime a.val ≤ s.chip.rtcNow - 1))))) ∧
    ((s.chip.rtc.adjDue = true → exec .rangeEnd s = exec .rangeEnd { s with chip := compAdjust s.chip }) ∧
      (s.chip.rtc.adjDue = false → s.chip.rtc.endDue = false → exec .rangeEnd s = .next s) ∧
      (s.chip.rtc.adjDue = false → s.chip.rtc.endDue = true → ∃ t, exec .rangeEnd s = .next t ∧ t.chip.b Fld.RTC_STATUS_RANGE_END = true ∧
        t.chip.b ⟨Reg.RTC_INT_STATUS, 5, 1⟩ = true ∧ t.chip.rtcNow = s.chip.rtcNow ∧ t.chip.rtc.endDue = false ∧
        (s.chip.b ⟨Reg.RTC_INT_ENABLE, 5, 1⟩ = true → s.chip.isOn .evf = true → t.chip.hasFired 0xCC none = true))) ∧
    (∀ a : Fin 4,
      (s.chip.isOn .rtc = true → ∃ t, exec (.alarmArm a) s = .next t ∧ t.chip.alarmArmed a.val = true ∧
        t.chip.alarmTime a.val = s.chip.alarmTime a.val ∧ t.chip.rtc.alarmDue.contains a.val = false ∧
        t.chip.rtc.alarmSkipped.contains a.val = false ∧
        (t.chip.rtc.alarmLate.contains a.val = true ↔ s.chip.alarmTime a.val ≤ s.chip.rtcNow) ∧
        (s.chip.b Fld.RTC_STATUS_OSC_RUNNING = true → s.chip.rtc.net = none → s.chip.alarmTime a.val ≤ s.chip.rtcNow →
          (rtcTick t.chip).rtc.alarmSkipped.contains a.val = true) ∧
        ∀ b : Fin 4, b ≠ a → t.chip.alarmArmed b.val = s.chip.alarmArmed b.val ∧
          t.chip.rtc.alarmDue.contains b.val = s.chip.rtc.alarmDue.contains b.val) ∧
      (s.chip.isOn .rtc = false → exec (.alarmArm a) s = .next { s with chip := s.chip.regReject })) ∧
    (∀ a : Fin 4,
      let due := s.chip.alarmArmed a.val = true ∧ s.chip.b Fld.RTC_STATUS_RANGE_END = false ∧
        (s.chip.rtc.alarmDue.contains a.val = true ∨ s.chip.rtc.alarmSkipped.contains a.val = true)
      let first := s.chip.rtc.adjDue = false ∧ s.chip.rtc.cmdDue = false
      (¬ first → exec (.alarmFire a) s = exec (.alarmFire a) { s with
        chip := if s.chip.rtc.cmdDue then rtcApply (compAdjust s.chip) else compAdjust s.chip }) ∧
      (first → ¬ due → exec (.alarmFire a) s = .next s) ∧
      (first → due → s.chip.power ≤ 6 → ∃ t, exec (.alarmFire a) s = .next t ∧ t.chip.alarmArmed a.val = false ∧
        t.chip.b (Fld.RTC_ALARM_CTRL_FIRED a.val) = true ∧
        t.chip.b (Fld.RTC_ALARM_CTRL_SKIPPED a.val) =
          (s.chip.b (Fld.RTC_ALARM_CTRL_SKIPPED a.val) || s.chip.rtc.alarmSkipped.contains a.val) ∧
        t.chip.rtc.alarmDue.contains a.val = false ∧ t.chip.rtc.alarmSkipped.contains a.val = false ∧
        t.chip.rtcNow = s.chip.rtcNow ∧
        (s.chip.isOn .evf = true →
          t.chip.hasFired (0xC8 + a.val) (some (b2n (s.chip.rtc.alarmSkipped.contains a.val))) = true) ∧
        (5 ≤ s.chip.power → s.chip.pwr.doneAt = none → t.chip.pwr.latched.testBit 1 = true)) ∧
      (first → due → s.chip.power = 7 → s.chip.pwr.doneAt = none → s.chip.pwr.brownout = false → s.chip.b Fld.PWR_WAKE_ENABLE_ALARM = true →
        ∃ t, exec (.alarmFire a) s = .next t ∧ t.chip.dev = devBoot ∧ t.chip.regN Reg.PWR_RESET_CAUSE = 2 ^ causeSmallHours ∧
          t.chip.b (Fld.RTC_ALARM_CTRL_FIRED a.val) = true ∧ t.chip.alarmArmed a.val = false ∧ t.chip.core.running = false))

/-- R118, R326, R328, R329: how the RTC domain's supply and crystal are watched. A stopped crystal sets OSC_STOP, which its return
does not clear; LINK_STATUS shows it, keeping its last value while the domain is locked out (R118). A dip isolates the RTC block; below the switch level the domain runs from VBAT, logged and counted; a dip
that turned back releases the block; when main is valid again a held domain is released with its registers kept, and a lost
one returns to reset with OSC_STOP set. -/
def Obligations.RtcSupply : Prop :=
  ∀ (s : State),
    (∃ t, exec .oscStopped s = .next t ∧ t.chip.b Fld.RTC_STATUS_OSC_STOP = true ∧
      t.chip.b Fld.LINK_STATUS_OSC_STOP = (! s.chip.rtc.lockout || s.chip.b Fld.LINK_STATUS_OSC_STOP) ∧
      t.chip.b Fld.RTC_STATUS_OSC_RUNNING = false ∧ t.chip.rtcNow = s.chip.rtcNow) ∧
    exec .oscRecovered s = .next { s with chip := s.chip.setB Fld.RTC_STATUS_OSC_RUNNING true } ∧
    exec .rtcLockout s = .next { s with
      chip := ({ s.chip with rtc := { s.chip.rtc with lockout := true } }).setIsland .rtc .isolated } ∧
    (s.chip.rtc.onVbat = false → ∃ t, exec .switchToVbat s = .next t ∧ t.chip.rtc.onVbat = true ∧ t.chip.rtc.lockout = true ∧
      t.chip.isOn .rtc = false ∧ t.chip.rtcNow = s.chip.rtcNow ∧
      t.chip.f Fld.RTC_SUPPLY_LOG_LAST_EVENT = (if s.chip.power = 7 then 2 else 1) ∧
      t.chip.f Fld.RTC_SUPPLY_LOG_SWITCHES =
        min (s.chip.f Fld.RTC_SUPPLY_LOG_SWITCHES + 1) (2 ^ Fld.RTC_SUPPLY_LOG_SWITCHES.w - 1) ∧
      ∀ a, islandOf a = .rtc → a ≠ Reg.RTC_SUPPLY_LOG → a ≠ Reg.RTC_SUPPLY_LOG_AT → a ≠ Reg.RTC_INT_STATUS →
        t.chip.reg a = s.chip.reg a) ∧
    (s.chip.rtc.lockout = true → s.chip.rtc.onVbat = false →
      exec .lockoutRelease s = .next { s with chip := rtcRelease s.chip }) ∧
    (s.chip.rtc.onVbat = true → s.chip.b Fld.RTC_CTRL_NO_BACKUP = false → ∃ t, exec (.mainValid true) s = .next t ∧
      t.chip.rtc.onVbat = false ∧ t.chip.rtc.lockout = false ∧ t.chip.isOn .rtc = true ∧ t.chip.rtcNow = s.chip.rtcNow ∧
      t.chip.f Fld.RTC_SUPPLY_LOG_LAST_EVENT = 3 ∧
      ∀ a, islandOf a = .rtc → a ≠ Reg.RTC_SUPPLY_LOG → a ≠ Reg.RTC_SUPPLY_LOG_AT → a ≠ Reg.RTC_INT_STATUS →
        t.chip.reg a = s.chip.reg a) ∧
    (s.chip.rtc.onVbat = true → ∃ t, exec (.mainValid false) s = .next t ∧ t.chip.isOn .rtc = true ∧
      t.chip.b Fld.RTC_STATUS_OSC_STOP = true ∧ t.chip.regN Reg.RTC_SECONDS = 0 ∧ t.chip.f Fld.RTC_SUPPLY_LOG_LAST_EVENT = 4 ∧
      t.chip.regN Reg.RTC_INT_STATUS = 1)


/-- R294, R295, R298, R300: the timer tasks and the TMR_GO writes. A timer in MODE 0 that is no odd half of a pair starts,
stops and clears at its tasks; one that mirrors the grain counter, or an odd half, ignores START and STOP. SNAP takes the
count into the snapshot register alone. Within a grain a STOP wins over a START, a COUNT write over a CLEAR, and a SNAP takes
the count that results; a task that comes once the compares of its grain have been evaluated acts at the next (log entry 197, DEDUCED). With the EVF
island off the four tasks change nothing. TMR_GO adds the named timers to those that start or stop at the next grain. -/
def Obligations.TimerTasks : Prop :=
  ∀ (s : State) (t : Fin 16),
    (s.chip.isOn .evf = false →
      exec (.tmrStart t) s = .next s ∧ exec (.tmrStop t) s = .next s ∧ exec (.tmrClear t) s = .next s ∧
      exec (.tmrSnap t) s = .next s) ∧
    (s.chip.isOn .evf = true → s.chip.tmrMirror t.val = false → s.chip.tmrChainedOdd t.val = false →
      s.chip.tmrMatched t.val = false →
      (s.chip.fab.tick.stopped.contains t.val = false → ∃ u, exec (.tmrStart t) s = .next u ∧
        u.chip.regs = (s.chip.setB (Fld.TMR_CTRL_RUN t.val) true).regs ∧ u.chip.mems = s.chip.mems ∧ u.otp = s.otp) ∧
      (s.chip.fab.tick.stopped.contains t.val = true → exec (.tmrStart t) s = .next s) ∧
      ∃ u, exec (.tmrStop t) s = .next u ∧ u.chip.regs = (s.chip.setB (Fld.TMR_CTRL_RUN t.val) false).regs ∧
        u.chip.fab.tick.stopped.contains t.val = true ∧ u.chip.mems = s.chip.mems ∧ u.otp = s.otp) ∧
    (s.chip.isOn .evf = true → s.chip.tmrMirror t.val = false → s.chip.tmrChainedOdd t.val = false →
      s.chip.tmrMatched t.val = true →
      exec (.tmrStart t) s = .next { s with chip := s.chip.onFab fun f => { f with goStart := f.goStart ++ [t.val] } } ∧
      exec (.tmrStop t) s = .next { s with chip := s.chip.onFab fun f => { f with goStop := f.goStop ++ [t.val] } } ∧
      exec (.tmrClear t) s = .next { s with chip := s.chip.onFab fun f => { f with goClear := f.goClear ++ [t.val] } }) ∧
    (s.chip.isOn .evf = true → s.chip.tmrMirror t.val = true ∨ s.chip.tmrChainedOdd t.val = true →
      exec (.tmrStart t) s = .next s ∧ exec (.tmrStop t) s = .next s) ∧
    (s.chip.isOn .evf = true → s.chip.tmrMirror t.val = false → s.chip.tmrMatched t.val = false →
      (s.chip.fab.tick.counted.contains t.val = true → exec (.tmrClear t) s = .next s) ∧
      (s.chip.fab.tick.counted.contains t.val = false → s.chip.fab.tick.captured = [] →
        (s.chip.fab.tick.snapped.contains t.val = false → ∃ u, exec (.tmrClear t) s = .next u ∧
          u.chip.reg (Reg.TMR_COUNT t.val) = ⟨.grain, 0⟩ ∧ u.chip.regs = (setTmrCount s.chip t.val 0).regs ∧
          u.chip.mems = s.chip.mems ∧ u.otp = s.otp) ∧
        (s.chip.fab.tick.snapped.contains t.val = true → ∃ u, exec (.tmrClear t) s = .next u ∧
          u.chip.reg (Reg.TMR_COUNT t.val) = ⟨.grain, 0⟩ ∧ u.chip.reg (Reg.TMR_SNAPV t.val) = ⟨.grain, 0⟩))) ∧
    (s.chip.isOn .evf = true →
      exec (.tmrSnap t) s = .next { s with
        chip := (onTick (fun k => { k with snapped := t.val :: k.snapped }) s.chip).setReg (Reg.TMR_SNAPV t.val)
          ⟨.grain, s.chip.tmrCount t.val⟩ }) ∧
    (s.chip.isOn .evf = true → ∀ mask : BitVec 16,
      exec (.tmrGoStart mask) s = .next { s with chip := s.chip.onFab fun f =>
        { f with goStart := f.goStart ++ timers.filter fun t => mask.toNat.testBit t } } ∧
      exec (.tmrGoStop mask) s = .next { s with chip := s.chip.onFab fun f =>
        { f with goStop := f.goStop ++ timers.filter fun t => mask.toNat.testBit t } }) ∧
    (s.chip.isOn .evf = false → ∀ mask : BitVec 16,
      exec (.tmrGoStart mask) s = .next { s with chip := s.chip.regReject } ∧
      exec (.tmrGoStop mask) s = .next { s with chip := s.chip.regReject })

/-- R294, R296, R298: a write of a count is taken by a timer in MODE 0, or by an odd half of a pair, that did not run as the
grain began, and rejected by another; armed channels are judged against it; once the compares of its grain have been evaluated it waits for the next (log entry 197, DEDUCED). A
write of a compare value arms its channel: if the value lies after the count the channel waits, and if not it fires late, from
the next tick on. In a 72-bit compare the odd half arms and is judged as the pair, and the even half is only stored. -/
def Obligations.TimerWrites : Prop :=
  ∀ (s : State) (t : Fin 16) (v : Payload), s.chip.isOn .evf = true →
    (s.chip.tmrMatched t.val = false → s.chip.ranBefore t.val = false →
      s.chip.tmrMirror t.val = false ∨ s.chip.tmrChainedOdd t.val = true →
      s.chip.fab.tick.snapped.contains t.val = false → s.chip.fab.tick.captured = [] →
      ∃ u, exec (.tmrCountWrite t v) s = .next u ∧ u.chip.reg (Reg.TMR_COUNT t.val) = ⟨.grain, v⟩ ∧
        u.chip.regs = (setTmrCount s.chip t.val v).regs ∧ u.chip.mems = s.chip.mems ∧
        u.chip.fab.tick.counted.contains t.val = true) ∧
    (s.chip.tmrMatched t.val = true → s.chip.tmrMirror t.val = false ∨ s.chip.tmrChainedOdd t.val = true →
      exec (.tmrCountWrite t v) s = .next { s with
        chip := s.chip.onFab fun f => { f with goCount := f.goCount ++ [(t.val, v)] } }) ∧
    (s.chip.tmrMatched t.val = false ∧ s.chip.ranBefore t.val = true ∨
        s.chip.tmrMirror t.val = true ∧ s.chip.tmrChainedOdd t.val = false →
      exec (.tmrCountWrite t v) s = .next { s with chip := s.chip.regReject }) ∧
    (∀ ix : Fin 4, s.chip.tmrWide t.val ix.val = false → s.chip.tmrSilent t.val ix.val = false →
      ∃ u, exec (.tmrCmpWrite t ix v) s = .next u ∧ u.chip.reg (Reg.TMR_CMP t.val ix.val) = ⟨.grain, v⟩ ∧
        u.chip.cmpArmed t.val ix.val = true ∧ (channel t.val ix.val) ∉ u.chip.fab.onTime ∧
        ((channel t.val ix.val, s.chip.now + 1) ∈ u.chip.fab.late ↔ grainAfter v (s.chip.tmrCount t.val) = false) ∧
        u.chip.lateDue (channel t.val ix.val) = false ∧ u.chip.mems = s.chip.mems) ∧
    (∀ ix : Fin 4, s.chip.tmrSilent t.val ix.val = true →
      exec (.tmrCmpWrite t ix v) s = .next { s with chip := s.chip.setReg (Reg.TMR_CMP t.val ix.val) ⟨.grain, v⟩ }) ∧
    (∀ ix : Fin 4, s.chip.tmrWide t.val ix.val = true →
      ∃ u, exec (.tmrCmpWrite t ix v) s = .next u ∧ u.chip.reg (Reg.TMR_CMP t.val ix.val) = ⟨.grain, v⟩ ∧
        u.chip.cmpArmed t.val ix.val = true ∧ (channel t.val ix.val) ∉ u.chip.fab.onTime ∧
        ((channel t.val ix.val, s.chip.now + 1) ∈ u.chip.fab.late ↔
          v.toNat * 2 ^ 36 + s.chip.regN (Reg.TMR_CMP (t.val - 1) ix.val) ≤ s.chip.pairCount t.val) ∧
        u.chip.mems = s.chip.mems)

/-- R294, R296, R297, R299: a due channel that is armed fires: FIRED is set, and LATE with it when it was due late; its source
fires with that as payload; without RELOAD it is disarmed, and with RELOAD its compare value moves on by ADD, it stays
armed, and a late one fires again in the next tick at the earliest; a 72-bit compare moves on as one number. A channel that its odd partner silences, or that is not
due, changes nothing. A timer that wrapped fires WRAP once.

R301, R304: a capture takes the count of its timer into CAP_VALUE_LO, sets FULL and fires its source with the edge, what FULL
was and whether a task asked; OVERFLOW is set when FULL was; the edge count starts afresh. An edge that has held for FILTER
grains captures when it is one that EDGE selects and the edge count has reached its prescaler; before that it is only counted. -/
def Obligations.ComparesAndCaptures : Prop :=
  (∀ (s : State) (t : Fin 16), s.chip.isOn .evf = true →
      (∀ ix : Fin 4, let ch := channel t.val ix.val
        let late := s.chip.lateDue ch
        (s.chip.cmpArmed t.val ix.val = false ∨ s.chip.tmrSilent t.val ix.val = true ∨
            late = false ∧ s.chip.fab.onTime.contains ch = false →
          exec (.compareFire t ix) s = .next s) ∧
        (s.chip.cmpArmed t.val ix.val = true → late = true ∨ s.chip.fab.onTime.contains ch = true →
          s.chip.tmrSilent t.val ix.val = false → s.chip.tmrWide t.val ix.val = false →
          (s.chip.b (Fld.TMR_CCFG_RELOAD t.val ix.val) = false →
            ∃ u, exec (.compareFire t ix) s = .next u ∧ u.chip.b ⟨Reg.TMR_STATUS t.val, ix.val, 1⟩ = true ∧
              u.chip.b ⟨Reg.TMR_STATUS t.val, 4 + ix.val, 1⟩ = (late || s.chip.b ⟨Reg.TMR_STATUS t.val, 4 + ix.val, 1⟩) ∧
              u.chip.cmpArmed t.val ix.val = false ∧ u.chip.hasFired ch (some (b2n late)) = true ∧
              u.chip.lateDue ch = false ∧ u.chip.fab.onTime.contains ch = false) ∧
          (s.chip.b (Fld.TMR_CCFG_RELOAD t.val ix.val) = true →
            ∃ u, exec (.compareFire t ix) s = .next u ∧ u.chip.b ⟨Reg.TMR_STATUS t.val, ix.val, 1⟩ = true ∧
              u.chip.cmpArmed t.val ix.val = true ∧ u.chip.hasFired ch (some (b2n late)) = true ∧
              u.chip.lateDue ch = false ∧
              u.chip.regN (Reg.TMR_CMP t.val ix.val) =
                (s.chip.regN (Reg.TMR_CMP t.val ix.val) + s.chip.regN (Reg.TMR_ADD t.val ix.val)) % 2 ^ 36)) ∧
        (s.chip.cmpArmed t.val ix.val = true → late = true ∨ s.chip.fab.onTime.contains ch = true →
          s.chip.tmrWide t.val ix.val = true →
          ∃ u, exec (.compareFire t ix) s = .next u ∧ u.chip.b ⟨Reg.TMR_STATUS t.val, ix.val, 1⟩ = true ∧
            u.chip.hasFired ch (some (b2n late)) = true ∧ u.chip.lateDue ch = false ∧ u.chip.tmrMatched (t.val - 1) = true ∧
            u.chip.cmpArmed t.val ix.val = s.chip.b (Fld.TMR_CCFG_RELOAD t.val ix.val) ∧
            u.chip.pairCmp t.val ix.val = (if s.chip.b (Fld.TMR_CCFG_RELOAD t.val ix.val) then
              (s.chip.pairCmp t.val ix.val + s.chip.regN (Reg.TMR_ADD t.val ix.val)) % 2 ^ 72 else s.chip.pairCmp t.val ix.val))) ∧
      (s.chip.fab.wrapped.contains t.val = true →
        ∃ u, exec (.tmrWrap t) s = .next u ∧ u.chip.hasFired (0x40 + t.val) (some 0) = true ∧
          u.chip.fab.wrapped.contains t.val = false ∧ u.chip.regs = s.chip.regs) ∧
      (s.chip.fab.wrapped.contains t.val = false → exec (.tmrWrap t) s = .next s)) ∧
  (∀ (s : State) (k : Fin 8), s.chip.isOn .evf = true →
      (∃ u, exec (.capTrig k) s = .next u ∧ u.chip.b (Fld.CAP_STATUS_FULL k.val) = true ∧
        u.chip.reg (Reg.CAP_VALUE_LO k.val) = ⟨.grain, s.chip.tmrCount (s.chip.f (Fld.CAP_CTRL_TIMER k.val))⟩ ∧
        u.chip.b (Fld.CAP_STATUS_OVERFLOW k.val) = (s.chip.b (Fld.CAP_STATUS_FULL k.val) || s.chip.b (Fld.CAP_STATUS_OVERFLOW k.val)) ∧
        u.chip.hasFired (0x50 + k.val) (some (2 * b2n (s.chip.b (Fld.CAP_STATUS_FULL k.val)) + 4)) = true ∧
        u.chip.f (Fld.CAP_STATUS_EDGES k.val) = 0 ∧ u.chip.mems = s.chip.mems) ∧
      (∀ level : Bool, s.chip.b (Fld.CAP_CTRL_ENABLE k.val) = true → (s.chip.f Fld.TMR_FEATURE_CAP_PINS).testBit k.val = true →
        s.chip.b (Fld.CAP_STATUS_LEVEL k.val) = (! level) → s.chip.capHeld k.val level = true →
        (edgeSelected (s.chip.f (Fld.CAP_CTRL_EDGE k.val)) level = true →
          s.chip.f (Fld.CAP_CTRL_EDGE_PRESCALE k.val) ≤ s.chip.f (Fld.CAP_STATUS_EDGES k.val) →
          ∃ u, exec (.captureEdge k level) s = .next u ∧ u.chip.b (Fld.CAP_STATUS_FULL k.val) = true ∧
            u.chip.b (Fld.CAP_STATUS_LEVEL k.val) = level ∧ u.chip.f (Fld.CAP_STATUS_EDGES k.val) = 0 ∧
            u.chip.reg (Reg.CAP_VALUE_LO k.val) = ⟨.grain, s.chip.tmrCount (s.chip.f (Fld.CAP_CTRL_TIMER k.val))⟩) ∧
        (edgeSelected (s.chip.f (Fld.CAP_CTRL_EDGE k.val)) level = true →
          s.chip.f (Fld.CAP_STATUS_EDGES k.val) < s.chip.f (Fld.CAP_CTRL_EDGE_PRESCALE k.val) →
          exec (.captureEdge k level) s = .next { s with
            chip := (s.chip.setB (Fld.CAP_STATUS_LEVEL k.val) level).setF (Fld.CAP_STATUS_EDGES k.val)
              (s.chip.f (Fld.CAP_STATUS_EDGES k.val) + 1) }) ∧
        (edgeSelected (s.chip.f (Fld.CAP_CTRL_EDGE k.val)) level = false →
          exec (.captureEdge k level) s = .next { s with chip := s.chip.setB (Fld.CAP_STATUS_LEVEL k.val) level })) ∧
      (∀ level : Bool, s.chip.capHeld k.val level = false → exec (.captureEdge k level) s = .next s))

/-- R300, R303, R316: the reads that have an effect. The even count of a chained pair latches the odd count of the same
instant, which the reader's next read of the odd count returns and empties; RTC_SECONDS latches the fraction and the
calendar; CAP_VALUE_LO clears FULL. A read over PCIe or the quad SPI moves its word past the check units (R307). -/
def Obligations.LatchingReads : Prop :=
  ∀ (s : State), s.chip.power ≠ 7 →
    (∀ (who : Fin 5) (p : Fin 8), s.chip.isOn .evf = true → s.chip.tmrChainedOdd (2 * p.val + 1) = true →
      exec (.tmrPairRead who p false) s = .next { s with
        chip := (dmaSeen who.val 1 (wordBytes ⟨.grain, s.chip.tmrCount (2 * p.val)⟩) true (latchShadow who.val
          (Reg.TMR_COUNT (2 * p.val + 1)) ⟨.grain, s.chip.tmrCount (2 * p.val + 1)⟩ s.chip)).reply
          [⟨.grain, s.chip.tmrCount (2 * p.val)⟩] } ∧
      ∀ w, Store.get Word.absent s.chip.shadows (shadowKey who.val (Reg.TMR_COUNT (2 * p.val + 1))) = w → w ≠ .absent →
        exec (.tmrPairRead who p true) s = .next { s with
          chip := (dmaSeen who.val 1 (wordBytes w) true
            (latchShadow who.val (Reg.TMR_COUNT (2 * p.val + 1)) .absent s.chip)).reply [w] }) ∧
    (∀ who : Fin 5, s.chip.isOn .rtc = true →
      ∃ u, exec (.rtcSecondsRead who) s = .next u ∧ u.chip.out = [s.chip.reg Reg.RTC_SECONDS] ∧
        (who.val ≠ 1 → who.val ≠ 2 → u.chip.regs = s.chip.regs) ∧
        Store.get Word.absent u.chip.shadows (shadowKey who.val Reg.RTC_FRAC) = s.chip.reg Reg.RTC_FRAC ∧
        Store.get Word.absent u.chip.shadows (shadowKey who.val Reg.RTC_CAL_DATE) = s.chip.reg Reg.RTC_CAL_DATE ∧
        Store.get Word.absent u.chip.shadows (shadowKey who.val Reg.RTC_CAL_TIME) = s.chip.reg Reg.RTC_CAL_TIME) ∧
    (∀ k : Fin 8, s.chip.isOn .evf = true → exec (.capValueRead k) s = .next { s with
      chip := (s.chip.setB (Fld.CAP_STATUS_FULL k.val) false).reply [s.chip.reg (Reg.CAP_VALUE_LO k.val)] })

/-- R289, R290, R303: pins and software events. A GPIO edge that EVF_GPIO_EDGE selects fires the pin's source with its level;
a GPIO task of a pin that has the GPIO function waits for the end of its tick, which sets, clears or toggles the pin after
every register write, and a released pad that drives follows it; EVF_SW_FIRE fires its source in the tick after with the
payload written, indices 12 to 15 being reserved. -/
def Obligations.PinsAndSoftwareEvents : Prop :=
  ∀ (s : State), s.chip.isOn .evf = true →
    (∀ (p : Fin 40) (level : Bool), s.chip.b (gpioIn p.val) = (! level) →
      let seen := ((s.chip.setPin p.val level).setB (gpioIn p.val) level).onFab fun f =>
        { f with padAt := Store.put 0 f.padAt p.val (s.chip.now + 1) }
      (edgeSelected (bitsOf (s.chip.regN (Reg.EVF_GPIO_EDGE (p.val / 18))) (2 * (p.val % 18)) 2) level = true →
        exec (.gpioEdge p level) s = .next { s with chip := seen.fire (0x58 + p.val) (some (b2n level)) }) ∧
      (edgeSelected (bitsOf (s.chip.regN (Reg.EVF_GPIO_EDGE (p.val / 18))) (2 * (p.val % 18)) 2) level = false →
        exec (.gpioEdge p level) s = .next { s with chip := seen })) ∧
    (∀ m : Fin 32, let p := s.chip.f (Fld.EVF_GPIO_TASK_PIN m.val)
      let act := s.chip.f (Fld.EVF_GPIO_TASK_ACTION m.val)
      s.chip.gpioNamed p = true → s.chip.fab.gpioTasks = [] →
      exec (.gpioTask m) s = .next { s with chip := s.chip.onFab fun f => { f with gpioTasks := [m.val] } } ∧
      ∃ t, exec (.gpioTask m) s = .next t ∧ t.chip.regs = s.chip.regs ∧ (gpioEnd t.chip).fab.gpioTasks = [] ∧
        (act = 1 → (gpioEnd t.chip).regs = (s.chip.setB (gpioOut p) true).regs) ∧
        (act = 2 → (gpioEnd t.chip).regs = (s.chip.setB (gpioOut p) false).regs) ∧
        (act = 3 → (gpioEnd t.chip).regs = (s.chip.setB (gpioOut p) (! s.chip.b (gpioOut p))).regs) ∧
        (act = 0 → (gpioEnd t.chip).regs = s.chip.regs) ∧
        (act = 3 → p < 40 → s.chip.power ≠ 7 → s.chip.scan = false → s.chip.b Fld.PAD_STATUS_LATCHED = false → s.chip.f (Fld.PAD_CFG_FUNCTION p) = 0 →
          s.chip.b (gpioOe p) = true →
          s.chip.padState p = drivenState (s.chip.b (gpioOut p)) ∧
          (gpioEnd t.chip).padState p = drivenState (! s.chip.b (gpioOut p)))) ∧
    (∀ m : Fin 32, s.chip.gpioNamed (s.chip.f (Fld.EVF_GPIO_TASK_PIN m.val)) = false → exec (.gpioTask m) s = .next s) ∧
    (∀ (k : Fin 16) (v : BitVec 28),
      (k.val < 12 → ∃ u, exec (.swFire k v) s = .next u ∧
        (∃ x ∈ u.chip.fab.fired, x.source = 0xF0 + k.val ∧ x.payload = some v.toNat ∧ x.due = s.chip.now + 1) ∧
        u.chip.regs = s.chip.regs) ∧
      (12 ≤ k.val → exec (.swFire k v) s = .next { s with chip := s.chip.regReject }))

/-- R280, R291, R292: GANG_OUT stamps an event, sends it to every chip and holds it for its own delivery grain, by the delay in force for its stamp; within 16
gr of the last it is busy, and from then on it accepts again; what it sends is counted. GANG_IN fires at the delivery grain with the sender's number and payload, late events being
counted. Stated of GANG_IN for one event held on one line. -/
def Obligations.GangEvents : Prop :=
  ∀ (s : State), s.chip.isOn .evf = true →
    (∀ (k : Fin 16) (v : BitVec 28), s.chip.isOn .chain = true →
      Store.get 0 s.chip.fab.gangLast k.val = 0 ∨ Store.get 0 s.chip.fab.gangLast k.val + 16 ≤ s.chip.now + 1 →
      ∃ u, exec (.gangOut k v) s = .next u ∧
        (∃ f, u.chip.gang.waiting = s.chip.gang.waiting ++ [f] ∧ f.type = 3 ∧ f.bcast = true ∧ f.op = k.val ∧
          f.src = s.chip.f Fld.SYS_STATE_CHIP_NUMBER ∧ f.seq = s.chip.gang.seq ∧
          f.words = [.grain s.chip.now, .bits (v.toNat % 2 ^ 22)]) ∧
        (∃ e, u.chip.fab.gang = s.chip.fab.gang ++ [e] ∧ e.line = k.val ∧ e.payload = v.toNat % 2 ^ 22 ∧
          e.chip = s.chip.f Fld.SYS_STATE_CHIP_NUMBER ∧ e.due = s.chip.now + s.chip.gangDelay s.chip.now ∧
          (s.chip.fab.delays = [] → e.due = s.chip.now + s.chip.regN Reg.EVF_GANG_DELAY) ∧ e.late = false) ∧
        Store.get 0 u.chip.fab.gangLast k.val = s.chip.now + 1 ∧
        u.chip.f Fld.EVF_GANG_COUNTS_SENT = min (s.chip.f Fld.EVF_GANG_COUNTS_SENT + 1) (2 ^ Fld.EVF_GANG_COUNTS_SENT.w - 1) ∧
        u.chip.gang.seq = (s.chip.gang.seq + 1) % 256) ∧
    (∀ (k : Fin 16) (v : BitVec 28), s.chip.isOn .chain = true → Store.get 0 s.chip.fab.gangLast k.val ≠ 0 →
      s.chip.now + 1 < Store.get 0 s.chip.fab.gangLast k.val + 16 →
      exec (.gangOut k v) s = .next { s with chip := s.chip.overrun (128 + k.val) }) ∧
    (∀ e : GangEvent, s.chip.fab.gang = [e] → e.line < 16 → e.due ≤ s.chip.now →
      ∃ u, exec .gangInFire s = .next u ∧ u.chip.fab.gang = [] ∧
        u.chip.hasFired (0xE0 + e.line) (some (e.chip * 2 ^ 22 + e.payload)) = true ∧
        (e.late = true → u.chip.f Fld.EVF_GANG_COUNTS_LATE =
          min (s.chip.f Fld.EVF_GANG_COUNTS_LATE + 1) (2 ^ Fld.EVF_GANG_COUNTS_LATE.w - 1)) ∧
        (e.late = true → u.chip.b ⟨Reg.EVF_GANG_STATUS, e.line, 1⟩ = true ∧ u.chip.b ⟨Reg.EVF_INT_STATUS, 2, 1⟩ = true)) ∧
    (s.chip.fab.gang = [] → exec .gangInFire s = .next s)

/-- R276, R281, R282, R284, R285: the one pass of a tick. In a chip whose recipe has no cells, the pass takes the sources that
fired, leaves none behind and delivers each to the task inputs its routes name: a lone event to a timer's SNAP task takes
that timer's count, a masked source reaches nothing, and one whose tick is to come waits. A second pass in the tick changes nothing. A cell's filter changes
its filtered level once its value has held for its length. -/
def Obligations.FabricPass : Prop :=
  ∀ (s : State), s.chip.isOn .evf = true →
    (s.chip.fab.passed = true → exec .eventDelivery s = .next s) ∧
    (∀ (r : Recipe) (x : Fired) (t : Fin 16), s.chip.recipe = some r → s.chip.cellsOn = [] → s.chip.fab.passed = false →
      s.chip.fab.fired = [x] → r.routes = [⟨32 + 4 * t.val + 3, x.source⟩] →
      (s.chip.now < x.due → ∃ u, exec .eventDelivery s = .next u ∧ u.chip.fab.fired = [x] ∧
        u.chip.fab.passed = true ∧ u.chip.reg (Reg.TMR_SNAPV t.val) = s.chip.reg (Reg.TMR_SNAPV t.val)) ∧
      (x.due ≤ s.chip.now → s.chip.srcMasked x.source = false → ∃ u, exec .eventDelivery s = .next u ∧ u.chip.fab.fired = [] ∧
        u.chip.fab.passed = true ∧ u.chip.reg (Reg.TMR_SNAPV t.val) = ⟨.grain, s.chip.tmrCount t.val⟩) ∧
      (x.due ≤ s.chip.now → s.chip.srcMasked x.source = true → ∃ u, exec .eventDelivery s = .next u ∧ u.chip.fab.fired = [] ∧
        u.chip.fab.passed = true ∧ u.chip.reg (Reg.TMR_SNAPV t.val) = s.chip.reg (Reg.TMR_SNAPV t.val))) ∧
    (∀ (ix : Fin 48) (x : CellRec), (s.chip.cellsOn.find? fun e => e.1 == ix.val) = some (ix.val, x) → 0 < x.len →
      x.len ≤ (s.chip.cellSt ix.val).runLen →
      exec (.cellFilterChange ix) s = .next { s with
        chip := if (s.chip.cellSt ix.val).run = (s.chip.cellSt ix.val).filt then s.chip
          else setCellSt ix.val { (s.chip.cellSt ix.val) with filt := (s.chip.cellSt ix.val).run } s.chip }) ∧
    (∀ (ix : Fin 48) (x : CellRec), (s.chip.cellsOn.find? fun e => e.1 == ix.val) = some (ix.val, x) →
      (s.chip.cellSt ix.val).runLen < x.len → exec (.cellFilterChange ix) s = .next s)

/-- R305, R306, R310, R311: the check-unit tasks and the end of a stream, in a unit that serves. A task waits for the end of its
tick, where it acts after the ends of that tick (for an END task the model's reading, log entry 201). RESTART reloads VALUE from
INIT and counts nothing; SNAP puts the final form of the running value into RESULT; END forms the result, compares it when
COMPARE is set, counts the end, raises its flag and reloads. The end of a framed stream folds the last octets first. A stream that
its lane abandoned, or whose buffer overflowed, ends with ABANDONED or DROPPED and no result. A row of a task that TASK does not select is
no event, while ENABLE is 0 RESTART and END change nothing (log entry 205, DEDUCED), and a task
in the tick after an end finds the unit busy.

R305 and the table of common settings that follows R306: the check of ASCII "123456789" under the 802.15.4 4-octet FCS
and 2-octet FCS, and the result over the digits and their check value appended. -/
def Obligations.CheckUnits : Prop :=
  (∀ (s : State) (n : Fin 8), s.chip.isOn .link = true →
      (∀ act : Nat, s.chip.f (Fld.CHK_CTRL_TASK n.val) ≠ act →
        (act = 0 → exec (.restart n) s = .next s) ∧ (act = 1 → exec (.chkEnd n) s = .next s) ∧
        (act = 2 → exec (.chkSnap n) s = .next s)) ∧
      (s.chip.chkBusy n.val = false →
        (s.chip.f (Fld.CHK_CTRL_TASK n.val) = 0 →
          exec (.restart n) s = .next { s with chip := s.chip.onFab fun f => { f with chkTasks := f.chkTasks ++ [(n.val, 0)] } }) ∧
        (s.chip.f (Fld.CHK_CTRL_TASK n.val) = 1 →
          exec (.chkEnd n) s = .next { s with chip := s.chip.onFab fun f => { f with chkTasks := f.chkTasks ++ [(n.val, 1)] } }) ∧
        (s.chip.f (Fld.CHK_CTRL_TASK n.val) = 2 →
          exec (.chkSnap n) s = .next { s with chip := s.chip.onFab fun f => { f with chkTasks := f.chkTasks ++ [(n.val, 2)] } }) ∧
        (s.chip.fab.chkTasks = [] →
        (s.chip.f (Fld.CHK_CTRL_TASK n.val) = 0 → s.chip.b (Fld.CHK_CTRL_ENABLE n.val) = true →
          ∃ t, exec (.restart n) s = .next t ∧ let u := chkTasksEnd t.chip
            u.regN (Reg.CHK_VALUE n.val) = s.chip.regN (Reg.CHK_INIT n.val) ∧
            u.regN (Reg.CHK_COUNT n.val) = 0 ∧ u.b (Fld.CHK_STATUS_ACTIVE n.val) = false ∧
            u.f (Fld.CHK_COUNTS_ENDS n.val) = s.chip.f (Fld.CHK_COUNTS_ENDS n.val) ∧
            u.regN (Reg.CHK_RESULT n.val) = s.chip.regN (Reg.CHK_RESULT n.val)) ∧
        (s.chip.f (Fld.CHK_CTRL_TASK n.val) = 2 → ∃ t, exec (.chkSnap n) s = .next t ∧
          chkTasksEnd t.chip = s.chip.setRegN (Reg.CHK_RESULT n.val) (s.chip.chkFinal n.val)) ∧
        (s.chip.b (Fld.CHK_CTRL_ENABLE n.val) = false →
          (s.chip.f (Fld.CHK_CTRL_TASK n.val) = 0 → ∃ t, exec (.restart n) s = .next t ∧ chkTasksEnd t.chip = s.chip) ∧
          (s.chip.f (Fld.CHK_CTRL_TASK n.val) = 1 → ∃ t, exec (.chkEnd n) s = .next t ∧ chkTasksEnd t.chip = s.chip)) ∧
        (s.chip.f (Fld.CHK_CTRL_TASK n.val) = 1 → s.chip.b (Fld.CHK_CTRL_ENABLE n.val) = true →
          (s.chip.chkUnit n.val).dropped = false → ∃ t, exec (.chkEnd n) s = .next t ∧ let u := chkTasksEnd t.chip
          u.regN (Reg.CHK_RESULT n.val) = s.chip.chkResult n.val % 2 ^ 36 ∧
          u.b ⟨Reg.CHK_STATUS n.val, 0, 1⟩ = true ∧
          u.f (Fld.CHK_COUNTS_ENDS n.val) = min (s.chip.f (Fld.CHK_COUNTS_ENDS n.val) + 1) (2 ^ (Fld.CHK_COUNTS_ENDS n.val).w - 1) ∧
          u.regN (Reg.CHK_VALUE n.val) = s.chip.regN (Reg.CHK_INIT n.val) ∧ u.regN (Reg.CHK_COUNT n.val) = 0 ∧
          (s.chip.b (Fld.CHK_CTRL_COMPARE n.val) = true → s.chip.chkResult n.val % 2 ^ 36 ≠ s.chip.regN (Reg.CHK_EXPECT n.val) →
            u.b ⟨Reg.CHK_STATUS n.val, 1, 1⟩ = true ∧ u.f (Fld.CHK_COUNTS_MISMATCHES n.val) =
              min (s.chip.f (Fld.CHK_COUNTS_MISMATCHES n.val) + 1) (2 ^ (Fld.CHK_COUNTS_MISMATCHES n.val).w - 1)) ∧
          u.mems = s.chip.mems))) ∧
      (s.chip.chkBusy n.val = true →
        (s.chip.f (Fld.CHK_CTRL_TASK n.val) = 0 →
          exec (.restart n) s = .next { s with chip := s.chip.overrun (144 + n.val) }) ∧
        (s.chip.f (Fld.CHK_CTRL_TASK n.val) = 1 →
          exec (.chkEnd n) s = .next { s with chip := s.chip.overrun (144 + n.val) }) ∧
        (s.chip.f (Fld.CHK_CTRL_TASK n.val) = 2 →
          exec (.chkSnap n) s = .next { s with chip := s.chip.overrun (144 + n.val) })) ∧
      (∀ xs : List Byte, s.chip.b (Fld.CHK_CTRL_ENABLE n.val) = true → (s.chip.chkUnit n.val).waitFrame = false →
        (s.chip.chkUnit n.val).dropped = false → s.chip.f (Fld.CHK_CTRL_END_MODE n.val) = 0 →
        ∃ u, exec (.chkStreamEnd n xs false false) s = .next u ∧
          u.chip.regN (Reg.CHK_RESULT n.val) =
            ((((xs.map BitVec.toNat).foldl (chkOctet n.val) s.chip).chkResult n.val)) % 2 ^ 36 ∧
          u.chip.regN (Reg.CHK_COUNT n.val) = 0 ∧ u.chip.b ⟨Reg.CHK_STATUS n.val, 0, 1⟩ = true) ∧
      (∀ (xs : List Byte) (dropped : Bool), s.chip.b (Fld.CHK_CTRL_ENABLE n.val) = true →
        (s.chip.chkUnit n.val).waitFrame = false → s.chip.f (Fld.CHK_CTRL_END_MODE n.val) = 0 →
        (s.chip.f (Fld.CHK_CTRL_SRC n.val) = 1 → ∃ u, exec (.chkStreamEnd n xs dropped true) s = .next u ∧
          u.chip.b ⟨Reg.CHK_STATUS n.val, 3, 1⟩ = true ∧ u.chip.b ⟨Reg.CHK_STATUS n.val, 0, 1⟩ = true ∧
          u.chip.regN (Reg.CHK_RESULT n.val) = s.chip.regN (Reg.CHK_RESULT n.val) ∧ u.chip.regN (Reg.CHK_COUNT n.val) = 0) ∧
        (5 ≤ s.chip.f (Fld.CHK_CTRL_SRC n.val) → dropped = true → ∃ u, exec (.chkStreamEnd n xs true false) s = .next u ∧
          u.chip.b ⟨Reg.CHK_STATUS n.val, 2, 1⟩ = true ∧ u.chip.b ⟨Reg.CHK_STATUS n.val, 0, 1⟩ = true ∧
          u.chip.regN (Reg.CHK_RESULT n.val) = s.chip.regN (Reg.CHK_RESULT n.val) ∧ u.chip.regN (Reg.CHK_COUNT n.val) = 0)) ∧
      (∀ xs : List Byte, s.chip.b (Fld.CHK_CTRL_ENABLE n.val) = false →
        exec (.chkStreamEnd n xs false false) s = .next s)) ∧
  (let digits := [0x31, 0x32, 0x33, 0x34, 0x35, 0x36, 0x37, 0x38, 0x39]
    let fcs4 (xs : List Nat) := Nat.xor (reverseBits 32 (xs.foldl (crcOctet 32 0x04C11DB7 true) 0xFFFFFFFF)) 0xFFFFFFFF
    let fcs2 (xs : List Nat) := reverseBits 16 (xs.foldl (crcOctet 16 0x1021 true) 0)
    fcs4 digits = 0xCBF43926 ∧ fcs4 (digits ++ [0x26, 0x39, 0xF4, 0xCB]) = 0x2144DF1C ∧
    fcs2 digits = 0x2189 ∧ fcs2 (digits ++ [0x89, 0x21]) = 0x0000)

/-- R29, R221: no unit makes a word of tag TICKET, POISON, REFUSED or ABSENT, and a POISON, REFUSED or ABSENT operand of a
two-operand ALU trigger, of MUL, MULH, CMUL, SCALE or DIV, or of UNTAG raises the TAG trap. -/
def Obligations.TagAlgebra : Prop :=
  (∀ (op : AluOp) (a b x : Word), alu op a b = .ok x → x.exceptional = false ∧ x.tag ≠ .ticket) ∧
  (∀ (op : AluOp) (a b : Word), a.exceptional = true ∨ b.exceptional = true → alu op a b = .trap .tag) ∧
  (∀ (op : MulOp) (a b x : Word), mulUnit op a b = .ok x → x.exceptional = false ∧ x.tag ≠ .ticket) ∧
  (∀ (op : MulOp) (a b : Word), op ≠ .mag2 → a.exceptional = true ∨ b.exceptional = true → mulUnit op a b = .trap .tag) ∧
  (∀ (op : BitOp) (a fld b x : Word), bitUnit op a fld b = .ok x → x.exceptional = false ∧ x.tag ≠ .ticket) ∧
  (∀ (sel b x : Word), retag sel b = .ok x → x.exceptional = false ∧ x.tag ≠ .ticket ∧ x.payload = b.payload) ∧
  (∀ b : Word, untag b = if b.exceptional then .trap .tag else .ok ⟨.bits, b.payload⟩)

/-- R212, R220, R221: an ALU trigger takes OPA and the word moved to it, and its result is in RES for the next bundle; where
the operands have no result it traps at its own move. The rest of the machine stands. Safety.aluRows lists the triggers: add, sub,
and, or, xor, andn, shl, shr, sar, eq, ne, lt, le, ltu, min, max and cat16. -/
def Obligations.AluTriggers : Prop :=
  ∀ (s : State) (bus : Fin 4) (w : Fin 28) (src : MoveSource) (b : Word), Safety.coreAtRest s.chip = true →
    Safety.unitOn s.chip bus w 1 → Safety.operandWord s.chip src = some b → ∀ e ∈ Safety.aluRows,
    (∀ x, alu e.2 (s.chip.port (windowBase w.val)) b = .ok x →
      exec (e.1 bus w src) s = .next { s with chip := Safety.nextBundle (s.chip.setPort (windowBase w.val + 0x38) x) }) ∧
    (∀ z, alu e.2 (s.chip.port (windowBase w.val)) b = .trap z →
      exec (e.1 bus w src) s = .next { s with
        chip := takeTrap (Safety.moveTrapOf z bus (windowBase w.val + e.2.offset) src b false) s.chip })

/-- R212, R214, R220, R221: the triggers of the multiply, bit and tag units. A product takes three cycles to RES, a division
twenty to QUO and REM; the bit and tag units answer in RES for the next bundle; operands that a unit refuses trap.
Safety.mulRows lists mul, mulh, cmul, scale and mag2, and Safety.bitRows lists ext, ins, clz and popc; div, retag and untag
stand here by name. -/
def Obligations.MulBitTagTriggers : Prop :=
  ∀ (s : State) (bus : Fin 4) (w : Fin 28) (src : MoveSource) (b : Word), Safety.coreAtRest s.chip = true →
    Safety.operandWord s.chip src = some b →
    let a := s.chip.port (windowBase w.val)
    let fly (xs : List InFlight) : Chip :=
      Safety.nextBundle { s.chip with core := { s.chip.core with inflight := xs } }
    (Safety.unitOn s.chip bus w 2 → ∀ e ∈ Safety.mulRows,
      (∀ x, mulUnit e.2 a b = .ok x →
        exec (e.1 bus w src) s = .next { s with chip := fly [⟨2, windowBase w.val + 0x38, x⟩] }) ∧
      (∀ z, mulUnit e.2 a b = .trap z → exec (e.1 bus w src) s = .next { s with
        chip := takeTrap (Safety.moveTrapOf z bus (windowBase w.val + e.2.offset) src b false) s.chip })) ∧
    (Safety.unitOn s.chip bus w 2 →
      (∀ q, mulUnit .div a b = .ok q → exec (.div bus w src) s = .next { s with
        chip := fly [⟨19, windowBase w.val + 0x3A, q⟩, ⟨19, windowBase w.val + 0x39, divRem a b⟩] }) ∧
      (∀ z, mulUnit .div a b = .trap z → exec (.div bus w src) s = .next { s with
        chip := takeTrap (Safety.moveTrapOf z bus (windowBase w.val + 0x0D) src b false) s.chip })) ∧
    (Safety.unitOn s.chip bus w 4 → ∀ e ∈ Safety.bitRows,
      (∀ x, bitUnit e.2 a (s.chip.port (windowBase w.val + 1)) b = .ok x →
        exec (e.1 bus w src) s = .next { s with chip := Safety.nextBundle (s.chip.setPort (windowBase w.val + 0x38) x) }) ∧
      (∀ z, bitUnit e.2 a (s.chip.port (windowBase w.val + 1)) b = .trap z → exec (e.1 bus w src) s = .next { s with
        chip := takeTrap (Safety.moveTrapOf z bus (windowBase w.val + e.2.offset) src b false) s.chip })) ∧
    (Safety.unitOn s.chip bus w 5 →
      (∀ x, retag a b = .ok x → exec (.retag bus w src) s = .next { s with
        chip := Safety.nextBundle (s.chip.setPort (windowBase w.val + 0x38) x) }) ∧
      (∀ x, untag b = .ok x → exec (.untag bus w src) s = .next { s with
        chip := Safety.nextBundle (s.chip.setPort (windowBase w.val + 0x38) x) }) ∧
      (∀ z, retag a b = .trap z → exec (.retag bus w src) s = .next { s with
        chip := takeTrap (Safety.moveTrapOf z bus (windowBase w.val + 8) src b false) s.chip }) ∧
      (∀ z, untag b = .trap z → exec (.untag bus w src) s = .next { s with
        chip := takeTrap (Safety.moveTrapOf z bus (windowBase w.val + 9) src b false) s.chip }))

/-- R222, R223: a load-store trigger that its checks pass and its unit has room for queues the places of its results and
issues its access; one that a check refuses traps with nothing issued. The oldest access completes at its bank, a load's
word taking its place in the queue and a store's word standing in memory with every other word as it was; RES gives the
oldest result and removes it. The completion is stated for an access to the data memory at a codeword without flaws.
Safety.lsuRows lists the triggers: ld, ld2, st, st2, aadd and swap. -/
def Obligations.LoadsAndStores : Prop :=
  ∀ (s : State),
    (∀ (bus : Fin 4) (w : Fin 28) (src : MoveSource) (b : Word), Safety.coreAtRest s.chip = true →
      Safety.unitOn s.chip bus w 3 → Safety.operandWord s.chip src = some b → ∀ e ∈ Safety.lsuRows,
      (s.chip.lsuTrap e.2 b (s.chip.port (windowBase w.val)) = none → s.chip.lsuRoom w.val e.2 = true →
        exec (e.1 bus w src) s = .next { s with chip := Safety.nextBundle (lsuIssue w.val e.2 b.nat s.chip) }) ∧
      (∀ z, s.chip.lsuTrap e.2 b (s.chip.port (windowBase w.val)) = some z → exec (e.1 bus w src) s = .next { s with
        chip := takeTrap (Safety.moveTrapOf z bus (windowBase w.val + e.2.offset) src b true) s.chip })) ∧
    (∀ (a : LsuAccess) (rest : List LsuAccess), s.chip.core.accesses = a :: rest → s.chip.isOn .core = true →
      spaceOf a.ptr = 0 → s.chip.isOn .memD = true → s.chip.flaw a.ptr = [] →
      (a.kind = .ld → s.chip.queue a.window = [none] → ∃ t, exec .lsuAccessDone s = .next t ∧
        t.chip.core.accesses = rest ∧ t.chip.queue a.window = [some (s.chip.stored a.ptr)] ∧ t.chip.mems = s.chip.mems) ∧
      (a.kind = .st → ∃ t, exec .lsuAccessDone s = .next t ∧ t.chip.core.accesses = rest ∧
        t.chip.stored a.ptr = a.data ∧ (∀ p, p ≠ a.ptr → t.chip.stored p = s.chip.stored p) ∧
        t.chip.queue a.window = s.chip.queue a.window)) ∧
    (s.chip.core.accesses = [] → exec .lsuAccessDone s = .next s) ∧
    (∀ (bus : Fin 4) (w : Fin 28) (dst : BitVec 12), Safety.coreAtRest s.chip = true → (s.chip.window w.val).type = 3 →
      (s.chip.window w.val).readBuses.testBit bus.val = true → Safety.filePort dst = true →
      (∀ x q, s.chip.queue w.val = some x :: q → exec (.lsuResRead bus w dst) s = .next { s with
        chip := Safety.nextBundle ((setQueue w.val q s.chip).setPort dst.toNat x) }) ∧
      (s.chip.queue w.val = [] → exec (.lsuResRead bus w dst) s = .next { s with
        chip := Safety.nextBundle (s.chip.setPort dst.toNat (refused .badArg)) }))

/-- R224 to R226: a branch is taken after two delay bundles, the calls keeping the address after them in BR_LINK; a target
outside the instruction memory traps. RPT_GO repeats the next bundle RPT_COUNT times. -/
def Obligations.BranchesAndRepeat : Prop :=
  ∀ (s : State) (bus : Fin 4) (src : MoveSource) (b : Word), Safety.coreAtRest s.chip = true →
    Safety.operandWord s.chip src = some b →
    let taken (c : Chip) (target : Nat) : State := { s with chip := Safety.nextBundle { c with core := { c.core with
      delayLeft := 2, transfer := true, delayIsReti := false, brTarget := target } } }
    let linked : Chip := s.chip.setPort 0x804 (.mk' .code (s.chip.core.pc + 3))
    (b.tag = .code → b.nat < 49152 →
      exec (.brJump bus src) s = .next (taken s.chip b.nat) ∧ exec (.brCall bus src) s = .next (taken linked b.nat)) ∧
    (b.tag = .code → 49152 ≤ b.nat → exec (.brJump bus src) s = .next { s with
      chip := takeTrap (Safety.moveTrapOf .address bus 0x800 src b false) s.chip }) ∧
    (∀ n : Nat, b.tag = .int → (s.chip.core.pc : Int) + b.toInt = n → n < 49152 →
      exec (.brRel bus src) s = .next (taken s.chip n) ∧ exec (.brCallr bus src) s = .next (taken linked n)) ∧
    (b.tag = .int → (s.chip.port 0x808).nat ≠ 0 → exec (.rptGo bus src) s = .next { s with
      chip := Safety.nextBundle { s.chip with core := { s.chip.core with rptLeft := (s.chip.port 0x808).nat, rptIndex := b.toInt } } })

/-- R219, R229, R230, R233, R235: CORE_WAIT stops the core until an enabled input is pending or its time has passed;
CORE_TRAP enters level 4 with cause SOFT and the word it carried; EV_RETI returns after two delay bundles; CORE_MODE is
written by privileged code, and traps where code is not privileged; TESTXk tells exceptional words from others. -/
def Obligations.CoreControl : Prop :=
  ∀ (s : State) (bus : Fin 4) (src : MoveSource) (b : Word), Safety.coreAtRest s.chip = true →
    Safety.operandWord s.chip src = some b →
    (b.tag = .int → 0 ≤ b.toInt → exec (.coreWait bus src) s = .next { s with
      chip := Safety.nextBundle { s.chip with core := { s.chip.core with
        waiting := true, waitUntil := if b.nat = 0 then none else some (s.chip.now + b.nat) } } }) ∧
    (s.chip.core.cur ≠ 4 → ∃ t, exec (.coreTrap bus src) s = .next t ∧ t.chip.core.cur = 4 ∧
      t.chip.core.pc = (s.chip.port 0x82B).nat ∧ t.chip.port (savePort 4 0) = .mk' .code s.chip.core.pc ∧
      t.chip.port 0x861 = b ∧ t.chip.port 0x860 = .bits (12 * 2 ^ 8 + bus.val * 2 ^ 6 + moveBits 0x812 src % 2 ^ 40 / 2 ^ 36 % 16) ∧
      t.chip.priv = true ∧ t.chip.mems = s.chip.mems ∧ t.chip.regs = s.chip.regs) ∧
    (s.chip.priv = true → s.chip.core.cur ≠ 0 → exec (.evReti bus src) s = .next { s with
      chip := Safety.nextBundle { s.chip with core := { s.chip.core with
        delayLeft := 2, transfer := true, delayIsReti := true, brTarget := 0 } } }) ∧
    (s.chip.priv = true → b.tag = .bits → b.nat ≤ 1 → exec (.coreModeWrite bus src) s = .next { s with
      chip := Safety.nextBundle (s.chip.setPort 0x811 b) }) ∧
    (s.chip.priv = false → exec (.coreModeWrite bus src) s = .next { s with
      chip := takeTrap (Safety.moveTrapOf .privilege bus 0x811 src b false) s.chip }) ∧
    (∀ k : Fin 7, exec (.testx bus k src) s = .next { s with
      chip := Safety.nextBundle (setGuard s.chip (k.val + 1) b.exceptional) })

/-- R231 to R235: an event delivered to a core input is latched, counted in count mode, or dropped with OVERRUN where a latch
input already holds one. An interrupt saves the next bundle's address and enters at its level's vector. EV_CAUSE and EV_POLL
give what an input holds and empty it; CORE_WAIT ends when an enabled input is pending or its time has passed. -/
def Obligations.CoreEvents : Prop :=
  ∀ (s : State),
    (∀ (j : Fin 32) (src : BitVec 8) (v : BitVec 28), s.chip.isOn .core = true →
      let w : Word := .mk' .event (src.toNat * 2 ^ 28 + v.toNat)
      ((s.chip.input j.val).count = 0 →
        exec (.coreEventInput j src v) s = .next { s with chip := setInput s.chip j.val ⟨w, 1⟩ }) ∧
      (s.chip.evCount j.val = true → (s.chip.input j.val).count < 65535 → exec (.coreEventInput j src v) s = .next { s with
        chip := setInput s.chip j.val ⟨w, (s.chip.input j.val).count + 1⟩ }) ∧
      (s.chip.evCount j.val = false → (s.chip.input j.val).count ≠ 0 → s.chip.core.paused = false →
        exec (.coreEventInput j src v) s = .next { s with chip := s.chip.overrun j.val })) ∧
    (∀ l, s.chip.canIssue = true → s.chip.core.stalled = none → s.chip.interruptLevel = l → l ≠ 0 →
      ∃ t, exec .interruptEntry s = .next t ∧ t.chip.core.cur = l ∧ t.chip.core.pc = s.chip.vector l ∧ t.chip.priv = true ∧
        t.chip.port (savePort l 0) = .mk' .code s.chip.core.pc ∧ t.chip.port (savePort l 1) = s.chip.saveState ∧
        t.chip.regs = s.chip.regs ∧ t.chip.mems = s.chip.mems) ∧
    (∀ (bus : Fin 4) (dst : BitVec 12), Safety.coreAtRest s.chip = true → Safety.filePort dst = true →
      (∀ j : Fin 32, (s.chip.input j.val).count ≠ 0 → s.chip.evCount j.val = false →
        exec (.evPoll bus j dst) s = .next { s with
          chip := Safety.nextBundle ((setInput s.chip j.val .none).setPort dst.toNat (s.chip.input j.val).word) }) ∧
      (∀ j : Fin 32, (s.chip.input j.val).count = 0 → exec (.evPoll bus j dst) s = .next { s with
        chip := Safety.nextBundle (s.chip.setPort dst.toNat (refused .busy)) }) ∧
      (∀ (l : Fin 3) (j : Nat), (evInputs.find? fun j => s.chip.evReady j && s.chip.evLevel j == l.val + 1) = some j →
        s.chip.evCount j = false → exec (.evCause bus l dst) s = .next { s with
          chip := Safety.nextBundle ((setInput s.chip j .none).setPort dst.toNat (s.chip.input j).word) })) ∧
    (s.chip.core.waiting = true → (∃ j, j < 32 ∧ s.chip.evReady j = true) ∨ (∃ g, s.chip.core.waitUntil = some g ∧ g ≤ s.chip.now) →
      exec .coreWaitEnd s = .next { s with chip := { s.chip with core := { s.chip.core with waiting := false, waitUntil := none } } }) ∧
    (Safety.coreAtRest s.chip = true → fetchBundle s.chip = ([0, 0, 0, 0], s.chip) →
      exec .bundleIssue s = .next { s with chip := Safety.nextBundle s.chip })
open Safety in
/-- R138, R164, R184: the operations on endpoint records. REC_READ copies a record to a buffer, REC_WRITE a buffer to a record
once its tags are right, REC_TOUCH writes codeword 1, and REC_ADVANCE writes it only with a counter above the one stored,
answering whether it did. Stated where the memories serve and no takeover is still to copy the record. One on a record in DRAM begins a
DRAM transaction instead (R248): nothing is read or written before that ends, within a grain of its 1341 gr (how long it lasts is free:
DESIGN CHOICE, log entry 53), and then it has its effect. -/
def Obligations.RecordOperations : Prop :=
  ∀ (s : State) (v : Via) (w : Work),
    let c := opBegun v w s.chip
    let a (k : Nat) : Word := argOf w.args k
    c.takeoverAhead (a 0) = false → ∀ i, c.endpointOf (a 0) = some i →
    let p := c.recordPtr i
    c.recordStopped p = false →
    (∀ r0 r1 c1 c2, opNext s.chip 0x10 v w → s.chip.worksInDram w = false → c.recordBuffer (a 1) = true → c.recordStopped (a 1).nat = false →
      (∀ k, k < 4 → c.inPartners ((a 1).nat + k) = false) → readPair p c = (r0, c1) → readPair (p + 2) c1 = (r1, c2) →
      r0.bad = false → r1.bad = false →
      exec (.recRead v) s = .next (opDone s v w (.int 0)
        (writePair ((a 1).nat + 2) r1.even r1.odd (writePair (a 1).nat r0.even r0.odd c2)))) ∧
    (∀ r0 r1 c1 c2, opNext s.chip 0x11 v w → s.chip.worksInDram w = false → c.recordBuffer (a 1) = true → c.recordStopped (a 1).nat = false →
      readPair (a 1).nat c = (r0, c1) → readPair ((a 1).nat + 2) c1 = (r1, c2) → r0.bad = false → r1.bad = false →
      [r0.even.tag, r0.odd.tag, r1.even.tag, r1.odd.tag] = recordTags →
      exec (.recWrite v) s = .next (opDone s v w (.int 0) (forwardRecord i [(0, r0.even), (1, r0.odd), (2, r1.even), (3, r1.odd)]
        (writePair (p + 2) r1.even r1.odd (writePair p r0.even r0.odd c2))))) ∧
    (opNext s.chip 0x12 v w → s.chip.worksInDram w = false → (a 1).tag = .int → (a 2).tag = .bits →
      exec (.recTouch v) s = .next (opDone s v w (.int 0)
        (forwardRecord i [(2, a 1), (3, a 2)] (writePair (p + 2) (a 1) (a 2) c)))) ∧
    (∀ r c1, opNext s.chip 0x13 v w → s.chip.worksInDram w = false → (a 1).tag = .int → (a 2).tag = .bits → readPair (p + 2) c = (r, c1) → r.bad = false →
      r.odd.tag = .bits →
      (r.odd.field 35 1 = 0 ∨ r.odd.field 0 32 < (a 2).field 0 32 → exec (.recAdvance v) s = .next (opDone s v w (.int 1)
        (forwardRecord i [(2, a 1), (3, a 2)] (writePair (p + 2) (a 1) (a 2) c1)))) ∧
      (r.odd.field 35 1 = 1 → (a 2).field 0 32 ≤ r.odd.field 0 32 →
        exec (.recAdvance v) s = .next (opDone s v w (.int 0) c1))) ∧
    (∀ r ∈ [(Instr.recRead, 0x10), (.recWrite, 0x11), (.recTouch, 0x12), (.recAdvance, 0x13)], ∀ (n : BitVec 9) (u : Ticket),
      v = .ticket n → opNext s.chip r.2 v w → s.chip.worksInDram w = true → s.chip.ticket n.toNat = some u →
      ∃ t g, exec (r.1 v) s = .next t ∧
        t.chip.ticket n.toNat = some { u with state := 2, steps := w.steps + 1, dram := some (g, 1) } ∧
        s.chip.now < g ∧ g ≤ s.chip.now + 1341 ∧ t.chip.regs = s.chip.regs ∧ t.chip.mems = s.chip.mems) ∧
    (∀ (d : Chip) (j : Job) (u : Ticket) (x : Word) (d1 : Chip), d.dramHeld = 1 → d.dramEnded = some (j, u) → 0x10 ≤ u.code →
      u.code ≤ 0x13 → runOp j u.work [] (onOp j (fun y => { y with dram := none }) d) = (some x, d1) →
      dramGrain d = finishJobWith j u.code x d1)

open Safety in
/-- R195, R200, R204, R307: digests, authentication codes, verification, random data and measurements, each with operands in range
and buffers that hold octets. A verify that fails answers AUTH_FAIL and raises it. The length of a KMAC key and of its
customisation, and of the context of a signature, are free values: no operand gives them. -/
def Obligations.HashAndVerify : Prop :=
  ∀ (s : State) (v : Via) (w : Work),
    let c := opBegun v w s.chip
    let a (k : Nat) : Word := argOf w.args k
    (∀ mode n len m c1, opNext s.chip 0x30 v w → smallArg (a 0) 2 = some mode → smallArg (a 2) (2 ^ 32) = some n →
      smallArg (a 4) (2 ^ 32) = some len → (mode = 0 → len ≤ 64) → destReady c (a 3) len → octets c (a 1) n [0, 1, 4] m c1 →
      exec (.hash v) s = .next (opDone s v w (.int 0)
        (writeOctets (a 3).nat (if mode = 0 then (Config.sha3_512 m).take len else Config.shake256 m len) c1))) ∧
    (∀ n bits key x t c1 c2 c3, let k := takeFree 49 c
      let l := takeFree 2048 k.2
      opNext s.chip 0x31 v w → smallArg (a 2) (2 ^ 32) = some n → smallArg (a 4) (2 ^ 32) = some bits →
      destReady l.2 (a 5) (ceilDiv bits 8) → octets l.2 (a 0) (16 + k.1) [0] key c1 → octets c1 (a 1) n [0] x c2 →
      octets c2 (a 3) l.1 [0] t c3 →
      exec (.kmac v) s = .next (opDone s v w (.int 0) (writeOctets (a 5).nat (Config.kmacBits key x bits t) c3))) ∧
    (∀ i, opNext s.chip 0x32 v w → smallArg (a 0) 2 = some i → c.spaceAccess 4 = .served →
      let c1 := imageSeen i (if c.imageSigned s.otp i then hashSeen i c else c)
      (∀ img, c.verifyImage s.otp i = .ok img → exec (.imageVerify v) s = .next (opDone s v w (.int 0) c1)) ∧
      (∀ x, c.verifyImage s.otp i = .error x → resultStatus x = Status.authFail.code →
        exec (.imageVerify v) s = .next (opDone s v w x (c1.raise .sec secAuthFail)))) ∧
    (∀ n pub m ctx sig c1 c2 c3 c4, let l := takeFree 256 c
      opNext s.chip 0x33 v w → smallArg (a 2) (2 ^ 32) = some n → octets l.2 (a 0) pubLen [0] pub c1 → octets c1 (a 1) n [0] m c2 →
      octets c2 (a 3) l.1 [0] ctx c3 → octets c3 (a 4) sigLen [0] sig c4 →
      (Config.mldsaVerify pub ctx m sig = true → exec (.sigVerify v) s = .next (opDone s v w (.int 0) c4)) ∧
      (Config.mldsaVerify pub ctx m sig = false →
        exec (.sigVerify v) s = .next (opDone s v w (refused .authFail) (c4.raise .sec secAuthFail)))) ∧
    (∀ n, opNext s.chip 0x3F v w → smallArg (a 1) 4097 = some n → n ≠ 0 → destReady c (a 0) n → c.drbgReady = true →
      exec (.random v) s = .next (opDone s v w (.int 0) (writeOctets (a 0).nat (drbgDraw n c).1 (drbgDraw n c).2))) ∧
    (∀ i n d c1, opNext s.chip 0x40 v w → smallArg (a 0) 8 = some i → 4 ≤ i → smallArg (a 2) (2 ^ 32) = some n →
      octets c (a 1) n [0] d c1 → exec (.measExtend v) s = .next (opDone s v w (.int 0) (measExtend i d c1)))

open Safety in
/-- R197 to R200: the key operations. KEY_GEN fills a cell from the DRBG; KEY_WRAP wraps a master key or a cell under a cell;
KEY_UNWRAP puts a key whose tag checks into a cell, and answers AUTH_FAIL for one whose tag does not; NMK_STORE seals a cell
as a master key; NMK_ERASE clears both copies of a slot that is not empty; PARTNER_KEY hands the key it derives to a partner operation and waits. -/
def Obligations.KeyOperations : Prop :=
  ∀ (s : State) (v : Via) (w : Work),
    let c := opBegun v w s.chip
    let a (k : Nat) : Word := argOf w.args k
    (∀ i, opNext s.chip 0x37 v w → smallArg (a 0) 16 = some i → c.drbgReady = true →
      exec (.keyGen v) s = .next (opDone s v w (.int 0) (setCell i (drbgDraw 32 c).1 (drbgDraw 32 c).2))) ∧
    (∀ i j, opNext s.chip 0x38 v w → smallArg (a 1) 16 = some j → c.cell j ≠ [] → destReady c (a 3) 88 → c.drbgReady = true →
      let d := drbgDraw 16 c
      (smallArg (a 2) 3 = some 1 → smallArg (a 0) 2 = some i → c.nmk i ≠ [] →
        exec (.keyWrap v) s = .next (opDone s v w (.int 0) (writeOctets (a 3).nat (wrapKey (c.cell j) (c.nmk i) d.1 1) d.2))) ∧
      (smallArg (a 2) 3 = some 2 → smallArg (a 0) 16 = some i → c.cell i ≠ [] →
        exec (.keyWrap v) s = .next (opDone s v w (.int 0) (writeOctets (a 3).nat (wrapKey (c.cell j) (c.cell i) d.1 2) d.2)))) ∧
    (∀ i j b c1, opNext s.chip 0x39 v w → smallArg (a 2) 16 = some i → smallArg (a 1) 16 = some j → c.cell j ≠ [] →
      octets c (a 0) 88 [0] b c1 →
      (∀ k, unwrapKey (c.cell j) b = .ok k → exec (.keyUnwrap v) s = .next (opDone s v w (.int 0) (setCell i k c1))) ∧
      (unwrapKey (c.cell j) b = .error .authFail →
        exec (.keyUnwrap v) s = .next (opDone s v w (refused .authFail) (c1.raise .sec secAuthFail)))) ∧
    (∀ k j, opNext s.chip 0x3A v w → smallArg (a 1) 2 = some k → smallArg (a 0) 16 = some j → c.cell j ≠ [] →
      c.spaceAccess 4 = .served → c.drbgReady = true →
      let d := drbgDraw 16 c
      let blob := wrapKey (sealKey s.otp) (c.cell j) d.1 1
      exec (.nmkStore v) s = .next (opDone s v w (.int 0) ((setNmk k [blob, blob] (c.cell j) d.2).raise .sec secNmkChanged))) ∧
    (∀ k, opNext s.chip 0x3B v w → smallArg (a 0) 2 = some k → c.spaceAccess 4 = .served → c.nmkEmpty k = false →
      exec (.nmkErase v) s = .next (opDone s v w (.int 0) ((setNmk k [] [] c).raise .sec secNmkChanged))) ∧
    (∀ (n : BitVec 9) i k x, v = .ticket n → opNext s.chip 0x34 v w → c.partnerOf (a 0) = some i → smallArg (a 1) 2 = some k →
      smallArg (a 2) 256 = some x → c.isOn .link = true → c.spaceAccess 0 = .served →
      c.b Fld.LINK_PARTNER_STATUS_BUSY = false → c.nmk k ≠ [] → (c.entry i).valid = true → (c.entry i).ext ≠ 0 →
      ∃ t p, exec (.partnerKey v) s = .next t ∧ t.chip.radio.op = some p ∧ p.op = 2 ∧ p.handle = i ∧ p.ticket = some n.toNat ∧
        t.chip.b Fld.LINK_PARTNER_STATUS_BUSY = true ∧ t.chip.f Fld.LINK_PARTNER_STATUS_LAST_HANDLE = i % 2 ^ 12)

open Safety in
/-- R193, R200 to R205: key encapsulation, attestation, the certificate and tokens. KEM_DECAPS uses up the key of the KEM
store. ATTEST signs a report over the nonce, an attempt being 60 steps at Noon: the row takes those left of the attempt under way, and
after the 64th attempt that fails the operation answers TIMEOUT (R208). A token that no check refuses stores its counter and takes effect; one that a
check refuses answers its status and raises TOKEN_REFUSED. -/
def Obligations.KemAttestToken : Prop :=
  ∀ (s : State) (v : Via) (w : Work),
    let c := opBegun v w s.chip
    let a (k : Nat) : Word := argOf w.args k
    (opNext s.chip 0x3C v w → destReady c (a 0) 1568 → c.drbgReady = true →
      let d := drbgDraw 64 c
      let k := Config.mlkemKeyGen d.1
      exec (.kemKeygen v) s = .next (opDone s v w (.int 0)
        (writeOctets (a 0).nat (octetsTo 1568 k.1) (d.2.onSec fun x => { x with kem := some k.2 })))) ∧
    (∀ i ek c1 ct ss, opNext s.chip 0x3D v w → smallArg (a 2) 16 = some i → destReady c (a 1) 1568 → octets c (a 0) 1568 [0] ek c1 →
      c1.drbgReady = true → Config.mlkemEncaps ek (drbgDraw 32 c1).1 = some (ct, ss) →
      exec (.kemEncaps v) s = .next (opDone s v w (.int 0)
        (setCell i (octetsTo 32 ss) (writeOctets (a 1).nat (octetsTo 1568 ct) (drbgDraw 32 c1).2)))) ∧
    (∀ i ct c1 dk, opNext s.chip 0x3E v w → smallArg (a 1) 16 = some i → octets c (a 0) 1568 [0] ct c1 → c1.sec.kem = some dk →
      exec (.kemDecaps v) s = .next (opDone s v w (.int 0)
        (setCell i (octetsTo 32 (Config.mlkemDecaps dk ct)) (c1.onSec fun x => { x with kem := none })))) ∧
    (let len := s.chip.scaled 60
      let last := (w.steps / len + 1) * len
      let b := if last = w.steps + 1 then opTaken v s.chip else noteStep (jobOf v) (last - 1) w.prog none (opTaken v s.chip)
      ∀ nonce c1 seed, opNext s.chip 0x41 v w → destReady b (a 1) 5283 → octets b (a 0) 32 [0] nonce c1 →
      (w.steps = 0 → (attestCheck w.args (fun _ c => (.int 0, c)) (opTaken v s.chip)).1 = .int 0) →
      c1.drbgReady = true → let d := drbgDraw 32 c1
      c1.sec.idSeed = some seed → d.2.oscStop = false →
      let body := d.2.attestBody s.otp nonce d.2.rtcLong
      (∀ sig, Config.mldsaSign seed (ascii "ZTAT") body d.1 = some sig →
        exec (.attest v) s = .next (opDone s v w (.int 0)
          (noteStep (jobOf v) last (w.prog + 1) none (writeOctets (a 1).nat (body ++ sig) d.2)))) ∧
      (Config.mldsaSign seed (ascii "ZTAT") body d.1 = none → 63 ≤ w.prog →
        exec (.attest v) s = .next (opDone s v w (refused .timeout) (noteStep (jobOf v) last (w.prog + 1) none d.2)))) ∧
    (opNext s.chip 0x42 v w → destReady c (a 0) 7307 → c.spaceAccess 4 = .served → c.mramBad certBase 7307 = false →
      exec (.idCert v) s = .next (opDone s v w (.int 0) (writeOctets (a 0).nat (c.mramBytes certBase 7307)
        (chkStream 7 4 (c.mramBytes certBase 7307) true (mramLines certBase 7307 c))))) ∧
    (∀ x c1, opNext s.chip 0x43 v w → octets c (a 0) tokenLen [0] x c1 → c1.spaceAccess 4 = .served →
      (c1.tokenWrong s.otp x = none → exec (.token v) s = .next (opDone s v w (.int 0) (tokenEffect s.otp (tokenOf x) x c1))) ∧
      (c1.tokenWrong s.otp x = some .locked →
        exec (.token v) s = .next (opDone s v w (refused .locked) (c1.raise .sec secTokenRefused))))

open Safety in
/-- R196, R198, R200: EP_OPEN decrypts an unverified secured frame in place under the key of its endpoint, and answers
AUTH_FAIL leaving it as it was where the MIC does not check; EP_SEAL fills the frame counter in, encrypts and appends the
MIC, the counter moving on by one. -/
def Obligations.EndpointFrames : Prop :=
  ∀ (s : State) (v : Via) (w : Work),
    let c := opBegun v w s.chip
    let a (k : Nat) : Word := argOf w.args k
    let key (k : Nat) : List Nat := Store.get [] (c.keysOf (jobOf v) w) k
    (∀ h epoch n ws c1 all c2 m, opNext s.chip 0x35 v w → c.endpointOf (a 1) = some h → smallArg (a 2) 256 = some epoch →
      smallArg (a 3) 2 = some n → key n ≠ [] → c.bufferOk (a 0) 64 [1] = true → c.spaceAccess 1 = .served →
      readWords (a 0).nat 16 c = (ws, c1) → (∀ x ∈ ws, x.tag ≠ .poison) →
      let x := openDesc ws
      x.verdict = vUnverified → x.level ≠ 0 → x.level ≠ 4 → octets c1 x.pay (4 * ceilDiv x.length 4) [1] all c2 →
      let o := all.take x.length
      let body := o.take (o.length - fcsLen (! fcsGood false o))
      parseMhr body = some m → m.srcMode = 3 →
      let nonce := if x.suppressed then asnNonce m.src (c2.asnWith x.fc) else ccmNonce m.src x.fc x.level
      (∀ plain, openFrame (endpointKey (key n) h epoch) nonce x.level m.hdrLen body = some plain → plain ≠ [] →
        let new := all.take m.hdrLen ++ plain ++ all.drop (m.hdrLen + plain.length)
        let first := m.hdrLen / 4
        let last := ceilDiv (m.hdrLen + plain.length) 4
        exec (.epOpen v) s = .next (opDone s v w (.int 0)
          (writeOctets (x.pay.nat + first) ((new.take (4 * last)).drop (4 * first)) c2))) ∧
      (openFrame (endpointKey (key n) h epoch) nonce x.level m.hdrLen body = none →
        exec (.epOpen v) s = .next (opDone s v w (refused .authFail) (c2.raise .sec secAuthFail)))) ∧
    (∀ n h epoch k o c1 m x, opNext s.chip 0x36 v w → smallArg (a 1) 2048 = some n → c.endpointOf (a 2) = some h →
      smallArg (a 3) 256 = some epoch → smallArg (a 4) 2 = some k → key k ≠ [] → octets c (a 0) n [1] o c1 →
      parseMhrAs false o = some m →
      m.aux = some x → c1.isOn .link = true → x.level ≠ 0 → x.level ≠ 4 → c1.bufferOk (a 0) (n + micLen x.level) [1] = true →
      let fc := c1.regN Reg.LINK_TX_FRAME_COUNTER
      x.fc.isSome = true → fc < 2 ^ 32 - 1 →
      let o1 := fillCounter m fc o
      let out := sealFrame (endpointKey (key k) h epoch) (ccmNonce c1.ownExt fc x.level) x.level (o1.take m.hdrLen) (o1.drop m.hdrLen)
      exec (.epSeal v) s = .next (opDone s v w (.int out.length)
        (writeOctets (a 0).nat out (c1.setRegN Reg.LINK_TX_FRAME_COUNTER (fc + 1)))))

open Safety in
/-- R181, R185, R255, R256, R363, R377: operations whose steps have effects of their own. A copy to MRAM of at most 256 octets
is one step; a sweep that a step finishes answers what it counted, and one that a takeover has not reached is BUSY (log entry 149).

R248, R255, R256, R374: ENGINE_STEP. The engine takes the work R256 names next and does one step of it: a step of a longer
operation moves its count alone, the last one carries its whole effect and ends it with its result; a step with an effect of its own
has that effect, in DRAM that of taking its transactions (how many and how long is free: DESIGN CHOICE, log entry 53). An operation
refused before it begins ends with its refusal; a fallback that has lost the shadow reloads it first (R375). An engine with no work does
nothing, but for the MRAM writer, which releases a settings area, and the hash engine, which reloads the shadow of an expired trial. -/
def Obligations.SteppedOperations : Prop :=
  ∀ (s : State) (v : Via) (w : Work),
    let c := opTaken v s.chip
    let a (k : Nat) : Word := argOf w.args k
    let one (n prog : Nat) (c : Chip) : Chip := noteStep (jobOf v) n prog none c
    (∀ xs c1, opNext s.chip 0x20 v w → w.prog = 0 → (a 1).tag = .int → (a 2).tag = .int → 0 ≤ (a 1).toInt → (a 1).nat % 4 = 0 →
      (a 2).nat % 4 = 0 → 4 ≤ (a 2).nat → (a 2).nat ≤ 256 → (a 1).nat + (a 2).nat ≤ 0x100000 → c.spaceAccess 0 = .served →
      c.spaceAccess 4 = .served → octets c (a 0) (a 2).nat [0] xs c1 →
      exec (.mramWrite v) s = .next (opDone s v w (.int 0)
        (one (w.steps + 1) (a 2).nat (writeMramBytes (userArea + (a 1).nat) xs c1)))) ∧
    (opNext s.chip 0x18 v w → s.chip.worksInDram w = false → c.takeoverMeets w = true →
      exec (.sweep v) s = .next (opDone s v w (refused .busy) (one (w.steps + 1) 0 c))) ∧
    (∀ x sw c1, opNext s.chip 0x18 v w → s.chip.worksInDram w = false → c.takeoverMeets w = false → sweepStep (a 0) w.sweep c = (some x, sw, c1) →
      exec (.sweep v) s = .next (opDone s v w x (noteStep (jobOf v) (w.steps + 1) 0 sw c1))) ∧
    (∀ xs c1, opNext s.chip 0x51 v w → w.prog = 0 → c.updRefusal 0x51 w.host w.args = none →
      c.copyOk (a 0) (a 1) (a 2) c.slotRec.length = true → (a 2).nat ≤ 256 → c.slotRec.slot c.slotRec.staging = slotWriting →
      c.spaceAccess 0 = .served → c.spaceAccess 4 = .served → readOctets (a 1).nat (a 2).nat c = (.ok xs, c1) →
      exec (.updWrite v) s = .next (opDone s v w (.int 0)
        (one (w.steps + 1) (a 2).nat (writeMramBytes (slotBase c.slotRec.staging + (a 0).nat) xs c1)))) ∧
    (∀ xs c1 k, opNext s.chip 0x58 v w → w.prog = 0 → c.updRefusal 0x58 w.host w.args = none → smallArg (a 0) 2 = some k →
      c.copyOk (a 1) (a 2) (a 3) areaLen = true → (a 3).nat ≤ 256 → c.spaceAccess 0 = .served → c.spaceAccess 4 = .served →
      readOctets (a 2).nat (a 3).nat c = (.ok xs, c1) →
      exec (.setWrite v) s = .next (opDone s v w (.int 0)
        (one (w.steps + 1) (a 3).nat (writeMramBytes (areaBase ((c.slotRec.area + k) % 2) + (a 1).nat) xs c1)))) ∧
    (∀ xs c1 (p : Fin 5), v = .mailbox p → opNext s.chip 0x61 v w → w.prog = 0 → c.sessionRefusal p.val = none →
      c.copyOk (a 0) (a 1) (a 2) c.slotRec.length = true → (a 2).nat ≤ 256 → c.spaceAccess 0 = .served → c.spaceAccess 4 = .served →
      readOctets (a 1).nat (a 2).nat c = (.ok xs, c1) →
      exec (.rcvData p) s = .next (opDone s v w (.int 0)
        (one (w.steps + 1) (a 2).nat (writeMramBytes (slotBase c.slotRec.staging + (a 0).nat) xs c1)))) ∧
    (∀ e : Fin 6, s.chip.pick e.val = none → e.val ≠ 4 → (e.val = 0 → s.chip.reloads = false ∨ s.chip.upd.reload = none) → ∃ t, exec (.engineStep e) s = .next t ∧ t.chip.core = s.chip.core ∧
      t.chip.mems = s.chip.mems ∧ t.chip.regs = s.chip.regs ∧ t.chip.tk = s.chip.tk) ∧
    (∀ e : Fin 6, s.chip.pick e.val = none → e.val = 4 → exec (.engineStep e) s = .next (settled s (releaseStep s.chip))) ∧
    (∀ k, s.chip.pick 0 = none → s.chip.reloads = true → s.chip.upd.reload = some k →
      exec (.engineStep 0) s = .next (settled s (reloadStep s.chip.digestStep s.chip))) ∧
    (∀ (e : Fin 6) (j : Job), s.chip.pick e.val = some j → s.chip.work j = some w →
      let d := noteYield e.val j s.chip
      (∀ x, opStepped w.code = false → s.chip.worksInDram w = false → d.opFirst w = some x →
        exec (.engineStep e) s = .next (settled s (finishJobWith j w.code x (noteStep j (w.steps + 1) w.prog w.sweep d)))) ∧
      (w.code = 0x56 → d.reloads = true → d.opFirst w = none → exec (.engineStep e) s = .next (settled s
        (keepKeys j (d.keysOf j w) (noteStep j (w.steps + 1) w.prog w.sweep (reloadStep d.digestStep d))))) ∧
      (∀ n, opStepped w.code = false → s.chip.worksInDram w = false → d.opFirst w = none → s.chip.stepsOf w = some n →
        (w.steps + 1 < n → ∃ t, exec (.engineStep e) s = .next t ∧ t.chip.regs = s.chip.regs ∧ t.chip.mems = s.chip.mems ∧
          t.chip.core = s.chip.core ∧ t.chip.radio = s.chip.radio ∧ t.chip.upd = s.chip.upd ∧ t.chip.sec.nmk = s.chip.sec.nmk ∧
          (∀ k u, j = .held k → s.chip.ticket k = some u → u.state < 3 →
            t.chip.ticket k = some { u with state := 2, steps := w.steps + 1, prog := w.prog, sweep := w.sweep }) ∧
          (∀ p, j = .mbx p → (s.chip.mbxOf p).busy = true →
            t.chip.mbxOf p = { (s.chip.mbxOf p) with steps := w.steps + 1, prog := w.prog })) ∧
        (n ≤ w.steps + 1 → ∀ x d1, runOp j w s.otp (noteStep j (w.steps + 1) w.prog w.sweep d) = (some x, d1) →
          exec (.engineStep e) s = .next (settled s (finishJobWith j w.code x d1)))) ∧
      (opStepped w.code = true → s.chip.worksInDram w = false →
        (∀ prog sw d1, runStep j w s.otp d = (none, prog, sw, d1) →
          exec (.engineStep e) s = .next (settled s (noteStep j (w.steps + 1) prog sw d1))) ∧
        (∀ x prog sw d1, runStep j w s.otp d = (some x, prog, sw, d1) →
          exec (.engineStep e) s = .next (settled s (finishJobWith j w.code x (noteStep j (w.steps + 1) prog sw d1))))) ∧
      (s.chip.worksInDram w = true → ∀ k u, j = .held k → s.chip.ticket k = some u →
        ∃ t g m, exec (.engineStep e) s = .next t ∧
          t.chip.ticket k = some { u with state := 2, steps := w.steps + 1, dram := some (g, m) } ∧ 1 ≤ m ∧ m ≤ 32 ∧
          (w.code ≠ 0x18 → m = 1) ∧ s.chip.now < g ∧ g ≤ s.chip.now + 1341 ∧ t.chip.regs = s.chip.regs ∧ t.chip.mems = s.chip.mems)) ∧
    (∀ (e : Fin 6) (p : Fin 5), v = .mailbox p → s.chip.pick e.val = some (.mbx p.val) → opNext s.chip 0x3B v w →
      s.chip.stepsOf w = some 1 → w.steps = 0 → exec (.engineStep e) s = exec (.nmkErase v) s)
open Safety in
/-- R356, R363 to R369, R374, R375: the update operations, each where no check of R363 to R365 refuses it. UPD_BEGIN owns the
staging slot and marks it WRITING; UPD_VERIFY marks an image that verifies STAGED and answers its anti-rollback value;
UPD_GERMINATE enters GERMINATE in its first step, writes the next settings area in steps of 256 octets, and in mode 0 loads the shadow
with the image in its last one; UPD_ACTIVATE_AT arms and waits; UPD_CONFIRM confirms the slot and returns to RUN, and burns the counter
in a second step; UPD_FALLBACK before activation returns to RUN; UPD_ABORT and LEDGER_CLEAR
change the state record. -/
def Obligations.UpdateOperations : Prop :=
  ∀ (s : State) (v : Via) (w : Work),
    let c := opBegun v w s.chip
    let a (k : Nat) : Word := argOf w.args k
    let r := c.slotRec
    (∀ n, opNext s.chip 0x50 v w → c.updRefusal 0x50 w.host w.args = none → a 0 = .int n → 1 ≤ n → n ≤ 6291456 → a 1 = .bits 0 →
      r.owner = ownerNone →
      exec (.updBegin v) s = .next (opDone s v w (.int 0) (putRec { r.setSlot r.staging slotWriting with
        owner := if w.host then ownerHost else ownerRadio
        length := (a 0).nat } c))) ∧
    (∀ img, opNext s.chip 0x52 v w → c.verifyRefusal w.host w.args = none → c.verifyImage s.otp r.staging = .ok img →
      let c1 := imageSeen r.staging (if c.imageSigned s.otp r.staging then hashSeen r.staging c else c)
      exec (.updVerify v) s = .next (opDone s v w (.int img.rollback)
        ((putRec (r.setSlot r.staging slotStaged) c1).raise .upd updStaged))) ∧
    (let b := opTaken v s.chip
      let r := b.slotRec
      let mode := (a 0).nat
      let begun := ((setDev devGerminate (b.setB Fld.SYS_STATE_TRIAL false)).setB Fld.UPD_STATUS_RESTART_MODE (mode == 1)).onUpd
        fun u => { u with germinating := 1 + mode };
      (w.code = 0x53 → w.steps = 0 → s.chip.work (jobOf v) = some w → s.chip.pick 4 = some (jobOf v) →
        b.updRefusal 0x53 w.host w.args = none → r.slot r.staging = slotStaged → b.upd.release = none → b.spaceAccess 4 = .served →
        (b.initSection (b.slotSection r.staging 4)).isSome = true → imageCodeOk (b.slotSection r.staging 1) = true →
        smallArg (a 0) 2 = some mode →
        (mode = 0 → (b.recipe.map Recipe.digestList) = some (parseRecipe (b.slotSection r.staging 2)).digestList) →
        exec (.engineStep 4) s = .next (settled s (noteStep (jobOf v) 1 0 none
          (if mode = 0 then { begun with core := { begun.core with shadowValid := false } } else begun)))) ∧
      (opNext s.chip 0x53 v w → w.steps ≠ 0 → b.dev = devGerminate → b.upd.germinating ≠ 0 →
        let ended (d : Chip) (k : Nat) : State := opDone s v w (.int 0) (noteStep (jobOf v) (w.steps + 1) k none (d.raise .upd updLoaded))
        (mode = 1 → w.prog + 256 = areaLen → exec (.updGerminate v) s = .next (ended
          ((settingsStep w.prog b).onUpd fun u => { u with germinating := 0 }) areaLen)) ∧
        (mode = 0 → areaLen ≤ w.prog → areaLen + b.germinateDigest w.args ≤ w.prog + b.digestStep →
          let d := b.onUpd fun u => { u with germinating := 0 }
          let l := loadSlot (1 - b.core.bank) r.staging d
          b.sectionReads r.staging 1 = true → exec (.updGerminate v) s = .next (ended
            { l with core := { l.core with shadowValid := true } } (w.prog + b.digestStep))))) ∧
    (∀ n, opNext s.chip 0x54 v w → c.updRefusal 0x54 (viaHost v) w.args = none → (a 0).tag = .grain → a 1 = .bits 0 →
      a 2 = .int n → 60 ≤ n → n ≤ 259200 → (c.now : Int) + 2048 ≤ c.longOf (a 0).payload → c.upd.armed = none →
      ∃ t, exec (.updActivateAt v) s = .next t ∧ (t.chip.upd.armed.map fun x => x.at_) = some (some (c.longOf (a 0).payload).toNat) ∧
        t.chip.reg Reg.UPD_ACTIVATE_GRAIN = a 0 ∧ t.chip.dev = c.dev) ∧
    (let b := opTaken v s.chip;
      w.code = 0x55 → s.chip.work (jobOf v) = some w → b.updRefusal 0x55 w.host w.args = none → b.now < b.upd.trialEnd →
      b.upd.kiln = none →
      let due := rollbackCount s.otp < b.slotRollback b.trialSlot
      let target := max (b.slotRollback b.trialSlot) (if r.burnPending then r.burnTarget else 0)
      let confirmed (t : State) : Prop := t.chip.dev = devRun ∧ t.chip.trial = false ∧
        t.chip.slotRec.slot b.trialSlot = slotConfirmed ∧ t.chip.slotRec.area = 1 - r.area;
      (¬ due → opNext s.chip 0x55 v w → ∃ t, exec (.updConfirm v) s = .next t ∧ confirmed t ∧ t.chip.upd.release = some (r.area, 0)) ∧
      (due → b.mayBurn = true → b.sec.burns = [] →
        (s.chip.pick 4 = some (jobOf v) → ∃ t, exec (.engineStep 4) s = .next t ∧ confirmed t ∧ t.otp = s.otp ∧
          t.chip.slotRec.burnPending = true ∧ t.chip.slotRec.burnTarget = target ∧ t.chip.upd.kiln = some r.area) ∧
        (opNext s.chip 0x55 v w → ∃ t, exec (.updConfirm v) s = .next t ∧ confirmed t ∧ t.otp = burned s.otp (rollbackBurns target) ∧
          t.chip.slotRec.burnPending = false ∧ t.chip.upd.release = some (r.area, 0) ∧ t.chip.upd.kiln = none))) ∧
    (opNext s.chip 0x56 v w → c.updRefusal 0x56 w.host w.args = none → c.trial = false → c.core.paused = false → c.upd.armed = none →
      let d := c.onUpd fun u => { u with germinating := 0 }
      exec (.updFallback v) s = .next (opDone s v w (.int 0) (fellBack { d with core := { d.core with shadowValid := false } }))) ∧
    (opNext s.chip 0x57 v w → c.updRefusal 0x57 w.host w.args = none → w.host = false ∨ r.owner ≠ ownerRadio →
      exec (.updAbort v) s = .next (opDone s v w (.int 0)
        (putRec { r.setSlot r.staging slotEmpty with owner := ownerNone, length := 0 } c))) ∧
    (opNext s.chip 0x59 v w → c.updRefusal 0x59 w.host w.args = none → (a 0).tag = .bits →
      exec (.ledgerClear v) s = .next (opDone s v w (.int 0)
        (putRec { r with alt := Nat.land r.alt (65535 - (a 0).nat % 65536) } c)))

open Safety in
/-- R376 to R379: recovery sessions and DEAD. RCV_BEGIN opens a session for a path; RCV_END confirms an image that verifies
and resets into BOOT; RCV_ABORT fails an open session, which burns the next bit of the recovery count; in DEAD the fuses of
DEAD burn once the supply reaches 2.7 V. -/
def Obligations.RecoveryAndDead : Prop :=
  ∀ (s : State) (p : Fin 5) (w : Work),
    let v : Via := .mailbox p
    let c := opBegun v w s.chip
    let r := c.slotRec
    (∀ n, opNext s.chip 0x60 v w → c.upd.session = none → r.recoveryOpen = false → c.locked_ = false → c.pin pinMotion = false →
      c.b Fld.UPD_CTRL_MOVING = false → c.regN Reg.UPD_MIN_SUPPLY ≤ c.f Fld.PWR_MONITOR_VSYS_MV → argOf w.args 0 = .int n →
      1 ≤ n → n ≤ 6291456 → r.countPending = false →
      exec (.rcvBegin p) s = .next (opDone s v w (.int 0)
        ((putRec { r.setSlot r.staging slotWriting with
          owner := ownerNone
          recoveryOpen := true
          length := (argOf w.args 0).nat } c).onUpd fun u => { u with session := some p.val }))) ∧
    (∀ img, opNext s.chip 0x62 v w → c.sessionRefusal p.val = none → c.verifyImage s.otp r.staging = .ok img →
      ∃ t, exec (.rcvEnd p) s = .next t ∧ t.chip.dev = devBoot ∧ t.chip.core.running = false ∧ t.otp = s.otp) ∧
    (opNext s.chip 0x63 v w → c.upd.session = some p.val → r.recoveryOpen = true → c.mayBurn = true → recoveryCount s.otp < 15 →
      c.sec.burns = [] → ∃ t, exec (.rcvAbort p) s = .next t ∧ t.chip.upd.session = none ∧ t.chip.slotRec.recoveryOpen = false ∧
        t.otp = burned s.otp (recoveryBurn s.otp)) ∧
    (s.chip.dev = devDead → s.chip.mayBurn = true → s.chip.sec.burns = [] →
      ∃ t, exec .deadFuseBurn s = .next t ∧ deadFused t.otp = true ∧ t.chip.regs = s.chip.regs) ∧
    (s.chip.dev ≠ devDead → s.chip.sec.burns = [] → exec .deadFuseBurn s = .next s)

open Safety in
/-- R202, R203, R206, R369 to R373: what ends by time or by itself. The owner lock and debug access end at their not-after
while RTC time may be trusted; a failed entropy test stops the DRBG, and REINIT begins tests that take 3355 gr and, where they pass,
let it go on; an armed activation
in restart mode resets the device into a trial, a hitless one swaps the banks and starts the trial; a quiet gap that never
comes answers BUSY; a trial that ends without confirmation falls back once the chip is awake, a lost shadow being reloaded first; the
trial firmware reports on its settings. -/
def Obligations.ExpiriesAndActivation : Prop :=
  ∀ (s : State),
    (∀ g, s.chip.sec.lock = some g → g ≠ 0 → s.chip.oscStop = false → g ≤ s.chip.rtcSeconds →
      exec .lockExpiry s = .next { s with chip := s.chip.onSec fun x => { x with lock := none } }) ∧
    (∀ g, s.chip.sec.unlock = some g → g ≠ 0 → s.chip.oscStop = false → g ≤ s.chip.rtcSeconds →
      exec .debugUnlockExpiry s = .next { s with chip := s.chip.onSec fun x => { x with unlock := none } }) ∧
    (∀ p : Bool, s.chip.isOn .core = true → ∃ t, exec (.trngHealthFail p) s = .next t ∧ t.chip.b Fld.SEC_STATUS_TRNG_FAIL = true ∧
      t.chip.drbgReady = false ∧ t.chip.b ⟨Reg.SEC_INT_STATUS, secTrngFail, 1⟩ = true) ∧
    (∀ p : Bool, (s.chip.isOn .core = true →
        exec (.reinit p) s = .next { s with chip := s.chip.onSec fun x => { x with testing := some (s.chip.now + 3355, p) } }) ∧
      (s.chip.isOn .core = false → exec (.reinit p) s = .next { s with chip := s.chip.regReject }) ∧
      ∀ (d : Chip) g, d.sec.testing = some (g, p) → (d.now < g → testsEnd d = d) ∧
        (g ≤ d.now → let e := d.onSec fun x => { x with testing := none }
          testsEnd d = if p then e.setB Fld.SEC_STATUS_TRNG_FAIL false else
            (e.setB Fld.SEC_STATUS_TRNG_FAIL true).raise .sec secTrngFail)) ∧
    (∀ a g, s.chip.upd.armed = some a → a.at_ = some g → g ≤ s.chip.now → s.chip.dev = devGerminate → s.chip.isOn .core = true →
      s.chip.upd.germinating = 0 →
      (s.chip.b Fld.UPD_STATUS_RESTART_MODE = true → deadFused s.otp = false →
        ∃ t, exec .activation s = .next t ∧ t.chip.dev = devBoot ∧ t.chip.upd.armed = none ∧ t.chip.core.running = false) ∧
      (s.chip.b Fld.UPD_STATUS_RESTART_MODE = false → s.chip.core.accesses = [] → s.chip.core.stalled = none → s.chip.power ≤ 3 →
        ∃ t, exec .activation s = .next t ∧ t.chip.core.bank = 1 - s.chip.core.bank ∧ t.chip.core.pc = 0 ∧
          t.chip.core.startCause = 2 ∧ t.chip.trial = true ∧ t.chip.dev = devGerminate ∧ t.chip.upd.armed = none ∧
          t.chip.upd.slot = s.chip.slotRec.staging ∧ t.chip.reg Reg.UPD_ACTIVATE_GRAIN = .grain g)) ∧
    (∀ a, s.chip.upd.armed = some a → a.at_ = none → a.limit ≤ s.chip.now →
      exec .quietGapTimeout s = .next { s with chip := disarm .busy s.chip }) ∧
    (s.chip.dev = devGerminate → s.chip.trial = true → s.chip.upd.trialEnd ≤ s.chip.now → s.chip.isOn .core = true →
      s.chip.b Fld.UPD_STATUS_RESTART_MODE = false →
      (s.chip.core.shadowValid = true → s.chip.core.accesses = [] → s.chip.core.stalled = none → s.chip.power ≤ 3 →
        ∃ t, exec .trialExpiry s = .next t ∧ t.chip.dev = devRun ∧ t.chip.trial = false ∧
          t.chip.core.bank = 1 - s.chip.core.bank ∧ t.chip.core.startCause = 3 ∧ t.chip.upd.slot = 1 - s.chip.slotRec.staging ∧
          t.chip.b ⟨Reg.UPD_INT_STATUS, updFellBack, 1⟩ = true) ∧
      (s.chip.core.shadowValid = false → s.chip.power ≤ 3 →
        exec .trialExpiry s = .next (settled s (s.chip.onUpd fun u => { u with reload := some (u.reload.getD 0) })))) ∧
    (4 ≤ s.chip.power → exec .trialExpiry s = .next (settled s s.chip)) ∧
    (s.chip.dev = devGerminate → s.chip.trial = true →
      exec (.updSettingsReportWrite 0) s = .next { s with chip := s.chip.setRegN Reg.UPD_SETTINGS_REPORT 0 } ∧
      ∃ t, exec (.updSettingsReportWrite 16) s = .next t ∧ t.chip.upd.unreadable = true ∧
        t.chip.b ⟨Reg.UPD_INT_STATUS, updReported, 1⟩ = true) ∧
    (s.chip.dev ≠ devGerminate → ∀ code, exec (.updSettingsReportWrite code) s = .next { s with chip := s.chip.regReject })
open Safety in
/-- R243 to R251: tickets. A launch of a defined operation whose class is granted a ticket and whose engine is in answers a
TICKET word, with one more ticket held; an unknown code, a class without quota or pool, and a ring of no size are refused in
TK_RES. TK_PEEK answers the state of a ticket; a legal write of TK_RING_CONS moves the consumer; a finished operation is
posted: its four words stand in the ring, PROD advances and its ticket is free. Codes and tickets are moved from a source,
the core at rest and privileged with the ticket ports in its socket map. -/
def Obligations.Tickets : Prop :=
  ∀ (s : State),
    (∀ (bus : Fin 4) (src : MoveSource) (b : Word), coreAtRest s.chip = true → s.chip.sysPort 0 = true → s.chip.priv = true →
      operandWord s.chip src = some b →
      let args := (List.range 8).map fun k => s.chip.port (0x900 + k)
      (b.tag = .int → exec (.tkLaunch bus src) s = .next { s with
        chip := nextBundle ((tkLaunch b.nat args s.chip).2.setPort 0x909 (tkLaunch b.nat args s.chip).1) }) ∧
      (b.tag = .int → opKnown b.nat = true → s.chip.engineOut b.nat = false → (s.chip.port 0x911).nat ≠ 0 →
        s.chip.grants (opClass b.nat) = true → s.chip.freeTickets ≠ [] →
        ∃ t, exec (.tkLaunch bus src) s = .next t ∧ (t.chip.port 0x909).tag = .ticket ∧
          t.chip.tk.held.length = s.chip.tk.held.length + 1) ∧
      (b.tag = .int → opKnown b.nat = false → exec (.tkLaunch bus src) s = .next { s with
        chip := nextBundle (s.chip.setPort 0x909 (refused .unknownCommand)) }) ∧
      (b.tag = .ticket → exec (.tkPeek bus src) s = .next { s with
        chip := nextBundle (s.chip.setPort 0x90B (.int (s.chip.peekState b))) }) ∧
      (∀ c1, b.tag = .int → tkConsWrite b s.chip = some c1 →
        exec (.tkRingConsWrite bus src) s = .next { s with chip := nextBundle c1 })) ∧
    (∀ t, s.chip.isOn .core = true → s.chip.nextPost = some t → s.chip.ringUsed < (s.chip.port 0x911).nat →
      s.chip.isOn .memD = true →
      let prod := (s.chip.port 0x912).nat
      let p := (s.chip.port 0x910).nat + 4 * (prod % (s.chip.port 0x911).nat)
      ∃ u, exec .completionPost s = .next u ∧ u.chip.port 0x912 = .int ((prod + 1) % 65536 : Nat) ∧ u.chip.ticket t.number = none ∧
        (p % 2 = 0 → s.chip.ringEntryOk p = true → u.chip.stored p = ticketWord t ∧ u.chip.stored (p + 1) = t.result ∧ u.chip.stored (p + 2) = .grain t.doneAt))

open Safety in
/-- R382 to R389, R334: mailboxes. MBX_GO takes CODE, SEQ and the arguments of a path that is not busy, and collides on one
that is; a command in DEAD is refused. The commands without an engine answer at once: PING the grain and SYS_STATE, IDENTITY
the identity registers, POWER the sequence number of its request. MBX_REPLY fills the reply, clears BUSY and sets DONE. -/
def Obligations.Mailboxes : Prop :=
  ∀ (s : State) (p : Fin 5),
    let m := s.chip.mbxOf p.val
    (∀ code seq : BitVec 8, s.chip.mbxOpen p.val = true → m.busy = false →
      ∃ t, exec (.mbxGo p code seq) s = .next t ∧ (t.chip.mbxOf p.val).busy = true ∧ (t.chip.mbxStatus p.val).field 0 1 = 1 ∧
      (t.chip.mbxOf p.val).code = code.toNat ∧ (t.chip.mbxOf p.val).seq = seq.toNat ∧
      (t.chip.mbxOf p.val).args = (List.range 16).map (s.chip.mbxArg p.val) ∧
      (t.chip.mbxOf p.val).result = (s.chip.mbxRefusal code.toNat).map fun w => [w]) ∧
    (∀ code seq : BitVec 8, s.chip.mbxOpen p.val = true → m.busy = true → ∃ t, exec (.mbxGo p code seq) s = .next t ∧
      (t.chip.mbxStatus p.val).field 2 1 = 1 ∧ t.chip.mbx = s.chip.mbx ∧ t.chip.b Fld.SYS_STATUS_REG_REJECT = true ∧
      t.chip.b Fld.SYS_STATUS_HOST_REJECT = (p != 0)) ∧
    (m.busy = true → m.result = none →
      (m.code = 0x00 → exec (.ping p) s = .next { s with
        chip := setMbx p.val { m with result := some [.int 0, ⟨.grain, s.chip.grain⟩, s.chip.reg Reg.SYS_STATE] } s.chip }) ∧
      (m.code = 0x01 → exec (.identity p) s = .next { s with
        chip := setMbx p.val { m with result := some [.int 0, s.chip.reg Reg.SYS_ID, .bits (serial s.otp % 2 ^ 32),
          .bits (serial s.otp / 2 ^ 32), s.chip.reg Reg.SYS_STATE, secLifecycle s.otp] } s.chip }) ∧
      (∀ x, m.code = 0x04 → argOf m.args 0 = .int x → 0 ≤ x → x < 8 → s.chip.power ≠ 5 → ∃ t, exec (.power p) s = .next t ∧
        (t.chip.mbxOf p.val).result = some [.int (((powerRequest x.toNat s.chip).f Fld.PWR_STATUS_LAST_SEQ : Nat))] ∧
        t.chip.power = (powerRequest x.toNat s.chip).power)) ∧
    (∀ ws, m.busy = true → m.result = some ws → p.val ≠ 0 → ∃ t, exec (.mbxReply p) s = .next t ∧
      (p.val = 3 → t.chip.out = (uartReply 0x81 5 (Reg.MBX_REPLY 2 0) 8 (replyWords m ws)).map Word.bits) ∧
      (p.val = 1 → s.chip.isOn .pcie = true → t.chip.msix = s.chip.msix ++ [0]) ∧
      (p.val = 2 → t.chip.hostIrqLow = s.chip.b Fld.HOST_QSPI_CFG_IRQ) ∧ (t.chip.mbxOf p.val).busy = false ∧ (t.chip.mbxStatus p.val).field 0 1 = 0 ∧
      (t.chip.mbxStatus p.val).field 1 1 = 1 ∧ (t.chip.mbxStatus p.val).field 16 8 = m.seq % 2 ^ 8 ∧
      ∀ k, k < 8 → t.chip.reg (Reg.MBX_REPLY (p.val - 1) k) = (replyWords m ws).getD k (.int 0))

/-- R13, R272 to R275, R387: commands that stop or change a part of the chip. ISLAND_RESTART stops one island alone and its
return serves it again and answers; one that carries the command's own path stops with no reply; DEVICE_RESET with the right guard resets into BOOT and with another is refused; REMASH
with a recipe that passes its checks, once an engine takes it, begins with the first changed lane; a lane held QUIESCED for 64 gr takes its new entry;
a frame that keeps a lane past QUIESCE_WAIT is abandoned. -/
def Obligations.RestartAndRemash : Prop :=
  ∀ (s : State) (p : Fin 5),
    let m := s.chip.mbxOf p.val
    (m.busy = true → m.result = none → m.code = 0x02 → m.steps = 0 →
      (∀ i : Island, i ≠ .aon → i ≠ .rtc → i ≠ .evf → i ≠ .pcie → argOf m.args 0 = .int i.num → s.chip.isOn i = true →
        pathIsland p.val ≠ some i → ∃ t, exec (.islandRestart p) s = .next t ∧ t.chip.island i = .restarting ∧
          (t.chip.mbxOf p.val).steps = 1 ∧ t.otp = s.otp ∧ t.chip.mems.mram = s.chip.mems.mram) ∧
      (∀ i : Island, i ≠ .aon → i ≠ .rtc → i ≠ .evf → argOf m.args 0 = .int i.num → s.chip.isOn i = true → pathIsland p.val = some i →
        ∃ t, exec (.islandRestart p) s = .next t ∧ t.chip.island i = .restarting ∧ (t.chip.mbxOf p.val).busy = false) ∧
      (argOf m.args 0 = .int 0 → exec (.islandRestart p) s = .next { s with
        chip := setMbx p.val { m with result := some [refused .badArg] } s.chip })) ∧
    (∀ (found : Option DdrFound) (r0 r1 : Fin 3), s.chip.island .memT = .restarting → m.busy = true → m.result = none → m.code = 0x02 →
      m.steps = 1 → argOf m.args 0 = .int (Island.memT.num) → ∃ t, exec (.islandRestartDone ⟨10, by decide⟩ found r0 r1) s = .next t ∧
        t.chip.isOn .memT = true ∧ (t.chip.mbxOf p.val).result = some [.int 0]) ∧
    (m.busy = true → m.result = none → m.code = 0x03 →
      (argOf m.args 0 = s.chip.reg Reg.SYS_ID → deadFused s.otp = false → ∃ t, exec (.deviceReset p) s = .next t ∧
        t.chip.dev = devBoot ∧ t.chip.core.running = false ∧ t.chip.regN Reg.PWR_RESET_CAUSE = 2 ^ causePin) ∧
      (argOf m.args 0 ≠ s.chip.reg Reg.SYS_ID → s.chip.sec.burns = [] → exec (.deviceReset p) s = .next { s with
        chip := setMbx p.val { m with result := some [refused .badArg] } s.chip })) ∧
    (∀ (old new : Recipe) (w : Work) (n k : Nat) (x : List Nat) (c1 : Chip), Safety.opNext s.chip 0x05 (.mailbox p) w →
      s.chip.recipe = some old → s.chip.remash = none → argOf w.args 1 = .int n → 0 < n → n ≤ 262144 → argOf w.args 2 = .int k →
      k ≤ 67108864 →
      Safety.octets (Safety.opBegun (.mailbox p) w s.chip) (argOf w.args 0) n [0, 1, 2, 3] x c1 → c1.checkRecipe s.otp x = .ok new →
      remashRefusal old new = none →
      let d := remashBegin p.val k old new c1
      exec (.remash p) s = .next (Safety.settled s (setMbx p.val { (d.mbxOf p.val) with prog := 1 } d))) ∧
    (∀ (r : Remash) (n g : Nat) (rest : List Nat), s.chip.remash = some r → r.todo = n :: rest → s.chip.isOn .lane = true →
      (s.chip.laneSt n).hold = some g → g ≤ s.chip.now →
      exec .remashLaneQuiesced s = .next { s with chip := remashApply s.chip.oldPlan r n s.chip }) ∧
    (∀ (r : Remash) (n g : Nat) (rest : List Nat), s.chip.remash = some r → r.todo = n :: rest →
      (s.chip.laneSt n).quiesce = some g → g ≤ s.chip.now → s.chip.laneState n = laneReceive →
      exec .quiesceWaitExpiry s = .next { s with chip := laneAbandon n 7 s.chip })
/-- R5, R12, R37, R38, R40, R390: register and word access. A write of a word with a tag that the register does not take, to a
reserved address or to an island that does not serve it is discarded with REG_REJECT; a write of a plain register takes its
fields. A host reads in RUN a word of memory or a register; where its path is not served nothing happens; a partial slot
changes nothing and is rejected. -/
def Obligations.WordAccess : Prop :=
  ∀ (s : State),
    (∀ (a : BitVec 17) (w : Word), a.toNat ≠ Reg.SYS_STATUS →
      s.chip.regPresent a.toNat = false ∨ s.chip.regServed a.toNat = false ∨ regTakes a.toNat w.tag = false →
      ∃ t, exec (.registerWrite false a w) s = .next t ∧ t.chip.b Fld.SYS_STATUS_REG_REJECT = true ∧
        t.chip.b Fld.SYS_STATUS_HOST_REJECT = false ∧ (∀ r, r ≠ Reg.SYS_STATUS → t.chip.reg r = s.chip.reg r) ∧
        t.chip.mems = s.chip.mems) ∧
    (∀ v : Payload, s.chip.isOn .rtc = true → s.chip.power ≠ 7 → v.toNat < 2 ^ 15 →
      ∃ t, exec (.registerWrite false (BitVec.ofNat 17 Reg.RTC_SET_FRAC) ⟨.bits, v⟩) s = .next t ∧
        t.chip.regN Reg.RTC_SET_FRAC = v.toNat ∧ (∀ r, r ≠ Reg.SYS_STATUS → r ≠ Reg.RTC_SET_FRAC → t.chip.reg r = s.chip.reg r)) ∧
    (∀ (p : Fin 4) (sp : BitVec 4) (a : BitVec 32),
      (s.chip.pathServed (p.val + 1) = false → exec (.hostWordRead p sp a) s = .next s ∧
        ∀ x, exec (.hostWordWrite p sp a x) s = .next s) ∧
      (s.chip.pathServed (p.val + 1) = true → s.chip.hostRefusal sp.toNat a.toNat = none → sp.toNat < 4 →
        let (w, c1) := readWordBy .a (ptrOf sp.toNat a.toNat) s.chip
        exec (.hostWordRead p sp a) s = .next { s with chip := (readSeen (p.val + 1) sp.toNat w true c1).reply [w] }) ∧
      (∀ w, s.chip.pathServed (p.val + 1) = true → s.chip.hostRefusal sp.toNat a.toNat = some w →
        exec (.hostWordRead p sp a) s = .next { s with chip := (readSeen (p.val + 1) sp.toNat w true s.chip).reply [w] }) ∧
      (∀ x, s.chip.pathServed (p.val + 1) = true → x.full = false →
        exec (.hostWordWrite p sp a x) s = .next { s with
          chip := (writeSeen (p.val + 1) x true s.chip).regReject.hostReject }) ∧
      (∀ (x : SlotWrite) (t : Tag), s.chip.pathServed (p.val + 1) = true → x.full = true → Tag.ofNum x.tag.toNat = some t →
        s.chip.hostWritable sp.toNat a.toNat = true → sp.toNat = 0 → s.chip.isOn .memD = true →
        s.chip.flaw (ptrOf 0 a.toNat) = [] →
        ∃ u, exec (.hostWordWrite p sp a x) s = .next u ∧ u.chip.stored (ptrOf 0 a.toNat) = ⟨t, x.payload⟩ ∧
          ∀ q, q ≠ ptrOf 0 a.toNat → u.chip.stored q = s.chip.stored q))

/-- R391 to R393: PCIe. An aperture that names this chip is a word access of path 1, and one that names a chip the gang
reaches sends an access frame and waits; a read that waited 20 ms answers TIMEOUT. PERST_N restarts the PCIe island with its
mailboxes reset; a doorbell is kept and wakes; firmware signals vectors 2 to 31; a change of the link raises PCIE_LINK. -/
def Obligations.PcieHost : Prop :=
  ∀ (s : State),
    (∀ (k : Fin 4) (w : BitVec 21), s.chip.pathServed 1 = true →
      let n := s.chip.f (Fld.HOST_APERTURE_CHIP k.val)
      let sp := s.chip.f (Fld.HOST_APERTURE_SPACE k.val)
      let a := s.chip.f (Fld.HOST_APERTURE_BASE_HI k.val) * 2 ^ 21 + w.toNat
      (n = s.chip.f Fld.SYS_STATE_CHIP_NUMBER →
        exec (.apertureAccess k w none) s = .next { s with chip := hostWordRead 1 sp a s.otp s.chip } ∧
        ∀ x, exec (.apertureAccess k w (some x)) s = .next { s with chip := hostWordWrite 1 sp a x s.chip }) ∧
      (n ≠ s.chip.f Fld.SYS_STATE_CHIP_NUMBER → s.chip.reaches n = true → ∃ t f, exec (.apertureAccess k w none) s = .next t ∧
        t.chip.gang.waiting = s.chip.gang.waiting ++ [f] ∧ f.type = 4 ∧ f.dst = n ∧ f.op = 0 ∧
        f.words = [.mk' .ptr (ptrOf sp a), .int 1] ∧
        t.chip.gang.remote = s.chip.gang.remote ++ [{ chip := n, count := 1, due := s.chip.now + remoteWait }]) ∧
      (n ≠ s.chip.f Fld.SYS_STATE_CHIP_NUMBER → s.chip.reaches n = false →
        exec (.apertureAccess k w none) s = .next { s with chip := s.chip.reply [s.chip.stateRefused] })) ∧
    (∀ r rest, s.chip.gang.remote = r :: rest → r.due ≤ s.chip.now →
      exec .accessTimeout s = .next { s with
        chip := ({ s.chip with gang := { s.chip.gang with remote := rest } }).reply [refused .timeout] }) ∧
    (s.chip.isOn .pcie = true → ∃ t, exec .perstN s = .next t ∧ t.chip.island .pcie = .restarting ∧
      (∀ p, 1 ≤ p → p ≤ 4 → (t.chip.mbxOf p) = .idle) ∧ t.chip.core = s.chip.core ∧ t.chip.mems = s.chip.mems) ∧
    (s.chip.isOn .pcie = false → exec .perstN s = .next s) ∧
    (∀ w : Payload, s.chip.isOn .pcie = true → s.chip.power ≠ 7 → ∃ t, exec (.hostDoorbellIn w) s = .next t ∧
      t.chip.regN Reg.HOST_DOORBELL_IN = w.toNat ∧ t.chip.b ⟨Reg.HOST_INT_STATUS, 0, 1⟩ = true) ∧
    (∀ v : BitVec 6, s.chip.isOn .pcie = true →
      (2 ≤ v.toNat → v.toNat ≤ 31 → exec (.hostDoorbellOut v) s = .next { s with
        chip := { s.chip with msix := s.chip.msix ++ [v.toNat] } }) ∧
      (v.toNat < 2 ∨ 31 < v.toNat → exec (.hostDoorbellOut v) s = .next { s with chip := s.chip.regReject })) ∧
    (∀ (rate : Fin 4) (wide l1 : Bool), s.chip.isOn .pcie = true → ∃ t, exec (.pcieLinkChange rate wide l1) s = .next t ∧
      t.chip.b Fld.HOST_PCIE_STATUS_LINK_UP = (rate.val != 0) ∧ t.chip.f Fld.HOST_PCIE_STATUS_RATE = rate.val ∧
      (s.chip.b Fld.HOST_PCIE_STATUS_LINK_UP ≠ (rate.val != 0) → t.chip.b ⟨Reg.HOST_INT_STATUS, 1, 1⟩ = true))

/-- R394, R395: the quad SPI target and UART0 carry the word accesses of paths 2 and 3. A quad SPI read of one word in time
answers it, one too late answers BUSY; a write leaves whether its last slot was discarded; the status byte shows mailbox and
device state. A whole UART frame with a good CRC is answered by a reply frame, an opened one is held, and 100 ms without a byte drop it. -/
def Obligations.SerialHosts : Prop :=
  ∀ (s : State),
    (∀ (op : BitVec 8) (sp : BitVec 4) (a : BitVec 32), s.chip.pathServed 2 = true →
      (op = 0x0B#8 ∨ op = 0xEB#8 →
        (let (w, c1) := hostRead 2 s.otp sp.toNat a.toNat s.chip
        exec (.qspiRead op sp a [false]) s = .next { s with chip := (readSeen 2 sp.toNat w true c1).reply [w] }) ∧
        exec (.qspiRead op sp a [true]) s = .next { s with
          chip := (readSeen 2 sp.toNat (refused .busy) true s.chip).reply [refused .busy] }) ∧
      (∀ x, op = 0x02#8 ∨ op = 0x38#8 →
        let (rejected, c1) := hostWrite sp.toNat a.toNat x (writeSeen 2 x true s.chip)
        exec (.qspiWrite op sp a [x]) s = .next { s with chip := { c1 with qspiReject := rejected } })) ∧
    (s.chip.pathServed 2 = true → exec .qspiStatusByte s = .next { s with chip := s.chip.reply [s.chip.qspiStatus] }) ∧
    (∀ (body : List Byte) (sp a : Nat), s.chip.pathServed 3 = true → s.chip.uart.bytes = none →
      let bs := body.map BitVec.toNat
      bs.length = 9 → bs.headD 0 = 1 → uartFrame bs = some (sp, a, 1, []) →
      ∃ t, exec (.uartReadRequest (0x7E#8 :: body)) s = .next t ∧ t.chip.uart.bytes = none ∧
        t.chip.out = (uartReply 0x81 sp a 1
          [(hostRead 3 s.otp sp a { s.chip with uart := { bytes := none, at_ := s.chip.now } }).1]).map Word.bits) ∧
    (∀ (body : List Byte) (sp a : Nat) (d : List Nat), s.chip.pathServed 3 = true → s.chip.uart.bytes = none →
      let bs := body.map BitVec.toNat
      bs.length = 17 → bs.headD 0 = 2 → bs.getD 6 0 = 1 → uartFrame bs = some (sp, a, 1, d) →
      exec (.uartWriteRequest (0x7E#8 :: body)) s = .next { s with
        chip := ((hostWrite sp a (slotOfBytes d) { s.chip with uart := { bytes := none, at_ := s.chip.now } }).2).reply
          ((uartReply 0x82 sp a 1 []).map Word.bits) }) ∧
    (s.chip.pathServed 3 = true → s.chip.uart.bytes = none → exec (.uartReadRequest [0x7E#8, 1#8]) s = .next { s with
      chip := { s.chip with uart := { bytes := some [1], at_ := s.chip.now } } }) ∧
    (∀ bs, s.chip.uart.bytes = some bs → s.chip.uart.at_ + uartIdle ≤ s.chip.now →
      exec .uartIdleTimeout s = .next { s with chip := { s.chip with uart := { s.chip.uart with bytes := none } } })
/-- R397 to R403: frames and the ring. A frame that cannot be taken is dropped and counted. Chip 0 sends ENUM and learns the
gang size when its own comes back; another chip takes the number it carries and passes it on with one more. A port that went
silent folds the ring at both its ends and is told to all; a port that locks again undoes the fold, and chip 0 enumerates. A
chip with a break on either side of it, between it and chip 0, is isolated. Frames that wait leave in the order of R400, by the port of
their direction, turned back at one that is DOWN, each with its CRC-32 and a TIME with the stamp of its departure; a broadcast passes on
in the direction it came. -/
def Obligations.ChainRing : Prop :=
  ∀ (s : State), s.chip.isOn .chain = true →
    exec .chainFrameCrcError s = .next { s with chip := s.chip.bump Fld.HOST_CHAIN_COUNTS_CRC_ERRORS } ∧
    (∀ g, s.chip.gang.enumAt = some g → g ≤ s.chip.now → s.chip.isHead = true →
      ∃ t f, exec .enumSend s = .next t ∧ t.chip.gang.waiting = s.chip.gang.waiting ++ [f] ∧ f.type = 1 ∧ f.words = [.int 1] ∧
        t.chip.gang.enumAt = some (s.chip.now + 671089)) ∧
    (∀ (h : FrameHead) (n : Nat) (d0 d1 : BitVec 16), h.hops.toNat ≠ 127 → h.back = false → n < 64 → s.chip.isHead = false →
      s.chip.gang.numbered = false → ∃ t f, exec (.enum h (.int n) false false d0 d1) s = .next t ∧
        t.chip.f Fld.SYS_STATE_CHIP_NUMBER = n ∧ t.chip.gang.numbered = true ∧ t.chip.gang.delay0 = d0.toNat ∧
        t.chip.gang.waiting = s.chip.gang.waiting ++ [f] ∧ f.words = [.int (n + 1)] ∧ f.hops = h.hops.toNat + 1) ∧
    (∀ (h : FrameHead) (w : Word) (own re : Bool) (d0 d1 : BitVec 16), h.hops.toNat ≠ 127 → h.back = true →
      ∃ t f, exec (.enum h w own re d0 d1) s = .next t ∧ t.chip.gang.waiting = s.chip.gang.waiting ++ [f] ∧ f.words = [w] ∧
        f.back = true ∧ t.chip.f Fld.SYS_STATE_CHIP_NUMBER = s.chip.f Fld.SYS_STATE_CHIP_NUMBER) ∧
    (∀ (h : FrameHead) (n : Nat) (d0 d1 : BitVec 16) (r : Recipe), h.hops.toNat ≠ 127 → h.back = false → n ≤ 64 → s.chip.isHead = true →
      s.chip.recipe = some r → ∃ t, exec (.enum h (.int n) true false d0 d1) s = .next t ∧
        t.chip.f Fld.HOST_CHAIN_STATUS_GANG_SIZE = n ∧ t.chip.b Fld.HOST_CHAIN_STATUS_SIZE_MISMATCH = (n != r.gangSize) ∧
        t.chip.gang.enumAt = none ∧ t.chip.gang.waiting = s.chip.gang.waiting ∧
        ∀ p : Fin 5, p.val ∈ s.chip.gang.enumPaths → (s.chip.mbxOf p.val).busy = true → (s.chip.mbxOf p.val).result = none →
          (s.chip.mbxOf p.val).code = 0x08 → (t.chip.mbxOf p.val).result = some [.int n]) ∧
    (∀ p : Fin 5, let m := s.chip.mbxOf p.val
      m.busy = true → m.result = none → m.code = 0x08 → m.steps = 0 →
      (s.chip.isHead = true → ∃ t, exec (.gangEnumerate p) s = .next t ∧ t.chip.gang.enumAt = some s.chip.now ∧
        t.chip.gang.enumPaths = s.chip.gang.enumPaths ++ [p.val] ∧ (t.chip.mbxOf p.val).result = none) ∧
      (s.chip.isHead = false → exec (.gangEnumerate p) s = .next { s with
        chip := setMbx p.val { m with result := some [s.chip.stateRefused] } s.chip })) ∧
    (∀ (port : Bool) (lost : BitVec 18), s.chip.f (portRate port) ≠ 0 →
      ∃ t f, exec (.chainPortDown port lost) s = .next t ∧ t.chip.f (portRate port) = 0 ∧
        t.chip.b Fld.HOST_CHAIN_STATUS_FOLDED = true ∧ t.chip.b ⟨Reg.HOST_INT_STATUS, 3, 1⟩ = true ∧
        t.chip.gang.waiting = s.chip.gang.waiting ++ [f] ∧ f.type = 8 ∧ f.bcast = true ∧ f.op = 0 ∧
        f.words = [.bits (s.chip.chipNumber * 2 + b2n port)] ∧ (s.chip.chipNumber, port) ∈ t.chip.gang.breaks ∧
        t.chip.b Fld.HOST_CHAIN_STATUS_ISOLATED = t.chip.cutOff s.chip.chipNumber) ∧
    (∀ (port : Bool) (rate : Fin 3), s.chip.f (portRate port) = 0 → rate.val ≠ 0 → s.chip.chainSlow = false →
      s.chip.f (portRate (! port)) ≠ 0 →
      (∃ t f, exec (.ringRestored port rate) s = .next t ∧ t.chip.f (portRate port) = rate.val ∧
        t.chip.b Fld.HOST_CHAIN_STATUS_FOLDED = false ∧ t.chip.b ⟨Reg.HOST_INT_STATUS, 4, 1⟩ = true ∧
        t.chip.gang.waiting = s.chip.gang.waiting ++ [f] ∧ f.type = 8 ∧ f.op = 1 ∧
        (s.chip.isHead = true → t.chip.gang.enumAt = some s.chip.now)) ∧
      (s.chip.retrainAt port ≤ s.chip.now → ∃ t, exec (.chainRetrain port rate) s = .next t ∧
        t.chip.f (portRate port) = rate.val ∧ t.chip.retrainAt port = s.chip.now + 671089)) ∧
    (∀ (h : FrameHead) (w : Word), h.hops.toNat ≠ 127 → h.bcast = true → s.chip.isChip h.src.toNat = false →
      s.chip.frameSeen h = false →
      (∃ t f, exec (.ring h false w) s = .next t ∧ t.chip.b ⟨Reg.HOST_INT_STATUS, 3, 1⟩ = true ∧
        t.chip.gang.waiting = s.chip.gang.waiting ++ [f] ∧ f.type = 8 ∧ f.words = [w] ∧ f.hops = h.hops.toNat + 1 ∧ f.back = h.back ∧
        t.chip.frameSeen h = true ∧
        (w.field 1 6, bitOf w.nat 0) ∈ t.chip.gang.breaks ∧
        t.chip.b Fld.HOST_CHAIN_STATUS_ISOLATED = t.chip.cutOff s.chip.chipNumber) ∧
      (∃ t, exec (.ring h true w) s = .next t ∧ t.chip.b ⟨Reg.HOST_INT_STATUS, 4, 1⟩ = true ∧
        (w.field 1 6, bitOf w.nat 0) ∉ t.chip.gang.breaks ∧ (s.chip.isHead = true → t.chip.gang.enumAt = some s.chip.now))) ∧
    (∀ (h : FrameHead) (w : Word), h.hops.toNat ≠ 127 → h.bcast = true → s.chip.isChip h.src.toNat = true →
      (h.back = false → ∃ t, exec (.ring h false w) s = .next t ∧ t.chip.gang = s.chip.gang) ∧
      (h.back = true → s.chip.f (portRate false) ≠ 0 → ∃ t f, exec (.ring h false w) s = .next t ∧
        t.chip.gang.waiting = s.chip.gang.waiting ++ [f] ∧ f.back = true ∧ t.chip.gang.breaks = s.chip.gang.breaks)) ∧
    (s.chip.gang.waiting.length ≤ chainCredits → s.chip.gang.sent = [] →
      (∀ f ∈ s.chip.gang.waiting, (s.chip.portOut f.back).isSome = true) →
      (chainOut s.chip).gang.waiting = [] ∧
      (chainOut s.chip).gang.sent.map LinkFrame.octets = s.chip.waitingFrames.map fun f =>
        (if f.type = 2 then { f with words := [.grain s.chip.now, .grain (s.chip.now / 2 ^ 36)] } else f).linked) ∧
    (∀ f : ChainFrame, s.chip.gang.sent = [] →
      (s.chip.f (portRate true) ≠ 0 → f.back = false → ∃ x, (chainLeave f s.chip).gang.sent = [x] ∧ x.port = 1) ∧
      (s.chip.f (portRate true) = 0 → s.chip.f (portRate false) ≠ 0 → f.back = false →
        ∃ x, (chainLeave f s.chip).gang.sent = [x] ∧ x.port = 0) ∧
      (s.chip.f (portRate false) ≠ 0 → f.back = true → ∃ x, (chainLeave f s.chip).gang.sent = [x] ∧ x.port = 0) ∧
      (s.chip.f (portRate false) = 0 → s.chip.f (portRate true) ≠ 0 → f.back = true →
        ∃ x, (chainLeave f s.chip).gang.sent = [x] ∧ x.port = 1) ∧
      (s.chip.f (portRate false) = 0 → s.chip.f (portRate true) = 0 →
        (chainLeave f s.chip).gang.waiting = s.chip.gang.waiting ++ [f] ∧ (chainLeave f s.chip).gang.sent = []))

/-- R291, R404, R405: members, gang time and gang events. A numbered chip broadcasts STATUS when it is due; a STATUS heard
marks its source alive and passes on; a chip not heard for 2^22 gr is lost. Chip 0 broadcasts TIME; one that arrives is
compared with local time, within 2 gr leaving it, beyond stepping it while the link controller is off; it passes on. An EVENT frame is held until its delivery grain. -/
def Obligations.GangTimeAndMembers : Prop :=
  ∀ (s : State), s.chip.isOn .chain = true →
    (s.chip.gang.numbered = true → s.chip.gang.statusAt ≤ s.chip.now → ∃ t f, exec .statusSend s = .next t ∧
      t.chip.gang.waiting = s.chip.gang.waiting ++ [f] ∧ f.type = 7 ∧ f.bcast = true ∧
      f.words = [s.chip.reg Reg.SYS_STATE, .grain s.chip.now] ∧ t.chip.gang.statusAt = s.chip.now + 2 ^ 20) ∧
    (s.chip.now < s.chip.gang.statusAt → exec .statusSend s = .next s) ∧
    (s.chip.isHead = true → s.chip.gang.numbered = true → s.chip.gang.timeAt ≤ s.chip.now → ∃ t f, exec .timeSend s = .next t ∧
      t.chip.gang.waiting = s.chip.gang.waiting ++ [f] ∧ f.type = 2 ∧ f.words = [.grain s.chip.now, .grain (s.chip.now / 2 ^ 36)] ∧
      t.chip.gang.timeAt = s.chip.now + 2 ^ 16) ∧
    (∀ (h : FrameHead), h.hops.toNat ≠ 127 → h.bcast = true → s.chip.isChip h.src.toNat = false →
      s.chip.frameSeen h = false →
      (∀ w0 w1, ∃ t f, exec (.status h w0 w1) s = .next t ∧ t.chip.alive h.src.toNat = true ∧
        t.chip.gang.waiting = s.chip.gang.waiting ++ [f] ∧ f.type = 7 ∧ f.words = [w0, w1] ∧ f.src = h.src.toNat) ∧
      (∀ (lo hi : Payload) (port : Bool),
        let d := if port then s.chip.gang.delay1 else s.chip.gang.delay0
        let z : Int := 16 * ((lo.toNat + hi.toNat * 2 ^ 36 : Nat) : Int) + d - 16 * s.chip.now
        (z.natAbs ≤ 32 → ∃ t f, exec (.time h lo hi port) s = .next t ∧ t.chip.now = s.chip.now ∧
          t.chip.b Fld.HOST_CHAIN_STATUS_SYNCED = true ∧ t.chip.gang.waiting = s.chip.gang.waiting ++ [f] ∧ f.type = 2 ∧
          f.back = port ∧ f.hops = h.hops.toNat + 1) ∧
        (32 < z.natAbs → s.chip.b Fld.LINK_CTRL_ENABLE = false → ∃ t, exec (.time h lo hi port) s = .next t ∧
          t.chip.now = ((s.chip.now : Int) + Config.roundHalf 3 z 16).toNat % 2 ^ 72) ∧
        (32 < z.natAbs → s.chip.b Fld.LINK_CTRL_ENABLE = true → ∃ t, exec (.time h lo hi port) s = .next t ∧
          t.chip.now = s.chip.now ∧ t.chip.gang.slew = z ∧ t.chip.b Fld.HOST_CHAIN_STATUS_SYNCED = false)) ∧
      (∀ (line : Fin 16) (stamp w : Payload), s.chip.isOn .evf = true →
        ∃ t e, exec (.event h line stamp w) s = .next t ∧ t.chip.fab.gang = s.chip.fab.gang ++ [e] ∧ e.line = line.val ∧
          e.chip = h.src.toNat ∧ e.payload = w.toNat % 2 ^ 22)) ∧
    (∀ n, n < 64 → s.chip.alive n = true → Store.get 0 s.chip.gang.heard n + 2 ^ 22 ≤ s.chip.now + 1 →
      ∃ t, exec .memberLost s = .next t ∧ t.chip.alive n = false ∧ t.chip.b ⟨Reg.HOST_INT_STATUS, 2, 1⟩ = true)

/-- R186, R392, R399, R406: access, mirror and takeover. A request for this chip is served by the rules of R390 and answered
to its source; one for another chip passes on. A response completes the oldest remote read of its source. A mirror forward
from the source is written into the mirror region and one from another chip is counted and refused. A takeover of no record
completes at once. -/
def Obligations.ChainAccess : Prop :=
  ∀ (s : State) (h : FrameHead), s.chip.isOn .chain = true → h.hops.toNat ≠ 127 → h.bcast = false →
    (s.chip.isChip h.dst.toNat = false → ∀ ws, ∃ t f, exec (.accessRsp h ws) s = .next t ∧
      t.chip.gang.waiting = s.chip.gang.waiting ++ [f] ∧ f.type = 5 ∧ f.dst = h.dst.toNat ∧ f.src = h.src.toNat ∧ f.words = ws ∧
      f.hops = h.hops.toNat + 1) ∧
    (s.chip.isChip h.dst.toNat = true →
      (∀ (sp : BitVec 4) (a : BitVec 32), s.chip.hostRefusal sp.toNat a.toNat = none → sp.toNat < 4 →
        let c := arrivesAt h 4 0 [.mk' .ptr (ptrOf sp.toNat a.toNat), .int 1] s.chip
        ∃ t f, exec (.accessReq h sp a false 1 []) s = .next t ∧ t.chip.gang.waiting = s.chip.gang.waiting ++ [f] ∧ f.type = 5 ∧
          f.dst = h.src.toNat ∧ f.words = [(readWordBy .a (ptrOf sp.toNat a.toNat) c).1]) ∧
      (∀ (sp : BitVec 4) (a : BitVec 32) (w : Word),
        let c := arrivesAt h 4 1 [.mk' .ptr (ptrOf sp.toNat a.toNat), w] s.chip
        exec (.accessReq h sp a true 1 [w]) s = .next { s with
          chip := (hostWrite sp.toNat a.toNat { tag := BitVec.ofNat 4 w.tag.num, payload := w.payload, full := true } c).2 }) ∧
      (∀ ws r, (s.chip.gang.remote.find? fun r => r.chip == h.src.toNat) = some r →
        let c := (arrivesAt h 5 0 ws s.chip).onGang fun g => { g with remote := g.remote.erase r }
        exec (.accessRsp h ws) s = .next { s with
          chip := (ws.foldl (fun c w => dmaSeen 1 1 (wordBytes w) true c) c).reply ws }) ∧
      (∀ (op : Fin 4) (handle : Word) (ws : List Word), s.chip.b Fld.MEM_MIRROR_CTRL_ACCEPT = true →
        (s.chip.f Fld.MEM_MIRROR_CTRL_SOURCE ≠ h.src.toNat → exec (.mirror h op handle ws) s = .next { s with
          chip := ((arrivesAt h 6 op.val (handle :: ws) s.chip).bump
            Fld.MEM_MIRROR_COUNTS_REJECTED).raise .mem 8 }) ∧
        (∀ w0 w1, s.chip.f Fld.MEM_MIRROR_CTRL_SOURCE = h.src.toNat → s.chip.spaceAccess 3 = .served → op = 1 → ws = [w0, w1] →
          let k := ptrOf 3 (0x8000000 + 4 * handle.field 0 34)
          s.chip.ptrValid (k + 3) = true → s.chip.ptrValid k = true → s.chip.flaw k = [] →
          ∃ t, exec (.mirror h op handle ws) s = .next t ∧ t.chip.stored k = w0 ∧ t.chip.stored (k + 1) = w1))) ∧
    (∀ p : Fin 5, let m := s.chip.mbxOf p.val
      s.chip.pick 3 = some (.mbx p.val) → m.busy = true → m.result = none → m.code = 0x09 → m.steps = 0 → s.chip.gang.takeover = none →
      takeoverRefusal (argOf m.args 0) (argOf m.args 1) (.int 0) s.chip = none → argOf m.args 2 = .int 0 →
      ∃ t, exec (.gangTakeover p) s = .next t ∧ t.chip.b Fld.MEM_MIRROR_CTRL_ACCEPT = false ∧
        (t.chip.mbxOf p.val).result = some [.int 0, .bits (b2n s.chip.gang.breakSeen)] ∧
        t.chip.b ⟨Reg.HOST_INT_STATUS, 6, 1⟩ = true)

/-- R48 to R55, R428: retunes and gain. A retune is armed, starts at its grain, stops the chain's samples while it settles and
locks at the target; ENABLE starts a lock of 5369 gr; chain B follows chain A when told to, from the next tick on. Gain steps down by one, or by
three in an emergency, and up by one, once the interval since the last step has passed. -/
def Obligations.RetunesAndGain : Prop :=
  ∀ (s : State) (x : Fin 3), s.chip.isOn (synthIsland x) = true →
    (∀ g, (s.chip.followed x = true → exec (.retuneAtWrite x g) s = .next { s with chip := s.chip.regReject }) ∧
      (s.chip.followed x = false → (s.chip.synth x).lockAt = none → exec (.retuneAtWrite x g) s = .next { s with
        chip :=
          let c := if x.val = 2 then s.chip.onRadio fun r => { r with autoFor := none } else s.chip
          refreshChain x (setSynth x { s.chip.synth x with armed := some (s.chip.dueAt g) } (c.setRegN (synthAt x) g.toNat)) })) ∧
    (∀ g, (s.chip.synth x).armed = some g → g ≤ s.chip.now → (s.chip.synth x).lockAt = none →
      (s.chip.b (synthEnable x) = false → exec (.retuneStart x) s = .next { s with
        chip := refreshChain x (setSynth x { s.chip.synth x with armed := none } s.chip) }) ∧
      (s.chip.b (synthEnable x) = true →
        let f := s.chip.regN (synthFreq x)
        let c := refreshChain x (setSynth x { s.chip.synth x with
          armed := none, target := f, lockAt := some (s.chip.now + settling (s.chip.regN (synthNow x)) f) } s.chip)
        let d := if x.val = 2 then (cutCarriers c).onRadio fun r => { r with autoFor := none }
          else lanesCombine (chainStops x 1 (if x.val = 1 then c.onRadio fun r => { r with followDue := false } else c))
        exec (.retuneStart x) s = .next { s with
          chip := if x.val = 0 ∧ s.chip.follows = true ∧ d.isOn .rfRxB = true ∧ d.b (synthEnable 1) = true then
              beginRetune 1 f (settling (s.chip.regN (synthNow 1)) f) d
            else d })) ∧
    (∀ g, (s.chip.synth x).lockAt = some g → g ≤ s.chip.now →
      let c := (refreshChain x ((setSynth x { s.chip.synth x with lockAt := none } s.chip).setRegN (synthNow x)
        (s.chip.synth x).target)).raise .rf (4 + x)
      exec (.retuneLocked x) s = .next { s with
        chip := remashLocked (if x.val = 2 then activeChanged s.chip.allowed c else lanesCombine (lanesAwaited x (chainLocked x c))) }) ∧
    (s.chip.b (synthEnable x) = false → s.chip.stepCode 2 ≠ 2 → s.chip.dev ≠ devDead →
      let c := if x.val = 2 then firstTemp s.chip else s.chip
      let d := refreshChain x (setSynth x { c.synth x with target := c.lockTarget x, lockAt := some (c.now + 5369) }
        (c.setB (synthEnable x) true))
      exec (.chainEnableWrite x true) s = .next { s with chip := if x.val = 0 then followChain d else d }) ∧
    (s.chip.b (synthEnable x) = true →
      let c := refreshChain x (setSynth x { s.chip.synth x with lockAt := none } (s.chip.setB (synthEnable x) false))
      exec (.chainEnableWrite x false) s = .next { s with
        chip := if x.val = 2 then cutCarriers (c.onRadio fun r => { r with autoFor := none })
          else lanesCombine (chainStops x 1 c) }) ∧
    (x.val = 1 → s.chip.follows = true → exec (.followWrite false) s = .next { s with
      chip := lanesCombine ((s.chip.setB (Fld.RF_CHAIN_CTRL_FOLLOW 1) false).onRadio fun r => { r with followDue := false }) }) ∧
    (let f := match (s.chip.synth 0).lockAt with
        | some _ => (s.chip.synth 0).target
        | none => s.chip.regN (synthNow 0)
      (x.val = 1 → s.chip.follows = false → f ≠ 0 → s.chip.b (synthEnable 1) = true →
        ∃ t, exec (.followWrite true) s = .next t ∧ t.chip.follows = true ∧ t.chip.radio.followDue = true ∧
          (t.chip.synth 1).armed = none ∧ (t.chip.synth 1).lockAt = (s.chip.synth 1).lockAt) ∧
      (x.val = 1 → s.chip.radio.followDue = true → s.chip.follows = true → s.chip.b (synthEnable 1) = true →
        ((s.chip.synth 1).lockAt ≠ none → followTick s.chip = s.chip) ∧
        ((s.chip.synth 1).lockAt = none → followTick s.chip = beginRetune 1 f (settling (s.chip.regN (synthNow 1)) f)
          (s.chip.onRadio fun r => { r with followDue := false })))) ∧
    (∀ y : Fin 2, x.val = y.val → s.chip.gainLive y = true →
      (s.chip.b (Fld.RF_CHAIN_CTRL_AGC_MANUAL y) = false → s.chip.sinceStep y 14 = true →
        exec (.gainStepDown y false) s = .next { s with chip := gainStep y (min 7 (s.chip.gainIndex y + 1)) s.chip } ∧
        exec (.gainStepDown y true) s = .next { s with
          chip := gainStep y (min 7 (s.chip.gainIndex y + 3))
            (markFrames y true none ((s.chip.setB (Fld.RF_CHAIN_STATUS_OVERLOAD y) true).raise .rf y)) }) ∧
      (s.chip.b (Fld.RF_CHAIN_CTRL_AGC_MANUAL y) = false → s.chip.gainIndex y ≠ 0 →
        s.chip.sinceStep y (max 14 (max (s.chip.f Fld.RF_AGC_CONFIG_MIN_INTERVAL) (s.chip.f Fld.RF_AGC_CONFIG_UP_HOLD))) = true →
        exec (.gainStepUp y) s = .next { s with chip := gainStep y (s.chip.gainIndex y - 1) s.chip }) ∧
      (∀ i : Fin 8, exec (.manualIndexWrite y i) s = .next { s with
        chip := s.chip.setF (Fld.RF_CHAIN_CTRL_MANUAL_INDEX y) i }) ∧
      (s.chip.b (Fld.RF_CHAIN_CTRL_AGC_MANUAL y) = true → applyManual s.chip y =
        gainStep y (s.chip.f (Fld.RF_CHAIN_CTRL_MANUAL_INDEX y)) s.chip))

/-- R61, R64 to R72: transmit settings, pre-distortion, calibration. Settings take effect with no carrier; a measured
temperature chooses the bin; a capture is recorded and counted; a solve's candidate is swapped in away from every ramp; a
training burst trains the set; a calibration holds BUSY until its end, which is OK (DESIGN CHOICE: log entry 208); SAVE stores the present
calibration in the next line of its area (DESIGN CHOICE: log entry 52). -/
def Obligations.TransmitSettingsAndCalibration : Prop :=
  ∀ (s : State), s.chip.isOn .rfTx = true →
    (s.chip.anyCarrier = false → s.chip.f Fld.RF_TX_CTRL_PA_SELECT = s.chip.radio.effPa →
      exec .txConfigApply s = .next { s with
        chip := activeChanged 0 (s.chip.onRadio fun r => { r with
          effMax := s.chip.f Fld.RF_TX_CTRL_CARRIER_MAX, effTotal := s.chip.fI Fld.RF_TX_POWER_TOTAL_QDBM }) }) ∧
    (∀ t : BitVec 8, exec (.dieTempMeasure t) s = .next { s with
      chip := activeChanged s.chip.allowed ((s.chip.setF Fld.RF_DPD_STATUS_DIE_TEMP (unsigned 8 t.toInt)).onRadio fun r =>
        { r with tempBin := some (s.chip.binAfter t.toInt) }) }) ∧
    (∀ imd papr steady, s.chip.onAir = true → s.chip.f Fld.RF_DPD_IMD_LIMIT_LIMIT_QDB ≤ imd → papr = false ∨ steady = false →
      exec (.dpdCapture imd papr steady) s = .next { s with
        chip := activeChanged s.chip.allowed (setDpd (24 * s.chip.activeSet + 22) (.int imd) s.chip) }) ∧
    (∀ set better, s.chip.radio.solveSet = some set →
      (s.chip.dpdState set ≠ dpdCurrent ∨ better = true → exec (.dpdSolveDone better) s = .next { s with
        chip := ((s.chip.setB Fld.RF_DPD_STATUS_SOLVING false).setB Fld.RF_DPD_STATUS_SWAP_PENDING true).onRadio fun r =>
          { r with solveSet := none, swapSet := some set, solveTemp := s.chip.fI Fld.RF_DPD_STATUS_DIE_TEMP } }) ∧
      (s.chip.dpdState set = dpdCurrent → better = false → exec (.dpdSolveDone better) s = .next { s with
        chip := (s.chip.setB Fld.RF_DPD_STATUS_SOLVING false).onRadio fun r => { r with solveSet := none } })) ∧
    (∀ set, s.chip.radio.swapSet = some set →
      (s.chip.swapClear = false → exec .dpdSwap s = .next s) ∧
      (s.chip.swapClear = true → exec .dpdSwap s = .next { s with
        chip := activeChanged 0 ((trainSet set s.chip.radio.solveTemp
          ((s.chip.setB Fld.RF_DPD_STATUS_SWAP_PENDING false).onRadio fun r => { r with swapSet := none })).raise .rf 8) })) ∧
    (s.chip.radio.effPa = 0 → s.chip.b Fld.RF_CAL_STATUS_BUSY = false → s.chip.radio.carriers = [] →
      s.chip.txFree s.chip.now (s.chip.now + 134218) = true →
      s.chip.radio.tempBin = some (s.chip.f Fld.RF_DPD_CTRL_TRAIN_SET % 4) → exec .trainNow s = .next { s with
        chip := (s.chip.setB Fld.RF_CAL_STATUS_BUSY true).onRadio fun r =>
          { r with burst := some (s.chip.f Fld.RF_DPD_CTRL_TRAIN_SET, s.chip.now + 134218) } }) ∧
    (∀ set e, s.chip.radio.burst = some (set, e) → e ≤ s.chip.now → exec .trainingBurstDone s = .next { s with
      chip := activeChanged 0 ((calResult .ok ((trainSet set (s.chip.fI Fld.RF_DPD_STATUS_DIE_TEMP)
        (s.chip.onRadio fun r => { r with burst := none })).setB Fld.RF_CAL_STATUS_BUSY false)).raise .rf 9) }) ∧
    (∀ (k : Fin 768) (w : Word), exec (.dpdStoreWrite k w) s = .next { s with
      chip := if k.val / 24 = s.chip.activeSet ∨ dpdLegal k w = false then s.chip.regReject
        else refreshTx (staleSets (setDpd k w s.chip)) }) ∧
    (∀ t : Fin 5, s.chip.b Fld.RF_CAL_STATUS_BUSY = true → exec (.startCal t) s = .next { s with chip := s.chip.regReject }) ∧
    (s.chip.b Fld.RF_CAL_STATUS_BUSY = false →
      exec (.startCal 0) s = .next { s with
        chip := calChain 0 (s.chip.now + 67109) (((s.chip.setF Fld.RF_CAL_CTRL_TARGET 0).setB Fld.RF_CAL_STATUS_BUSY
          true).onRadio fun r => { r with cal := some (0, s.chip.now + 67109) }) } ∧
      (s.chip.radio.carriers = [] → exec (.startCal 2) s = .next { s with
        chip := ((s.chip.setF Fld.RF_CAL_CTRL_TARGET 2).setB Fld.RF_CAL_STATUS_BUSY true).onRadio fun r =>
          { r with cal := some (2, s.chip.now + 33554) } })) ∧
    (∀ t e, s.chip.radio.cal = some (t, e) → e ≤ s.chip.now → ∃ u, exec .calDone s = .next u ∧ u.chip.radio.cal = none ∧
      u.chip.b Fld.RF_CAL_STATUS_BUSY = false ∧ u.chip.f Fld.RF_CAL_STATUS_RESULT = Status.ok.code ∧
      (∀ x < 2, (u.chip.synth x).calUntil = none)) ∧
    (s.chip.isOn .mram = false → exec .save s = .next { s with chip := (calResult .stateRefused s.chip).raise .rf 9 }) ∧
    (s.chip.isOn .mram = true →
      (s.chip.radio.calNow ≠ [] → let n := s.chip.mems.calRecords
        exec .save s = .next { s with chip := (calResult .ok ((writeMramBytes (calLine n) s.chip.radio.calNow s.chip).onMems fun m =>
          { m with calRecords := n + 1 })).raise .rf 9 }) ∧
      (s.chip.radio.calNow = [] → ∃ u, exec .save s = .next u ∧ u.chip.mems.calRecords = s.chip.mems.calRecords + 1 ∧
        u.chip.free = s.chip.free + 32 ∧ u.chip.f Fld.RF_CAL_STATUS_RESULT = Status.ok.code))

/-- R77 to R79, R84 to R88, R100: a lane's commands. ENABLE takes the channel for 64 gr, a switch for 32; a change that breaks
rule 6 is refused; a frame in reception delays a switch; a preamble starts a frame, a delimiter starts its reception, its end
hands it over; time-out, capture, saturation and disabling drop it. A preamble below the lane's threshold or beyond 40 ppm, what
is no delimiter of the lane's, and a capture or a power below its margin change nothing. -/
def Obligations.Lanes : Prop :=
  ∀ (s : State) (n : Fin 64), s.chip.laneUp n = true → s.chip.laneState n ≠ laneQuiesced →
    let c := s.chip
    let clash := c.laneClash n (c.regN (Reg.LANE_FREQ n)) (c.regN (Reg.LANE_PHY n))
    (c.b (Fld.LANE_CTRL_ENABLE n) = false → exec (.laneEnable n) s = .next { s with
      chip := if clash then laneRefuse n c else laneSwitching_ n 64 false
        ((laneTake n (c.setB (Fld.LANE_CTRL_ENABLE n) true)).setF (Fld.LANE_STATUS_LAST_ABANDON n) 0) }) ∧
    (c.b (Fld.LANE_CTRL_ENABLE n) = true → exec (.laneDisable n) s = .next { s with
      chip :=
        let d := dropWithMark n 6 (c.setB (Fld.LANE_CTRL_ENABLE n) false)
        setLaneState n laneOff (setLaneSt n { d.laneSt n with until_ := none, done_ := false, late := false } d) }) ∧
    (∀ v, exec (.listenWrite n v) s = .next { s with
      chip := if c.b (Fld.LANE_STATUS_SCHEDULED n) then c.regReject else laneListen n v c }) ∧
    (∀ g, c.b (Fld.LANE_STATUS_SCHEDULED n) = false → (c.laneSt n).until_ = none →
      exec (.laneSwitchAtWrite n g) s = .next { s with
        chip := (setLaneSt n { c.laneSt n with switchAt := some (c.dueAt g), late := false }
          (c.setRegN (Reg.LANE_SWITCH_AT n) g.toNat)).setB (Fld.LANE_STATUS_SWITCH_ARMED n) true }) ∧
    (∀ g, (c.laneSt n).switchAt = some g → g ≤ c.now → (c.laneSt n).until_ = none → (c.laneSt n).late = false →
      (c.laneState n = laneOff → exec (.laneSwitch n) s = .next { s with
        chip := (laneTake n (laneDisarm n c)).raise (.lane n) 2 }) ∧
      (c.laneState n ≠ laneOff → clash = true → exec (.laneSwitch n) s = .next { s with
        chip := laneRefuse n (laneDisarm n c) }) ∧
      (c.laneState n = laneReceive ∨ c.laneState n = laneFlush → clash = false → c.b (Fld.LANE_CTRL_FORCE_SWITCH n) = false →
        exec (.laneSwitch n) s = .next { s with
          chip := (setLaneSt n { c.laneSt n with late := true } c).setB (Fld.LANE_STATUS_SWITCH_LATE n) true }) ∧
      (c.laneState n = laneIdle → clash = false → exec (.laneSwitch n) s = .next { s with
        chip := laneSwitching_ n 32 true (laneTake n (laneDisarm n (dropWithMark n 2 c))) })) ∧
    (∀ g, (c.laneSt n).until_ = some g → g ≤ c.now → c.laneState n = laneSwitching → exec (.switchDone n) s = .next { s with
      chip :=
        let d := laneRest n (setLaneSt n { c.laneSt n with until_ := none, done_ := false } c)
        if (c.laneSt n).done_ then d.raise (.lane n) 2 else d }) ∧
    (∀ v : Preamble, c.laneState n = laneIdle → c.laneStopped n = false → c.laneHears n = true →
      exec (.preambleDetect n v) s = .next { s with chip := if c.preambleTaken n v then laneDetect_ n v c else c }) ∧
    (∀ f, c.laneFrame n = some f →
      (c.laneState n = laneDetect → f.detectAt + symbolSpan f.phy (c.f (Fld.LANE_DETECT_SFD_TIMEOUT n)) ≤ c.now →
        exec (.sfdTimeout n) s = .next { s with
          chip := laneFree n ((dropFrame f.id c).bump (Fld.LANE_COUNTS_A_FALSE_DETECTS n)) }) ∧
      (∀ (sfd : BitVec 16) (soft : List Soft), c.laneState n = laneDetect → c.frameHears f = true → f.blind = false →
        let header := phyHeader f.phy sfd.toNat (soft.map BitVec.toInt)
        (header = none → exec (.delimiterFound n ⟨sfd, soft⟩) s = .next s) ∧
        (∀ h, header = some h → headerGood f.phy h = true → exec (.delimiterFound n ⟨sfd, soft⟩) s = .next { s with
          chip := setLaneState n laneReceive (putFrame { f with
            startAt := some c.now, phy := receivedMode f.phy h, fcs2 := h.fcs2, onAir := h.length, seed := h.seed,
            length := h.length - b2n h.pad, faulted := phyFamily f.phy == famZhr && zhrFaults h.mode h.length } c) }) ∧
        (∀ h, header = some h → headerGood f.phy h = false → exec (.delimiterFound n ⟨sfd, soft⟩) s = .next { s with
          chip := laneFree n (((dropFrame f.id c).bump (Fld.LANE_COUNTS_B_HEADER_ERRORS n)).raise (.lane n) 1) })) ∧
      (∀ m : LaneMeasure, c.laneState n = laneReceive ∨ c.laneState n = laneFlush → f.started = true → f.faulted = false →
        (within40ppm f.freq m.offset = false → exec (.frameEnd n m) s = .next s) ∧
        (within40ppm f.freq m.offset = true → (c.laneReport f m).gainEvent = false → exec (.frameEnd n m) s = .next { s with
          chip :=
            let stamp := if c.laneState n = laneFlush then f.lastSymbol.getD c.now else c.now
            let d := chkLaneClose n f.psdu false (c.bump (Fld.LANE_COUNTS_B_DELIVERED n))
            laneFree n (if f.taken then putFrame { f with endAt := some stamp, report := some (c.laneReport f m) } d
              else dropFrame f.id d) }))) ∧
    (∀ (v : Preamble) (rssi : Int), c.b (Fld.LANE_CTRL_CAPTURE n) = true →
      c.laneState n = laneDetect ∨ c.laneState n = laneReceive → c.laneHears n = true → c.preambleTaken n v = true →
      let power := if c.laneCombines n then max v.powerA v.powerB else if c.placeChain n = 1 then v.powerB else v.powerA
      let d := laneAbandon n 4 c
      (power < rssi + 4 * c.f (Fld.LANE_CTRL_CAPTURE_DB n) → exec (.capture n ⟨v, rssi⟩) s = .next s) ∧
      (rssi + 4 * c.f (Fld.LANE_CTRL_CAPTURE_DB n) ≤ power → exec (.capture n ⟨v, rssi⟩) s = .next { s with
        chip := if d.laneState n = laneIdle ∨ d.laneState n = laneHeld then laneDetect_ n v d else d })) ∧
    (∀ power : Int, c.laneState n = laneDetect ∨ c.laneState n = laneReceive ∨ c.laneState n = laneFlush →
      exec (.saturation ⟨n, power⟩) s = .next { s with chip := if c.laneClips n power then laneAbandon n 3 c else c })


/-- R107 to R109, R113, R130 to R132: frames in the link controller. The first byte reserves room in the ring of the verdict
expected, and a frame that found no room is not delivered; the octets of one that the trellis spoiled are free (DESIGN CHOICE: log entry
106); the lookup fills in the partner; the verdict is judged in order, its ACK contested and its descriptor published; a broadcast frame
asks for no ACK; an acknowledgement awaited is consumed. -/
def Obligations.LinkReception : Prop :=
  ∀ (s : State),
    let c := s.chip
    (∀ (n : Fin 64) (soft : List Soft) f, c.laneUp n = true → c.laneState n = laneReceive → c.laneFrame n = some f →
      f.startAt.isSome = true → f.started = false → c.radio.tschRx = none →
      let octets := frameOctets f (soft.map BitVec.toInt) c
      let c1 := chkLaneFold n octets.1 1 (chkFrameStart n octets.2)
      (f.faulted = false → octets = (octetsTo f.length (phyOctets f.phy f.seed f.onAir (soft.map BitVec.toInt)), c)) ∧
      ((c.isOn .link && c.b Fld.LINK_CTRL_ENABLE) = false → exec (.psduStart n soft) s = .next { s with
        chip := putFrame { f with started := true, psdu := octets.1, tsch := none } c1 }) ∧
      (c.isOn .link = true → c.b Fld.LINK_CTRL_ENABLE = true →
        c.b Fld.LINK_CTRL_PROMISCUOUS = false →
        let f2 := { f with
          started := true, psdu := octets.1, tsch := none, taken := true }
        exec (.psduStart n soft) s = .next { s with
          chip := match c1.ringOf ((c1.screen (lookupFrame f2 c1).1).getD vAccept) with
            | none => putFrame f2 c1
            | some r => putFrame { f2 with slot := (reserveSlot r f.length c1).1, triedRing := some r }
                (reserveSlot r f.length c1).2 })) ∧
    (∀ (n : Fin 64) f, (c.radio.frames.find? fun f => f.lane == n.val && f.taken && ! f.looked) = some f →
      exec (.partnerLookup n) s = .next { s with chip := putFrame (lookupFrame f c).1 (lookupFrame f c).2 }) ∧
    (∀ f e, c.isOn .link = true → c.radio.frames = [f] → f.lane < 64 → f.taken = true → f.endAt = some e → e + 67 ≤ c.now →
      let c0 := c.onRadio fun r => { r with frames := [] }
      (f.abandoned = true ∨ f.faulted = true ∨ fcsGood f.fcs2 f.psdu = false → exec .frameVerdict s = .next { s with
        chip := releaseWindows (settleLost (publish (judgeFrame f e c0).1 e (contest lostCarrier (judgeFrame f e c0).2))) }) ∧
      (∀ h, f.abandoned = false → f.faulted = false → fcsGood f.fcs2 f.psdu = true → f.mhr = some h →
        (h.type ≠ 2 → exec .frameVerdict s = .next { s with
          chip := releaseWindows (settleLost (publish (judgeFrame f e c0).1 e
            (contest lostCarrier (judgeFrame f e c0).2))) }) ∧
        (∀ d, h.type = 2 → consumeAck f h c0 = some d → f.slot = none → exec .frameVerdict s = .next { s with
          chip := releaseWindows (settleLost (contest lostCarrier d)) }))) ∧
    (∀ f, (f.abandoned = true → (c.judge f).1 = vAbandoned) ∧
      (f.abandoned = false → fcsGood f.fcs2 f.psdu = false → (c.judge f).1 = vFcsFail) ∧
      (f.abandoned = false → f.faulted = false → fcsGood f.fcs2 f.psdu = true →
        (c.b Fld.LINK_CTRL_PROMISCUOUS = true → (c.judge f).1 = vFiltered) ∧
        (∀ v, c.b Fld.LINK_CTRL_PROMISCUOUS = false → c.screen f = some v → (c.judge f).1 = v) ∧
        (∀ h, c.b Fld.LINK_CTRL_PROMISCUOUS = false → c.screen f = none → f.mhr = some h → h.aux = none →
          (c.judge f).1 = c.counterCheck f h))) ∧
    (∀ f v, f.triedRing.isSome = true → f.slot = none → (claimSlot f v c).1 = none) ∧
    (∀ h : Mhr, h.dstMode = 2 → h.dst = 0xFFFF → c.ackAsked (some h) = false) ∧
    (∀ f i a h, f.handle = some i → h.aux = some a → (c.entry i).fcValid = true →
      (rxCounter c.asn a f.tsch = (c.entry i).lastFc → c.counterCheck f h = vDuplicate) ∧
      (rxCounter c.asn a f.tsch < (c.entry i).lastFc → c.counterCheck f h = vReplay) ∧
      ((c.entry i).lastFc < rxCounter c.asn a f.tsch → c.counterCheck f h = vAccept)) ∧
    (∀ a k, c.radio.acks = [a] → a.lost = none → (c.radio.carriers.find? fun k => k.id == a.carrier) = some k →
      k.onAir = true → k.first ≤ c.now → exec .ackSent s = .next { s with
        chip := ackFinish a 2 0 k.last (c.bump Fld.LINK_COUNTS_4_ACK_SENT) }) ∧
    (c.isOn .link = true → c.b Fld.LINK_CTRL_ENABLE = true → exec .linkDisable s = .next { s with
      chip := refreshRing 0 (refreshRing 1 ((c.onRadio fun x => { x with
        frames := (x.frames.filter fun f => f.endAt.isNone).map fun f =>
          { f with taken := false, looked := false, handle := none, entry := [], slot := none, triedRing := none }
        slots := x.slots.filter fun k => k.published }).setB Fld.LINK_CTRL_ENABLE false)) }) ∧
    (∀ (r : Fin 2) (v : Payload), c.isOn .link = true → c.regN (Reg.LINK_RING_CONS r) < 65536 →
      (65536 ≤ v.toNat → exec (.linkRingConsWrite r v) s = .next { s with chip := c.regReject }) ∧
      (v.toNat < 65536 → c.regN (Reg.LINK_RING_PROD r) = v.toNat → c.radio.slots = [] →
        exec (.linkRingConsWrite r v) s = .next { s with
          chip := refreshRing r (c.setRegN (Reg.LINK_RING_CONS r) v.toNat) }))

/-- R60, R121 to R128: sending. A ticket's block is checked and queued; at its commit grain a request becomes a carrier, but for a beacon while OSC_STOP
is set (R118); a
carrier ramps up, ends and settles its request; a wait without its ACK ends it; a CCA admits, defers or refuses; budgets
forget what is old. -/
def Obligations.Sending : Prop :=
  ∀ (s : State),
    let c := s.chip
    (∀ (t : BitVec 9) k, c.ticket t.toNat = some k → k.code = 1 → k.state = 1 →
      let p := k.args.getD 0 .absent
      let c1 := putTicket { k with state := 2 } c
      let placed := p.tag == .ptr && spaceOf p.nat == 1 && c.ptrValid p.nat && c.ptrValid (p.nat + 7)
      let refuse := fun st (d : Chip) => txRefused (blankJob t.toNat p.nat) st
        (d.onRadio fun x => { x with jobs := x.jobs ++ [blankJob t.toNat p.nat] })
      (c.isOn .link = false → exec (.tx t) s = .next { s with chip := finishTicket t.toNat c.stateRefused c1 }) ∧
      (c.isOn .link = true → c.b Fld.LINK_CTRL_ENABLE = false → exec (.tx t) s = .next { s with
        chip := if placed then refuse .stateRefused c1 else finishTicket t.toNat c.stateRefused c1 }) ∧
      (c.isOn .link = true → c.b Fld.LINK_CTRL_ENABLE = true →
        (placed = false → exec (.tx t) s = .next { s with chip := finishTicket t.toNat (refused .badArg) c1 }) ∧
        (placed = true → c.spaceAccess 1 ≠ .served → exec (.tx t) s = .next { s with chip := finishTicket t.toNat c.stateRefused c1 }) ∧
        (placed = true → c.spaceAccess 1 = .served →
          (∀ st d, parseRequest t.toNat p.nat c1 = (.error st, d) → exec (.tx t) s = .next { s with chip := refuse st d }) ∧
          (∀ j e, parseRequest t.toNat p.nat c1 = (.ok j, e) →
            let d := match j.handle with
              | some i => readPartner i e
              | none => e
            (j.kind = 1 → exec (.tx t) s = .next { s with
              chip := startBackoff j (d.onRadio fun x => { x with jobs := x.jobs ++ [j] }) }) ∧
            (j.kind = 0 → d.now + 4160 ≤ j.plan.getD 0 → exec (.tx t) s = .next { s with
              chip := d.onRadio fun x => { x with jobs := x.jobs ++ [j] } }) ∧
            (j.kind = 0 → j.plan.getD 0 < d.now + 4160 → exec (.tx t) s = .next { s with
              chip := txRefused j .timeout (d.onRadio fun x => { x with jobs := x.jobs ++ [j] }) }))))) ∧
    (∀ j, c.isOn .link = true → c.entering = false → c.radio.jobs = [j] → j.phase = .queued →
      (c.jobPlan j = none → exec .txCommit s = .next s) ∧
      (∀ first freq phy, c.jobPlan j = some (first, freq, phy, none) →
        (j.kind ≠ 16 ∨ c.linkOsc = false → exec .txCommit s = .next { s with chip := commitJob j first freq phy none c }) ∧
        (j.kind = 16 → c.linkOsc = true → exec .txCommit s = .next { s with chip := beaconSkip (dropJob j.ticket c) }))) ∧
    (∀ k, c.radio.carriers = [k] → k.onAir = false → k.ramp ≤ c.now →
      (k.kind ≠ .beacon ∨ c.linkOsc = false → exec .carrierRampStart s = .next { s with chip := rampStart k c }) ∧
      (∀ j, k.kind = .beacon → c.linkOsc = true → c.jobOf k.id = some j → exec .carrierRampStart s = .next { s with
        chip := beaconSkip (withdraw k.id (dropJob j.ticket c)) })) ∧
    (∀ k j, c.radio.carriers = [k] → k.onAir = true → k.last ≤ c.now → k.kind = .at → c.jobOf k.id = some j → k.cut = false →
      let d := chkTxEnd k (dropCarrier k.id c)
      (j.ar = false → exec .carrierEnd s = .next { s with chip := releaseWindows (txDone j false none d) }) ∧
      (j.ar = true → exec .carrierEnd s = .next { s with
        chip := releaseWindows (if d.carrierHeard k then
          putJob { j with phase := .awaiting, due := k.last - 64 + d.regN Reg.LINK_ACK_WAIT } d else unacked j d) })) ∧
    (∀ j, c.radio.jobs = [j] → j.phase = .awaiting → j.due ≤ c.now → c.ackComing j.freq j.phy j.due = false → j.kind = 0 →
      (txRefused j .timeout c).radio.resyncs = [] → exec .ackWaitExpiry s = .next { s with
        chip := releaseWindows (txRefused j .timeout c) }) ∧
    (∀ (t : BitVec 9) (energy : Int) j,
      (c.radio.jobs.find? fun j => j.ticket == t.toNat && j.phase == .backoff) = some j →
      (c.now < j.due → exec (.csmaCca t energy) s = .next s) ∧
      (j.due ≤ c.now → c.isOn .link = true → c.entering = false →
        (c.chainHolds j.freq (planBandwidth j.phy) = false → exec (.csmaCca t energy) s = .next { s with
          chip := txRefused j .badArg c }) ∧
        (c.chainHolds j.freq (planBandwidth j.phy) = true →
          (c.ccaBusy j.freq energy = false → exec (.csmaCca t energy) s = .next { s with
            chip := commitJob j (c.now + 2112) j.freq j.phy none c }) ∧
          (c.ccaBusy j.freq energy = true → exec (.csmaCca t energy) s = .next { s with
            chip := if c.f Fld.LINK_CSMA_MAX_BACKOFFS < j.nb + 1 then txRefused j .busy c
              else startBackoff { j with nb := j.nb + 1, be := min (c.f Fld.LINK_CSMA_MAX_BE) (j.be + 1) } c })))) ∧
    (exec .dwellBucketBoundary s = .next { s with
      chip :=
        let young := fun g : Charge => decide (c.now / bucketLen (c.budgetWindow g.key) ≤
          g.at_ / bucketLen (c.budgetWindow g.key) + 16)
        refreshUsed (c.onRadio fun x => { x with charges := x.charges.filter young }) }) ∧
    (∀ (b : Fin 9) (w : BitVec 22), c.isOn .link = true →
      (windowLegal w.toNat = false → exec (.budgetWindowWrite b w) s = .next { s with chip := c.regReject }) ∧
      (windowLegal w.toNat = true → b.val = 8 → c.f Fld.LINK_DWELL_WINDOW_WINDOW_MS ≠ w.toNat →
        exec (.budgetWindowWrite b w) s = .next { s with
          chip := refreshUsed ((c.setF Fld.LINK_DWELL_WINDOW_WINDOW_MS w.toNat).onRadio fun x =>
            { x with charges := x.charges.filter fun g => ! decide (g.key < 256) }) }) ∧
      (windowLegal w.toNat = true → b.val < 8 → c.regN (Reg.LINK_DUTY_WINDOW b) ≠ w.toNat →
        exec (.budgetWindowWrite b w) s = .next { s with
          chip := refreshUsed ((c.setRegN (Reg.LINK_DUTY_WINDOW b) w.toNat).onRadio fun x =>
            { x with charges := x.charges.filter fun g => g.key != 256 + b.val }) }))

/-- R125, R129, R142, R145 to R155: schedules. A timeslot serves the link it picks, or none, and the ASN advances; clearing
RUN fails the requests that wait; a rendezvous gets a lane, or its partner is lost; a window closes; a downlink and a grant
follow their ACK; a page is committed, and an attempt fails when its wait passes. -/
def Obligations.Schedules : Prop :=
  ∀ (s : State),
    let c := s.chip
    (∀ start, c.radio.tschNext = some start → start ≤ c.now → c.isOn .link = true → c.f Fld.LINK_CTRL_SCHED_MODE = 1 →
      c.b Fld.LINK_TSCH_CTRL_RUN = true → c.radio.tschRx = none → c.radio.tschAck = none → c.entering = false →
      let stop := some (start + max 1 (c.regN (Reg.LINK_TS 11)))
      let d := tschAdvance c
      (d.tschPick d.asn = none → exec .tschTimeslot s = .next { s with
        chip := d.onRadio fun x => { x with tschNext := stop } }) ∧
      (∀ l j, d.tschPick d.asn = some l → d.tschRequest l = some j → exec .tschTimeslot s = .next { s with
        chip := (tschSend l j start d.asn d).onRadio fun x => { x with tschNext := stop } }) ∧
      (∀ l n, d.tschPick d.asn = some l → d.tschRequest l = none → l.advertising = false →
        d.tschLane (d.tschFreq d.asn l.offset) = some n → exec .tschTimeslot s = .next { s with
          chip :=
            let phy := d.regN (Reg.LANE_PHY n)
            ((laneSchedule n (d.tschFreq d.asn l.offset) phy
              (max (d.now + 1) (start + d.regN (Reg.LINK_TS 3) - 32)) true d).onRadio fun x => { x with
                tschRx := some (n, d.asn, start + d.regN (Reg.LINK_TS 2) + headGrains phy, l.keep,
                  start + d.regN (Reg.LINK_TS 3) + d.regN (Reg.LINK_TS 6)) }).onRadio fun x => { x with tschNext := stop } })) ∧
    (c.isOn .link = true → c.b Fld.LINK_TSCH_CTRL_RUN = true → exec .tschRunClear s = .next { s with
      chip := finishWhere (fun j => j.kind == 3 && j.phase == .queued) txStateRefused
        (((tschDrive false (tschStopRx (c.setB Fld.LINK_TSCH_CTRL_RUN false))).onRadio fun x => { x with
          tschNext := none, tschIn := false }).setB Fld.LINK_STATUS_TSCH_SYNCED (c.b Fld.LINK_TSCH_CTRL_COORD)) }) ∧
    (c.isOn .link = true → c.b Fld.LINK_PSCHED_CTRL_RUN = true → c.f Fld.LINK_CTRL_SCHED_MODE = 2 →
      exec .pschedRunClear s = .next { s with
        chip := finishWhere (fun j => j.kind == 3 && j.phase == .queued) txStateRefused
          (pschedStop (c.setB Fld.LINK_PSCHED_CTRL_RUN false)) }) ∧
    (∀ g p i k, c.schedRuns = true → c.entering = false →
      let c0 := readAll (c.regN Reg.LINK_PSCHED_BASE) s.chip
      c0.rdvDue = [(g, p, i, k)] →
      let c := readPartner i c0
      let r := c.sched i
      let c1 := c.onRadio fun x => { x with lastRdv := Store.put 0 x.lastRdv i (r.number k + 1) }
      (c.regN Reg.LINK_PSCHED_MAX_WINDOW < r.widening k → exec .rendezvousReserve s = .next { s with chip := loseSync i c1 }) ∧
      (r.widening k ≤ c.regN Reg.LINK_PSCHED_MAX_WINDOW → c1.pickLane r.phy (c.rdvFreq r (r.number k)) = none →
        exec .rendezvousReserve s = .next { s with
          chip := (c1.bump Fld.LINK_PSCHED_COUNTS_1_RDV_NO_LANE).raise .psched 3 }) ∧
      (∀ n, r.widening k ≤ c.regN Reg.LINK_PSCHED_MAX_WINDOW → c1.pickLane r.phy (c.rdvFreq r (r.number k)) = some n →
        exec .rendezvousReserve s = .next { s with
          chip := reserveLane {
            kind := 0, handle := i, n := r.number k, lane := n, at_ := r.at_ k, half := c.halfWindow r k,
            freq := c.rdvFreq r (r.number k), closed := false, heard := false, until_ := r.at_ k + c.halfWindow r k }
            (max (c.now + 1) (c.rdvSwitch r k)) r.phy c1 })) ∧
    (∀ w, c.radio.windows = [w] → w.closed = false → w.at_ + w.half ≤ c.now → w.until_ ≤ c.now → c.radio.tschRx = none →
      c.ackHeardFor w = false → exec .windowClose s = .next { s with
        chip := releaseWindows (laneListen w.lane false (c.onRadio fun x => { x with windows := [{ w with closed := true }] })) }) ∧
    (∀ d j, c.radio.downlinks = [d] → d.goAt ≤ c.now + 2112 → c.schedRuns = true → c.entering = false →
      (c.radio.jobs.find? fun j => j.kind == 3 && j.handle == some d.handle && j.phase == .queued) = some j →
      let c2 := commitJob j d.goAt d.freq (c.sched d.handle).phy none (c.onRadio fun x => { x with downlinks := [] })
      (c2.radio.windows.find? fun w => w.handle == d.handle) = none → exec .downlinkSend s = .next { s with chip := c2 }) ∧
    (∀ i n rest, c.radio.pages = (i, n) :: rest → c.schedRuns = true → c.radio.page = none → c.radio.pageNext ≤ c.now →
      c.entering = false → ∃ k : Carrier, k.kind = .page ∧ k.ramp = c.now + 2048 ∧ k.first = c.now + 2112 ∧
        k.last = c.now + 2048 + 3221353 ∧ k.freq = 860000000 + 50000 * (c.sched i).step ∧ k.handle = some i ∧
        k.octets = (leOctets 6 (wakePattern (c.regN Reg.LINK_WUR_NET) (c.sched i).wakeId)).reverse ∧
        k.wave = pageWave (wakePattern (c.regN Reg.LINK_WUR_NET) (c.sched i).wakeId) ∧
        exec .pageStart s = .next { s with
          chip := contestNow lostCarrier (commitCarrier k (refreshPage (c.onRadio fun x => { x with
            nextId := x.nextId + 1, page := some { handle := i, carrier := c.radio.nextId, waitUntil := none, answered := false } }))) }) ∧
    (∀ g t, c.radio.page = some g → g.waitUntil = some t →
      (c.now < t → exec .resyncWaitExpiry s = .next s) ∧
      (t ≤ c.now → c.schedRuns = true → exec .resyncWaitExpiry s = .next { s with
        chip := releaseWindows (pageFailed g.handle (refreshPage (c.onRadio fun x => { x with page := none }))) }) ∧
      (t ≤ c.now → c.schedRuns = false → exec .resyncWaitExpiry s = .next { s with
        chip := releaseWindows (refreshPage (c.onRadio fun x => { x with page := none })) })) ∧
    (∀ r, c.radio.resyncs = [r] → r.carrier = none → r.goAt ≤ c.now + 2112 →
      (c.schedRuns = false → exec .resyncGrant s = .next { s with chip := dropResync r.handle c }) ∧
      (c.schedRuns = true → c.entering = false → c.regN Reg.LINK_TX_FRAME_COUNTER ≠ 2 ^ 32 - 1 →
        ∃ (k : Carrier) (d : Chip), k.kind = .grant ∧ k.first = r.goAt ∧ k.freq = r.freq ∧ k.handle = some r.handle ∧
          d.regN Reg.LINK_TX_FRAME_COUNTER = (c.regN Reg.LINK_TX_FRAME_COUNTER + 1) % 2 ^ 36 ∧
          exec .resyncGrant s = .next { s with chip := contestNow lostCarrier (commitCarrier k d) }))

/-- R139 to R141, R143, R150, R156 to R158: partner operations and the wake-up receiver. A command sets BUSY and LAST_HANDLE; a
second one meanwhile is rejected. At its grain, with no frame of the handle awaiting its verdict, the operation takes effect,
BUSY falls and its result is reported. A pattern that matches wakes or fires, unless held off. -/
def Obligations.PartnersAndWakeUp : Prop :=
  ∀ (s : State),
    let c := s.chip
    (∀ r ∈ ([(.read, 0), (.write, 1), (.writeKeep, 2), (.invalidate, 3), (.schedWrite, 4), (.schedClear, 5), (.page, 6),
        (.pageCancel, 7)] : List ((BitVec 12 → Instr) × Nat)), ∀ h : BitVec 12, c.isOn .link = true →
      (c.b Fld.LINK_PARTNER_STATUS_BUSY = true → exec (r.1 h) s = .next { s with chip := c.regReject }) ∧
      (c.b Fld.LINK_PARTNER_STATUS_BUSY = false → exec (r.1 h) s = .next { s with
        chip := ((c.onRadio fun x => { x with
          op := some { op := r.2, handle := h.toNat, entry := none, ticket := none } }).setB Fld.LINK_PARTNER_STATUS_BUSY
            true).setF Fld.LINK_PARTNER_STATUS_LAST_HANDLE h.toNat })) ∧
    (∀ p, c.radio.op = some p → c.isOn .link = true →
      (c.handleHeld p.handle = true → exec .partnerOpEffect s = .next s) ∧
      (c.handleHeld p.handle = false → p.ticket = none → exec .partnerOpEffect s = .next { s with
        chip :=
          let e := partnerEffect p c
          (((e.2.onRadio fun x => { x with op := none }).setB Fld.LINK_PARTNER_STATUS_BUSY false).setF
            Fld.LINK_PARTNER_STATUS_RESULT e.1.code).raise .psched 4 }) ∧
      (p.ticket = none → c.partners ≤ p.handle → partnerEffect p c = (.badArg, c)) ∧
      (∀ d, d = (if p.op = 0 then c else readPartner p.handle c) →
        p.handle < d.partners → d.spaceAccess 0 = .served → p.ticket = none →
        (p.op = 3 → partnerEffect p c = (.ok, pageLeave p.handle (clearSched p.handle
          (setEntryBit p.handle entryPaging false (setEntryBit p.handle entryValid false d))))) ∧
        (p.op = 4 → (d.entry p.handle).valid = true → schedLegal d.schedStage = false → partnerEffect p c = (.badArg, d)) ∧
        (p.op = 5 → partnerEffect p c = (.ok, clearSched p.handle d)) ∧
        (p.op = 6 → (d.entry p.handle).valid = true → partnerEffect p c = (.ok, loseSync p.handle d)) ∧
        (p.op = 7 → partnerEffect p c = (.ok, pageLeave p.handle (setEntryBit p.handle entryPaging false d))) ∧
        (p.op = 4 ∨ p.op = 6 → (d.entry p.handle).valid = false → partnerEffect p c = (.badArg, d)))) ∧
    (∀ bits : BitVec 48, c.isOn .wur = true → c.b Fld.LINK_WUR_CTRL_ENABLE = true → c.onAir = false → c.power ≠ 7 →
      c.pwr.heldInReset = false →
      (c.wakeMatches bits.toNat = none → exec (.wurMatch bits) s = .next s) ∧
      (∀ b, c.wakeMatches bits.toNat = some b →
        (c.b Fld.LINK_WUR_STATUS_HOLDOFF = true → exec (.wurMatch bits) s = .next { s with
          chip := c.bump Fld.LINK_WUR_COUNTS_HELD_OFF }) ∧
        (c.b Fld.LINK_WUR_STATUS_HOLDOFF = false → exec (.wurMatch bits) s = .next { s with
          chip :=
            let c1 := ((c.bump Fld.LINK_WUR_COUNTS_MATCHES).setB Fld.LINK_WUR_STATUS_MATCH true).setB
              Fld.LINK_WUR_STATUS_LAST_BCAST b
            let c2 := (c1.setB Fld.LINK_WUR_STATUS_HOLDOFF (c1.f Fld.LINK_WUR_CTRL_HOLDOFF_S != 0)).onRadio fun r =>
              { r with wurHold := some (c1.now + c1.f Fld.LINK_WUR_CTRL_HOLDOFF_S * 67108864) }
            latchWake (if c.awake then c2.fire 0xC3 (some 0) else c2) 0 }))) ∧
    (∀ net id, (wakePattern net id) % 256 = wakeCheck (wakePattern net id / 256) ∧
      wakePattern net id / 256 = net % 65536 * 2 ^ 24 + id % 2 ^ 24) ∧
    (∀ g, c.radio.wurHold = some g →
      (c.now < g → exec .wurHoldoffEnd s = .next s) ∧
      (g ≤ c.now → exec .wurHoldoffEnd s = .next { s with
        chip := (c.setB Fld.LINK_WUR_STATUS_HOLDOFF false).onRadio fun r => { r with wurHold := none } }))

/-- R163, R164, R168 to R171, R173, R175 to R177: the upkeep of memories. The scrubber takes the codewords of its place and moves
on; the march test begins the COPY of a segment, unless its bank has no spare left, and its phases lead from COPY to TEST, and
from there to COPY_BACK or, of a segment that fails, to retirement; DRAM retrains with no transaction outstanding, and is
filled; a dip is latched. -/
def Obligations.MemoryUpkeep : Prop :=
  ∀ (s : State),
    let c := s.chip
    (∀ m : ScrubMemory, m ≠ .instruction →
      let sp := scrubSpace m
      let pos := Store.get 0 c.mems.scrubPos sp
      let size := c.bankCodewords sp
      (c.now < Store.get 0 c.mems.scrubDue sp → exec (.scrubRead m []) s = .next s) ∧
      (c.spaceAccess sp = .served → c.b (scrubControl sp).1 = true → Store.get 0 c.mems.scrubDue sp ≤ c.now → c.awake = true →
        exec (.scrubRead m []) s = .next { s with
          chip := (scrubWhere (fun p => spaceOf p == sp && bankPlace p % size == pos) c).onMems fun x => { x with
            scrubDue := Store.put 0 x.scrubDue sp (c.now + c.regN (scrubControl sp).2)
            scrubPos := Store.put 0 x.scrubPos sp (if pos + 1 < size then pos + 1 else 0) } })) ∧
    (∀ m : MemIsland, c.island (memIslandOf m) ≠ .restarting → exec (.memoryScrubDone m) s = .next s) ∧
    (∀ m : MemIsland, m ≠ .ddr → c.island (memIslandOf m) = .restarting → exec (.memoryScrubDone m) s = .next { s with
      chip := restartEnds (memIslandOf m) (islandUp s.otp (memIslandOf m) (memoryScrubDone (memIslandOf m) c)) }) ∧
    (∀ g, c.marchSegment = some g → c.mems.marchDue ≤ c.now → c.awake = true → c.mems.marchRun = none →
      c.mems.redirected.contains g = false →
      let c1 := c.onMems fun m => { m with march := g + 1, marchDue := c.now + c.regN Reg.MEM_MARCH_INTERVAL }
      (4 ≤ c.sparesUsed (segmentBank g) → ∀ fails, exec (.marchSegment fails) s = .next { s with
        chip := exhaustBank (segmentBank g) c1 }) ∧
      (c.sparesUsed (segmentBank g) < 4 → ∀ fails, ∃ t, exec (.marchSegment fails) s = .next t ∧
        t.chip.mems = { c1.mems with marchRun := some { segment := g, fails := fails, phase := 1, done_ := 0 } } ∧
        t.chip.f Fld.MEM_MARCH_STATUS_PHASE = 1 ∧ t.chip.core = c.core)) ∧
    (∀ r, c.mems.marchRun = some r → ∀ fails, exec (.marchSegment fails) s = .next s) ∧
    (∀ r : MarchRun, let d := marchNext r c
      (r.phase = 1 → d.f Fld.MEM_MARCH_STATUS_PHASE = 2 ∧ d.mems = { c.mems with marchRun := some { r with phase := 2, done_ := 0 } }) ∧
      (r.phase = 2 → r.fails = false →
        d.f Fld.MEM_MARCH_STATUS_PHASE = 3 ∧ d.mems = { c.mems with marchRun := some { r with phase := 3, done_ := 0 } }) ∧
      (r.phase = 2 → r.fails = true → d.f Fld.MEM_MARCH_STATUS_PHASE = 0 ∧ d.mems.marchRun = none ∧
        d.mems.redirected = c.mems.redirected ++ [r.segment] ∧ d.b ⟨Reg.MEM_INT_STATUS, 4, 1⟩ = true ∧
        (4 ≤ d.sparesUsed (segmentBank r.segment) → d.mems.exhausted.contains (segmentBank r.segment) = true)) ∧
      (r.phase = 3 → d.f Fld.MEM_MARCH_STATUS_PHASE = 0 ∧ d.mems = { c.mems with marchRun := none })) ∧
    (5 ≤ c.power → c.power ≤ 6 → exec (.retentionSupplyDip []) s = .next { s with
      chip := (c.setB Fld.MEM_RETAIN_STATUS_SUPPLY_DIP true).raise .mem 2 }) ∧
    (c.isOn .ddr = true →
      (c.dramHeld ≠ 0 → exec .retrain s = .next { s with chip := c.regReject }) ∧
      (c.dramHeld = 0 → exec .retrain s = .next { s with
        chip := c.onMems fun m => { m with training := true } }) ∧
      (c.mems.training = true →
        (exec (.dramTrainDone none) s = .next { s with
          chip := (ddrFailed (c.onMems fun m => { m with training := false })).raise .mem 6 }) ∧
        (∀ d : DdrFound, exec (.dramTrainDone (some d)) s = .next { s with
          chip := (ddrTrained d.size.val d.rate.val (c.b Fld.MEM_DDR_STATUS_TRAIN_FAILED)
            (c.onMems fun m => { m with training := false })).raise .mem 6 })) ∧
      (c.b Fld.MEM_DDR_STATUS_TRAINED = true → c.b Fld.MEM_DDR_STATUS_TRAIN_FAILED = false → exec .ddrFillDone s = .next { s with
        chip := (c.setB Fld.MEM_DDR_STATUS_INIT_DONE true).onMems fun m => { m with ddrFillAt := none, ddrWritten := [] } }))

/-- R163, R164: the error code. A codeword without an error decodes as it is; one byte in error, at any of the thirteen places,
is put right whatever the error; a read then gives the words stored, and is counted as corrected. -/
def Obligations.ErrorCode : Prop :=
  rsDecode (List.replicate 13 0) = .clean (List.replicate 13 0) ∧
  (∀ (j : Fin 13) (e : Fin 256), e.val ≠ 0 →
    rsDecode ((List.replicate 13 0).set j e.val) = .corrected (List.replicate 13 0)) ∧
  (∀ (c : Chip) (p : Nat) (j : Fin 13) (e : Fin 256), e.val ≠ 0 → p % 2 = 0 → c.flaw p = (List.replicate 13 0).set j e.val →
    (readPair p c).1 = { even := c.stored p, odd := c.stored (p + 1), bad := false } ∧
    (readPair p c).2 = c.bump (eccCounters (spaceOf p)).1)

/-- R22, R239, R358, R359, R372, R378: a start. Outside BOOT it does nothing. A start whose steps S0 to S12 each end done hands
the chip to firmware: in RUN, or in GERMINATE where the slot it started is on trial, the core runs from bundle 0 with start
cause START, and the ledger holds the code of every step. A ROM that fails its check leaves the device DEAD; a supply too low is a
failed start of step 1, and RECOVERY_N low enters RECOVERY at Evening. -/
def Obligations.Starts : Prop :=
  ∀ (s : State) (f : StartFacts),
    let c1 := s.chip.onPwr fun p => { p with vsys := f.vsys.toNat }
    let c2 := (mramLines (ledgerBase + 0x1000) 128 (mramLines ledgerBase 512 c1)).onUpd fun u => { u with record := c1.readRecord, codes := 0, startSeq := u.startSeq + 1 }
    let alt := c2.slotRec.alt
    (s.chip.dev ≠ devBoot → s.chip.sec.burns = [] → exec (.start f) s = .next s) ∧
    (s.chip.dev = devBoot → s.chip.pwr.heldInReset = false → s.chip.power ≠ 7 →
      exec (.start f) s = .next (Safety.settled s (runBoot alt s.otp (bootSteps f s.otp) c2)) ∧
      (∀ d, Safety.stepsDone alt (bootSteps f s.otp) c2 = some d → ∃ t, exec (.start f) s = .next t ∧
        t.chip.dev = (if d.slotRec.slot d.upd.slot = slotTrial then devGerminate else devRun) ∧
        t.chip.core.running = true ∧ t.chip.core.pc = 0 ∧ t.chip.core.startCause = 0 ∧ t.chip.core.im = d.core.im ∧
        t.chip.upd.slot = d.upd.slot ∧ t.chip.stepCode 13 = 1 ∧ (∀ k, k < 13 → t.chip.stepCode k = d.stepCode k) ∧
        t.otp = burned s.otp d.sec.burns) ∧
      (f.romGood = false → exec (.start f) s = .next (Safety.settled s (startFailed 0 none alt s.otp c2)) ∧
        ∃ t, exec (.start f) s = .next t ∧ t.chip.dev = devDead ∧ t.chip.core.running = s.chip.core.running) ∧
      (f.romGood = true → f.vsys.toNat < 1850 → ∃ d, exec (.start f) s = .next (Safety.settled s (startFailed 1 none alt s.otp d))) ∧
      (f.romGood = true → 1850 ≤ f.vsys.toNat → f.recoveryLow = true →
        (∃ d, exec (.start f) s = .next (Safety.settled s (enterRecovery (writeStartRecord devRecovery 15 0 alt d)))) ∧
        ∃ t, exec (.start f) s = .next t ∧ t.chip.dev = devRecovery ∧ t.chip.power = 2))

/-- A step with a command at the front of the queue is the command's effect on the machine with the queue's rest; on an empty
queue time passes by one grain, or in a sleep to the next 32.768 kHz edge. The queue and the passing of time are the model's
choice (log entries 1 and 2): the spec's table has no row for the passing of time. -/
def Obligations.StepTakesTheFront : Prop :=
  (∀ (s : State) (i : Instr), step { s with pending := i :: s.pending } = exec i s) ∧
  (∀ (s : State) (i : Instr) (rest : List Instr), s.pending = i :: rest → step s = exec i { s with pending := rest }) ∧
  (∀ s : State, s.pending = [] → step s = .next { s with chip := timePasses s.chip })

/-- No command touches the queue: a next state of any command has the queue it ran with, so commands are taken first in,
first out, and each step takes one. The queue is the model's choice (log entry 1). -/
def Obligations.CommandsKeepTheQueue : Prop :=
  (∀ (s t : State) (i : Instr), exec i s = .next t → t.pending = s.pending) ∧
  (∀ (s t : State), step s = .next t → t.pending = s.pending.tail)

/-- R188: a fuse that is burned stays burned, whatever command or passing of time a step is. -/
def Obligations.FusesNeverUnburn : Prop :=
  ∀ (s t : State), step s = .next t → Safety.FusesKept s.otp t.otp

/-- R188: the fuses keep their one canonical form through every step: rows of 32 bits, rising, none listed that holds no burned
bit. The form is the model's choice (log entry 6). -/
def Obligations.FusesStayCanonical : Prop :=
  ∀ (s t : State), Safety.fusesOk s.otp = true → step s = .next t → Safety.fusesOk t.otp = true

/-- R22, R190, R134, R187, R304, R330, R351, R380: the machine after reset. It is in BOOT with POWER_UP its cause, its queue
and memories empty, firmware stopped, and registers hold the reset values of their tables. Which level State.reset holds and
which fuses a part as shipped has burned beside its lifecycle are read from R190 and R337 (the model's choice: log entries 7 and 8). -/
def Obligations.ResetValues : Prop :=
  let c := State.reset.chip
  State.reset.pending = [] ∧ Safety.fusesOk State.reset.otp = true ∧ Safety.memsOk c.mems = true ∧ c.dev = devBoot ∧
  c.regN Reg.PWR_RESET_CAUSE = 1 ∧ c.core.running = false ∧ lifecycle State.reset.otp = 1 ∧ c.now = 0 ∧
  c.radio.carriers = [] ∧ c.radio.frames = [] ∧ c.tk.held = [] ∧ c.b Fld.PAD_STATUS_LATCHED = true ∧
  c.b Fld.RTC_STATUS_OSC_STOP = true ∧ c.regN Reg.RTC_COMP_T0 = 25 ∧ c.regI Reg.RTC_COMP_C2 = -34 ∧
  c.regN Reg.RTC_BACKUP_LEVEL = 2200 ∧ c.regN Reg.MEM_SCRUB_SRAM_INTERVAL = 4096 ∧ c.regN Reg.MEM_SCRUB_DDR_INTERVAL = 64 ∧
  c.regN Reg.LINK_ACK_GAP = 1342 ∧ c.regN Reg.LINK_ACK_WAIT = 131072 ∧ c.f Fld.LINK_PAN_SHORT_PAN_ID = 0xFFFF ∧
  c.f Fld.LINK_CSMA_MAX_BACKOFFS = 4 ∧ c.regN Reg.LINK_DWELL_BASE = 902200000 ∧ c.regN Reg.UPD_MIN_SUPPLY = 2600 ∧
  (∀ x < 2, c.regN (Reg.RF_CHAIN_FREQ x) = 915000000) ∧ (∀ n < 64, c.f (Fld.LANE_CTRL_CAPTURE_DB n) = 10) ∧
  (∀ t < 16, ∀ ix < 4, c.regN (Reg.TMR_ADD t ix) = 1)

/-- R112: an unsecured frame is FILTERED when LINK_CTRL.ALLOW_UNSECURED is 0; when it is 1 the frame skips step 5 (no key and
no MIC is asked for, and nothing is opened) and is checked at step 6 by its sequence number; its descriptor shows SEC_LEVEL
0. Stated of a frame that reaches steps 3 and 4: whole, its FCS good, outside promiscuous mode. -/
def Obligations.UnsecuredFrames : Prop :=
  ∀ (c : Chip) (f : Frame) (h : Mhr), f.mhr = some h → h.aux = none →
    (f.abandoned = false → f.faulted = false → fcsGood f.fcs2 f.psdu = true → c.b Fld.LINK_CTRL_PROMISCUOUS = false →
      (c.b Fld.LINK_CTRL_ALLOW_UNSECURED = false → (c.judge f).1 = vFiltered) ∧
      (c.b Fld.LINK_CTRL_ALLOW_UNSECURED = true → c.addressPasses h = true → h.type ≠ 2 → h.type ≤ 3 →
        (f.handle = none → c.judge f = (vAccept, none)) ∧
        (∀ i q, f.handle = some i → h.seq = some q → c.judge f =
          (if (c.entry i).seqValid = true ∧ q = (c.entry i).lastSeq then vDuplicate else vAccept, none)))) ∧
    (∀ (j : Judged) (e pay : Nat), j.frame = f → ((c.descWords j e pay).getD 12 .absent).field 33 3 = 0)

/-- R28: tags 0x9 to 0xC never exist inside the device: no word has one. A tagged immediate that names one is a
RESERVED_BITS trap (stated for every trigger of the ALU), and a host write that carries one is discarded and sets
SYS_STATUS.REG_REJECT. -/
def Obligations.TagsThatDoNotExist : Prop :=
  (∀ w : Word, ¬ (9 ≤ w.tag.num ∧ w.tag.num ≤ 12)) ∧
  (∀ (s : State) (bus : Fin 4) (w : Fin 28) (t : BitVec 4) (v : BitVec 16), Safety.coreAtRest s.chip = true →
    Safety.unitOn s.chip bus w 1 → 9 ≤ t.toNat → t.toNat ≤ 12 → ∀ e ∈ Safety.aluRows,
    exec (e.1 bus w (.tagged t v)) s = .next { s with
      chip := takeTrap (Safety.moveTrapOf .reservedBits bus (windowBase w.val + e.2.offset) (.tagged t v) (.int 0) false)
        s.chip }) ∧
  (∀ (s : State) (p : Fin 4) (sp : BitVec 4) (a : BitVec 32) (x : SlotWrite), s.chip.pathServed (p.val + 1) = true →
    9 ≤ x.tag.toNat → x.tag.toNat ≤ 12 →
    exec (.hostWordWrite p sp a x) s = .next { s with chip := (writeSeen (p.val + 1) x true s.chip).regReject.hostReject } ∧
    (writeSeen (p.val + 1) x true s.chip).regReject.hostReject.b Fld.SYS_STATUS_REG_REJECT = true)
end

