-- ==== Sys2Proof/Laws/Store.lean ====
section
/-! SUPPORT. Sparse tables: reading after writing, and the canonical form that every operation keeps. -/

namespace Sys2Proof.Machine

variable {α : Type}

@[simp] theorem Store.get_nil (d : α) (a : Nat) : Store.get d [] a = d := rfl

theorem Store.get_drop (d : α) (m : Store α) (p : Nat → Bool) (a : Nat) :
    Store.get d (Store.drop m p) a = if p a then d else Store.get d m a := by
  induction m with
  | nil => simp [Store.drop]
  | cons e m ih =>
    obtain ⟨k, v⟩ := e
    simp only [Store.drop, List.filter_cons] at ih ⊢
    by_cases hp : p k
    · simp only [hp, Bool.not_true, Bool.false_eq_true, if_false]
      rw [ih]
      by_cases ha : a = k
      · subst ha; simp [hp]
      · simp [Store.get, ha]
    · simp only [hp, Bool.not_false, if_true, Store.get]
      by_cases ha : a = k
      · subst ha; simp [hp]
      · simp only [ha, if_false]; exact ih

theorem Store.get_filter (d : α) (m : Store α) (a b : Nat) :
    Store.get d (m.filter fun e => e.1 != a) b = if b = a then d else Store.get d m b := by
  have h := Store.get_drop d m (fun k => k == a) b
  simpa [Store.drop, bne] using h

theorem Store.get_insert (d : α) (m : Store α) (a b : Nat) (v : α) (h : b = a → Store.get d m a = d) :
    Store.get d (Store.insert a v m) b = if b = a then v else Store.get d m b := by
  induction m with
  | nil => by_cases hb : b = a <;> simp [Store.insert, Store.get, hb]
  | cons e m ih =>
    obtain ⟨k, w⟩ := e
    by_cases hk : k < a
    · have hka : ¬ a = k := by omega
      simp only [Store.get, hka, if_false] at h
      simp only [Store.insert, hk, if_true, Store.get, ih h]
      by_cases hb : b = a
      · subst hb; simp [hka]
      · simp [hb]
    · simp only [Store.insert, hk, if_false]
      by_cases hb : b = a <;> simp [Store.get, hb]

variable [DecidableEq α]

/-- A read after a write: the value written at its key, and every other key as before. -/
theorem Store.get_put (d : α) (m : Store α) (a b : Nat) (v : α) :
    Store.get d (Store.put d m a v) b = if b = a then v else Store.get d m b := by
  unfold Store.put
  by_cases hv : v = d
  · simp [hv, Store.get_filter]
  · simp only [hv, if_false]
    rw [Store.get_insert d _ a b v (fun _ => by simp [Store.get_filter]), Store.get_filter]
    by_cases hb : b = a <;> simp [hb]

@[simp] theorem Store.get_put_same (d : α) (m : Store α) (a : Nat) (v : α) : Store.get d (Store.put d m a v) a = v := by
  simp [Store.get_put]

/-- A write leaves every other key alone, whatever an unlisted key reads as. -/
theorem Store.get_put_ne (d d' : α) (m : Store α) (a b : Nat) (v : α) (h : b ≠ a) :
    Store.get d (Store.put d' m a v) b = Store.get d m b := by
  unfold Store.put
  by_cases hv : v = d'
  · simp [hv, Store.get_filter, h]
  · simp only [hv, if_false]
    rw [Store.get_insert d _ a b v (fun e => absurd e h), Store.get_filter]
    simp [h]

/-! ### The canonical form -/

theorem Store.okFrom_mono (f : Nat → α) (m : Store α) (lo lo' : Nat) (h : Store.okFrom f lo m = true) (hl : lo' ≤ lo) :
    Store.okFrom f lo' m = true := by
  cases m with
  | nil => rfl
  | cons e m =>
    obtain ⟨k, v⟩ := e
    simp only [Store.okFrom, Bool.and_eq_true, decide_eq_true_eq] at h ⊢
    exact ⟨⟨by omega, h.1.2⟩, h.2⟩

theorem Store.okFrom_filter (f : Nat → α) (m : Store α) (lo : Nat) (p : Nat × α → Bool) (h : Store.okFrom f lo m = true) :
    Store.okFrom f lo (m.filter p) = true := by
  induction m generalizing lo with
  | nil => rfl
  | cons e m ih =>
    obtain ⟨k, v⟩ := e
    simp only [Store.okFrom, Bool.and_eq_true, decide_eq_true_eq] at h
    by_cases hp : p (k, v)
    · simp only [List.filter_cons, hp, if_true, Store.okFrom, Bool.and_eq_true, decide_eq_true_eq]
      exact ⟨h.1, ih (k + 1) h.2⟩
    · simp only [List.filter_cons, hp]
      exact Store.okFrom_mono f _ (k + 1) lo (ih (k + 1) h.2) (by omega)

theorem Store.okFrom_insert (f : Nat → α) (m : Store α) (lo a : Nat) (v : α) (h : Store.okFrom f lo m = true) (hl : lo ≤ a)
    (hv : v ≠ f a) (hm : ∀ e ∈ m, e.1 ≠ a) : Store.okFrom f lo (Store.insert a v m) = true := by
  induction m generalizing lo with
  | nil => simp [Store.insert, Store.okFrom, hl, hv]
  | cons e m ih =>
    obtain ⟨k, w⟩ := e
    simp only [Store.okFrom, Bool.and_eq_true, decide_eq_true_eq] at h
    have hk : k ≠ a := hm (k, w) (by simp)
    by_cases hlt : k < a
    · simp only [Store.insert, hlt, if_true, Store.okFrom, Bool.and_eq_true, decide_eq_true_eq]
      exact ⟨h.1, ih (k + 1) h.2 (by omega) (fun e he => hm e (by simp [he]))⟩
    · simp only [Store.insert, hlt, if_false, Store.okFrom, Bool.and_eq_true, decide_eq_true_eq]
      exact ⟨⟨hl, hv⟩, ⟨by omega, h.1.2⟩, h.2⟩

theorem Store.ok_put (f : Nat → α) (m : Store α) (a : Nat) (v : α) (h : Store.ok f m = true) :
    Store.ok f (Store.put (f a) m a v) = true := by
  unfold Store.put
  have hr := Store.okFrom_filter f m 0 (fun e => e.1 != a) h
  by_cases hv : v = f a
  · simpa [hv, Store.ok] using hr
  · simp only [hv, if_false]
    exact Store.okFrom_insert f _ 0 a v hr (Nat.zero_le a) hv (fun e he => by simpa using (List.mem_filter.mp he).2)

theorem Store.ok_drop (f : Nat → α) (m : Store α) (p : Nat → Bool) (h : Store.ok f m = true) :
    Store.ok f (Store.drop m p) = true := Store.okFrom_filter f m 0 _ h

end Sys2Proof.Machine
end

