-- ==== Sys2Proof/Laws/Regs.lean ====
section
/-! SUPPORT. Registers and their fields: reading after writing, and what a flag that is raised leaves alone. -/

namespace Sys2Proof

theorem pow_split (a b : Nat) : 2 ^ (a + b) = 2 ^ a * 2 ^ b := Nat.pow_add 2 a b

/-- A field reads back what was put into it. -/
theorem bitsOf_putBits (n lo w v : Nat) : bitsOf (putBits n lo w v) lo w = v % 2 ^ w := by
  unfold bitsOf putBits
  have hA : 0 < 2 ^ lo := Nat.two_pow_pos lo
  have e : n % 2 ^ lo + v % 2 ^ w * 2 ^ lo + n / 2 ^ (lo + w) * 2 ^ (lo + w)
      = n % 2 ^ lo + 2 ^ lo * (v % 2 ^ w + 2 ^ w * (n / 2 ^ (lo + w))) := by rw [pow_split]; ring_nf
  rw [e, Nat.add_mul_div_left _ _ hA, Nat.div_eq_of_lt (Nat.mod_lt _ hA), Nat.zero_add, Nat.add_mul_mod_self_left]
  exact Nat.mod_mod _ _

/-- A field below the one written is left alone. -/
theorem bitsOf_putBits_below (n lo w v lo' w' : Nat) (h : lo' + w' ≤ lo) :
    bitsOf (putBits n lo w v) lo' w' = bitsOf n lo' w' := by
  have key : ∀ x y : Nat, x % 2 ^ lo = y % 2 ^ lo → x / 2 ^ lo' % 2 ^ w' = y / 2 ^ lo' % 2 ^ w' := by
    intro x y hxy
    have hd : 2 ^ (lo' + w') ∣ 2 ^ lo := pow_dvd_pow 2 h
    have hm : x % 2 ^ (lo' + w') = y % 2 ^ (lo' + w') := by
      rw [← Nat.mod_mod_of_dvd x hd, ← Nat.mod_mod_of_dvd y hd, hxy]
    rw [← Nat.mod_mul_right_div_self, ← Nat.mod_mul_right_div_self, ← pow_split, hm]
  unfold bitsOf
  apply key
  unfold putBits
  have e : n % 2 ^ lo + v % 2 ^ w * 2 ^ lo + n / 2 ^ (lo + w) * 2 ^ (lo + w)
      = n % 2 ^ lo + 2 ^ lo * (v % 2 ^ w + 2 ^ w * (n / 2 ^ (lo + w))) := by rw [pow_split]; ring_nf
  rw [e, Nat.add_mul_mod_self_left, Nat.mod_mod]

/-- A field above the one written is left alone. -/
theorem bitsOf_putBits_above (n lo w v lo' w' : Nat) (h : lo + w ≤ lo') :
    bitsOf (putBits n lo w v) lo' w' = bitsOf n lo' w' := by
  unfold bitsOf
  have hq : putBits n lo w v / 2 ^ (lo + w) = n / 2 ^ (lo + w) := by
    unfold putBits
    have hlt : n % 2 ^ lo + v % 2 ^ w * 2 ^ lo < 2 ^ (lo + w) := by
      have h1 := Nat.mod_lt n (Nat.two_pow_pos lo)
      have h2 := Nat.mod_lt v (Nat.two_pow_pos w)
      have h3 : (v % 2 ^ w + 1) * 2 ^ lo ≤ 2 ^ w * 2 ^ lo := Nat.mul_le_mul_right _ h2
      rw [pow_split, Nat.mul_comm (2 ^ lo)]
      calc _ < 2 ^ lo + v % 2 ^ w * 2 ^ lo := by omega
        _ = (v % 2 ^ w + 1) * 2 ^ lo := by ring
        _ ≤ _ := h3
    rw [Nat.add_mul_div_right _ _ (Nat.two_pow_pos _), Nat.div_eq_of_lt hlt, Nat.zero_add]
  obtain ⟨d, rfl⟩ := Nat.exists_eq_add_of_le h
  rw [pow_split, ← Nat.div_div_eq_div_mul, ← Nat.div_div_eq_div_mul, hq]

/-- A field that ends within a word is not touched by cutting to 36 bits. -/
theorem bitsOf_mod (n lo w : Nat) (h : lo + w ≤ 36) : bitsOf (n % 2 ^ 36) lo w = bitsOf n lo w := by
  unfold bitsOf
  obtain ⟨d, hd⟩ := Nat.exists_eq_add_of_le h
  have e : (2 : Nat) ^ 36 = 2 ^ lo * (2 ^ w * 2 ^ d) := by rw [hd, pow_split, pow_split]; ring
  rw [e, Nat.mod_mul_right_div_self, Nat.mod_mul_right_mod]

@[simp] theorem Word.mk'_nat (t : Tag) (n : Nat) : (Word.mk' t n).nat = n % 2 ^ 36 := by simp [Word.mk', Word.nat]
@[simp] theorem Word.mk'_tag (t : Tag) (n : Nat) : (Word.mk' t n).tag = t := rfl
theorem Word.nat_lt (w : Word) : w.nat < 2 ^ 36 := w.payload.isLt
@[simp] theorem Word.withField_tag (x : Word) (lo w v : Nat) : (x.withField lo w v).tag = x.tag := rfl

/-- A field of a word reads back what was put into it. -/
theorem Word.field_withField (x : Word) (lo w v : Nat) (h : lo + w ≤ 36) : (x.withField lo w v).field lo w = v % 2 ^ w := by
  simp only [Word.field, Word.withField, Word.mk'_nat]
  rw [bitsOf_mod _ _ _ h, bitsOf_putBits]

/-- Another field of the word is left alone. -/
theorem Word.field_withField_ne (x : Word) (lo w v lo' w' : Nat) (h' : lo' + w' ≤ 36) (h : lo' + w' ≤ lo ∨ lo + w ≤ lo') :
    (x.withField lo w v).field lo' w' = x.field lo' w' := by
  simp only [Word.field, Word.withField, Word.mk'_nat]
  rw [bitsOf_mod _ _ _ h']
  rcases h with h | h
  · exact bitsOf_putBits_below _ _ _ _ _ _ h
  · exact bitsOf_putBits_above _ _ _ _ _ _ h

end Sys2Proof

namespace Sys2Proof.Machine

variable (c : Chip)

theorem Chip.reg_setReg (a b : Nat) (w : Word) : (c.setReg a w).reg b = if b = a then w else c.reg b := by
  unfold Chip.reg Chip.setReg regGet regPut
  by_cases h : b = a
  · subst h; simp
  · simp [Store.get_put_ne, h]

@[simp] theorem Chip.reg_setReg_same (a : Nat) (w : Word) : (c.setReg a w).reg a = w := by simp [Chip.reg_setReg]
theorem Chip.reg_setReg_ne (a b : Nat) (w : Word) (h : b ≠ a) : (c.setReg a w).reg b = c.reg b := by simp [Chip.reg_setReg, h]
theorem Chip.reg_setF_ne (x : Field) (v b : Nat) (h : b ≠ x.reg) : (c.setF x v).reg b = c.reg b := Chip.reg_setReg_ne c _ _ _ h
theorem Chip.reg_setB_ne (x : Field) (v : Bool) (b : Nat) (h : b ≠ x.reg) : (c.setB x v).reg b = c.reg b := Chip.reg_setReg_ne c _ _ _ h
theorem Chip.reg_setRegN_ne (a n b : Nat) (h : b ≠ a) : (c.setRegN a n).reg b = c.reg b := Chip.reg_setReg_ne c _ _ _ h
@[simp] theorem Chip.reg_setRegN (a n : Nat) : (c.setRegN a n).reg a = Word.mk' (c.reg a).tag n := Chip.reg_setReg_same c _ _
@[simp] theorem Chip.regN_setRegN (a n : Nat) : (c.setRegN a n).regN a = n % 2 ^ 36 := by simp [Chip.regN]
@[simp] theorem Chip.reg_setF (x : Field) (v : Nat) : (c.setF x v).reg x.reg = (c.reg x.reg).withField x.lo x.w v :=
  Chip.reg_setReg_same c _ _

/-- A field reads back what it was set to. -/
theorem Chip.f_setF (x : Field) (v : Nat) (h : x.lo + x.w ≤ 36) : (c.setF x v).f x = v % 2 ^ x.w := by
  unfold Chip.f
  rw [Chip.reg_setF]
  exact Word.field_withField _ _ _ _ h

/-- A field of another register, or elsewhere in the same one, is left alone. -/
theorem Chip.f_setF_ne (x y : Field) (v : Nat) (h : y.reg ≠ x.reg ∨ (y.lo + y.w ≤ 36 ∧ (y.lo + y.w ≤ x.lo ∨ x.lo + x.w ≤ y.lo))) :
    (c.setF x v).f y = c.f y := by
  unfold Chip.f
  by_cases hr : y.reg = x.reg
  · rcases h with h | ⟨h1, h2⟩
    · exact absurd hr h
    · rw [hr, Chip.reg_setF]; exact Word.field_withField_ne _ _ _ _ _ _ h1 h2
  · rw [Chip.reg_setF_ne c x v _ hr]

theorem Chip.f_setReg_ne (a : Nat) (w : Word) (y : Field) (h : y.reg ≠ a) : (c.setReg a w).f y = c.f y := by
  unfold Chip.f; rw [Chip.reg_setReg_ne c a _ w h]

theorem Chip.f_setF_reg (x y : Field) (v : Nat) (h : y.reg ≠ x.reg) : (c.setF x v).f y = c.f y := Chip.f_setF_ne c x y v (.inl h)
theorem Chip.f_setRegN_ne (a n : Nat) (y : Field) (h : y.reg ≠ a) : (c.setRegN a n).f y = c.f y := Chip.f_setReg_ne c a _ y h

theorem b2n_mod_two (v : Bool) : b2n v % 2 ^ 1 = b2n v := by cases v <;> rfl

/-- A one-bit field reads back the truth value it was set to. -/
theorem Chip.b_setB (x : Field) (v : Bool) (hw : x.w = 1) (h : x.lo + x.w ≤ 36) : (c.setB x v).b x = v := by
  unfold Chip.b Chip.setB
  rw [Chip.f_setF c x _ h, hw, b2n_mod_two]
  cases v <;> rfl

theorem Chip.b_setB_ne (x y : Field) (v : Bool)
    (h : y.reg ≠ x.reg ∨ (y.lo + y.w ≤ 36 ∧ (y.lo + y.w ≤ x.lo ∨ x.lo + x.w ≤ y.lo))) : (c.setB x v).b y = c.b y := by
  unfold Chip.b Chip.setB; rw [Chip.f_setF_ne c x y _ h]

/-- A saturating count leaves every other field alone. -/
theorem Chip.bump_f_ne (x y : Field) (h : y.reg ≠ x.reg ∨ (y.lo + y.w ≤ 36 ∧ (y.lo + y.w ≤ x.lo ∨ x.lo + x.w ≤ y.lo))) :
    (c.bump x).f y = c.f y := by
  unfold Chip.bump; split
  · exact Chip.f_setF_ne c x y _ h
  · rfl

theorem Chip.bump_reg_ne (x : Field) (a : Nat) (h : a ≠ x.reg) : (c.bump x).reg a = c.reg a := by
  unfold Chip.bump; split
  · exact Chip.reg_setF_ne c x _ a h
  · rfl

/-! ### Flags -/

@[simp] theorem Chip.fire_regs (n : Nat) (p : Option Nat) (k : Nat) : (c.fire n p k).regs = c.regs := by
  unfold Chip.fire; split <;> rfl

/-- All that setting a write-one-to-clear bit does to the registers. -/
theorem Chip.setFlag_regs (a k : Nat) : (c.setFlag a k).regs = (c.setF ⟨a, k, 1⟩ 1).regs := by
  simp only [Chip.setFlag]; split <;> rfl

theorem Chip.setFlag_f (a k : Nat) (y : Field) : (c.setFlag a k).f y = (c.setF ⟨a, k, 1⟩ 1).f y := by
  unfold Chip.f Chip.reg; rw [Chip.setFlag_regs]

/-- The bit that is set reads 1. -/
theorem Chip.setFlag_b (a k : Nat) (h : k + 1 ≤ 36) : (c.setFlag a k).b ⟨a, k, 1⟩ = true := by
  unfold Chip.b; rw [Chip.setFlag_f, Chip.f_setF _ _ _ h]; rfl

/-- All that raising a flag does to the registers: its bit becomes 1 (R278). -/
theorem Chip.raise_regs (b : Block) (k : Nat) : (c.raise b k).regs = (c.setF ⟨b.status, k, 1⟩ 1).regs := by
  simp only [Chip.raise]; split <;> simp [Chip.setFlag_regs]

theorem Chip.raise_reg (b : Block) (k a : Nat) : (c.raise b k).reg a = (c.setF ⟨b.status, k, 1⟩ 1).reg a := by
  unfold Chip.reg; rw [Chip.raise_regs]

theorem Chip.raise_f (b : Block) (k : Nat) (y : Field) : (c.raise b k).f y = (c.setF ⟨b.status, k, 1⟩ 1).f y := by
  unfold Chip.f; rw [Chip.raise_reg]

/-- The flag that is raised reads 1. -/
theorem Chip.raise_flag (b : Block) (k : Nat) (h : k + 1 ≤ 36) : (c.raise b k).b ⟨b.status, k, 1⟩ = true := by
  unfold Chip.b; rw [Chip.raise_f, Chip.f_setF _ _ _ h]; rfl

theorem Chip.raise_f_ne (b : Block) (k : Nat) (y : Field)
    (h : y.reg ≠ b.status ∨ (y.lo + y.w ≤ 36 ∧ (y.lo + y.w ≤ k ∨ k + 1 ≤ y.lo))) : (c.raise b k).f y = c.f y := by
  rw [Chip.raise_f, Chip.f_setF_ne _ ⟨b.status, k, 1⟩ y 1 h]

theorem Chip.raise_f_reg (b : Block) (k : Nat) (y : Field) (h : y.reg ≠ b.status) : (c.raise b k).f y = c.f y :=
  Chip.raise_f_ne c b k y (.inl h)

theorem Chip.raise_reg_ne (b : Block) (k a : Nat) (h : a ≠ b.status) : (c.raise b k).reg a = c.reg a := by
  rw [Chip.raise_reg]; exact Chip.reg_setF_ne c _ _ _ h

end Sys2Proof.Machine
end

