-- ==== Sys2Proof/Laws/State.lean ====
section
/-! SUPPORT. What each update of the chip leaves alone: one lemma for each field of State and each update. -/

namespace Sys2Proof.Machine

variable (c : Chip)

@[simp] theorem Chip.setReg_now (a : Nat) (w : Word) : (c.setReg a w).now = c.now := (rfl)
@[simp] theorem Chip.setReg_free (a : Nat) (w : Word) : (c.setReg a w).free = c.free := (rfl)
@[simp] theorem Chip.setReg_out (a : Nat) (w : Word) : (c.setReg a w).out = c.out := (rfl)
@[simp] theorem Chip.setReg_islands (a : Nat) (w : Word) : (c.setReg a w).islands = c.islands := (rfl)
@[simp] theorem Chip.setReg_shadows (a : Nat) (w : Word) : (c.setReg a w).shadows = c.shadows := (rfl)
@[simp] theorem Chip.setReg_pins (a : Nat) (w : Word) : (c.setReg a w).pins = c.pins := (rfl)
@[simp] theorem Chip.setReg_pwr (a : Nat) (w : Word) : (c.setReg a w).pwr = c.pwr := (rfl)
@[simp] theorem Chip.setReg_rtc (a : Nat) (w : Word) : (c.setReg a w).rtc = c.rtc := (rfl)
@[simp] theorem Chip.setReg_fab (a : Nat) (w : Word) : (c.setReg a w).fab = c.fab := (rfl)
@[simp] theorem Chip.setReg_chk (a : Nat) (w : Word) : (c.setReg a w).chk = c.chk := (rfl)
@[simp] theorem Chip.setReg_core (a : Nat) (w : Word) : (c.setReg a w).core = c.core := (rfl)
@[simp] theorem Chip.setReg_tk (a : Nat) (w : Word) : (c.setReg a w).tk = c.tk := (rfl)
@[simp] theorem Chip.setReg_mems (a : Nat) (w : Word) : (c.setReg a w).mems = c.mems := (rfl)
@[simp] theorem Chip.setReg_radio (a : Nat) (w : Word) : (c.setReg a w).radio = c.radio := (rfl)
@[simp] theorem Chip.setReg_sec (a : Nat) (w : Word) : (c.setReg a w).sec = c.sec := (rfl)
@[simp] theorem Chip.setReg_upd (a : Nat) (w : Word) : (c.setReg a w).upd = c.upd := (rfl)
@[simp] theorem Chip.setReg_mbx (a : Nat) (w : Word) : (c.setReg a w).mbx = c.mbx := (rfl)
@[simp] theorem Chip.setReg_gang (a : Nat) (w : Word) : (c.setReg a w).gang = c.gang := (rfl)
@[simp] theorem Chip.setReg_remash (a : Nat) (w : Word) : (c.setReg a w).remash = c.remash := (rfl)
@[simp] theorem Chip.setReg_uart (a : Nat) (w : Word) : (c.setReg a w).uart = c.uart := (rfl)
@[simp] theorem Chip.setReg_scan (a : Nat) (w : Word) : (c.setReg a w).scan = c.scan := (rfl)
@[simp] theorem Chip.setReg_qspiReject (a : Nat) (w : Word) : (c.setReg a w).qspiReject = c.qspiReject := (rfl)
@[simp] theorem Chip.setReg_msix (a : Nat) (w : Word) : (c.setReg a w).msix = c.msix := (rfl)
@[simp] theorem Chip.setReg_recipe (a : Nat) (w : Word) : (c.setReg a w).recipe = c.recipe := (rfl)
@[simp] theorem Chip.setReg_kept (a : Nat) (w : Word) : (c.setReg a w).kept = c.kept := (rfl)

@[simp] theorem Chip.setRegN_now (a n : Nat) : (c.setRegN a n).now = c.now := (rfl)
@[simp] theorem Chip.setRegN_free (a n : Nat) : (c.setRegN a n).free = c.free := (rfl)
@[simp] theorem Chip.setRegN_out (a n : Nat) : (c.setRegN a n).out = c.out := (rfl)
@[simp] theorem Chip.setRegN_islands (a n : Nat) : (c.setRegN a n).islands = c.islands := (rfl)
@[simp] theorem Chip.setRegN_shadows (a n : Nat) : (c.setRegN a n).shadows = c.shadows := (rfl)
@[simp] theorem Chip.setRegN_pins (a n : Nat) : (c.setRegN a n).pins = c.pins := (rfl)
@[simp] theorem Chip.setRegN_pwr (a n : Nat) : (c.setRegN a n).pwr = c.pwr := (rfl)
@[simp] theorem Chip.setRegN_rtc (a n : Nat) : (c.setRegN a n).rtc = c.rtc := (rfl)
@[simp] theorem Chip.setRegN_fab (a n : Nat) : (c.setRegN a n).fab = c.fab := (rfl)
@[simp] theorem Chip.setRegN_chk (a n : Nat) : (c.setRegN a n).chk = c.chk := (rfl)
@[simp] theorem Chip.setRegN_core (a n : Nat) : (c.setRegN a n).core = c.core := (rfl)
@[simp] theorem Chip.setRegN_tk (a n : Nat) : (c.setRegN a n).tk = c.tk := (rfl)
@[simp] theorem Chip.setRegN_mems (a n : Nat) : (c.setRegN a n).mems = c.mems := (rfl)
@[simp] theorem Chip.setRegN_radio (a n : Nat) : (c.setRegN a n).radio = c.radio := (rfl)
@[simp] theorem Chip.setRegN_sec (a n : Nat) : (c.setRegN a n).sec = c.sec := (rfl)
@[simp] theorem Chip.setRegN_upd (a n : Nat) : (c.setRegN a n).upd = c.upd := (rfl)
@[simp] theorem Chip.setRegN_mbx (a n : Nat) : (c.setRegN a n).mbx = c.mbx := (rfl)
@[simp] theorem Chip.setRegN_gang (a n : Nat) : (c.setRegN a n).gang = c.gang := (rfl)
@[simp] theorem Chip.setRegN_remash (a n : Nat) : (c.setRegN a n).remash = c.remash := (rfl)
@[simp] theorem Chip.setRegN_uart (a n : Nat) : (c.setRegN a n).uart = c.uart := (rfl)
@[simp] theorem Chip.setRegN_scan (a n : Nat) : (c.setRegN a n).scan = c.scan := (rfl)
@[simp] theorem Chip.setRegN_qspiReject (a n : Nat) : (c.setRegN a n).qspiReject = c.qspiReject := (rfl)
@[simp] theorem Chip.setRegN_msix (a n : Nat) : (c.setRegN a n).msix = c.msix := (rfl)
@[simp] theorem Chip.setRegN_recipe (a n : Nat) : (c.setRegN a n).recipe = c.recipe := (rfl)
@[simp] theorem Chip.setRegN_kept (a n : Nat) : (c.setRegN a n).kept = c.kept := (rfl)

@[simp] theorem Chip.setF_now (x : Field) (v : Nat) : (c.setF x v).now = c.now := (rfl)
@[simp] theorem Chip.setF_free (x : Field) (v : Nat) : (c.setF x v).free = c.free := (rfl)
@[simp] theorem Chip.setF_out (x : Field) (v : Nat) : (c.setF x v).out = c.out := (rfl)
@[simp] theorem Chip.setF_islands (x : Field) (v : Nat) : (c.setF x v).islands = c.islands := (rfl)
@[simp] theorem Chip.setF_shadows (x : Field) (v : Nat) : (c.setF x v).shadows = c.shadows := (rfl)
@[simp] theorem Chip.setF_pins (x : Field) (v : Nat) : (c.setF x v).pins = c.pins := (rfl)
@[simp] theorem Chip.setF_pwr (x : Field) (v : Nat) : (c.setF x v).pwr = c.pwr := (rfl)
@[simp] theorem Chip.setF_rtc (x : Field) (v : Nat) : (c.setF x v).rtc = c.rtc := (rfl)
@[simp] theorem Chip.setF_fab (x : Field) (v : Nat) : (c.setF x v).fab = c.fab := (rfl)
@[simp] theorem Chip.setF_chk (x : Field) (v : Nat) : (c.setF x v).chk = c.chk := (rfl)
@[simp] theorem Chip.setF_core (x : Field) (v : Nat) : (c.setF x v).core = c.core := (rfl)
@[simp] theorem Chip.setF_tk (x : Field) (v : Nat) : (c.setF x v).tk = c.tk := (rfl)
@[simp] theorem Chip.setF_mems (x : Field) (v : Nat) : (c.setF x v).mems = c.mems := (rfl)
@[simp] theorem Chip.setF_radio (x : Field) (v : Nat) : (c.setF x v).radio = c.radio := (rfl)
@[simp] theorem Chip.setF_sec (x : Field) (v : Nat) : (c.setF x v).sec = c.sec := (rfl)
@[simp] theorem Chip.setF_upd (x : Field) (v : Nat) : (c.setF x v).upd = c.upd := (rfl)
@[simp] theorem Chip.setF_mbx (x : Field) (v : Nat) : (c.setF x v).mbx = c.mbx := (rfl)
@[simp] theorem Chip.setF_gang (x : Field) (v : Nat) : (c.setF x v).gang = c.gang := (rfl)
@[simp] theorem Chip.setF_remash (x : Field) (v : Nat) : (c.setF x v).remash = c.remash := (rfl)
@[simp] theorem Chip.setF_uart (x : Field) (v : Nat) : (c.setF x v).uart = c.uart := (rfl)
@[simp] theorem Chip.setF_scan (x : Field) (v : Nat) : (c.setF x v).scan = c.scan := (rfl)
@[simp] theorem Chip.setF_qspiReject (x : Field) (v : Nat) : (c.setF x v).qspiReject = c.qspiReject := (rfl)
@[simp] theorem Chip.setF_msix (x : Field) (v : Nat) : (c.setF x v).msix = c.msix := (rfl)
@[simp] theorem Chip.setF_recipe (x : Field) (v : Nat) : (c.setF x v).recipe = c.recipe := (rfl)
@[simp] theorem Chip.setF_kept (x : Field) (v : Nat) : (c.setF x v).kept = c.kept := (rfl)

@[simp] theorem Chip.setB_now (x : Field) (v : Bool) : (c.setB x v).now = c.now := (rfl)
@[simp] theorem Chip.setB_free (x : Field) (v : Bool) : (c.setB x v).free = c.free := (rfl)
@[simp] theorem Chip.setB_out (x : Field) (v : Bool) : (c.setB x v).out = c.out := (rfl)
@[simp] theorem Chip.setB_islands (x : Field) (v : Bool) : (c.setB x v).islands = c.islands := (rfl)
@[simp] theorem Chip.setB_shadows (x : Field) (v : Bool) : (c.setB x v).shadows = c.shadows := (rfl)
@[simp] theorem Chip.setB_pins (x : Field) (v : Bool) : (c.setB x v).pins = c.pins := (rfl)
@[simp] theorem Chip.setB_pwr (x : Field) (v : Bool) : (c.setB x v).pwr = c.pwr := (rfl)
@[simp] theorem Chip.setB_rtc (x : Field) (v : Bool) : (c.setB x v).rtc = c.rtc := (rfl)
@[simp] theorem Chip.setB_fab (x : Field) (v : Bool) : (c.setB x v).fab = c.fab := (rfl)
@[simp] theorem Chip.setB_chk (x : Field) (v : Bool) : (c.setB x v).chk = c.chk := (rfl)
@[simp] theorem Chip.setB_core (x : Field) (v : Bool) : (c.setB x v).core = c.core := (rfl)
@[simp] theorem Chip.setB_tk (x : Field) (v : Bool) : (c.setB x v).tk = c.tk := (rfl)
@[simp] theorem Chip.setB_mems (x : Field) (v : Bool) : (c.setB x v).mems = c.mems := (rfl)
@[simp] theorem Chip.setB_radio (x : Field) (v : Bool) : (c.setB x v).radio = c.radio := (rfl)
@[simp] theorem Chip.setB_sec (x : Field) (v : Bool) : (c.setB x v).sec = c.sec := (rfl)
@[simp] theorem Chip.setB_upd (x : Field) (v : Bool) : (c.setB x v).upd = c.upd := (rfl)
@[simp] theorem Chip.setB_mbx (x : Field) (v : Bool) : (c.setB x v).mbx = c.mbx := (rfl)
@[simp] theorem Chip.setB_gang (x : Field) (v : Bool) : (c.setB x v).gang = c.gang := (rfl)
@[simp] theorem Chip.setB_remash (x : Field) (v : Bool) : (c.setB x v).remash = c.remash := (rfl)
@[simp] theorem Chip.setB_uart (x : Field) (v : Bool) : (c.setB x v).uart = c.uart := (rfl)
@[simp] theorem Chip.setB_scan (x : Field) (v : Bool) : (c.setB x v).scan = c.scan := (rfl)
@[simp] theorem Chip.setB_qspiReject (x : Field) (v : Bool) : (c.setB x v).qspiReject = c.qspiReject := (rfl)
@[simp] theorem Chip.setB_msix (x : Field) (v : Bool) : (c.setB x v).msix = c.msix := (rfl)
@[simp] theorem Chip.setB_recipe (x : Field) (v : Bool) : (c.setB x v).recipe = c.recipe := (rfl)
@[simp] theorem Chip.setB_kept (x : Field) (v : Bool) : (c.setB x v).kept = c.kept := (rfl)

@[simp] theorem Chip.bumpBy_now (x : Field) (n : Nat) : (c.bumpBy x n).now = c.now := (rfl)
@[simp] theorem Chip.bumpBy_free (x : Field) (n : Nat) : (c.bumpBy x n).free = c.free := (rfl)
@[simp] theorem Chip.bumpBy_out (x : Field) (n : Nat) : (c.bumpBy x n).out = c.out := (rfl)
@[simp] theorem Chip.bumpBy_islands (x : Field) (n : Nat) : (c.bumpBy x n).islands = c.islands := (rfl)
@[simp] theorem Chip.bumpBy_shadows (x : Field) (n : Nat) : (c.bumpBy x n).shadows = c.shadows := (rfl)
@[simp] theorem Chip.bumpBy_pins (x : Field) (n : Nat) : (c.bumpBy x n).pins = c.pins := (rfl)
@[simp] theorem Chip.bumpBy_pwr (x : Field) (n : Nat) : (c.bumpBy x n).pwr = c.pwr := (rfl)
@[simp] theorem Chip.bumpBy_rtc (x : Field) (n : Nat) : (c.bumpBy x n).rtc = c.rtc := (rfl)
@[simp] theorem Chip.bumpBy_fab (x : Field) (n : Nat) : (c.bumpBy x n).fab = c.fab := (rfl)
@[simp] theorem Chip.bumpBy_chk (x : Field) (n : Nat) : (c.bumpBy x n).chk = c.chk := (rfl)
@[simp] theorem Chip.bumpBy_core (x : Field) (n : Nat) : (c.bumpBy x n).core = c.core := (rfl)
@[simp] theorem Chip.bumpBy_tk (x : Field) (n : Nat) : (c.bumpBy x n).tk = c.tk := (rfl)
@[simp] theorem Chip.bumpBy_mems (x : Field) (n : Nat) : (c.bumpBy x n).mems = c.mems := (rfl)
@[simp] theorem Chip.bumpBy_radio (x : Field) (n : Nat) : (c.bumpBy x n).radio = c.radio := (rfl)
@[simp] theorem Chip.bumpBy_sec (x : Field) (n : Nat) : (c.bumpBy x n).sec = c.sec := (rfl)
@[simp] theorem Chip.bumpBy_upd (x : Field) (n : Nat) : (c.bumpBy x n).upd = c.upd := (rfl)
@[simp] theorem Chip.bumpBy_mbx (x : Field) (n : Nat) : (c.bumpBy x n).mbx = c.mbx := (rfl)
@[simp] theorem Chip.bumpBy_gang (x : Field) (n : Nat) : (c.bumpBy x n).gang = c.gang := (rfl)
@[simp] theorem Chip.bumpBy_remash (x : Field) (n : Nat) : (c.bumpBy x n).remash = c.remash := (rfl)
@[simp] theorem Chip.bumpBy_uart (x : Field) (n : Nat) : (c.bumpBy x n).uart = c.uart := (rfl)
@[simp] theorem Chip.bumpBy_scan (x : Field) (n : Nat) : (c.bumpBy x n).scan = c.scan := (rfl)
@[simp] theorem Chip.bumpBy_qspiReject (x : Field) (n : Nat) : (c.bumpBy x n).qspiReject = c.qspiReject := (rfl)
@[simp] theorem Chip.bumpBy_msix (x : Field) (n : Nat) : (c.bumpBy x n).msix = c.msix := (rfl)
@[simp] theorem Chip.bumpBy_recipe (x : Field) (n : Nat) : (c.bumpBy x n).recipe = c.recipe := (rfl)
@[simp] theorem Chip.bumpBy_kept (x : Field) (n : Nat) : (c.bumpBy x n).kept = c.kept := (rfl)

@[simp] theorem Chip.bump_now (x : Field) : (c.bump x).now = c.now := by unfold Chip.bump; split <;> rfl
@[simp] theorem Chip.bump_free (x : Field) : (c.bump x).free = c.free := by unfold Chip.bump; split <;> rfl
@[simp] theorem Chip.bump_out (x : Field) : (c.bump x).out = c.out := by unfold Chip.bump; split <;> rfl
@[simp] theorem Chip.bump_islands (x : Field) : (c.bump x).islands = c.islands := by unfold Chip.bump; split <;> rfl
@[simp] theorem Chip.bump_shadows (x : Field) : (c.bump x).shadows = c.shadows := by unfold Chip.bump; split <;> rfl
@[simp] theorem Chip.bump_pins (x : Field) : (c.bump x).pins = c.pins := by unfold Chip.bump; split <;> rfl
@[simp] theorem Chip.bump_pwr (x : Field) : (c.bump x).pwr = c.pwr := by unfold Chip.bump; split <;> rfl
@[simp] theorem Chip.bump_rtc (x : Field) : (c.bump x).rtc = c.rtc := by unfold Chip.bump; split <;> rfl
@[simp] theorem Chip.bump_fab (x : Field) : (c.bump x).fab = c.fab := by unfold Chip.bump; split <;> rfl
@[simp] theorem Chip.bump_chk (x : Field) : (c.bump x).chk = c.chk := by unfold Chip.bump; split <;> rfl
@[simp] theorem Chip.bump_core (x : Field) : (c.bump x).core = c.core := by unfold Chip.bump; split <;> rfl
@[simp] theorem Chip.bump_tk (x : Field) : (c.bump x).tk = c.tk := by unfold Chip.bump; split <;> rfl
@[simp] theorem Chip.bump_mems (x : Field) : (c.bump x).mems = c.mems := by unfold Chip.bump; split <;> rfl
@[simp] theorem Chip.bump_radio (x : Field) : (c.bump x).radio = c.radio := by unfold Chip.bump; split <;> rfl
@[simp] theorem Chip.bump_sec (x : Field) : (c.bump x).sec = c.sec := by unfold Chip.bump; split <;> rfl
@[simp] theorem Chip.bump_upd (x : Field) : (c.bump x).upd = c.upd := by unfold Chip.bump; split <;> rfl
@[simp] theorem Chip.bump_mbx (x : Field) : (c.bump x).mbx = c.mbx := by unfold Chip.bump; split <;> rfl
@[simp] theorem Chip.bump_gang (x : Field) : (c.bump x).gang = c.gang := by unfold Chip.bump; split <;> rfl
@[simp] theorem Chip.bump_remash (x : Field) : (c.bump x).remash = c.remash := by unfold Chip.bump; split <;> rfl
@[simp] theorem Chip.bump_uart (x : Field) : (c.bump x).uart = c.uart := by unfold Chip.bump; split <;> rfl
@[simp] theorem Chip.bump_scan (x : Field) : (c.bump x).scan = c.scan := by unfold Chip.bump; split <;> rfl
@[simp] theorem Chip.bump_qspiReject (x : Field) : (c.bump x).qspiReject = c.qspiReject := by unfold Chip.bump; split <;> rfl
@[simp] theorem Chip.bump_msix (x : Field) : (c.bump x).msix = c.msix := by unfold Chip.bump; split <;> rfl
@[simp] theorem Chip.bump_recipe (x : Field) : (c.bump x).recipe = c.recipe := by unfold Chip.bump; split <;> rfl
@[simp] theorem Chip.bump_kept (x : Field) : (c.bump x).kept = c.kept := by unfold Chip.bump; split <;> rfl

@[simp] theorem Chip.resetRegs_now (i : Island) : (c.resetRegs i).now = c.now := (rfl)
@[simp] theorem Chip.resetRegs_free (i : Island) : (c.resetRegs i).free = c.free := (rfl)
@[simp] theorem Chip.resetRegs_out (i : Island) : (c.resetRegs i).out = c.out := (rfl)
@[simp] theorem Chip.resetRegs_islands (i : Island) : (c.resetRegs i).islands = c.islands := (rfl)
@[simp] theorem Chip.resetRegs_shadows (i : Island) : (c.resetRegs i).shadows = c.shadows := (rfl)
@[simp] theorem Chip.resetRegs_pins (i : Island) : (c.resetRegs i).pins = c.pins := (rfl)
@[simp] theorem Chip.resetRegs_pwr (i : Island) : (c.resetRegs i).pwr = c.pwr := (rfl)
@[simp] theorem Chip.resetRegs_rtc (i : Island) : (c.resetRegs i).rtc = c.rtc := (rfl)
@[simp] theorem Chip.resetRegs_fab (i : Island) : (c.resetRegs i).fab = c.fab := (rfl)
@[simp] theorem Chip.resetRegs_chk (i : Island) : (c.resetRegs i).chk = c.chk := (rfl)
@[simp] theorem Chip.resetRegs_core (i : Island) : (c.resetRegs i).core = c.core := (rfl)
@[simp] theorem Chip.resetRegs_tk (i : Island) : (c.resetRegs i).tk = c.tk := (rfl)
@[simp] theorem Chip.resetRegs_mems (i : Island) : (c.resetRegs i).mems = c.mems := (rfl)
@[simp] theorem Chip.resetRegs_radio (i : Island) : (c.resetRegs i).radio = c.radio := (rfl)
@[simp] theorem Chip.resetRegs_sec (i : Island) : (c.resetRegs i).sec = c.sec := (rfl)
@[simp] theorem Chip.resetRegs_upd (i : Island) : (c.resetRegs i).upd = c.upd := (rfl)
@[simp] theorem Chip.resetRegs_mbx (i : Island) : (c.resetRegs i).mbx = c.mbx := (rfl)
@[simp] theorem Chip.resetRegs_gang (i : Island) : (c.resetRegs i).gang = c.gang := (rfl)
@[simp] theorem Chip.resetRegs_remash (i : Island) : (c.resetRegs i).remash = c.remash := (rfl)
@[simp] theorem Chip.resetRegs_uart (i : Island) : (c.resetRegs i).uart = c.uart := (rfl)
@[simp] theorem Chip.resetRegs_scan (i : Island) : (c.resetRegs i).scan = c.scan := (rfl)
@[simp] theorem Chip.resetRegs_qspiReject (i : Island) : (c.resetRegs i).qspiReject = c.qspiReject := (rfl)
@[simp] theorem Chip.resetRegs_msix (i : Island) : (c.resetRegs i).msix = c.msix := (rfl)
@[simp] theorem Chip.resetRegs_recipe (i : Island) : (c.resetRegs i).recipe = c.recipe := (rfl)
@[simp] theorem Chip.resetRegs_kept (i : Island) : (c.resetRegs i).kept = c.kept := (rfl)

@[simp] theorem Chip.setIsland_now (i : Island) (x : IslandState) : (c.setIsland i x).now = c.now := (rfl)
@[simp] theorem Chip.setIsland_free (i : Island) (x : IslandState) : (c.setIsland i x).free = c.free := (rfl)
@[simp] theorem Chip.setIsland_out (i : Island) (x : IslandState) : (c.setIsland i x).out = c.out := (rfl)
@[simp] theorem Chip.setIsland_regs (i : Island) (x : IslandState) : (c.setIsland i x).regs = c.regs := (rfl)
@[simp] theorem Chip.setIsland_shadows (i : Island) (x : IslandState) : (c.setIsland i x).shadows = c.shadows := (rfl)
@[simp] theorem Chip.setIsland_pins (i : Island) (x : IslandState) : (c.setIsland i x).pins = c.pins := (rfl)
@[simp] theorem Chip.setIsland_pwr (i : Island) (x : IslandState) : (c.setIsland i x).pwr = c.pwr := (rfl)
@[simp] theorem Chip.setIsland_rtc (i : Island) (x : IslandState) : (c.setIsland i x).rtc = c.rtc := (rfl)
@[simp] theorem Chip.setIsland_fab (i : Island) (x : IslandState) : (c.setIsland i x).fab = c.fab := (rfl)
@[simp] theorem Chip.setIsland_chk (i : Island) (x : IslandState) : (c.setIsland i x).chk = c.chk := (rfl)
@[simp] theorem Chip.setIsland_core (i : Island) (x : IslandState) : (c.setIsland i x).core = c.core := (rfl)
@[simp] theorem Chip.setIsland_tk (i : Island) (x : IslandState) : (c.setIsland i x).tk = c.tk := (rfl)
@[simp] theorem Chip.setIsland_mems (i : Island) (x : IslandState) : (c.setIsland i x).mems = c.mems := (rfl)
@[simp] theorem Chip.setIsland_radio (i : Island) (x : IslandState) : (c.setIsland i x).radio = c.radio := (rfl)
@[simp] theorem Chip.setIsland_sec (i : Island) (x : IslandState) : (c.setIsland i x).sec = c.sec := (rfl)
@[simp] theorem Chip.setIsland_upd (i : Island) (x : IslandState) : (c.setIsland i x).upd = c.upd := (rfl)
@[simp] theorem Chip.setIsland_mbx (i : Island) (x : IslandState) : (c.setIsland i x).mbx = c.mbx := (rfl)
@[simp] theorem Chip.setIsland_gang (i : Island) (x : IslandState) : (c.setIsland i x).gang = c.gang := (rfl)
@[simp] theorem Chip.setIsland_remash (i : Island) (x : IslandState) : (c.setIsland i x).remash = c.remash := (rfl)
@[simp] theorem Chip.setIsland_uart (i : Island) (x : IslandState) : (c.setIsland i x).uart = c.uart := (rfl)
@[simp] theorem Chip.setIsland_scan (i : Island) (x : IslandState) : (c.setIsland i x).scan = c.scan := (rfl)
@[simp] theorem Chip.setIsland_qspiReject (i : Island) (x : IslandState) : (c.setIsland i x).qspiReject = c.qspiReject := (rfl)
@[simp] theorem Chip.setIsland_msix (i : Island) (x : IslandState) : (c.setIsland i x).msix = c.msix := (rfl)
@[simp] theorem Chip.setIsland_recipe (i : Island) (x : IslandState) : (c.setIsland i x).recipe = c.recipe := (rfl)
@[simp] theorem Chip.setIsland_kept (i : Island) (x : IslandState) : (c.setIsland i x).kept = c.kept := (rfl)

@[simp] theorem Chip.setPin_now (p : Nat) (v : Bool) : (c.setPin p v).now = c.now := (rfl)
@[simp] theorem Chip.setPin_free (p : Nat) (v : Bool) : (c.setPin p v).free = c.free := (rfl)
@[simp] theorem Chip.setPin_out (p : Nat) (v : Bool) : (c.setPin p v).out = c.out := (rfl)
@[simp] theorem Chip.setPin_islands (p : Nat) (v : Bool) : (c.setPin p v).islands = c.islands := (rfl)
@[simp] theorem Chip.setPin_regs (p : Nat) (v : Bool) : (c.setPin p v).regs = c.regs := (rfl)
@[simp] theorem Chip.setPin_shadows (p : Nat) (v : Bool) : (c.setPin p v).shadows = c.shadows := (rfl)
@[simp] theorem Chip.setPin_pwr (p : Nat) (v : Bool) : (c.setPin p v).pwr = c.pwr := (rfl)
@[simp] theorem Chip.setPin_rtc (p : Nat) (v : Bool) : (c.setPin p v).rtc = c.rtc := (rfl)
@[simp] theorem Chip.setPin_fab (p : Nat) (v : Bool) : (c.setPin p v).fab = c.fab := (rfl)
@[simp] theorem Chip.setPin_chk (p : Nat) (v : Bool) : (c.setPin p v).chk = c.chk := (rfl)
@[simp] theorem Chip.setPin_core (p : Nat) (v : Bool) : (c.setPin p v).core = c.core := (rfl)
@[simp] theorem Chip.setPin_tk (p : Nat) (v : Bool) : (c.setPin p v).tk = c.tk := (rfl)
@[simp] theorem Chip.setPin_mems (p : Nat) (v : Bool) : (c.setPin p v).mems = c.mems := (rfl)
@[simp] theorem Chip.setPin_radio (p : Nat) (v : Bool) : (c.setPin p v).radio = c.radio := (rfl)
@[simp] theorem Chip.setPin_sec (p : Nat) (v : Bool) : (c.setPin p v).sec = c.sec := (rfl)
@[simp] theorem Chip.setPin_upd (p : Nat) (v : Bool) : (c.setPin p v).upd = c.upd := (rfl)
@[simp] theorem Chip.setPin_mbx (p : Nat) (v : Bool) : (c.setPin p v).mbx = c.mbx := (rfl)
@[simp] theorem Chip.setPin_gang (p : Nat) (v : Bool) : (c.setPin p v).gang = c.gang := (rfl)
@[simp] theorem Chip.setPin_remash (p : Nat) (v : Bool) : (c.setPin p v).remash = c.remash := (rfl)
@[simp] theorem Chip.setPin_uart (p : Nat) (v : Bool) : (c.setPin p v).uart = c.uart := (rfl)
@[simp] theorem Chip.setPin_scan (p : Nat) (v : Bool) : (c.setPin p v).scan = c.scan := (rfl)
@[simp] theorem Chip.setPin_qspiReject (p : Nat) (v : Bool) : (c.setPin p v).qspiReject = c.qspiReject := (rfl)
@[simp] theorem Chip.setPin_msix (p : Nat) (v : Bool) : (c.setPin p v).msix = c.msix := (rfl)
@[simp] theorem Chip.setPin_recipe (p : Nat) (v : Bool) : (c.setPin p v).recipe = c.recipe := (rfl)
@[simp] theorem Chip.setPin_kept (p : Nat) (v : Bool) : (c.setPin p v).kept = c.kept := (rfl)

@[simp] theorem Chip.reply_now (ws : List Word) : (c.reply ws).now = c.now := (rfl)
@[simp] theorem Chip.reply_free (ws : List Word) : (c.reply ws).free = c.free := (rfl)
@[simp] theorem Chip.reply_islands (ws : List Word) : (c.reply ws).islands = c.islands := (rfl)
@[simp] theorem Chip.reply_regs (ws : List Word) : (c.reply ws).regs = c.regs := (rfl)
@[simp] theorem Chip.reply_shadows (ws : List Word) : (c.reply ws).shadows = c.shadows := (rfl)
@[simp] theorem Chip.reply_pins (ws : List Word) : (c.reply ws).pins = c.pins := (rfl)
@[simp] theorem Chip.reply_pwr (ws : List Word) : (c.reply ws).pwr = c.pwr := (rfl)
@[simp] theorem Chip.reply_rtc (ws : List Word) : (c.reply ws).rtc = c.rtc := (rfl)
@[simp] theorem Chip.reply_fab (ws : List Word) : (c.reply ws).fab = c.fab := (rfl)
@[simp] theorem Chip.reply_chk (ws : List Word) : (c.reply ws).chk = c.chk := (rfl)
@[simp] theorem Chip.reply_core (ws : List Word) : (c.reply ws).core = c.core := (rfl)
@[simp] theorem Chip.reply_tk (ws : List Word) : (c.reply ws).tk = c.tk := (rfl)
@[simp] theorem Chip.reply_mems (ws : List Word) : (c.reply ws).mems = c.mems := (rfl)
@[simp] theorem Chip.reply_radio (ws : List Word) : (c.reply ws).radio = c.radio := (rfl)
@[simp] theorem Chip.reply_sec (ws : List Word) : (c.reply ws).sec = c.sec := (rfl)
@[simp] theorem Chip.reply_upd (ws : List Word) : (c.reply ws).upd = c.upd := (rfl)
@[simp] theorem Chip.reply_mbx (ws : List Word) : (c.reply ws).mbx = c.mbx := (rfl)
@[simp] theorem Chip.reply_gang (ws : List Word) : (c.reply ws).gang = c.gang := (rfl)
@[simp] theorem Chip.reply_remash (ws : List Word) : (c.reply ws).remash = c.remash := (rfl)
@[simp] theorem Chip.reply_uart (ws : List Word) : (c.reply ws).uart = c.uart := (rfl)
@[simp] theorem Chip.reply_scan (ws : List Word) : (c.reply ws).scan = c.scan := (rfl)
@[simp] theorem Chip.reply_qspiReject (ws : List Word) : (c.reply ws).qspiReject = c.qspiReject := (rfl)
@[simp] theorem Chip.reply_msix (ws : List Word) : (c.reply ws).msix = c.msix := (rfl)
@[simp] theorem Chip.reply_recipe (ws : List Word) : (c.reply ws).recipe = c.recipe := (rfl)
@[simp] theorem Chip.reply_kept (ws : List Word) : (c.reply ws).kept = c.kept := (rfl)

@[simp] theorem Chip.onRadio_now (g : Radio → Radio) : (c.onRadio g).now = c.now := (rfl)
@[simp] theorem Chip.onRadio_free (g : Radio → Radio) : (c.onRadio g).free = c.free := (rfl)
@[simp] theorem Chip.onRadio_out (g : Radio → Radio) : (c.onRadio g).out = c.out := (rfl)
@[simp] theorem Chip.onRadio_islands (g : Radio → Radio) : (c.onRadio g).islands = c.islands := (rfl)
@[simp] theorem Chip.onRadio_regs (g : Radio → Radio) : (c.onRadio g).regs = c.regs := (rfl)
@[simp] theorem Chip.onRadio_shadows (g : Radio → Radio) : (c.onRadio g).shadows = c.shadows := (rfl)
@[simp] theorem Chip.onRadio_pins (g : Radio → Radio) : (c.onRadio g).pins = c.pins := (rfl)
@[simp] theorem Chip.onRadio_pwr (g : Radio → Radio) : (c.onRadio g).pwr = c.pwr := (rfl)
@[simp] theorem Chip.onRadio_rtc (g : Radio → Radio) : (c.onRadio g).rtc = c.rtc := (rfl)
@[simp] theorem Chip.onRadio_fab (g : Radio → Radio) : (c.onRadio g).fab = c.fab := (rfl)
@[simp] theorem Chip.onRadio_chk (g : Radio → Radio) : (c.onRadio g).chk = c.chk := (rfl)
@[simp] theorem Chip.onRadio_core (g : Radio → Radio) : (c.onRadio g).core = c.core := (rfl)
@[simp] theorem Chip.onRadio_tk (g : Radio → Radio) : (c.onRadio g).tk = c.tk := (rfl)
@[simp] theorem Chip.onRadio_mems (g : Radio → Radio) : (c.onRadio g).mems = c.mems := (rfl)
@[simp] theorem Chip.onRadio_sec (g : Radio → Radio) : (c.onRadio g).sec = c.sec := (rfl)
@[simp] theorem Chip.onRadio_upd (g : Radio → Radio) : (c.onRadio g).upd = c.upd := (rfl)
@[simp] theorem Chip.onRadio_mbx (g : Radio → Radio) : (c.onRadio g).mbx = c.mbx := (rfl)
@[simp] theorem Chip.onRadio_gang (g : Radio → Radio) : (c.onRadio g).gang = c.gang := (rfl)
@[simp] theorem Chip.onRadio_remash (g : Radio → Radio) : (c.onRadio g).remash = c.remash := (rfl)
@[simp] theorem Chip.onRadio_uart (g : Radio → Radio) : (c.onRadio g).uart = c.uart := (rfl)
@[simp] theorem Chip.onRadio_scan (g : Radio → Radio) : (c.onRadio g).scan = c.scan := (rfl)
@[simp] theorem Chip.onRadio_qspiReject (g : Radio → Radio) : (c.onRadio g).qspiReject = c.qspiReject := (rfl)
@[simp] theorem Chip.onRadio_msix (g : Radio → Radio) : (c.onRadio g).msix = c.msix := (rfl)
@[simp] theorem Chip.onRadio_recipe (g : Radio → Radio) : (c.onRadio g).recipe = c.recipe := (rfl)
@[simp] theorem Chip.onRadio_kept (g : Radio → Radio) : (c.onRadio g).kept = c.kept := (rfl)

@[simp] theorem Chip.onMems_now (g : Mems → Mems) : (c.onMems g).now = c.now := (rfl)
@[simp] theorem Chip.onMems_free (g : Mems → Mems) : (c.onMems g).free = c.free := (rfl)
@[simp] theorem Chip.onMems_out (g : Mems → Mems) : (c.onMems g).out = c.out := (rfl)
@[simp] theorem Chip.onMems_islands (g : Mems → Mems) : (c.onMems g).islands = c.islands := (rfl)
@[simp] theorem Chip.onMems_regs (g : Mems → Mems) : (c.onMems g).regs = c.regs := (rfl)
@[simp] theorem Chip.onMems_shadows (g : Mems → Mems) : (c.onMems g).shadows = c.shadows := (rfl)
@[simp] theorem Chip.onMems_pins (g : Mems → Mems) : (c.onMems g).pins = c.pins := (rfl)
@[simp] theorem Chip.onMems_pwr (g : Mems → Mems) : (c.onMems g).pwr = c.pwr := (rfl)
@[simp] theorem Chip.onMems_rtc (g : Mems → Mems) : (c.onMems g).rtc = c.rtc := (rfl)
@[simp] theorem Chip.onMems_fab (g : Mems → Mems) : (c.onMems g).fab = c.fab := (rfl)
@[simp] theorem Chip.onMems_chk (g : Mems → Mems) : (c.onMems g).chk = c.chk := (rfl)
@[simp] theorem Chip.onMems_core (g : Mems → Mems) : (c.onMems g).core = c.core := (rfl)
@[simp] theorem Chip.onMems_tk (g : Mems → Mems) : (c.onMems g).tk = c.tk := (rfl)
@[simp] theorem Chip.onMems_radio (g : Mems → Mems) : (c.onMems g).radio = c.radio := (rfl)
@[simp] theorem Chip.onMems_sec (g : Mems → Mems) : (c.onMems g).sec = c.sec := (rfl)
@[simp] theorem Chip.onMems_upd (g : Mems → Mems) : (c.onMems g).upd = c.upd := (rfl)
@[simp] theorem Chip.onMems_mbx (g : Mems → Mems) : (c.onMems g).mbx = c.mbx := (rfl)
@[simp] theorem Chip.onMems_gang (g : Mems → Mems) : (c.onMems g).gang = c.gang := (rfl)
@[simp] theorem Chip.onMems_remash (g : Mems → Mems) : (c.onMems g).remash = c.remash := (rfl)
@[simp] theorem Chip.onMems_uart (g : Mems → Mems) : (c.onMems g).uart = c.uart := (rfl)
@[simp] theorem Chip.onMems_scan (g : Mems → Mems) : (c.onMems g).scan = c.scan := (rfl)
@[simp] theorem Chip.onMems_qspiReject (g : Mems → Mems) : (c.onMems g).qspiReject = c.qspiReject := (rfl)
@[simp] theorem Chip.onMems_msix (g : Mems → Mems) : (c.onMems g).msix = c.msix := (rfl)
@[simp] theorem Chip.onMems_recipe (g : Mems → Mems) : (c.onMems g).recipe = c.recipe := (rfl)
@[simp] theorem Chip.onMems_kept (g : Mems → Mems) : (c.onMems g).kept = c.kept := (rfl)

@[simp] theorem Chip.onSec_now (g : Sec → Sec) : (c.onSec g).now = c.now := (rfl)
@[simp] theorem Chip.onSec_free (g : Sec → Sec) : (c.onSec g).free = c.free := (rfl)
@[simp] theorem Chip.onSec_out (g : Sec → Sec) : (c.onSec g).out = c.out := (rfl)
@[simp] theorem Chip.onSec_islands (g : Sec → Sec) : (c.onSec g).islands = c.islands := (rfl)
@[simp] theorem Chip.onSec_regs (g : Sec → Sec) : (c.onSec g).regs = c.regs := (rfl)
@[simp] theorem Chip.onSec_shadows (g : Sec → Sec) : (c.onSec g).shadows = c.shadows := (rfl)
@[simp] theorem Chip.onSec_pins (g : Sec → Sec) : (c.onSec g).pins = c.pins := (rfl)
@[simp] theorem Chip.onSec_pwr (g : Sec → Sec) : (c.onSec g).pwr = c.pwr := (rfl)
@[simp] theorem Chip.onSec_rtc (g : Sec → Sec) : (c.onSec g).rtc = c.rtc := (rfl)
@[simp] theorem Chip.onSec_fab (g : Sec → Sec) : (c.onSec g).fab = c.fab := (rfl)
@[simp] theorem Chip.onSec_chk (g : Sec → Sec) : (c.onSec g).chk = c.chk := (rfl)
@[simp] theorem Chip.onSec_core (g : Sec → Sec) : (c.onSec g).core = c.core := (rfl)
@[simp] theorem Chip.onSec_tk (g : Sec → Sec) : (c.onSec g).tk = c.tk := (rfl)
@[simp] theorem Chip.onSec_mems (g : Sec → Sec) : (c.onSec g).mems = c.mems := (rfl)
@[simp] theorem Chip.onSec_radio (g : Sec → Sec) : (c.onSec g).radio = c.radio := (rfl)
@[simp] theorem Chip.onSec_upd (g : Sec → Sec) : (c.onSec g).upd = c.upd := (rfl)
@[simp] theorem Chip.onSec_mbx (g : Sec → Sec) : (c.onSec g).mbx = c.mbx := (rfl)
@[simp] theorem Chip.onSec_gang (g : Sec → Sec) : (c.onSec g).gang = c.gang := (rfl)
@[simp] theorem Chip.onSec_remash (g : Sec → Sec) : (c.onSec g).remash = c.remash := (rfl)
@[simp] theorem Chip.onSec_uart (g : Sec → Sec) : (c.onSec g).uart = c.uart := (rfl)
@[simp] theorem Chip.onSec_scan (g : Sec → Sec) : (c.onSec g).scan = c.scan := (rfl)
@[simp] theorem Chip.onSec_qspiReject (g : Sec → Sec) : (c.onSec g).qspiReject = c.qspiReject := (rfl)
@[simp] theorem Chip.onSec_msix (g : Sec → Sec) : (c.onSec g).msix = c.msix := (rfl)
@[simp] theorem Chip.onSec_recipe (g : Sec → Sec) : (c.onSec g).recipe = c.recipe := (rfl)
@[simp] theorem Chip.onSec_kept (g : Sec → Sec) : (c.onSec g).kept = c.kept := (rfl)

@[simp] theorem Chip.onPwr_now (g : Pwr → Pwr) : (c.onPwr g).now = c.now := (rfl)
@[simp] theorem Chip.onPwr_free (g : Pwr → Pwr) : (c.onPwr g).free = c.free := (rfl)
@[simp] theorem Chip.onPwr_out (g : Pwr → Pwr) : (c.onPwr g).out = c.out := (rfl)
@[simp] theorem Chip.onPwr_islands (g : Pwr → Pwr) : (c.onPwr g).islands = c.islands := (rfl)
@[simp] theorem Chip.onPwr_regs (g : Pwr → Pwr) : (c.onPwr g).regs = c.regs := (rfl)
@[simp] theorem Chip.onPwr_shadows (g : Pwr → Pwr) : (c.onPwr g).shadows = c.shadows := (rfl)
@[simp] theorem Chip.onPwr_pins (g : Pwr → Pwr) : (c.onPwr g).pins = c.pins := (rfl)
@[simp] theorem Chip.onPwr_rtc (g : Pwr → Pwr) : (c.onPwr g).rtc = c.rtc := (rfl)
@[simp] theorem Chip.onPwr_fab (g : Pwr → Pwr) : (c.onPwr g).fab = c.fab := (rfl)
@[simp] theorem Chip.onPwr_chk (g : Pwr → Pwr) : (c.onPwr g).chk = c.chk := (rfl)
@[simp] theorem Chip.onPwr_core (g : Pwr → Pwr) : (c.onPwr g).core = c.core := (rfl)
@[simp] theorem Chip.onPwr_tk (g : Pwr → Pwr) : (c.onPwr g).tk = c.tk := (rfl)
@[simp] theorem Chip.onPwr_mems (g : Pwr → Pwr) : (c.onPwr g).mems = c.mems := (rfl)
@[simp] theorem Chip.onPwr_radio (g : Pwr → Pwr) : (c.onPwr g).radio = c.radio := (rfl)
@[simp] theorem Chip.onPwr_sec (g : Pwr → Pwr) : (c.onPwr g).sec = c.sec := (rfl)
@[simp] theorem Chip.onPwr_upd (g : Pwr → Pwr) : (c.onPwr g).upd = c.upd := (rfl)
@[simp] theorem Chip.onPwr_mbx (g : Pwr → Pwr) : (c.onPwr g).mbx = c.mbx := (rfl)
@[simp] theorem Chip.onPwr_gang (g : Pwr → Pwr) : (c.onPwr g).gang = c.gang := (rfl)
@[simp] theorem Chip.onPwr_remash (g : Pwr → Pwr) : (c.onPwr g).remash = c.remash := (rfl)
@[simp] theorem Chip.onPwr_uart (g : Pwr → Pwr) : (c.onPwr g).uart = c.uart := (rfl)
@[simp] theorem Chip.onPwr_scan (g : Pwr → Pwr) : (c.onPwr g).scan = c.scan := (rfl)
@[simp] theorem Chip.onPwr_qspiReject (g : Pwr → Pwr) : (c.onPwr g).qspiReject = c.qspiReject := (rfl)
@[simp] theorem Chip.onPwr_msix (g : Pwr → Pwr) : (c.onPwr g).msix = c.msix := (rfl)
@[simp] theorem Chip.onPwr_recipe (g : Pwr → Pwr) : (c.onPwr g).recipe = c.recipe := (rfl)
@[simp] theorem Chip.onPwr_kept (g : Pwr → Pwr) : (c.onPwr g).kept = c.kept := (rfl)

@[simp] theorem Chip.onGang_now (g : Gang → Gang) : (c.onGang g).now = c.now := (rfl)
@[simp] theorem Chip.onGang_free (g : Gang → Gang) : (c.onGang g).free = c.free := (rfl)
@[simp] theorem Chip.onGang_out (g : Gang → Gang) : (c.onGang g).out = c.out := (rfl)
@[simp] theorem Chip.onGang_islands (g : Gang → Gang) : (c.onGang g).islands = c.islands := (rfl)
@[simp] theorem Chip.onGang_regs (g : Gang → Gang) : (c.onGang g).regs = c.regs := (rfl)
@[simp] theorem Chip.onGang_shadows (g : Gang → Gang) : (c.onGang g).shadows = c.shadows := (rfl)
@[simp] theorem Chip.onGang_pins (g : Gang → Gang) : (c.onGang g).pins = c.pins := (rfl)
@[simp] theorem Chip.onGang_pwr (g : Gang → Gang) : (c.onGang g).pwr = c.pwr := (rfl)
@[simp] theorem Chip.onGang_rtc (g : Gang → Gang) : (c.onGang g).rtc = c.rtc := (rfl)
@[simp] theorem Chip.onGang_fab (g : Gang → Gang) : (c.onGang g).fab = c.fab := (rfl)
@[simp] theorem Chip.onGang_chk (g : Gang → Gang) : (c.onGang g).chk = c.chk := (rfl)
@[simp] theorem Chip.onGang_core (g : Gang → Gang) : (c.onGang g).core = c.core := (rfl)
@[simp] theorem Chip.onGang_tk (g : Gang → Gang) : (c.onGang g).tk = c.tk := (rfl)
@[simp] theorem Chip.onGang_mems (g : Gang → Gang) : (c.onGang g).mems = c.mems := (rfl)
@[simp] theorem Chip.onGang_radio (g : Gang → Gang) : (c.onGang g).radio = c.radio := (rfl)
@[simp] theorem Chip.onGang_sec (g : Gang → Gang) : (c.onGang g).sec = c.sec := (rfl)
@[simp] theorem Chip.onGang_upd (g : Gang → Gang) : (c.onGang g).upd = c.upd := (rfl)
@[simp] theorem Chip.onGang_mbx (g : Gang → Gang) : (c.onGang g).mbx = c.mbx := (rfl)
@[simp] theorem Chip.onGang_remash (g : Gang → Gang) : (c.onGang g).remash = c.remash := (rfl)
@[simp] theorem Chip.onGang_uart (g : Gang → Gang) : (c.onGang g).uart = c.uart := (rfl)
@[simp] theorem Chip.onGang_scan (g : Gang → Gang) : (c.onGang g).scan = c.scan := (rfl)
@[simp] theorem Chip.onGang_qspiReject (g : Gang → Gang) : (c.onGang g).qspiReject = c.qspiReject := (rfl)
@[simp] theorem Chip.onGang_msix (g : Gang → Gang) : (c.onGang g).msix = c.msix := (rfl)
@[simp] theorem Chip.onGang_recipe (g : Gang → Gang) : (c.onGang g).recipe = c.recipe := (rfl)
@[simp] theorem Chip.onGang_kept (g : Gang → Gang) : (c.onGang g).kept = c.kept := (rfl)

@[simp] theorem Chip.onTk_now (g : Tickets → Tickets) : (c.onTk g).now = c.now := (rfl)
@[simp] theorem Chip.onTk_free (g : Tickets → Tickets) : (c.onTk g).free = c.free := (rfl)
@[simp] theorem Chip.onTk_out (g : Tickets → Tickets) : (c.onTk g).out = c.out := (rfl)
@[simp] theorem Chip.onTk_islands (g : Tickets → Tickets) : (c.onTk g).islands = c.islands := (rfl)
@[simp] theorem Chip.onTk_regs (g : Tickets → Tickets) : (c.onTk g).regs = c.regs := (rfl)
@[simp] theorem Chip.onTk_shadows (g : Tickets → Tickets) : (c.onTk g).shadows = c.shadows := (rfl)
@[simp] theorem Chip.onTk_pins (g : Tickets → Tickets) : (c.onTk g).pins = c.pins := (rfl)
@[simp] theorem Chip.onTk_pwr (g : Tickets → Tickets) : (c.onTk g).pwr = c.pwr := (rfl)
@[simp] theorem Chip.onTk_rtc (g : Tickets → Tickets) : (c.onTk g).rtc = c.rtc := (rfl)
@[simp] theorem Chip.onTk_fab (g : Tickets → Tickets) : (c.onTk g).fab = c.fab := (rfl)
@[simp] theorem Chip.onTk_chk (g : Tickets → Tickets) : (c.onTk g).chk = c.chk := (rfl)
@[simp] theorem Chip.onTk_core (g : Tickets → Tickets) : (c.onTk g).core = c.core := (rfl)
@[simp] theorem Chip.onTk_mems (g : Tickets → Tickets) : (c.onTk g).mems = c.mems := (rfl)
@[simp] theorem Chip.onTk_radio (g : Tickets → Tickets) : (c.onTk g).radio = c.radio := (rfl)
@[simp] theorem Chip.onTk_sec (g : Tickets → Tickets) : (c.onTk g).sec = c.sec := (rfl)
@[simp] theorem Chip.onTk_upd (g : Tickets → Tickets) : (c.onTk g).upd = c.upd := (rfl)
@[simp] theorem Chip.onTk_mbx (g : Tickets → Tickets) : (c.onTk g).mbx = c.mbx := (rfl)
@[simp] theorem Chip.onTk_gang (g : Tickets → Tickets) : (c.onTk g).gang = c.gang := (rfl)
@[simp] theorem Chip.onTk_remash (g : Tickets → Tickets) : (c.onTk g).remash = c.remash := (rfl)
@[simp] theorem Chip.onTk_uart (g : Tickets → Tickets) : (c.onTk g).uart = c.uart := (rfl)
@[simp] theorem Chip.onTk_scan (g : Tickets → Tickets) : (c.onTk g).scan = c.scan := (rfl)
@[simp] theorem Chip.onTk_qspiReject (g : Tickets → Tickets) : (c.onTk g).qspiReject = c.qspiReject := (rfl)
@[simp] theorem Chip.onTk_msix (g : Tickets → Tickets) : (c.onTk g).msix = c.msix := (rfl)
@[simp] theorem Chip.onTk_recipe (g : Tickets → Tickets) : (c.onTk g).recipe = c.recipe := (rfl)
@[simp] theorem Chip.onTk_kept (g : Tickets → Tickets) : (c.onTk g).kept = c.kept := (rfl)

@[simp] theorem Chip.onFab_now (g : Fabric → Fabric) : (c.onFab g).now = c.now := (rfl)
@[simp] theorem Chip.onFab_free (g : Fabric → Fabric) : (c.onFab g).free = c.free := (rfl)
@[simp] theorem Chip.onFab_out (g : Fabric → Fabric) : (c.onFab g).out = c.out := (rfl)
@[simp] theorem Chip.onFab_islands (g : Fabric → Fabric) : (c.onFab g).islands = c.islands := (rfl)
@[simp] theorem Chip.onFab_regs (g : Fabric → Fabric) : (c.onFab g).regs = c.regs := (rfl)
@[simp] theorem Chip.onFab_shadows (g : Fabric → Fabric) : (c.onFab g).shadows = c.shadows := (rfl)
@[simp] theorem Chip.onFab_pins (g : Fabric → Fabric) : (c.onFab g).pins = c.pins := (rfl)
@[simp] theorem Chip.onFab_pwr (g : Fabric → Fabric) : (c.onFab g).pwr = c.pwr := (rfl)
@[simp] theorem Chip.onFab_rtc (g : Fabric → Fabric) : (c.onFab g).rtc = c.rtc := (rfl)
@[simp] theorem Chip.onFab_chk (g : Fabric → Fabric) : (c.onFab g).chk = c.chk := (rfl)
@[simp] theorem Chip.onFab_core (g : Fabric → Fabric) : (c.onFab g).core = c.core := (rfl)
@[simp] theorem Chip.onFab_tk (g : Fabric → Fabric) : (c.onFab g).tk = c.tk := (rfl)
@[simp] theorem Chip.onFab_mems (g : Fabric → Fabric) : (c.onFab g).mems = c.mems := (rfl)
@[simp] theorem Chip.onFab_radio (g : Fabric → Fabric) : (c.onFab g).radio = c.radio := (rfl)
@[simp] theorem Chip.onFab_sec (g : Fabric → Fabric) : (c.onFab g).sec = c.sec := (rfl)
@[simp] theorem Chip.onFab_upd (g : Fabric → Fabric) : (c.onFab g).upd = c.upd := (rfl)
@[simp] theorem Chip.onFab_mbx (g : Fabric → Fabric) : (c.onFab g).mbx = c.mbx := (rfl)
@[simp] theorem Chip.onFab_gang (g : Fabric → Fabric) : (c.onFab g).gang = c.gang := (rfl)
@[simp] theorem Chip.onFab_remash (g : Fabric → Fabric) : (c.onFab g).remash = c.remash := (rfl)
@[simp] theorem Chip.onFab_uart (g : Fabric → Fabric) : (c.onFab g).uart = c.uart := (rfl)
@[simp] theorem Chip.onFab_scan (g : Fabric → Fabric) : (c.onFab g).scan = c.scan := (rfl)
@[simp] theorem Chip.onFab_qspiReject (g : Fabric → Fabric) : (c.onFab g).qspiReject = c.qspiReject := (rfl)
@[simp] theorem Chip.onFab_msix (g : Fabric → Fabric) : (c.onFab g).msix = c.msix := (rfl)
@[simp] theorem Chip.onFab_recipe (g : Fabric → Fabric) : (c.onFab g).recipe = c.recipe := (rfl)
@[simp] theorem Chip.onFab_kept (g : Fabric → Fabric) : (c.onFab g).kept = c.kept := (rfl)

@[simp] theorem Chip.fire_now (n : Nat) (p : Option Nat) (k : Nat) : (c.fire n p k).now = c.now := by unfold Chip.fire; split <;> rfl
@[simp] theorem Chip.fire_free (n : Nat) (p : Option Nat) (k : Nat) : (c.fire n p k).free = c.free := by unfold Chip.fire; split <;> rfl
@[simp] theorem Chip.fire_out (n : Nat) (p : Option Nat) (k : Nat) : (c.fire n p k).out = c.out := by unfold Chip.fire; split <;> rfl
@[simp] theorem Chip.fire_islands (n : Nat) (p : Option Nat) (k : Nat) : (c.fire n p k).islands = c.islands := by unfold Chip.fire; split <;> rfl
@[simp] theorem Chip.fire_shadows (n : Nat) (p : Option Nat) (k : Nat) : (c.fire n p k).shadows = c.shadows := by unfold Chip.fire; split <;> rfl
@[simp] theorem Chip.fire_pins (n : Nat) (p : Option Nat) (k : Nat) : (c.fire n p k).pins = c.pins := by unfold Chip.fire; split <;> rfl
@[simp] theorem Chip.fire_pwr (n : Nat) (p : Option Nat) (k : Nat) : (c.fire n p k).pwr = c.pwr := by unfold Chip.fire; split <;> rfl
@[simp] theorem Chip.fire_rtc (n : Nat) (p : Option Nat) (k : Nat) : (c.fire n p k).rtc = c.rtc := by unfold Chip.fire; split <;> rfl
@[simp] theorem Chip.fire_chk (n : Nat) (p : Option Nat) (k : Nat) : (c.fire n p k).chk = c.chk := by unfold Chip.fire; split <;> rfl
@[simp] theorem Chip.fire_core (n : Nat) (p : Option Nat) (k : Nat) : (c.fire n p k).core = c.core := by unfold Chip.fire; split <;> rfl
@[simp] theorem Chip.fire_tk (n : Nat) (p : Option Nat) (k : Nat) : (c.fire n p k).tk = c.tk := by unfold Chip.fire; split <;> rfl
@[simp] theorem Chip.fire_mems (n : Nat) (p : Option Nat) (k : Nat) : (c.fire n p k).mems = c.mems := by unfold Chip.fire; split <;> rfl
@[simp] theorem Chip.fire_radio (n : Nat) (p : Option Nat) (k : Nat) : (c.fire n p k).radio = c.radio := by unfold Chip.fire; split <;> rfl
@[simp] theorem Chip.fire_sec (n : Nat) (p : Option Nat) (k : Nat) : (c.fire n p k).sec = c.sec := by unfold Chip.fire; split <;> rfl
@[simp] theorem Chip.fire_upd (n : Nat) (p : Option Nat) (k : Nat) : (c.fire n p k).upd = c.upd := by unfold Chip.fire; split <;> rfl
@[simp] theorem Chip.fire_mbx (n : Nat) (p : Option Nat) (k : Nat) : (c.fire n p k).mbx = c.mbx := by unfold Chip.fire; split <;> rfl
@[simp] theorem Chip.fire_gang (n : Nat) (p : Option Nat) (k : Nat) : (c.fire n p k).gang = c.gang := by unfold Chip.fire; split <;> rfl
@[simp] theorem Chip.fire_remash (n : Nat) (p : Option Nat) (k : Nat) : (c.fire n p k).remash = c.remash := by unfold Chip.fire; split <;> rfl
@[simp] theorem Chip.fire_uart (n : Nat) (p : Option Nat) (k : Nat) : (c.fire n p k).uart = c.uart := by unfold Chip.fire; split <;> rfl
@[simp] theorem Chip.fire_scan (n : Nat) (p : Option Nat) (k : Nat) : (c.fire n p k).scan = c.scan := by unfold Chip.fire; split <;> rfl
@[simp] theorem Chip.fire_qspiReject (n : Nat) (p : Option Nat) (k : Nat) : (c.fire n p k).qspiReject = c.qspiReject := by unfold Chip.fire; split <;> rfl
@[simp] theorem Chip.fire_msix (n : Nat) (p : Option Nat) (k : Nat) : (c.fire n p k).msix = c.msix := by unfold Chip.fire; split <;> rfl
@[simp] theorem Chip.fire_recipe (n : Nat) (p : Option Nat) (k : Nat) : (c.fire n p k).recipe = c.recipe := by unfold Chip.fire; split <;> rfl
@[simp] theorem Chip.fire_kept (n : Nat) (p : Option Nat) (k : Nat) : (c.fire n p k).kept = c.kept := by unfold Chip.fire; split <;> rfl

@[simp] theorem Chip.setFlag_now (a k : Nat) : (c.setFlag a k).now = c.now := by simp only [Chip.setFlag]; split <;> rfl
@[simp] theorem Chip.setFlag_free (a k : Nat) : (c.setFlag a k).free = c.free := by simp only [Chip.setFlag]; split <;> rfl
@[simp] theorem Chip.setFlag_out (a k : Nat) : (c.setFlag a k).out = c.out := by simp only [Chip.setFlag]; split <;> rfl
@[simp] theorem Chip.setFlag_islands (a k : Nat) : (c.setFlag a k).islands = c.islands := by simp only [Chip.setFlag]; split <;> rfl
@[simp] theorem Chip.setFlag_shadows (a k : Nat) : (c.setFlag a k).shadows = c.shadows := by simp only [Chip.setFlag]; split <;> rfl
@[simp] theorem Chip.setFlag_pins (a k : Nat) : (c.setFlag a k).pins = c.pins := by simp only [Chip.setFlag]; split <;> rfl
@[simp] theorem Chip.setFlag_pwr (a k : Nat) : (c.setFlag a k).pwr = c.pwr := by simp only [Chip.setFlag]; split <;> rfl
@[simp] theorem Chip.setFlag_rtc (a k : Nat) : (c.setFlag a k).rtc = c.rtc := by simp only [Chip.setFlag]; split <;> rfl
@[simp] theorem Chip.setFlag_chk (a k : Nat) : (c.setFlag a k).chk = c.chk := by simp only [Chip.setFlag]; split <;> rfl
@[simp] theorem Chip.setFlag_core (a k : Nat) : (c.setFlag a k).core = c.core := by simp only [Chip.setFlag]; split <;> rfl
@[simp] theorem Chip.setFlag_tk (a k : Nat) : (c.setFlag a k).tk = c.tk := by simp only [Chip.setFlag]; split <;> rfl
@[simp] theorem Chip.setFlag_mems (a k : Nat) : (c.setFlag a k).mems = c.mems := by simp only [Chip.setFlag]; split <;> rfl
@[simp] theorem Chip.setFlag_radio (a k : Nat) : (c.setFlag a k).radio = c.radio := by simp only [Chip.setFlag]; split <;> rfl
@[simp] theorem Chip.setFlag_sec (a k : Nat) : (c.setFlag a k).sec = c.sec := by simp only [Chip.setFlag]; split <;> rfl
@[simp] theorem Chip.setFlag_upd (a k : Nat) : (c.setFlag a k).upd = c.upd := by simp only [Chip.setFlag]; split <;> rfl
@[simp] theorem Chip.setFlag_mbx (a k : Nat) : (c.setFlag a k).mbx = c.mbx := by simp only [Chip.setFlag]; split <;> rfl
@[simp] theorem Chip.setFlag_gang (a k : Nat) : (c.setFlag a k).gang = c.gang := by simp only [Chip.setFlag]; split <;> rfl
@[simp] theorem Chip.setFlag_remash (a k : Nat) : (c.setFlag a k).remash = c.remash := by simp only [Chip.setFlag]; split <;> rfl
@[simp] theorem Chip.setFlag_uart (a k : Nat) : (c.setFlag a k).uart = c.uart := by simp only [Chip.setFlag]; split <;> rfl
@[simp] theorem Chip.setFlag_scan (a k : Nat) : (c.setFlag a k).scan = c.scan := by simp only [Chip.setFlag]; split <;> rfl
@[simp] theorem Chip.setFlag_qspiReject (a k : Nat) : (c.setFlag a k).qspiReject = c.qspiReject := by simp only [Chip.setFlag]; split <;> rfl
@[simp] theorem Chip.setFlag_msix (a k : Nat) : (c.setFlag a k).msix = c.msix := by simp only [Chip.setFlag]; split <;> rfl
@[simp] theorem Chip.setFlag_recipe (a k : Nat) : (c.setFlag a k).recipe = c.recipe := by simp only [Chip.setFlag]; split <;> rfl
@[simp] theorem Chip.setFlag_kept (a k : Nat) : (c.setFlag a k).kept = c.kept := by simp only [Chip.setFlag]; split <;> rfl

@[simp] theorem Chip.raise_now (b : Block) (k : Nat) : (c.raise b k).now = c.now := by simp only [Chip.raise]; split <;> simp
@[simp] theorem Chip.raise_free (b : Block) (k : Nat) : (c.raise b k).free = c.free := by simp only [Chip.raise]; split <;> simp
@[simp] theorem Chip.raise_out (b : Block) (k : Nat) : (c.raise b k).out = c.out := by simp only [Chip.raise]; split <;> simp
@[simp] theorem Chip.raise_islands (b : Block) (k : Nat) : (c.raise b k).islands = c.islands := by simp only [Chip.raise]; split <;> simp
@[simp] theorem Chip.raise_shadows (b : Block) (k : Nat) : (c.raise b k).shadows = c.shadows := by simp only [Chip.raise]; split <;> simp
@[simp] theorem Chip.raise_pins (b : Block) (k : Nat) : (c.raise b k).pins = c.pins := by simp only [Chip.raise]; split <;> simp
@[simp] theorem Chip.raise_pwr (b : Block) (k : Nat) : (c.raise b k).pwr = c.pwr := by simp only [Chip.raise]; split <;> simp
@[simp] theorem Chip.raise_rtc (b : Block) (k : Nat) : (c.raise b k).rtc = c.rtc := by simp only [Chip.raise]; split <;> simp
@[simp] theorem Chip.raise_chk (b : Block) (k : Nat) : (c.raise b k).chk = c.chk := by simp only [Chip.raise]; split <;> simp
@[simp] theorem Chip.raise_core (b : Block) (k : Nat) : (c.raise b k).core = c.core := by simp only [Chip.raise]; split <;> simp
@[simp] theorem Chip.raise_tk (b : Block) (k : Nat) : (c.raise b k).tk = c.tk := by simp only [Chip.raise]; split <;> simp
@[simp] theorem Chip.raise_mems (b : Block) (k : Nat) : (c.raise b k).mems = c.mems := by simp only [Chip.raise]; split <;> simp
@[simp] theorem Chip.raise_radio (b : Block) (k : Nat) : (c.raise b k).radio = c.radio := by simp only [Chip.raise]; split <;> simp
@[simp] theorem Chip.raise_sec (b : Block) (k : Nat) : (c.raise b k).sec = c.sec := by simp only [Chip.raise]; split <;> simp
@[simp] theorem Chip.raise_upd (b : Block) (k : Nat) : (c.raise b k).upd = c.upd := by simp only [Chip.raise]; split <;> simp
@[simp] theorem Chip.raise_mbx (b : Block) (k : Nat) : (c.raise b k).mbx = c.mbx := by simp only [Chip.raise]; split <;> simp
@[simp] theorem Chip.raise_gang (b : Block) (k : Nat) : (c.raise b k).gang = c.gang := by simp only [Chip.raise]; split <;> simp
@[simp] theorem Chip.raise_remash (b : Block) (k : Nat) : (c.raise b k).remash = c.remash := by simp only [Chip.raise]; split <;> simp
@[simp] theorem Chip.raise_uart (b : Block) (k : Nat) : (c.raise b k).uart = c.uart := by simp only [Chip.raise]; split <;> simp
@[simp] theorem Chip.raise_scan (b : Block) (k : Nat) : (c.raise b k).scan = c.scan := by simp only [Chip.raise]; split <;> simp
@[simp] theorem Chip.raise_qspiReject (b : Block) (k : Nat) : (c.raise b k).qspiReject = c.qspiReject := by simp only [Chip.raise]; split <;> simp
@[simp] theorem Chip.raise_msix (b : Block) (k : Nat) : (c.raise b k).msix = c.msix := by simp only [Chip.raise]; split <;> simp
@[simp] theorem Chip.raise_recipe (b : Block) (k : Nat) : (c.raise b k).recipe = c.recipe := by simp only [Chip.raise]; split <;> simp
@[simp] theorem Chip.raise_kept (b : Block) (k : Nat) : (c.raise b k).kept = c.kept := by simp only [Chip.raise]; split <;> simp

@[simp] theorem Chip.regReject_now : (c.regReject).now = c.now := by simp [Chip.regReject]
@[simp] theorem Chip.regReject_free : (c.regReject).free = c.free := by simp [Chip.regReject]
@[simp] theorem Chip.regReject_out : (c.regReject).out = c.out := by simp [Chip.regReject]
@[simp] theorem Chip.regReject_islands : (c.regReject).islands = c.islands := by simp [Chip.regReject]
@[simp] theorem Chip.regReject_shadows : (c.regReject).shadows = c.shadows := by simp [Chip.regReject]
@[simp] theorem Chip.regReject_pins : (c.regReject).pins = c.pins := by simp [Chip.regReject]
@[simp] theorem Chip.regReject_pwr : (c.regReject).pwr = c.pwr := by simp [Chip.regReject]
@[simp] theorem Chip.regReject_rtc : (c.regReject).rtc = c.rtc := by simp [Chip.regReject]
@[simp] theorem Chip.regReject_chk : (c.regReject).chk = c.chk := by simp [Chip.regReject]
@[simp] theorem Chip.regReject_core : (c.regReject).core = c.core := by simp [Chip.regReject]
@[simp] theorem Chip.regReject_tk : (c.regReject).tk = c.tk := by simp [Chip.regReject]
@[simp] theorem Chip.regReject_mems : (c.regReject).mems = c.mems := by simp [Chip.regReject]
@[simp] theorem Chip.regReject_radio : (c.regReject).radio = c.radio := by simp [Chip.regReject]
@[simp] theorem Chip.regReject_sec : (c.regReject).sec = c.sec := by simp [Chip.regReject]
@[simp] theorem Chip.regReject_upd : (c.regReject).upd = c.upd := by simp [Chip.regReject]
@[simp] theorem Chip.regReject_mbx : (c.regReject).mbx = c.mbx := by simp [Chip.regReject]
@[simp] theorem Chip.regReject_gang : (c.regReject).gang = c.gang := by simp [Chip.regReject]
@[simp] theorem Chip.regReject_remash : (c.regReject).remash = c.remash := by simp [Chip.regReject]
@[simp] theorem Chip.regReject_uart : (c.regReject).uart = c.uart := by simp [Chip.regReject]
@[simp] theorem Chip.regReject_scan : (c.regReject).scan = c.scan := by simp [Chip.regReject]
@[simp] theorem Chip.regReject_qspiReject : (c.regReject).qspiReject = c.qspiReject := by simp [Chip.regReject]
@[simp] theorem Chip.regReject_msix : (c.regReject).msix = c.msix := by simp [Chip.regReject]
@[simp] theorem Chip.regReject_recipe : (c.regReject).recipe = c.recipe := by simp [Chip.regReject]
@[simp] theorem Chip.regReject_kept : (c.regReject).kept = c.kept := by simp [Chip.regReject]

@[simp] theorem Chip.takeFree_now (n : Nat) : ((takeFree n c).2).now = c.now := (rfl)
@[simp] theorem Chip.takeFree_out (n : Nat) : ((takeFree n c).2).out = c.out := (rfl)
@[simp] theorem Chip.takeFree_islands (n : Nat) : ((takeFree n c).2).islands = c.islands := (rfl)
@[simp] theorem Chip.takeFree_regs (n : Nat) : ((takeFree n c).2).regs = c.regs := (rfl)
@[simp] theorem Chip.takeFree_shadows (n : Nat) : ((takeFree n c).2).shadows = c.shadows := (rfl)
@[simp] theorem Chip.takeFree_pins (n : Nat) : ((takeFree n c).2).pins = c.pins := (rfl)
@[simp] theorem Chip.takeFree_pwr (n : Nat) : ((takeFree n c).2).pwr = c.pwr := (rfl)
@[simp] theorem Chip.takeFree_rtc (n : Nat) : ((takeFree n c).2).rtc = c.rtc := (rfl)
@[simp] theorem Chip.takeFree_fab (n : Nat) : ((takeFree n c).2).fab = c.fab := (rfl)
@[simp] theorem Chip.takeFree_chk (n : Nat) : ((takeFree n c).2).chk = c.chk := (rfl)
@[simp] theorem Chip.takeFree_core (n : Nat) : ((takeFree n c).2).core = c.core := (rfl)
@[simp] theorem Chip.takeFree_tk (n : Nat) : ((takeFree n c).2).tk = c.tk := (rfl)
@[simp] theorem Chip.takeFree_mems (n : Nat) : ((takeFree n c).2).mems = c.mems := (rfl)
@[simp] theorem Chip.takeFree_radio (n : Nat) : ((takeFree n c).2).radio = c.radio := (rfl)
@[simp] theorem Chip.takeFree_sec (n : Nat) : ((takeFree n c).2).sec = c.sec := (rfl)
@[simp] theorem Chip.takeFree_upd (n : Nat) : ((takeFree n c).2).upd = c.upd := (rfl)
@[simp] theorem Chip.takeFree_mbx (n : Nat) : ((takeFree n c).2).mbx = c.mbx := (rfl)
@[simp] theorem Chip.takeFree_gang (n : Nat) : ((takeFree n c).2).gang = c.gang := (rfl)
@[simp] theorem Chip.takeFree_remash (n : Nat) : ((takeFree n c).2).remash = c.remash := (rfl)
@[simp] theorem Chip.takeFree_uart (n : Nat) : ((takeFree n c).2).uart = c.uart := (rfl)
@[simp] theorem Chip.takeFree_scan (n : Nat) : ((takeFree n c).2).scan = c.scan := (rfl)
@[simp] theorem Chip.takeFree_qspiReject (n : Nat) : ((takeFree n c).2).qspiReject = c.qspiReject := (rfl)
@[simp] theorem Chip.takeFree_msix (n : Nat) : ((takeFree n c).2).msix = c.msix := (rfl)
@[simp] theorem Chip.takeFree_recipe (n : Nat) : ((takeFree n c).2).recipe = c.recipe := (rfl)
@[simp] theorem Chip.takeFree_kept (n : Nat) : ((takeFree n c).2).kept = c.kept := (rfl)

@[simp] theorem Chip.onUpd_now (g : Upd → Upd) : (c.onUpd g).now = c.now := by unfold Chip.onUpd refreshUpd; split <;> simp
@[simp] theorem Chip.onUpd_free (g : Upd → Upd) : (c.onUpd g).free = c.free := by unfold Chip.onUpd refreshUpd; split <;> simp
@[simp] theorem Chip.onUpd_out (g : Upd → Upd) : (c.onUpd g).out = c.out := by unfold Chip.onUpd refreshUpd; split <;> simp
@[simp] theorem Chip.onUpd_islands (g : Upd → Upd) : (c.onUpd g).islands = c.islands := by unfold Chip.onUpd refreshUpd; split <;> simp
@[simp] theorem Chip.onUpd_shadows (g : Upd → Upd) : (c.onUpd g).shadows = c.shadows := by unfold Chip.onUpd refreshUpd; split <;> simp
@[simp] theorem Chip.onUpd_pins (g : Upd → Upd) : (c.onUpd g).pins = c.pins := by unfold Chip.onUpd refreshUpd; split <;> simp
@[simp] theorem Chip.onUpd_pwr (g : Upd → Upd) : (c.onUpd g).pwr = c.pwr := by unfold Chip.onUpd refreshUpd; split <;> simp
@[simp] theorem Chip.onUpd_rtc (g : Upd → Upd) : (c.onUpd g).rtc = c.rtc := by unfold Chip.onUpd refreshUpd; split <;> simp
@[simp] theorem Chip.onUpd_fab (g : Upd → Upd) : (c.onUpd g).fab = c.fab := by unfold Chip.onUpd refreshUpd; split <;> simp
@[simp] theorem Chip.onUpd_chk (g : Upd → Upd) : (c.onUpd g).chk = c.chk := by unfold Chip.onUpd refreshUpd; split <;> simp
@[simp] theorem Chip.onUpd_core (g : Upd → Upd) : (c.onUpd g).core = c.core := by unfold Chip.onUpd refreshUpd; split <;> simp
@[simp] theorem Chip.onUpd_tk (g : Upd → Upd) : (c.onUpd g).tk = c.tk := by unfold Chip.onUpd refreshUpd; split <;> simp
@[simp] theorem Chip.onUpd_mems (g : Upd → Upd) : (c.onUpd g).mems = c.mems := by unfold Chip.onUpd refreshUpd; split <;> simp
@[simp] theorem Chip.onUpd_radio (g : Upd → Upd) : (c.onUpd g).radio = c.radio := by unfold Chip.onUpd refreshUpd; split <;> simp
@[simp] theorem Chip.onUpd_sec (g : Upd → Upd) : (c.onUpd g).sec = c.sec := by unfold Chip.onUpd refreshUpd; split <;> simp
@[simp] theorem Chip.onUpd_mbx (g : Upd → Upd) : (c.onUpd g).mbx = c.mbx := by unfold Chip.onUpd refreshUpd; split <;> simp
@[simp] theorem Chip.onUpd_gang (g : Upd → Upd) : (c.onUpd g).gang = c.gang := by unfold Chip.onUpd refreshUpd; split <;> simp
@[simp] theorem Chip.onUpd_remash (g : Upd → Upd) : (c.onUpd g).remash = c.remash := by unfold Chip.onUpd refreshUpd; split <;> simp
@[simp] theorem Chip.onUpd_uart (g : Upd → Upd) : (c.onUpd g).uart = c.uart := by unfold Chip.onUpd refreshUpd; split <;> simp
@[simp] theorem Chip.onUpd_scan (g : Upd → Upd) : (c.onUpd g).scan = c.scan := by unfold Chip.onUpd refreshUpd; split <;> simp
@[simp] theorem Chip.onUpd_qspiReject (g : Upd → Upd) : (c.onUpd g).qspiReject = c.qspiReject := by unfold Chip.onUpd refreshUpd; split <;> simp
@[simp] theorem Chip.onUpd_msix (g : Upd → Upd) : (c.onUpd g).msix = c.msix := by unfold Chip.onUpd refreshUpd; split <;> simp
@[simp] theorem Chip.onUpd_recipe (g : Upd → Upd) : (c.onUpd g).recipe = c.recipe := by unfold Chip.onUpd refreshUpd; split <;> simp
@[simp] theorem Chip.onUpd_kept (g : Upd → Upd) : (c.onUpd g).kept = c.kept := by unfold Chip.onUpd refreshUpd; split <;> simp

@[simp] theorem Chip.setReg_isOn (a : Nat) (w : Word) (z : Island) : (c.setReg a w).isOn z = c.isOn z := (rfl)
@[simp] theorem Chip.setReg_grain (a : Nat) (w : Word) : (c.setReg a w).grain = c.grain := (rfl)

@[simp] theorem Chip.setRegN_isOn (a n : Nat) (z : Island) : (c.setRegN a n).isOn z = c.isOn z := (rfl)
@[simp] theorem Chip.setRegN_grain (a n : Nat) : (c.setRegN a n).grain = c.grain := (rfl)

@[simp] theorem Chip.setF_isOn (x : Field) (v : Nat) (z : Island) : (c.setF x v).isOn z = c.isOn z := (rfl)
@[simp] theorem Chip.setF_grain (x : Field) (v : Nat) : (c.setF x v).grain = c.grain := (rfl)

@[simp] theorem Chip.setB_isOn (x : Field) (v : Bool) (z : Island) : (c.setB x v).isOn z = c.isOn z := (rfl)
@[simp] theorem Chip.setB_grain (x : Field) (v : Bool) : (c.setB x v).grain = c.grain := (rfl)

@[simp] theorem Chip.bumpBy_isOn (x : Field) (n : Nat) (z : Island) : (c.bumpBy x n).isOn z = c.isOn z := (rfl)
@[simp] theorem Chip.bumpBy_grain (x : Field) (n : Nat) : (c.bumpBy x n).grain = c.grain := (rfl)

@[simp] theorem Chip.bump_isOn (x : Field) (z : Island) : (c.bump x).isOn z = c.isOn z := by unfold Chip.isOn Chip.island; rw [Chip.bump_islands]
@[simp] theorem Chip.bump_grain (x : Field) : (c.bump x).grain = c.grain := by unfold Chip.grain; rw [Chip.bump_now]

@[simp] theorem Chip.resetRegs_isOn (i : Island) (z : Island) : (c.resetRegs i).isOn z = c.isOn z := (rfl)
@[simp] theorem Chip.resetRegs_grain (i : Island) : (c.resetRegs i).grain = c.grain := (rfl)

@[simp] theorem Chip.setIsland_reg (i : Island) (x : IslandState) (z : Nat) : (c.setIsland i x).reg z = c.reg z := (rfl)
@[simp] theorem Chip.setIsland_regN (i : Island) (x : IslandState) (z : Nat) : (c.setIsland i x).regN z = c.regN z := (rfl)
@[simp] theorem Chip.setIsland_f (i : Island) (x : IslandState) (z : Field) : (c.setIsland i x).f z = c.f z := (rfl)
@[simp] theorem Chip.setIsland_b (i : Island) (x : IslandState) (z : Field) : (c.setIsland i x).b z = c.b z := (rfl)
@[simp] theorem Chip.setIsland_dev (i : Island) (x : IslandState) : (c.setIsland i x).dev = c.dev := (rfl)
@[simp] theorem Chip.setIsland_power (i : Island) (x : IslandState) : (c.setIsland i x).power = c.power := (rfl)
@[simp] theorem Chip.setIsland_grain (i : Island) (x : IslandState) : (c.setIsland i x).grain = c.grain := (rfl)

@[simp] theorem Chip.setPin_reg (p : Nat) (v : Bool) (z : Nat) : (c.setPin p v).reg z = c.reg z := (rfl)
@[simp] theorem Chip.setPin_regN (p : Nat) (v : Bool) (z : Nat) : (c.setPin p v).regN z = c.regN z := (rfl)
@[simp] theorem Chip.setPin_f (p : Nat) (v : Bool) (z : Field) : (c.setPin p v).f z = c.f z := (rfl)
@[simp] theorem Chip.setPin_b (p : Nat) (v : Bool) (z : Field) : (c.setPin p v).b z = c.b z := (rfl)
@[simp] theorem Chip.setPin_dev (p : Nat) (v : Bool) : (c.setPin p v).dev = c.dev := (rfl)
@[simp] theorem Chip.setPin_power (p : Nat) (v : Bool) : (c.setPin p v).power = c.power := (rfl)
@[simp] theorem Chip.setPin_isOn (p : Nat) (v : Bool) (z : Island) : (c.setPin p v).isOn z = c.isOn z := (rfl)
@[simp] theorem Chip.setPin_grain (p : Nat) (v : Bool) : (c.setPin p v).grain = c.grain := (rfl)

@[simp] theorem Chip.reply_reg (ws : List Word) (z : Nat) : (c.reply ws).reg z = c.reg z := (rfl)
@[simp] theorem Chip.reply_regN (ws : List Word) (z : Nat) : (c.reply ws).regN z = c.regN z := (rfl)
@[simp] theorem Chip.reply_f (ws : List Word) (z : Field) : (c.reply ws).f z = c.f z := (rfl)
@[simp] theorem Chip.reply_b (ws : List Word) (z : Field) : (c.reply ws).b z = c.b z := (rfl)
@[simp] theorem Chip.reply_dev (ws : List Word) : (c.reply ws).dev = c.dev := (rfl)
@[simp] theorem Chip.reply_power (ws : List Word) : (c.reply ws).power = c.power := (rfl)
@[simp] theorem Chip.reply_isOn (ws : List Word) (z : Island) : (c.reply ws).isOn z = c.isOn z := (rfl)
@[simp] theorem Chip.reply_grain (ws : List Word) : (c.reply ws).grain = c.grain := (rfl)

@[simp] theorem Chip.onRadio_reg (g : Radio → Radio) (z : Nat) : (c.onRadio g).reg z = c.reg z := (rfl)
@[simp] theorem Chip.onRadio_regN (g : Radio → Radio) (z : Nat) : (c.onRadio g).regN z = c.regN z := (rfl)
@[simp] theorem Chip.onRadio_f (g : Radio → Radio) (z : Field) : (c.onRadio g).f z = c.f z := (rfl)
@[simp] theorem Chip.onRadio_b (g : Radio → Radio) (z : Field) : (c.onRadio g).b z = c.b z := (rfl)
@[simp] theorem Chip.onRadio_dev (g : Radio → Radio) : (c.onRadio g).dev = c.dev := (rfl)
@[simp] theorem Chip.onRadio_power (g : Radio → Radio) : (c.onRadio g).power = c.power := (rfl)
@[simp] theorem Chip.onRadio_isOn (g : Radio → Radio) (z : Island) : (c.onRadio g).isOn z = c.isOn z := (rfl)
@[simp] theorem Chip.onRadio_grain (g : Radio → Radio) : (c.onRadio g).grain = c.grain := (rfl)

@[simp] theorem Chip.onMems_reg (g : Mems → Mems) (z : Nat) : (c.onMems g).reg z = c.reg z := (rfl)
@[simp] theorem Chip.onMems_regN (g : Mems → Mems) (z : Nat) : (c.onMems g).regN z = c.regN z := (rfl)
@[simp] theorem Chip.onMems_f (g : Mems → Mems) (z : Field) : (c.onMems g).f z = c.f z := (rfl)
@[simp] theorem Chip.onMems_b (g : Mems → Mems) (z : Field) : (c.onMems g).b z = c.b z := (rfl)
@[simp] theorem Chip.onMems_dev (g : Mems → Mems) : (c.onMems g).dev = c.dev := (rfl)
@[simp] theorem Chip.onMems_power (g : Mems → Mems) : (c.onMems g).power = c.power := (rfl)
@[simp] theorem Chip.onMems_isOn (g : Mems → Mems) (z : Island) : (c.onMems g).isOn z = c.isOn z := (rfl)
@[simp] theorem Chip.onMems_grain (g : Mems → Mems) : (c.onMems g).grain = c.grain := (rfl)

@[simp] theorem Chip.onSec_reg (g : Sec → Sec) (z : Nat) : (c.onSec g).reg z = c.reg z := (rfl)
@[simp] theorem Chip.onSec_regN (g : Sec → Sec) (z : Nat) : (c.onSec g).regN z = c.regN z := (rfl)
@[simp] theorem Chip.onSec_f (g : Sec → Sec) (z : Field) : (c.onSec g).f z = c.f z := (rfl)
@[simp] theorem Chip.onSec_b (g : Sec → Sec) (z : Field) : (c.onSec g).b z = c.b z := (rfl)
@[simp] theorem Chip.onSec_dev (g : Sec → Sec) : (c.onSec g).dev = c.dev := (rfl)
@[simp] theorem Chip.onSec_power (g : Sec → Sec) : (c.onSec g).power = c.power := (rfl)
@[simp] theorem Chip.onSec_isOn (g : Sec → Sec) (z : Island) : (c.onSec g).isOn z = c.isOn z := (rfl)
@[simp] theorem Chip.onSec_grain (g : Sec → Sec) : (c.onSec g).grain = c.grain := (rfl)

@[simp] theorem Chip.onPwr_reg (g : Pwr → Pwr) (z : Nat) : (c.onPwr g).reg z = c.reg z := (rfl)
@[simp] theorem Chip.onPwr_regN (g : Pwr → Pwr) (z : Nat) : (c.onPwr g).regN z = c.regN z := (rfl)
@[simp] theorem Chip.onPwr_f (g : Pwr → Pwr) (z : Field) : (c.onPwr g).f z = c.f z := (rfl)
@[simp] theorem Chip.onPwr_b (g : Pwr → Pwr) (z : Field) : (c.onPwr g).b z = c.b z := (rfl)
@[simp] theorem Chip.onPwr_dev (g : Pwr → Pwr) : (c.onPwr g).dev = c.dev := (rfl)
@[simp] theorem Chip.onPwr_power (g : Pwr → Pwr) : (c.onPwr g).power = c.power := (rfl)
@[simp] theorem Chip.onPwr_isOn (g : Pwr → Pwr) (z : Island) : (c.onPwr g).isOn z = c.isOn z := (rfl)
@[simp] theorem Chip.onPwr_grain (g : Pwr → Pwr) : (c.onPwr g).grain = c.grain := (rfl)

@[simp] theorem Chip.onGang_reg (g : Gang → Gang) (z : Nat) : (c.onGang g).reg z = c.reg z := (rfl)
@[simp] theorem Chip.onGang_regN (g : Gang → Gang) (z : Nat) : (c.onGang g).regN z = c.regN z := (rfl)
@[simp] theorem Chip.onGang_f (g : Gang → Gang) (z : Field) : (c.onGang g).f z = c.f z := (rfl)
@[simp] theorem Chip.onGang_b (g : Gang → Gang) (z : Field) : (c.onGang g).b z = c.b z := (rfl)
@[simp] theorem Chip.onGang_dev (g : Gang → Gang) : (c.onGang g).dev = c.dev := (rfl)
@[simp] theorem Chip.onGang_power (g : Gang → Gang) : (c.onGang g).power = c.power := (rfl)
@[simp] theorem Chip.onGang_isOn (g : Gang → Gang) (z : Island) : (c.onGang g).isOn z = c.isOn z := (rfl)
@[simp] theorem Chip.onGang_grain (g : Gang → Gang) : (c.onGang g).grain = c.grain := (rfl)

@[simp] theorem Chip.onTk_reg (g : Tickets → Tickets) (z : Nat) : (c.onTk g).reg z = c.reg z := (rfl)
@[simp] theorem Chip.onTk_regN (g : Tickets → Tickets) (z : Nat) : (c.onTk g).regN z = c.regN z := (rfl)
@[simp] theorem Chip.onTk_f (g : Tickets → Tickets) (z : Field) : (c.onTk g).f z = c.f z := (rfl)
@[simp] theorem Chip.onTk_b (g : Tickets → Tickets) (z : Field) : (c.onTk g).b z = c.b z := (rfl)
@[simp] theorem Chip.onTk_dev (g : Tickets → Tickets) : (c.onTk g).dev = c.dev := (rfl)
@[simp] theorem Chip.onTk_power (g : Tickets → Tickets) : (c.onTk g).power = c.power := (rfl)
@[simp] theorem Chip.onTk_isOn (g : Tickets → Tickets) (z : Island) : (c.onTk g).isOn z = c.isOn z := (rfl)
@[simp] theorem Chip.onTk_grain (g : Tickets → Tickets) : (c.onTk g).grain = c.grain := (rfl)

@[simp] theorem Chip.onFab_reg (g : Fabric → Fabric) (z : Nat) : (c.onFab g).reg z = c.reg z := (rfl)
@[simp] theorem Chip.onFab_regN (g : Fabric → Fabric) (z : Nat) : (c.onFab g).regN z = c.regN z := (rfl)
@[simp] theorem Chip.onFab_f (g : Fabric → Fabric) (z : Field) : (c.onFab g).f z = c.f z := (rfl)
@[simp] theorem Chip.onFab_b (g : Fabric → Fabric) (z : Field) : (c.onFab g).b z = c.b z := (rfl)
@[simp] theorem Chip.onFab_dev (g : Fabric → Fabric) : (c.onFab g).dev = c.dev := (rfl)
@[simp] theorem Chip.onFab_power (g : Fabric → Fabric) : (c.onFab g).power = c.power := (rfl)
@[simp] theorem Chip.onFab_isOn (g : Fabric → Fabric) (z : Island) : (c.onFab g).isOn z = c.isOn z := (rfl)
@[simp] theorem Chip.onFab_grain (g : Fabric → Fabric) : (c.onFab g).grain = c.grain := (rfl)

@[simp] theorem Chip.fire_reg (n : Nat) (p : Option Nat) (k : Nat) (z : Nat) : (c.fire n p k).reg z = c.reg z := by unfold Chip.reg; rw [Chip.fire_regs]
@[simp] theorem Chip.fire_regN (n : Nat) (p : Option Nat) (k : Nat) (z : Nat) : (c.fire n p k).regN z = c.regN z := by unfold Chip.regN; rw [Chip.fire_reg]
@[simp] theorem Chip.fire_f (n : Nat) (p : Option Nat) (k : Nat) (z : Field) : (c.fire n p k).f z = c.f z := by unfold Chip.f; rw [Chip.fire_reg]
@[simp] theorem Chip.fire_b (n : Nat) (p : Option Nat) (k : Nat) (z : Field) : (c.fire n p k).b z = c.b z := by unfold Chip.b; rw [Chip.fire_f]
@[simp] theorem Chip.fire_dev (n : Nat) (p : Option Nat) (k : Nat) : (c.fire n p k).dev = c.dev := Chip.fire_f c _ _ _ _
@[simp] theorem Chip.fire_power (n : Nat) (p : Option Nat) (k : Nat) : (c.fire n p k).power = c.power := Chip.fire_f c _ _ _ _
@[simp] theorem Chip.fire_isOn (n : Nat) (p : Option Nat) (k : Nat) (z : Island) : (c.fire n p k).isOn z = c.isOn z := by unfold Chip.isOn Chip.island; rw [Chip.fire_islands]
@[simp] theorem Chip.fire_grain (n : Nat) (p : Option Nat) (k : Nat) : (c.fire n p k).grain = c.grain := by unfold Chip.grain; rw [Chip.fire_now]

@[simp] theorem Chip.setFlag_isOn (a k : Nat) (z : Island) : (c.setFlag a k).isOn z = c.isOn z := by unfold Chip.isOn Chip.island; rw [Chip.setFlag_islands]
@[simp] theorem Chip.setFlag_grain (a k : Nat) : (c.setFlag a k).grain = c.grain := by unfold Chip.grain; rw [Chip.setFlag_now]

@[simp] theorem Chip.raise_isOn (b : Block) (k : Nat) (z : Island) : (c.raise b k).isOn z = c.isOn z := by unfold Chip.isOn Chip.island; rw [Chip.raise_islands]
@[simp] theorem Chip.raise_grain (b : Block) (k : Nat) : (c.raise b k).grain = c.grain := by unfold Chip.grain; rw [Chip.raise_now]

@[simp] theorem Chip.regReject_isOn (z : Island) : (c.regReject).isOn z = c.isOn z := by unfold Chip.isOn Chip.island; rw [Chip.regReject_islands]
@[simp] theorem Chip.regReject_grain : (c.regReject).grain = c.grain := by unfold Chip.grain; rw [Chip.regReject_now]

@[simp] theorem Chip.takeFree_reg (n : Nat) (z : Nat) : ((takeFree n c).2).reg z = c.reg z := (rfl)
@[simp] theorem Chip.takeFree_regN (n : Nat) (z : Nat) : ((takeFree n c).2).regN z = c.regN z := (rfl)
@[simp] theorem Chip.takeFree_f (n : Nat) (z : Field) : ((takeFree n c).2).f z = c.f z := (rfl)
@[simp] theorem Chip.takeFree_b (n : Nat) (z : Field) : ((takeFree n c).2).b z = c.b z := (rfl)
@[simp] theorem Chip.takeFree_dev (n : Nat) : ((takeFree n c).2).dev = c.dev := (rfl)
@[simp] theorem Chip.takeFree_power (n : Nat) : ((takeFree n c).2).power = c.power := (rfl)
@[simp] theorem Chip.takeFree_isOn (n : Nat) (z : Island) : ((takeFree n c).2).isOn z = c.isOn z := (rfl)
@[simp] theorem Chip.takeFree_grain (n : Nat) : ((takeFree n c).2).grain = c.grain := (rfl)

@[simp] theorem Chip.onUpd_isOn (g : Upd → Upd) (z : Island) : (c.onUpd g).isOn z = c.isOn z := by unfold Chip.isOn Chip.island; rw [Chip.onUpd_islands]
@[simp] theorem Chip.onUpd_grain (g : Upd → Upd) : (c.onUpd g).grain = c.grain := by unfold Chip.grain; rw [Chip.onUpd_now]

@[simp] theorem Chip.onRadio_radio (g : Radio → Radio) : (c.onRadio g).radio = g c.radio := (rfl)
@[simp] theorem Chip.onMems_mems (g : Mems → Mems) : (c.onMems g).mems = g c.mems := (rfl)
@[simp] theorem Chip.onSec_sec (g : Sec → Sec) : (c.onSec g).sec = g c.sec := (rfl)
@[simp] theorem Chip.onPwr_pwr (g : Pwr → Pwr) : (c.onPwr g).pwr = g c.pwr := (rfl)
@[simp] theorem Chip.onGang_gang (g : Gang → Gang) : (c.onGang g).gang = g c.gang := (rfl)
@[simp] theorem Chip.onFab_fab (g : Fabric → Fabric) : (c.onFab g).fab = g c.fab := (rfl)
@[simp] theorem Chip.onTk_tk (g : Tickets → Tickets) : (c.onTk g).tk = g c.tk := (rfl)
@[simp] theorem Chip.onUpd_upd (g : Upd → Upd) : (c.onUpd g).upd = g c.upd := by unfold Chip.onUpd refreshUpd; split <;> simp
@[simp] theorem Chip.reply_out (ws : List Word) : (c.reply ws).out = ws := (rfl)

end Sys2Proof.Machine
end

