-- ==== Sys2Proof/Laws/Memory.lean ====
section
/-! SUPPORT. The memories: what a read of sound codewords gives, and the canonical form that every write keeps. -/

namespace Sys2Proof.Machine

/-- A codeword without flaws reads as the two words stored, and reading it changes nothing (R164). -/
theorem readPair_clean (p : Nat) (c : Chip) (h : c.flaw p = []) :
    readPair p c = (⟨c.stored (evenOf p), c.stored (evenOf p + 1), false⟩, c) := by
  have he : c.flaw (evenOf p) = [] := by
    have hk : evenOf (evenOf p) = evenOf p := by simp only [evenOf]; omega
    simpa only [Chip.flaw, hk] using h
  have hd : rsDecode [] = .clean [] := by decide
  simp [readPair, he, hd, disturbed]

/-- A word of a memory that serves, other than MRAM, reads as it is stored where its codeword has no flaw. -/
theorem readMem_clean (p : Nat) (c : Chip) (hs : c.spaceAccess (spaceOf p) = .served) (h4 : spaceOf p ≠ 4) (h : c.flaw p = []) :
    readMem p c = (c.stored p, c) := by
  simp only [readMem, hs, h4, if_false, readPair_clean p c h, PairRead.word]
  by_cases hp : p % 2 = 0
  · simp [hp, evenOf]
  · have : evenOf p + 1 = p := by simp only [evenOf]; omega
    simp [hp, this]

/-- A master reads such a word outside the dual-port memory, whose ports nothing notes (R160). -/
theorem readWordBy_clean (x : DpPort) (p : Nat) (c : Chip) (hs : c.spaceAccess (spaceOf p) = .served) (h4 : spaceOf p ≠ 4)
    (h1 : spaceOf p ≠ 1) (h : c.flaw p = []) : readWordBy x p c = (c.stored p, c) := by
  simp [readWordBy, readMem_clean p c hs h4 h, portRead, h1]

/-- A buffer of words of BITS below 2^32 in sound codewords outside the dual-port memory reads as octets, and reading it changes
nothing (R200). -/
theorem readBuffer_clean (x : DpPort) (n : Nat) : ∀ (p : Nat) (c : Chip),
    (∀ i, i < n → c.spaceAccess (spaceOf (p + i)) = .served ∧ spaceOf (p + i) ≠ 4 ∧ spaceOf (p + i) ≠ 1 ∧ c.flaw (p + i) = [] ∧
      (c.stored (p + i)).tag = .bits ∧ (c.stored (p + i)).nat < 2 ^ 32) → ∃ xs, readBuffer x p n c = (.ok xs, c) := by
  induction n with
  | zero => intro p c _; exact ⟨[], rfl⟩
  | succ n ih =>
    intro p c h
    obtain ⟨hs, h4, h1, hf, ht, hn⟩ := h 0 (by omega)
    rw [Nat.add_zero] at hs h4 h1 hf ht hn
    obtain ⟨xs, hx⟩ := ih (p + 1) c (fun i hi => by
      have := h (i + 1) (by omega)
      rwa [show p + (i + 1) = p + 1 + i by omega] at this)
    simp only [readBuffer, readWordBy_clean x p c hs h4 h1 hf, ht, hn, if_true, hx]
    exact ⟨_, rfl⟩

/-- A buffer of octets in sound codewords reads (R200). -/
theorem readOctets_clean (p n : Nat) (c : Chip)
    (h : ∀ i, i < ceilDiv n 4 → c.spaceAccess (spaceOf (p + i)) = .served ∧ spaceOf (p + i) ≠ 4 ∧ spaceOf (p + i) ≠ 1 ∧
      c.flaw (p + i) = [] ∧
      (c.stored (p + i)).tag = .bits ∧ (c.stored (p + i)).nat < 2 ^ 32) : ∃ xs, readOctets p n c = (.ok xs, c) := by
  obtain ⟨xs, hx⟩ := readBuffer_clean .a _ p c h
  exact ⟨xs.take n, by simp [readOctets, readOctetsBy, hx]⟩

/-! ### The canonical form -/

open Sys2Proof.Safety

theorem memsOk_iff (m : Mems) : memsOk m = true ↔ Store.ok (fun _ => Word.int 0) m.words = true ∧
    Store.ok (fun _ => ([] : List Nat)) m.flaws = true ∧ Store.ok (fun _ => 0) m.mram = true ∧
    Store.ok (fun _ => 0) m.mramFlaws = true := by
  simp only [memsOk, Bool.and_eq_true, and_assoc]

/-- Storing a codeword keeps the form (R41, R42). -/
theorem storePair_memsOk (p : Nat) (w0 w1 : Word) (c : Chip) (h : memsOk c.mems = true) :
    memsOk (storePair p w0 w1 c).mems = true := by
  simp only [memsOk_iff, storePair, Chip.onMems_mems] at h ⊢
  exact ⟨Store.ok_put (fun _ => Word.int 0) _ _ _ (Store.ok_put (fun _ => Word.int 0) _ _ _ h.1),
    Store.ok_put (fun _ => ([] : List Nat)) _ _ _ h.2.1, h.2.2⟩

/-- Writing a word of MRAM keeps the form (R178). -/
theorem writeMram_memsOk (a n : Nat) (c : Chip) (h : memsOk c.mems = true) : memsOk (writeMram a n c).mems = true := by
  simp only [memsOk_iff, writeMram, Chip.onMems_mems] at h ⊢
  exact ⟨h.1, h.2.1, Store.ok_put (fun _ => 0) _ _ _ h.2.2.1, Store.ok_put (fun _ => 0) _ _ _ h.2.2.2⟩

/-- Writing octets of MRAM keeps the form (R178). -/
theorem writeMramBytes_memsOk (xs : List Nat) : ∀ (b : Nat) (c : Chip), memsOk c.mems = true →
    memsOk (writeMramBytes b xs c).mems = true := by
  induction xs with
  | nil => intro b c h; exact h
  | cons x xs ih => intro b c h; exact ih (b + 1) _ (writeMram_memsOk _ _ _ h)

/-- Losing words keeps the form. -/
theorem loseWords_memsOk (sel : Nat → Bool) (c : Chip) (h : memsOk c.mems = true) : memsOk (loseWords sel c).mems = true := by
  simp only [memsOk_iff, loseWords, Chip.onMems_mems] at h ⊢
  exact ⟨Store.ok_drop (fun _ => Word.int 0) _ _ h.1, Store.ok_drop (fun _ => ([] : List Nat)) _ _ h.2.1, h.2.2⟩

/-- Erasing part of MRAM keeps the form. -/
theorem clearMram_memsOk (b len : Nat) (c : Chip) (h : memsOk c.mems = true) : memsOk (clearMram b len c).mems = true := by
  simp only [memsOk_iff, clearMram, Chip.onMems_mems] at h ⊢
  exact ⟨h.1, h.2.1, Store.ok_drop (fun _ => 0) _ _ h.2.2.1, Store.ok_drop (fun _ => 0) _ _ h.2.2.2⟩

/-- A fault in storage keeps the form (R164). -/
theorem addFlaw_memsOk (p : Nat) (e : List Nat) (c : Chip) (h : memsOk c.mems = true) : memsOk (addFlaw p e c).mems = true := by
  simp only [memsOk_iff, addFlaw] at h ⊢
  split
  · exact ⟨h.1, h.2.1, h.2.2.1, Store.ok_put (fun _ => 0) _ _ _ h.2.2.2⟩
  split
  · exact h
  · exact ⟨h.1, Store.ok_put (fun _ => ([] : List Nat)) _ _ _ h.2.1, h.2.2⟩

/-! ### The check units see a write and leave the memories alone (R307) -/

@[simp] theorem Chip.setChk_mems (c : Chip) (n : Nat) (u : ChkUnit) : (c.setChk n u).mems = c.mems := rfl
@[simp] theorem chkReload_mems (n : Nat) (c : Chip) : (chkReload n c).mems = c.mems := by simp [chkReload]
@[simp] theorem chkEnd_mems (n : Nat) (a : Bool) (c : Chip) : (chkEnd n a c).mems = c.mems := by
  simp only [chkEnd, Chip.setChk_mems, chkReload_mems, Chip.bump_mems, Chip.raise_mems]
  split <;> split <;> (try split) <;> simp
@[simp] theorem chkOctet_mems (n : Nat) (c : Chip) (o : Nat) : (chkOctet n c o).mems = c.mems := by
  simp only [chkOctet]
  split <;> simp <;> split <;> simp
theorem chkOctets_mems (n : Nat) (xs : List Nat) : ∀ c : Chip, (xs.foldl (chkOctet n) c).mems = c.mems := by
  induction xs with
  | nil => intro c; rfl
  | cons x xs ih => intro c; simpa using ih (chkOctet n c x)

/-- What folds over a list and leaves the memories alone at each member leaves them alone. -/
theorem foldl_mems {α : Type} (f : Chip → α → Chip) (hf : ∀ c x, (f c x).mems = c.mems) (xs : List α) :
    ∀ c : Chip, (xs.foldl f c).mems = c.mems := by
  induction xs with
  | nil => intro c; rfl
  | cons x xs ih => intro c; simpa [hf] using ih (f c x)

@[simp] theorem chkStream_mems (src sel : Nat) (xs : List Nat) (marker : Bool) (c : Chip) :
    (chkStream src sel xs marker c).mems = c.mems := by
  refine foldl_mems _ (fun c n => ?_) _ c
  split
  · split
    · split <;> simp
    · dsimp only
      split <;> simp [chkOctets_mems]
  · rfl

@[simp] theorem portWatch_mems (p : Nat) (ws : List Word) (c : Chip) : (portWatch p ws c).mems = c.mems := by
  unfold portWatch; split <;> simp

@[simp] theorem tableNote_mems (p : Nat) (c : Chip) : (tableNote p c).mems = c.mems := by
  simp only [tableNote]; split <;> rfl

@[simp] theorem fillNote_memsOk (p : Nat) (c : Chip) : memsOk (fillNote p c).mems = memsOk c.mems := by
  simp only [fillNote]; split <;> rfl

/-- A codeword write keeps the form. -/
theorem writePair_memsOk (p : Nat) (w0 w1 : Word) (c : Chip) (h : memsOk c.mems = true) :
    memsOk (writePair p w0 w1 c).mems = true := by
  simpa [writePair] using storePair_memsOk p w0 w1 (tableNote p (fillNote p c)) (by simpa using h)

/-- Reading a codeword keeps the form: an uncorrectable one is rewritten with poison (R164). -/
theorem readPair_memsOk (p : Nat) (c : Chip) (h : memsOk c.mems = true) : memsOk (readPair p c).2.mems = true := by
  simp only [readPair]
  split
  · exact h
  · simpa using h
  · simpa [reportPoison] using storePair_memsOk (evenOf p) .poisoned .poisoned c h

/-- Merging a word into the pair that was read keeps the form. -/
theorem mergeWord_memsOk (p : Nat) (w : Word) (r : PairRead) (c : Chip) (h : memsOk c.mems = true) :
    memsOk (mergeWord p w r c).mems = true := by
  simp only [mergeWord, portWatch_mems]
  split <;> exact storePair_memsOk _ _ _ _ (by simpa using h)

/-- A write of one word keeps the form (R42, R43). -/
theorem writeWord_memsOk (p : Nat) (w : Word) (c : Chip) (h : memsOk c.mems = true) : memsOk (writeWord p w c).mems = true :=
  mergeWord_memsOk p w _ _ (readPair_memsOk p c h)

/-- An atomic add keeps the form (R165). -/
theorem atomicAdd_memsOk (p : Nat) (x : Word) (c : Chip) (h : memsOk c.mems = true) : memsOk (atomicAdd p x c).2.mems = true := by
  have hr := readPair_memsOk p c h
  simp only [atomicAdd]
  split
  · exact hr
  · split <;> first | exact mergeWord_memsOk _ _ _ _ hr | exact hr

/-- An atomic swap keeps the form (R165). -/
theorem atomicSwap_memsOk (p : Nat) (x : Word) (c : Chip) (h : memsOk c.mems = true) : memsOk (atomicSwap p x c).2.mems = true := by
  have hr := readPair_memsOk p c h
  simp only [atomicSwap]
  split
  · exact hr
  · exact mergeWord_memsOk _ _ _ _ hr

end Sys2Proof.Machine
end

