-- ==== Sys2Proof/Laws/Power.lean ====
section
/-! SUPPORT. The power controller's shared operations: answers, the end of a transition, pads and the power state. -/

namespace Sys2Proof.Machine

variable (c : Chip)

@[simp] theorem pwrAnswer_pwr (seq target : Nat) (st : Status) : (pwrAnswer seq target st c).pwr = c.pwr := by
  simp [pwrAnswer]
@[simp] theorem pwrAnswer_core (seq target : Nat) (st : Status) : (pwrAnswer seq target st c).core = c.core := by
  simp [pwrAnswer]
@[simp] theorem pwrAnswer_isOn (seq target : Nat) (st : Status) (i : Island) :
    (pwrAnswer seq target st c).isOn i = c.isOn i := by
  simp [pwrAnswer]

/-- What an answer writes: PWR_RESULT, and a flag of PWR_INT_STATUS; no other register. -/
theorem pwrAnswer_f_ne (seq target : Nat) (st : Status) (y : Field) (h : y.reg ≠ Reg.PWR_RESULT) (h' : y.reg ≠ Reg.PWR_INT_STATUS) :
    (pwrAnswer seq target st c).f y = c.f y := by
  simp only [pwrAnswer]
  rw [Chip.raise_f_reg _ _ _ _ h', Chip.f_setF_reg _ _ _ _ h, Chip.f_setF_reg _ _ _ _ h, Chip.f_setF_reg _ _ _ _ h]

theorem pwrAnswer_result (seq target : Nat) (st : Status) :
    (pwrAnswer seq target st c).f Fld.PWR_RESULT_SEQ = seq % 256 ∧
    (pwrAnswer seq target st c).f Fld.PWR_RESULT_TARGET = target % 16 ∧
    (pwrAnswer seq target st c).f Fld.PWR_RESULT_STATUS = st.code % 4096 := by
  simp (disch := decide) [pwrAnswer, Chip.raise_f_reg, Chip.f_setF_ne, Chip.f_setF]

/-- The end of a transition after which nothing follows: it is answered OK, its status fields clear, and it is counted. -/
theorem transitionEnd_plain (hf : c.pwr.activeForced = false) (hn : c.pwr.forcedNext = false)
    (hp : c.b Fld.PWR_STATUS_PENDING = false) :
    transitionEnd c = (clearActive (pwrAnswer (c.f Fld.PWR_STATUS_ACTIVE_SEQ) (c.f Fld.PWR_STATUS_ACTIVE_TARGET) .ok c)).bump
      Fld.PWR_COUNTS_TRANSITIONS := by
  have h1 : ((clearActive (pwrAnswer (c.f Fld.PWR_STATUS_ACTIVE_SEQ) (c.f Fld.PWR_STATUS_ACTIVE_TARGET) .ok c)).bump
      Fld.PWR_COUNTS_TRANSITIONS).b Fld.PWR_STATUS_PENDING = false := by
    rw [← hp]
    unfold Chip.b
    simp (disch := decide) only [Chip.bump_f_ne, clearActive, Chip.onPwr_f, Chip.setB, Chip.f_setF_ne, pwrAnswer_f_ne]
  simp only [transitionEnd, hf, Bool.false_eq_true, if_false, startNext, startPending, Chip.bump_pwr]
  simp [clearActive, hn] at h1 ⊢
  simp [h1]

/-- What is left in the registers at the end of a transition after which nothing follows. -/
theorem transitionEnd_fields (hf : c.pwr.activeForced = false) (hn : c.pwr.forcedNext = false)
    (hp : c.b Fld.PWR_STATUS_PENDING = false) :
    (transitionEnd c).power = c.power ∧ (transitionEnd c).b Fld.PWR_STATUS_ACTIVE = false ∧
    (transitionEnd c).f Fld.PWR_RESULT_SEQ = c.f Fld.PWR_STATUS_ACTIVE_SEQ % 256 ∧
    (transitionEnd c).f Fld.PWR_RESULT_TARGET = c.f Fld.PWR_STATUS_ACTIVE_TARGET % 16 ∧
    (transitionEnd c).f Fld.PWR_RESULT_STATUS = 0 ∧ (transitionEnd c).pwr.level = c.pwr.level ∧
    (transitionEnd c).core = c.core := by
  rw [transitionEnd_plain c hf hn hp]
  have h := pwrAnswer_result c (c.f Fld.PWR_STATUS_ACTIVE_SEQ) (c.f Fld.PWR_STATUS_ACTIVE_TARGET) .ok
  simp (disch := decide) [Chip.power, Chip.b, Chip.bump_f_ne, clearActive, Chip.setB, b2n, Chip.f_setF_ne, Chip.f_setF,
    pwrAnswer_f_ne, h, Status.code]

/-- Nothing that follows a transition touches the core. -/
theorem laneListen_core (n : Nat) (v : Bool) : (laneListen n v c).core = c.core := by
  simp only [laneListen]
  split
  · split <;> simp [setLaneIdle, setLaneState, setLaneSt]
  · simp

theorem lanesDeaf_core : (lanesDeaf c).core = c.core := by
  unfold lanesDeaf
  generalize c.laneNumbers = l
  induction l generalizing c with
  | nil => rfl
  | cons n l ih => simp only [List.foldl_cons]; rw [ih, laneListen_core]

theorem startTransition_core (seq target : Nat) (forced : Bool) : (startTransition seq target forced c).core = c.core := by
  simp only [startTransition]; split <;> simp [lanesDeaf_core]

theorem startPending_core : (startPending c).core = c.core := by
  simp only [startPending]
  split
  · split
    · simp
    · split <;> simp [startTransition_core]
  · rfl

theorem startNext_core : (startNext c).core = c.core := by
  simp only [startNext]
  split
  · exact startPending_core c
  · split <;> simp [startTransition_core, startPending_core]

@[simp] theorem transitionEnd_core : (transitionEnd c).core = c.core := by
  simp only [transitionEnd, startNext_core, clearActive]
  split <;> simp

end Sys2Proof.Machine
end

