-- ==== Sys2Proof/Laws/Reset.lean ====
section
/-! SUPPORT. What a device reset leaves (R22): BOOT, no firmware, registers at reset, MRAM and the state of the ledger kept. -/

namespace Sys2Proof.Machine

variable (c : Chip)

theorem Chip.reg_mk (c d : Chip) (a : Nat) (h : c.regs = d.regs) : c.reg a = d.reg a := by unfold Chip.reg; rw [h]

@[simp] theorem linkOscFollow_core : (linkOscFollow c).core = c.core := by simp [linkOscFollow]
@[simp] theorem linkOscFollow_pwr : (linkOscFollow c).pwr = c.pwr := by simp [linkOscFollow]
@[simp] theorem linkOscFollow_mems : (linkOscFollow c).mems = c.mems := by simp [linkOscFollow]
@[simp] theorem linkOscFollow_upd : (linkOscFollow c).upd = c.upd := by simp [linkOscFollow]
@[simp] theorem linkOscFollow_now : (linkOscFollow c).now = c.now := by simp [linkOscFollow]
theorem linkOscFollow_reg (a : Nat) (h : a ≠ Reg.LINK_STATUS) : (linkOscFollow c).reg a = c.reg a := by
  simp only [linkOscFollow]; exact Chip.reg_setB_ne _ _ _ _ h

/-- A device reset returns every register outside the RTC island to its reset value, but PAD_FEATURE, the reset cause and
what LINK_STATUS follows. -/
theorem deviceReset_reg (cause : Option Nat) (lost : Bool) (a : Nat) (h : islandOf a ≠ .rtc) (h1 : a ≠ Reg.PAD_FEATURE)
    (h2 : a ≠ Reg.PWR_RESET_CAUSE) (h3 : a ≠ Reg.LINK_STATUS) : (deviceReset cause lost c).reg a = regReset a := by
  have hp : a ≠ Reg.RTC_REF_PPB := by intro e; rw [e] at h; exact h (by decide)
  simp only [deviceReset]
  rw [linkOscFollow_reg _ _ h3, Chip.reg_setRegN_ne _ _ _ _ h2, Chip.reg_setReg_ne _ _ _ _ h1, Chip.reg_setRegN_ne _ _ _ _ hp]
  unfold Chip.reg regGet
  rw [Store.get_drop]
  simp [h]

theorem deviceReset_f (cause : Option Nat) (lost : Bool) (x : Field) (h : islandOf x.reg ≠ .rtc) (h1 : x.reg ≠ Reg.PAD_FEATURE)
    (h2 : x.reg ≠ Reg.PWR_RESET_CAUSE) (h3 : x.reg ≠ Reg.LINK_STATUS) :
    (deviceReset cause lost c).f x = (regReset x.reg).field x.lo x.w := by
  unfold Chip.f; rw [deviceReset_reg c cause lost _ h h1 h2 h3]

theorem deviceReset_dev (cause : Option Nat) (lost : Bool) : (deviceReset cause lost c).dev = devBoot := by
  unfold Chip.dev
  rw [deviceReset_f c cause lost _ (by decide) (by decide) (by decide) (by decide)]
  decide

theorem deviceReset_power (cause : Option Nat) (lost : Bool) : (deviceReset cause lost c).power = 2 := by
  unfold Chip.power
  rw [deviceReset_f c cause lost _ (by decide) (by decide) (by decide) (by decide)]
  decide

theorem deviceReset_cause (b : Nat) (lost : Bool) (h : b < 36) :
    (deviceReset (some b) lost c).regN Reg.PWR_RESET_CAUSE = 2 ^ b := by
  have hb : 2 ^ b < 2 ^ 36 := Nat.pow_lt_pow_right (by decide) h
  simp only [deviceReset]
  unfold Chip.regN
  rw [linkOscFollow_reg _ _ (by decide), Chip.reg_setRegN, Word.mk'_nat, Nat.mod_eq_of_lt hb]

@[simp] theorem deviceReset_core (cause : Option Nat) (lost : Bool) : (deviceReset cause lost c).core = Core.reset := by
  simp only [deviceReset, linkOscFollow_core, Chip.setRegN_core, Chip.setReg_core]; rfl
@[simp] theorem deviceReset_pwr (cause : Option Nat) (lost : Bool) :
    (deviceReset cause lost c).pwr = { Pwr.reset with vsys := c.pwr.vsys, brownout := c.pwr.brownout, heldInReset := c.pwr.heldInReset } := by
  simp only [deviceReset, linkOscFollow_pwr, Chip.setRegN_pwr, Chip.setReg_pwr]
@[simp] theorem deviceReset_mram (cause : Option Nat) (lost : Bool) : (deviceReset cause lost c).mems.mram = c.mems.mram := by
  simp only [deviceReset, linkOscFollow_mems, Chip.setRegN_mems, Chip.setReg_mems]

/-! ### The supply of the RTC domain (R328, R329) -/

/-- OSC_STOP stands in RTC_STATUS and LINK_STATUS alone. -/
theorem setOscStop_reg (v : Bool) (a : Nat) (h : islandOf a ≠ .rtc) (h3 : a ≠ Reg.LINK_STATUS) :
    (setOscStop c v).reg a = c.reg a := by
  have h2 : a ≠ Reg.RTC_STATUS := by intro e; rw [e] at h; exact h (by decide)
  simp only [setOscStop]
  split
  · exact Chip.reg_setB_ne _ _ _ _ h2
  · rw [Chip.reg_setB_ne _ _ _ _ h3, Chip.reg_setB_ne _ _ _ _ h2]

@[simp] theorem setOscStop_core (v : Bool) : (setOscStop c v).core = c.core := by simp only [setOscStop]; split <;> simp

/-- Nothing that happens to the RTC domain touches a register outside its island, LINK_STATUS apart. -/
theorem rtcLoss_reg (a : Nat) (h : islandOf a ≠ .rtc) (h3 : a ≠ Reg.LINK_STATUS) : (rtcLoss c).reg a = c.reg a := by
  simp only [rtcLoss]
  rw [setOscStop_reg _ _ _ h h3]
  unfold Chip.reg regGet
  rw [Store.get_drop]
  simp [h]

theorem supplyLog_reg (e a : Nat) (h : islandOf a ≠ .rtc) : (supplyLog c e).reg a = c.reg a := by
  have h1 : a ≠ Reg.RTC_SUPPLY_LOG := by intro e; rw [e] at h; exact h (by decide)
  have h2 : a ≠ Reg.RTC_SUPPLY_LOG_AT := by intro e; rw [e] at h; exact h (by decide)
  have h3 : a ≠ Reg.RTC_INT_STATUS := by intro e; rw [e] at h; exact h (by decide)
  simp only [supplyLog]
  rw [Chip.raise_reg_ne _ _ _ _ h3, Chip.reg_setRegN_ne _ _ _ _ h2, Chip.reg_setF_ne _ _ _ _ h1]

theorem rtcRelease_reg (a : Nat) (h3 : a ≠ Reg.LINK_STATUS) : (rtcRelease c).reg a = c.reg a := by
  simp only [rtcRelease]
  rw [linkOscFollow_reg _ _ h3]
  simp [Chip.reg]

theorem mainValid_reg (held : Bool) (a : Nat) (h : islandOf a ≠ .rtc) (h3 : a ≠ Reg.LINK_STATUS) :
    (mainValid held c).reg a = c.reg a := by
  have h1 : a ≠ Reg.RTC_INT_STATUS := by intro e; rw [e] at h; exact h (by decide)
  simp only [mainValid]
  split
  · split
    · rw [rtcRelease_reg _ _ h3, supplyLog_reg _ _ _ h]
    · simp only [raiseOscStop]
      rw [Chip.raise_reg_ne _ _ _ _ h1, setOscStop_reg _ _ _ h h3, rtcRelease_reg _ _ h3, rtcLoss_reg _ _ h h3]
  · rfl

@[simp] theorem supplyLog_core (e : Nat) : (supplyLog c e).core = c.core := by simp [supplyLog]
@[simp] theorem mainValid_core (held : Bool) : (mainValid held c).core = c.core := by
  simp only [mainValid]
  split
  · split <;> simp [rtcRelease, raiseOscStop, rtcLoss]
  · rfl

theorem resetDevice_live (cause : Option Nat) (lost : Bool) (o : Store Nat) (h : deadFused o = false) :
    resetDevice cause lost o c = deviceReset cause lost c := by simp [resetDevice, h]

theorem setPower_reg (p a : Nat) (h : a ≠ Reg.SYS_STATE) (h' : a ≠ Reg.PWR_STATUS) : (setPower p c).reg a = c.reg a := by
  simp only [setPower]; rw [Chip.reg_setF_ne _ _ _ _ h', Chip.reg_setF_ne _ _ _ _ h]

theorem setPower_power (p : Nat) : (setPower p c).power = p % 16 := by
  simp (disch := decide) [Chip.power, setPower, Chip.f_setF]

end Sys2Proof.Machine
end

