-- ==== Sys2Proof/Laws/Step.lean ====
section
/-! SUPPORT. What any command can do to the machine as a whole: the queue is left alone, and fuses only burn. -/

namespace Sys2Proof.Machine

/-- What a step may do to the fuses: burn bits of rows. -/
theorem onChip_next (g : Chip → Chip) (s t : State) (h : onChip g s = .next t) : t = { s with chip := g s.chip } := by
  simpa [onChip] using h.symm

theorem onChipOtp_next (g : Store Nat → Chip → Chip) (s t : State) (h : onChipOtp g s = .next t) :
    t = { s with chip := g s.otp s.chip } := by simpa [onChipOtp] using h.symm

/-- All that a command can do outside the chip: burn fuses. -/
def Burns (s : State) (o : Host.Outcome State Fault Refusal) : Prop :=
  ∃ c bs, o = .next { s with chip := c, otp := burned s.otp bs }

theorem Burns.chip (g : Chip → Chip) (s : State) : Burns s (onChip g s) := ⟨g s.chip, [], rfl⟩
theorem Burns.otp (g : Store Nat → Chip → Chip) (s : State) : Burns s (onChipOtp g s) := ⟨g s.otp s.chip, [], rfl⟩
theorem Burns.burn (g : Store Nat → Chip → Chip) (s : State) : Burns s (onChipBurn g s) := ⟨_, _, rfl⟩

/-- Every command but a RESET_N pulse of undefined length answers a next state that has the same queue and in which fuses
have at most burned. -/
theorem exec_burns (i : Instr) (s : State) (h : ∀ ns, i = .resetN ns → 1000 ≤ ns ∨ ns < 100) : Burns s (exec i s) := by
  cases i with
  | resetN ns =>
    show Burns s (execResetN ns s)
    unfold execResetN
    rcases h ns rfl with h1 | h1
    · rw [if_pos h1]; exact Burns.burn _ s
    · rw [if_neg (by omega), if_pos h1]; exact ⟨s.chip, [], rfl⟩
  | _ => first | exact Burns.chip _ s | exact Burns.otp _ s | exact Burns.burn _ s

end Sys2Proof.Machine
end

