-- ==== Sys2Proof/Tests/Slice0.lean ====
section
/-! SUPPORT. Tests of the model: ill-formed commands are refused, values the spec states come out, and every hypothesis of the
statements is met by a small state (chip, commands and operands are built by the helpers that follow). -/

namespace Sys2Proof.Tests

open Sys2Proof Sys2Proof.Machine

set_option Elab.async false

/-! ### Small states -/

/-- The chip at reset: every island on, in BOOT. -/
def c0 : Chip := State.reset.chip

/-- The chip in RUN. -/
def run : Chip := setDev devRun c0

/-- The machine about a chip. -/
def st (c : Chip) : State := { State.reset with chip := c }

/-- The chip after a command, or after a meaning. -/
def after (i : Instr) (c : Chip) : Chip := match exec i (st c) with
  | .next t => t.chip
  | _ => c
@[inherit_doc after] def by_ (f : State → Host.Outcome State Fault Refusal) (c : Chip) : Chip := match f (st c) with
  | .next t => t.chip
  | _ => c

/-- A recipe of one lane on chain A, which the scheduler drives, and four execution units. -/
def rcp : Recipe :=
  { role := 0, rollback := 0, minRevision := 0, hostPath := 1, gangSize := 2, levels := 15, sleeps := 15, islands := [], ddrRate := 2,
    partners := 4, linkBanks := 0, userBanks := 0, endpointHome := 1, groups := 0, quotas := List.replicate 8 (0, 64), sysPorts := 7,
    windows := [⟨1, 15, 15⟩, ⟨2, 15, 15⟩, ⟨3, 15, 15⟩, ⟨4, 15, 15⟩, ⟨5, 15, 15⟩], paObs := false,
    pads := [⟨3, 0, 0, 0⟩], plan := {
      settingA := 1, settingB := 1, centreA := 915000000, centreB := 915000000, schedLanes := 1, lanes := [
        { lane := 0, chain := 0, families := 7, enable := true, listen := true, freq := 915000000, phy := 0x40 }] },
    cells := [], routes := [], sections := [] }

/-- The chip in RUN under that recipe, every power state permitted. -/
def rec_ : Chip :=
  (({ run with recipe := some rcp, kept := some rcp }).setF Fld.PWR_FEATURE_LEVELS 15).setF Fld.PWR_FEATURE_SLEEPS 15

/-! ### Power -/

/-- A chip whose transition to Morning is under way and due. -/
def changing : Chip := (after (.pwrRequest 3) rec_).onPwr fun p => { p with doneAt := some 0 }

/-- PowerRequests: a request that no check refuses, idle, with one active, and for the state in force; and one refused. -/
theorem test_PowerRequests_met :
    (rec_.setF Fld.PWR_STATUS_LAST_SEQ 1).powerRefusal 3 = none ∧ rec_.power = 2 ∧ rec_.pwr.heldInReset = false ∧
    rec_.b Fld.PWR_STATUS_ACTIVE = false ∧ (changing.setF Fld.PWR_STATUS_LAST_SEQ 2).powerRefusal 4 = none ∧
    changing.b Fld.PWR_STATUS_ACTIVE = true ∧ changing.power = 2 ∧
    (rec_.setF Fld.PWR_STATUS_LAST_SEQ 1).powerRefusal 2 = none ∧
    (c0.setF Fld.PWR_STATUS_LAST_SEQ 1).powerRefusal 7 = some .stateRefused := by decide

/-- A chip that enters Dusk, one that is in Dusk, and one that enters Night. -/
def duskward : Chip := after (.pwrRequest 4) rec_
@[inherit_doc duskward] def inDusk : Chip := (after .duskEntry duskward).onPwr fun p => { p with doneAt := some 0 }
@[inherit_doc duskward] def nightward : Chip := after (.pwrRequest 5) rec_

/-- TransitionsAndIdleTimer: the three transitions; arming writes at the largest target, accepted and reserved; a full count. -/
theorem test_TransitionsAndIdleTimer_met :
    (changing.b Fld.PWR_STATUS_PENDING = false ∧ changing.pwr.activeForced = false ∧ changing.pwr.forcedNext = false ∧
      changing.f Fld.PWR_STATUS_ACTIVE_TARGET = 3) ∧
    (duskward.b Fld.PWR_STATUS_ACTIVE = true ∧ duskward.f Fld.PWR_STATUS_ACTIVE_TARGET = 4 ∧ duskward.core.accesses = [] ∧ duskward.core.stalled = none ∧
      duskward.power = 2) ∧
    (inDusk.b Fld.PWR_STATUS_ACTIVE = true ∧ inDusk.power = 4 ∧ inDusk.pwr.level = 2) ∧
    bitsOf (0x170000001 : BitVec 36).toNat 28 4 = 7 ∧ bitsOf (0x080000001 : BitVec 36).toNat 28 4 = 8 ∧
    bitOf (0x100000000 : BitVec 36).toNat 32 = true ∧ (0x100000000 : BitVec 36).toNat % 2 ^ 24 = 0 ∧
    (after (.pwrIdleArmWrite 0x170000001) rec_).b Fld.PWR_IDLE_ARM_ARMED = true ∧
    ((after (.pwrIdleArmWrite 0x170000001) rec_).setRegN Reg.PWR_IDLE_COUNT 1).f Fld.PWR_IDLE_ARM_TICKS = 1 := by decide

/-- A chip in Night whose wake sequence ends now: one whose image reads well, and one whose recipe section does not. -/
def waking : Chip := (after .sleepEntryDrained nightward).onPwr fun p => { p with doneAt := some 0 }
@[inherit_doc waking] def wakingLost : Chip :=
  { waking with mems := { waking.mems with mram := [(2, 0x10000), (0x298, 2), (0x29A, 32)], mramFlaws := [(0, 3)] } }

/-- One whose state record counts a failed start. -/
def wakingNoted : Chip := wakingLost.onUpd fun u => { u with record := some { SlotRec.empty with fails := 1 } }

/-- The islands of a sleeping chip given back, as WAKE does. -/
def wakeBack (c : Chip) : Chip :=
  (sleepOff c.power c).foldl (fun c i => if c.island i == .absent then c else c.setIsland i .on) c

/-- SleepAndWake: an entry with nothing left on the air; a wake that goes well and one that does not. -/
theorem test_SleepAndWake_met :
    (nightward.entering = true ∧ nightward.b Fld.PWR_STATUS_ENTRY_WAIT = true ∧ nightward.power = 2 ∧
      nightward.radio.frames = [] ∧ nightward.radio.carriers = [] ∧ nightward.radio.acks = []) ∧
    waking.power = 5 ∧ (wakeBack waking).wakeFails (waking.kept.getD (parseRecipe [])) = false ∧
    (wakeBack wakingLost).wakeFails (wakingLost.kept.getD (parseRecipe [])) = true ∧ wakingLost.upd.record = none ∧
    (wakeBack wakingNoted).wakeFails (wakingNoted.kept.getD (parseRecipe [])) = true ∧
    wakingNoted.upd.record = some { SlotRec.empty with fails := 1 } := by decide +kernel
/-- A chip held by a brown-out. -/
def brown : Chip := c0.onPwr fun p => { p with brownout := true }

/-- ResetsIntoBoot, BrownOut, OnlyTheUndefinedPulseStops: fuses without DEAD; in and out of a brown-out; both boards. -/
theorem test_Resets_met :
    deadFused State.reset.otp = false ∧ c0.pwr.brownout = false ∧ brown.pwr.brownout = true ∧
    c0.b Fld.PWR_STATUS_ACTIVE = false ∧ c0.b Fld.PWR_STATUS_PENDING = false ∧ c0.b Fld.RTC_CTRL_NO_BACKUP = false ∧
    (c0.setB Fld.RTC_CTRL_NO_BACKUP true).b Fld.RTC_CTRL_NO_BACKUP = true ∧
    Safety.stops (exec (.resetN 100) (st c0)) = true ∧ Safety.stops (exec (.resetN 999) (st c0)) = true ∧
    Safety.stops (exec (.resetN 1000) (st c0)) = false ∧ after (.resetN 99) c0 = c0 := by decide

/-- A chip that has sampled hot twice, and one that has sampled cool twice since. -/
def hot : Chip := after (.thermalSample 125 3300) (after (.thermalSample 125 3300) rec_)
@[inherit_doc hot] def cooled : Chip := after (.thermalSample 114 3300) (after (.thermalSample 114 3300) hot)

/-- GuardAndPads: the counts of samples, the states in which pads are released, and boundary scan; the guard trips at the
second sample of 125 °C and lets go at the second below 115 °C. -/
theorem test_GuardAndPads_met :
    rec_.awake = true ∧ rec_.pwr.brownout = false ∧ (after (.thermalSample 125 3300) rec_).pwr.hot = 1 ∧
    (after (.thermalSample 114 3300) hot).pwr.cool = 1 ∧ hot.b Fld.PWR_STATUS_THERMAL_HOLD = true ∧
    cooled.b Fld.PWR_STATUS_THERMAL_HOLD = false ∧ rec_.dev = devRun ∧ rec_.scan = false ∧ c0.dev = devBoot ∧
    (after (.boundaryScan true) rec_).scan = true ∧ rec_.power ≠ 7 ∧ rec_.regServed Reg.PAD_STATUS = true := by decide

/-! ### RTC -/

/-- A chip whose RTC has a SET to a time pending, or to a time past its range. -/
def setting : Chip := rtcTick (after .set ((after .oscRecovered run).setRegN Reg.RTC_SET_SECONDS 1000))
@[inherit_doc setting] def settingLate : Chip := rtcTick (after .set ((after .oscRecovered run).setRegN Reg.RTC_SET_SECONDS (rtcLastSecond + 1)))
@[inherit_doc setting] def snapping : Chip := rtcTick (after .snap (after .oscRecovered run))

/-- RtcCommands: the pending command absent and present, the RTC on and locked out; times in range, at its end, and past it. -/
theorem test_RtcCommands_met :
    run.isOn .rtc = true ∧ run.rtc.pending = none ∧ (run.setIsland .rtc .isolated).isOn .rtc = false ∧
    setting.rtc.pending = some .set ∧ setting.rtc.cmdDue = true ∧ setting.b Fld.RTC_STATUS_OSC_RUNNING = true ∧ setting.regI Reg.RTC_SET_SECONDS = 1000 ∧
    ((1000 : Int) ≤ rtcLastSecond) ∧ setting.regN Reg.RTC_SET_FRAC = 0 ∧ (∀ a, a < 4 → setting.alarmArmed a = false) ∧
    (after .set run).rtc.cmdDue = false ∧ (after .set run).b Fld.RTC_STATUS_OSC_RUNNING = false ∧
    snapping.rtc.snapDue = true ∧ snapping.rtc.adjDue = false ∧ snapping.rtc.cmdDue = false ∧
    settingLate.rtc.pending = some .set ∧ settingLate.rtc.cmdDue = true ∧ (rtcLastSecond : Int) < settingLate.regI Reg.RTC_SET_SECONDS ∧
    (after .snap run).rtc.snap = true ∧ (after .rtcCmdApply setting).regN Reg.RTC_SECONDS = 1000 := by decide +kernel

/-- A chip with a SHIFT at its tick: an hour in, with an adjustment made; and one at the counter's start. -/
def shifting (z : Int) (made : Int) (now : Nat) : Chip :=
  let c := rtcTick (after .oscRecovered run)
  let d := rtcSetCounter c now
  { d with rtc := { d.rtc with pending := some (.shift z), cmdDue := true, adjMade := made, periodTick := 4094 } }

/-- RtcCommands: SHIFT by nothing, within the range from its first to its last value, and past each end; one that waits with another
command pending; a negative SET; SNAP with the command of its tick still to come. -/
theorem test_RtcCommands_shift :
    (shifting 0 0 9).rtc.pending = some (.shift 0) ∧ (shifting 0 0 9).b Fld.RTC_STATUS_OSC_RUNNING = true ∧ (shifting 0 0 9).rtc.cmdDue = true ∧
    (after .rtcCmdApply (shifting (-8) 1 9)).rtcNow = 0 ∧ (after .rtcCmdApply (shifting (-8) 1 9)).rtc.adjLost = true ∧
    ((shifting (-8) 1 9).rtcNow : Int) - (shifting (-8) 1 9).rtc.adjMade + -8 = 0 ∧ (∀ a, a < 4 → (shifting (-8) 1 9).alarmArmed a = false) ∧
    ((shifting (-9) 1 9).rtcNow : Int) - (shifting (-9) 1 9).rtc.adjMade + -9 < 0 ∧
    ((rtcLastSecond + 1) * 32768 : Nat) ≤ ((shifting 2 1 ((rtcLastSecond + 1) * 32768 - 1)).rtcNow : Int) - 1 + 2 ∧
    (after .rtcCmdApply (shifting 1 1 ((rtcLastSecond + 1) * 32768 - 1))).rtcNow = (rtcLastSecond + 1) * 32768 - 1 ∧
    (after .set run).rtc.pending.isSome = true ∧ (5 : BitVec 16) ≠ 0x8000#16 ∧ (0x8001 : BitVec 16) ≠ 0x8000#16 ∧
    (after (.shift 5) (after .set run)).rtc.pending = some (.shift 5) ∧
    (rtcTick (after .set ((after .oscRecovered run).setRegN Reg.RTC_SET_SECONDS (2 ^ 36 - 1)))).regI Reg.RTC_SET_SECONDS < 0 ∧
    (rtcTick (after .set (after .snap (after .oscRecovered run)))).rtc.snapDue = true ∧
    (rtcTick (after .set (after .snap (after .oscRecovered run)))).rtc.cmdDue = true := by decide +kernel

/-- A chip whose RTC has a compensation period, an adjustment, the end of the range and an alarm due. -/
def ticking : Chip :=
  let c := after (.alarmArm 3) (run.setF Fld.RTC_COMP_STATUS_TICKS 1)
  { c with rtc := { c.rtc with periodDue := true, adjDue := true, endDue := true, alarmDue := [3] } }

/-- One whose adjustment falls at the end of the range, one that drops a fraction, and one whose alarm's time had passed. -/
def tickingLast : Chip := ticking.setRegN Reg.RTC_SECONDS rtcLastSecond |>.setRegN Reg.RTC_FRAC 32767
@[inherit_doc tickingLast] def tickingBack : Chip := (ticking.setRegN Reg.RTC_SECONDS 9).setF Fld.RTC_COMP_STATUS_TICKS 511
@[inherit_doc tickingLast] def tickingSkipped : Chip := rtcTick (after (.alarmArm 3) (after .oscRecovered run))
@[inherit_doc tickingLast] def tickingOff : Chip :=
  setPower 7 (tickingSkipped.setF Fld.PWR_WAKE_ENABLE_ALARM 1)

/-- One whose counter has reached the end with an adjustment that drops a fraction, one with a command still to come, one without
compensation, and one at each edge of the backup cell's level. -/
def tickingEnd : Chip :=
  let c := tickingBack.setRegN Reg.RTC_SECONDS 0
  { c with rtc := { c.rtc with endDue := true } }
@[inherit_doc tickingEnd] def tickingAdj : Chip := { tickingSkipped with rtc := { tickingSkipped.rtc with adjDue := true, cmdDue := false } }

/-- RtcTicks: the edges of its clauses. -/
theorem test_RtcTicks_edges :
    (after (.compPeriod 25 3000 0) run).rtc.periodDue = false ∧ run.rtc.adjDue = false ∧ run.rtc.endDue = false ∧ (run.alarmArmed 3 = false) ∧
    run.isOn .rtc = true ∧ (run.setIsland .rtc .isolated).isOn .rtc = false ∧
    tickingLast.rtcNow + 1 = (rtcLastSecond + 1) * 32768 ∧ 0 < tickingLast.compTicks ∧
    tickingBack.compTicks < 0 ∧ tickingBack.rtcNow < (rtcLastSecond + 1) * 32768 ∧
    tickingSkipped.alarmArmed 3 = true ∧ tickingSkipped.rtc.alarmSkipped.contains 3 = true ∧
    tickingEnd.compTicks < 0 ∧ tickingEnd.rtc.endDue = true ∧ tickingEnd.rtc.adjDue = true ∧ tickingEnd.rtc.adjLost = false ∧
    tickingBack.rtc.adjDue = true ∧ 0 < tickingBack.rtcNow ∧ tickingAdj.rtc.adjDue = true ∧
    tickingSkipped.rtc.adjDue = false ∧ tickingSkipped.rtc.cmdDue = false ∧ tickingSkipped.b Fld.RTC_STATUS_RANGE_END = false ∧
    tickingSkipped.pwr.doneAt = none ∧ tickingOff.pwr.doneAt = none ∧ run.b Fld.RTC_CTRL_COMP_ENABLE = true ∧
    (run.setB Fld.RTC_CTRL_COMP_ENABLE false).b Fld.RTC_CTRL_COMP_ENABLE = false ∧ run.rtc.onVbat = false ∧
    run.b Fld.RTC_CTRL_NO_BACKUP = false ∧ run.regN Reg.RTC_BACKUP_LEVEL = 2200 ∧
    tickingOff.power = 7 ∧ tickingOff.pwr.brownout = false ∧ tickingOff.b Fld.PWR_WAKE_ENABLE_ALARM = true := by decide +kernel

/-- RtcTicks: everything that can fall due does. -/
theorem test_RtcTicks_met :
    ticking.rtc.periodDue = true ∧ ticking.rtc.adjDue = true ∧ ticking.rtc.adjLost = false ∧
    ticking.b Fld.RTC_STATUS_RANGE_END = false ∧ 0 < ticking.compTicks ∧ ticking.rtcNow + 1 < (rtcLastSecond + 1) * 32768 ∧
    ticking.rtc.endDue = true ∧ ticking.alarmArmed 3 = true ∧ ticking.rtc.alarmDue.contains 3 = true ∧ ticking.power ≤ 6 := by
  decide +kernel

/-- A chip whose RTC runs from VBAT. -/
def onCell : Chip := after .switchToVbat run

/-- RtcSupply: on main and on VBAT, locked out or not, with a backup cell. -/
theorem test_RtcSupply_met :
    run.rtc.onVbat = false ∧ onCell.rtc.onVbat = true ∧ (after .rtcLockout run).rtc.lockout = true ∧
    (after .rtcLockout run).rtc.onVbat = false ∧ onCell.b Fld.RTC_CTRL_NO_BACKUP = false ∧
    (after .oscStopped run).b Fld.RTC_STATUS_OSC_STOP = true := by decide +kernel

/-! ### Timers -/

/-- A chip whose timer 0 mirrors the grain counter, and whose timers 0 and 1 make a chained pair. -/
def mirroring : Chip := run.setF (Fld.TMR_CTRL_MODE 0) 1
@[inherit_doc mirroring] def chained : Chip := run.setB (Fld.TMR_CTRL_CHAIN 0) true

/-- A chip whose compare of timer 2 matches. -/
def matching : Chip := (by_ (execTmrCmpWrite 2 3 5) run).onFab fun f => { f with onTime := [channel 2 3] }

/-- TimerTasks, TimerWrites, LatchingReads: the first timers plain, mirroring, chained and running; the fabric on and off; a
compare that is no wide one; a count latched. -/
theorem test_Timers_met :
    run.tmrMirror 0 = false ∧ run.tmrChainedOdd 15 = false ∧ mirroring.tmrMirror 0 = true ∧ chained.tmrChainedOdd 1 = true ∧
    mirroring.isOn .evf = true ∧ chained.isOn .evf = true ∧ chained.tmrRuns 1 = false ∧
    run.isOn .evf = true ∧ (run.setIsland .evf .off).isOn .evf = false ∧ run.tmrRuns 15 = false ∧
    (after (.tmrStart 15) run).tmrRuns 15 = true ∧ run.fab.tick = .none_ ∧ run.tmrMatched 15 = false ∧ run.ranBefore 15 = false ∧
    (after (.compareFire 2 3) matching).tmrMatched 2 = true ∧ (after (.compareFire 2 3) matching).tmrMirror 2 = false ∧
    (after (.tmrStop 15) run).fab.tick.stopped.contains 15 = true ∧ (after (.tmrStop 15) run).tmrMatched 15 = false ∧
    (by_ (execTmrCountWrite 15 6) run).fab.tick.counted.contains 15 = true ∧
    (after (.tmrSnap 15) run).fab.tick.snapped.contains 15 = true ∧ run.fab.tick.captured = [] ∧ run.tmrWide 15 3 = false ∧ run.tmrSilent 15 3 = false ∧ run.power ≠ 7 ∧
    Store.get Word.absent (after (.tmrPairRead 4 0 false) chained).shadows (shadowKey 4 (Reg.TMR_COUNT 1)) ≠ .absent ∧
    run.isOn .rtc = true := by decide +kernel

/-- A chip whose timer 2 has a compare due: on time, late, and with RELOAD; and one that wrapped. -/
def dueNow : Chip := (by_ (execTmrCmpWrite 2 3 5) run).onFab fun f => { f with onTime := [channel 2 3], wrapped := [15] }
@[inherit_doc dueNow] def dueLate : Chip := { by_ (execTmrCmpWrite 2 3 5) (by_ (execTmrCountWrite 2 6) run) with now := run.now + 1 }
@[inherit_doc dueNow] def reloading : Chip := dueNow.setB (Fld.TMR_CCFG_RELOAD 2 3) true

/-- A chip whose capture channel 7 takes rising edges of its pin, every one or every second. -/
def capturing : Chip :=
  (((run.setB (Fld.CAP_CTRL_ENABLE 7) true).setF (Fld.CAP_CTRL_EDGE 7) 1).setF Fld.TMR_FEATURE_CAP_PINS 255).setPin (capPad 7) true
@[inherit_doc capturing] def capturing2 : Chip := capturing.setF (Fld.CAP_CTRL_EDGE_PRESCALE 7) 1

/-- ComparesAndCaptures: compares due on time and late; a wrap; edges that capture, only count, and are not selected. -/
theorem test_ComparesAndCaptures_met :
    (dueNow.cmpArmed 2 3 = true ∧ dueNow.fab.onTime.contains (channel 2 3) = true ∧ dueNow.tmrWide 2 3 = false ∧
      dueNow.b (Fld.TMR_CCFG_RELOAD 2 3) = false ∧ dueNow.fab.wrapped.contains 15 = true ∧ run.fab.wrapped.contains 15 = false) ∧
    dueLate.cmpArmed 2 3 = true ∧ dueLate.lateDue (channel 2 3) = true ∧ dueNow.tmrSilent 2 3 = false ∧
    ({ dueLate with now := run.now }).lateDue (channel 2 3) = false ∧ dueLate.fab.onTime.contains (channel 2 3) = false ∧
    reloading.cmpArmed 2 3 = true ∧ reloading.b (Fld.TMR_CCFG_RELOAD 2 3) = true ∧
    (capturing.isOn .evf = true ∧ capturing.b (Fld.CAP_CTRL_ENABLE 7) = true ∧
      (capturing.f Fld.TMR_FEATURE_CAP_PINS).testBit 7 = true ∧ capturing.b (Fld.CAP_STATUS_LEVEL 7) = false ∧
      edgeSelected (capturing.f (Fld.CAP_CTRL_EDGE 7)) true = true ∧ capturing.capHeld 7 true = true ∧
      capturing.capHeld 7 false = false ∧ (capturing.setF (Fld.CAP_CTRL_FILTER 7) 2).capHeld 7 true = false ∧
      capturing.f (Fld.CAP_CTRL_EDGE_PRESCALE 7) = capturing.f (Fld.CAP_STATUS_EDGES 7)) ∧
    capturing2.f (Fld.CAP_STATUS_EDGES 7) < capturing2.f (Fld.CAP_CTRL_EDGE_PRESCALE 7) ∧
    edgeSelected ((capturing.setB (Fld.CAP_STATUS_LEVEL 7) true).f (Fld.CAP_CTRL_EDGE 7)) false = false := by decide +kernel

/-- A chip whose timers 0 and 1 make a pair with a 72-bit compare on channel 3, due now, staying armed or not. -/
def wide : Chip := (chained.setB (Fld.TMR_CCFG_WIDE 1 3) true)
@[inherit_doc wide] def wideDue (reload : Bool) : Chip :=
  ((by_ (execTmrCmpWrite 1 3 5) wide).setB (Fld.TMR_CCFG_RELOAD 1 3) reload).onFab fun f => { f with onTime := [channel 1 3] }

/-- TimerWrites, ComparesAndCaptures: 72-bit compares. -/
theorem test_Wide_met :
    wide.isOn .evf = true ∧ wide.tmrWide 1 3 = true ∧ wide.tmrSilent 0 3 = true ∧
    ((wideDue true).cmpArmed 1 3 = true ∧ (wideDue true).fab.onTime.contains (channel 1 3) = true ∧ (wideDue true).tmrWide 1 3 = true) ∧
    (wideDue false).cmpArmed 1 3 = true ∧ (after (.compareFire 1 3) (wideDue true)).pairCmp 1 3 = 5 * 2 ^ 36 + 1 := by decide +kernel

/-! ### Event fabric -/

/-- A chip in RUN whose pin 3 is a GPIO that both edges select, and whose GPIO task 31 sets, clears or toggles it. -/
def gpio (act : Nat) : Chip :=
  (((rec_.setReg (Reg.EVF_GPIO_EDGE 0) (.bits (3 * 2 ^ 6))).setF (Fld.EVF_GPIO_TASK_PIN 31) 3).setF (Fld.EVF_GPIO_TASK_ACTION 31) act)

@[inherit_doc gpio] def gpioDriven : Chip := ((gpio 3).setB Fld.PAD_STATUS_LATCHED false).setB (gpioOe 3) true

/-- PinsAndSoftwareEvents: an edge selected and one not; the three actions; a pin without the function; both ends of the
software events. -/
theorem test_PinsAndSoftwareEvents_met :
    run.isOn .evf = true ∧ (gpio 1).b (gpioIn 3) = false ∧
    edgeSelected (bitsOf ((gpio 1).regN (Reg.EVF_GPIO_EDGE (3 / 18))) (2 * (3 % 18)) 2) true = true ∧
    edgeSelected (bitsOf (run.regN (Reg.EVF_GPIO_EDGE (39 / 18))) (2 * (39 % 18)) 2) true = false ∧ run.b (gpioIn 39) = false ∧
    (gpio 1).gpioNamed ((gpio 1).f (Fld.EVF_GPIO_TASK_PIN 31)) = true ∧ (gpio 1).f (Fld.EVF_GPIO_TASK_ACTION 31) = 1 ∧
    (gpio 2).f (Fld.EVF_GPIO_TASK_ACTION 31) = 2 ∧ (gpio 3).f (Fld.EVF_GPIO_TASK_ACTION 31) = 3 ∧
    run.gpioNamed (run.f (Fld.EVF_GPIO_TASK_PIN 31)) = false ∧ gpioDriven.gpioNamed (gpioDriven.f (Fld.EVF_GPIO_TASK_PIN 31)) = true ∧
    gpioDriven.f (Fld.EVF_GPIO_TASK_ACTION 31) = 3 ∧ gpioDriven.power ≠ 7 ∧ gpioDriven.b Fld.PAD_STATUS_LATCHED = false ∧
    gpioDriven.f (Fld.PAD_CFG_FUNCTION 3) = 0 ∧ gpioDriven.b (gpioOe 3) = true ∧
    gpioDriven.scan = false ∧ gpioDriven.padState 3 = .low ∧ (gpioEnd (after (.gpioTask 31) gpioDriven)).padState 3 = .high ∧ gpioDriven.fab.gpioTasks = [] ∧
    run.fab.fired = [] ∧ (after (.swFire 11 0xFFFFFFF) run).fab.fired = [⟨0xFB, some 0xFFFFFFF, 0, run.now + 1⟩] := by decide +kernel

/-- A chip that holds a gang event on line 15, due now, and late. -/
def gangHeld : Chip := run.onFab fun f => { f with gang := [{ line := 15, chip := 0, payload := 1, due := 0, late := true }] }

/-- GangEvents: a line free and busy; an event held and none. -/
theorem test_GangEvents_met :
    run.isOn .chain = true ∧ Store.get 0 run.fab.gangLast 15 = 0 ∧
    Store.get 0 (by_ (execGangOut 15 1) run).fab.gangLast 15 ≠ 0 ∧
    (by_ (execGangOut 15 1) run).now + 1 < Store.get 0 (by_ (execGangOut 15 1) run).fab.gangLast 15 + 16 ∧
    (let c : Chip := { (by_ (execGangOut 15 1) run) with now := 16 };
      Store.get 0 c.fab.gangLast 15 + 16 ≤ c.now + 1 ∧ Store.get 0 c.fab.gangLast 15 ≠ 0) ∧ run.fab.delays = [] ∧
    gangHeld.fab.gang.length = 1 ∧ gangHeld.fab.gang.all (fun e => decide (e.due ≤ gangHeld.now)) = true ∧ run.fab.gang = [] := by
  decide +kernel

/-- A chip with a route from source 0xF0 to the SNAP task of timer 15, the source fired. -/
def routed : Chip :=
  { run with recipe := some { rcp with routes := [⟨32 + 4 * 15 + 3, 0xF0⟩] }
             fab := { run.fab with fired := [⟨0xF0, some 7, 0, run.now⟩] } }

/-- A cell with the shortest filter. -/
def cell : CellRec := { ins := [0xF0], lut := 2, enable := true, ff := false, filter := 1 }

/-- A chip with that cell, whose value has held for some ticks. -/
def celled (n : Nat) : Chip :=
  setCellSt 0 { run.cellSt 0 with run := true, runLen := n }
    { run with recipe := some { rcp with cells := [cell] } }

/-- FabricPass: a pass made and one to make; a source open and masked; a filter full and not. -/
theorem test_FabricPass_met :
    (after .eventDelivery routed).fab.passed = true ∧ (routed.fab.fired.all fun x => decide (x.due ≤ routed.now)) = true ∧
    ({ routed with now := 1 }).srcMasked 0xF0 = false ∧ routed.cellsOn = [] ∧ routed.fab.passed = false ∧
    routed.srcMasked 0xF0 = false ∧ (routed.setReg (Reg.EVF_SRC_MASK 7) (.bits (2 ^ 32 - 1))).srcMasked 0xF0 = true ∧
    ((celled 2).cellsOn.find? fun e => e.1 == 0) = some (0, cell) ∧ 0 < cell.len ∧ cell.len ≤ ((celled cell.len).cellSt 0).runLen ∧
    ((celled (cell.len - 1)).cellSt 0).runLen < cell.len := by decide +kernel

/-! ### Check units -/

/-- A chip whose check unit 7 runs a CRC and takes a task, or whose source is one of a kind; and one whose unit ended a stream the
tick before. -/
def checking (task src : Nat) : Chip := ((run.setB (Fld.CHK_CTRL_ENABLE 7) true).setF (Fld.CHK_CTRL_TASK 7) task).setF (Fld.CHK_CTRL_SRC 7) src
@[inherit_doc checking] def ended (task : Nat) : Chip :=
  { (chkTasksEnd (by_ (execEnd 7) (checking 1 5))).setF (Fld.CHK_CTRL_TASK 7) task with now := run.now + 1 }
@[inherit_doc checking] def resting (task : Nat) : Chip := (checking task 5).setB (Fld.CHK_CTRL_ENABLE 7) false

/-- CheckUnits: a unit that serves and one that is busy, enabled and not, with each task chosen and another; streams of both kinds. -/
theorem test_CheckUnits_met :
    (∀ t, t < 3 → (checking t 5).isOn .link = true ∧ (checking t 5).chkBusy 7 = false ∧ (checking t 5).f (Fld.CHK_CTRL_TASK 7) = t ∧
      (checking t 5).fab.chkTasks = [] ∧ (checking t 5).b (Fld.CHK_CTRL_ENABLE 7) = true ∧ ((checking t 5).chkUnit 7).dropped = false ∧
      (ended t).chkBusy 7 = true ∧ (ended t).f (Fld.CHK_CTRL_TASK 7) = t ∧ (ended t).isOn .link = true ∧
      (resting t).b (Fld.CHK_CTRL_ENABLE 7) = false ∧ (resting t).chkBusy 7 = false ∧ (resting t).f (Fld.CHK_CTRL_TASK 7) = t) ∧
    (checking 3 5).f (Fld.CHK_CTRL_TASK 7) ≠ 2 ∧ ((checking 1 5).chkUnit 7).waitFrame = false ∧
    (checking 1 5).f (Fld.CHK_CTRL_END_MODE 7) = 0 ∧ (checking 1 1).f (Fld.CHK_CTRL_SRC 7) = 1 ∧ 5 ≤ (checking 1 5).f (Fld.CHK_CTRL_SRC 7) ∧
    ((checking 1 5).setB (Fld.CHK_CTRL_COMPARE 7) true).chkResult 7 % 2 ^ 36 ≠
      ((checking 1 5).setRegN (Reg.CHK_EXPECT 7) 5).regN (Reg.CHK_EXPECT 7) := by decide +kernel

/-! ### The core -/

/-- A chip whose core runs: privileged, with words of several tags in its registers. -/
def core : Chip :=
  [(0x20, Word.int 5), (0x21, .mk' .ptr 1000), (0x22, .mk' .code 49151), (0x23, .mk' .code 49152), (0x24, .bits 1),
    (0x25, .mk' .poison 0), (0x26, .mk' .ptr 1), (0x27, .int 0), (0x808, .int 3), (0x811, .bits 1)].foldl
    (fun c p => c.setPort p.1 p.2) { rec_ with core := { rec_.core with running := true } }

/-- The same with code that is not privileged; at level 1; and waiting. -/
def user : Chip := core.setPort 0x811 (.bits 0)
@[inherit_doc user] def level1 : Chip := { core with core := { core.core with cur := 1 } }
@[inherit_doc user] def waiting : Chip := { core with core := { core.core with waiting := true, waitUntil := some 0 } }

/-- The core's statements: at rest, with each kind of unit in a window that every bus reaches, and sources that give words. -/
theorem test_core_met :
    Safety.coreAtRest core = true ∧ Safety.coreAtRest user = true ∧ Safety.coreAtRest level1 = true ∧
    (∀ w : Fin 5, (core.window w.val).type = w.val + 1 ∧ (core.window w.val).writeBuses.testBit 3 = true ∧
      (core.window w.val).readBuses.testBit 3 = true) ∧
    Safety.operandWord core (.int 7) = some (.int 7) ∧ Safety.operandWord core (.port 0x22) = some (.mk' .code 49151) ∧
    Safety.filePort 0x5F = true := by decide +kernel

/-- A result that is a word. -/
def gives (r : UnitResult) : Bool := match r with
  | .ok _ => true
  | .trap _ => false

/-- TagAlgebra, AluTriggers, MulBitTagTriggers: for every operation operands with a result and operands that trap. -/
theorem test_units_met :
    (∀ e ∈ Safety.aluRows, gives (alu e.2 (.int 1) (.int 1)) = true ∧ alu e.2 (.int 1) (.mk' .absent 0) = .trap .tag) ∧
    (∀ e ∈ Safety.mulRows, gives (mulUnit e.2 (.int 1) (.int 1)) = true ∨ gives (mulUnit e.2 (.mk' .sample 5) (.int 5)) = true ∨
      gives (mulUnit e.2 (.mk' .sample 5) (.mk' .sample 5)) = true) ∧
    (∀ e ∈ Safety.mulRows, mulUnit e.2 (.int 1) (.bits 1) = .trap .tag) ∧
    mulUnit .div (.int (-7)) (.int 2) = .ok (.int (-3)) ∧ divRem (.int (-7)) (.int 2) = .int (-1) ∧
    mulUnit .div (.int 7) (.int 0) = .trap .value ∧
    (∀ e ∈ Safety.bitRows, gives (bitUnit e.2 (.bits 1) (.bits 1) (.bits 1)) = true ∧
      bitUnit e.2 (.bits 1) (.bits 1) (.mk' .poison 0) = .trap .tag) ∧
    retag (.int 1) (.bits 1) = .ok (.mk' .grain 1) ∧ retag (.int 9) (.bits 1) = .trap .value ∧
    untag (.mk' .absent 0) = .trap .tag ∧ untag (.int 3) = .ok (.bits 3) := by decide +kernel

/-- A chip whose oldest access is of a kind, to a word of the data memory, at the start of its queue. -/
def fetching (k : LsuKind) : Chip :=
  setQueue 2 [none] { core with core := { core.core with
    accesses := [{ window := 2, kind := k, ptr := 8191, data := .int 9, data2 := .int 0, slots := 1 }] } }

/-- LoadsAndStores: an access that goes and one that its checks refuse, for every trigger; accesses that complete, and none; a
result that waits and an empty queue. -/
theorem test_LoadsAndStores_met :
    (∀ e ∈ Safety.lsuRows, core.lsuTrap e.2 (core.port 0x21) (core.port (windowBase 4)) = none ∨
      core.lsuTrap e.2 (core.port 0x21) (.int 1) = none) ∧
    (∀ e ∈ Safety.lsuRows, core.lsuRoom 2 e.2 = true ∧ core.lsuTrap e.2 (.int 1) (.int 1) = some .tag) ∧
    (fetching .ld).isOn .core = true ∧ (fetching .ld).isOn .memD = true ∧ spaceOf 8191 = 0 ∧ (fetching .ld).flaw 8191 = [] ∧
    (fetching .ld).queue 2 = [none] ∧ core.core.accesses = [] ∧ core.queue 2 = [] ∧
    (setQueue 2 [some (.int 9)] core).queue 2 = [some (.int 9)] := by decide +kernel

/-- BranchesAndRepeat, CoreControl: targets at the last bundle and past it; a relative target; counts; levels and privilege. -/
theorem test_BranchesAndControl_met :
    (core.port 0x22).tag = .code ∧ (core.port 0x22).nat < 49152 ∧ (core.port 0x23).tag = .code ∧ 49152 ≤ (core.port 0x23).nat ∧
    (core.core.pc : Int) + (Word.int 5).toInt = (5 : Nat) ∧ (core.port 0x808).nat ≠ 0 ∧ core.core.cur ≠ 4 ∧
    level1.priv = true ∧ level1.core.cur ≠ 0 ∧ core.priv = true ∧ (core.port 0x24).tag = .bits ∧ (core.port 0x24).nat = 1 ∧
    user.priv = false ∧ (0 : Int) ≤ (core.port 0x27).toInt := by decide +kernel

/-- A chip whose core event input 31 counts, or holds one event, enabled at level 3. -/
def counting : Chip := setInput (core.setPort (0x880 + 31) (.bits (1 + 3 * 4 + 16))) 31 ⟨.int 0, 65534⟩
@[inherit_doc counting] def latched : Chip := setInput (core.setPort (0x880 + 31) (.bits (1 + 3 * 4))) 31 ⟨.int 0, 1⟩
/-- CoreEvents: inputs empty, latched and counting up to one below the limit; an interrupt; a wait that may end; a bundle of
empty slots. -/
theorem test_CoreEvents_met :
    (core.input 31).count = 0 ∧ counting.evCount 31 = true ∧ (counting.input 31).count < 65535 ∧
    latched.evCount 31 = false ∧ (latched.input 31).count ≠ 0 ∧ latched.core.paused = false ∧ latched.isOn .core = true ∧
    latched.canIssue = true ∧ latched.core.stalled = none ∧ latched.interruptLevel = 3 ∧
    Safety.coreAtRest { latched with core := { latched.core with cur := 3 } } = true ∧
    (evInputs.find? fun j => latched.evReady j && latched.evLevel j == 3) = some 31 ∧
    waiting.core.waiting = true ∧ (waiting.core.waitUntil = some 0 ∧ 0 ≤ waiting.now) ∧
    (fetchBundle core).1 = [0, 0, 0, 0] ∧ (fetchBundle core).2 = core := by decide +kernel

/-! ### Operations in engines -/

/-- A chip with octets in the data memory from 0x1000, a key in each cell and both master keys, its DRBG seeded,
the endpoint table begun with a right record, and one ticket launched for an operation. -/
def asked (code : Nat) (args : List Word) (base : Chip := rec_) : Chip :=
  let c := (((base.setF Fld.LINK_FEATURE_PARTNER_ENTRIES 8).setRegN Reg.MEM_ENDPOINT_LIMIT 8).setRegN Reg.MEM_ENDPOINT_SRAM 8).setB Fld.SEC_STATUS_DRBG_READY true
  let rec_words := [(ptrOf 2 4, Word.bits 1), (ptrOf 2 5, .bits 2), (ptrOf 2 6, .int 3), (ptrOf 2 7, .bits (2 ^ 35 + 7))]
  let words := (List.range 34).map (fun k => (0x1000 + k, Word.bits k)) ++ [(0x1022, .int 3), (0x1023, .bits 4)]
  { c with
    mems := { c.mems with words := words ++ rec_words }
    sec := { c.sec with cells := [(0, [1]), (15, [2])], nmk := [(0, [3]), (1, [4])], kem := some [5], idSeed := some [6] }
    tk := { c.tk with held := [{ number := 0, cls := 0, gen := 1, code := code, args := args, state := 1, steps := 0, result := .int 0,
                                 doneAt := 0, priv := true, prog := 0, sweep := none, stalled := false, dram := none }] } }

/-- The ticket's work. -/
def workOf (code : Nat) (args : List Word) : Work :=
  { code := code, args := args, steps := 0, prog := 0, sweep := none, running := false, host := false }

/-- The operation is the next work of its engine. -/
def due (code : Nat) (args : List Word) (base : Chip := rec_) : Bool :=
  ((asked code args base).engineFor (.held 0)).any (fun e => (asked code args base).alone e (.held 0)) && (asked code args base).work (.held 0) == some (workOf code args)

/-- The chip as the operation finds it. -/
def begun (code : Nat) (args : List Word) (base : Chip := rec_) : Chip :=
  Safety.opBegun (.ticket 0) (workOf code args) (asked code args base)

/-- Octets that read well. -/
def reads (c : Chip) (w : Word) (n : Nat) (spaces : List Nat) : Bool := c.bufferOk w n spaces &&
  match readOctets w.nat n c with
  | (.ok _, _) => true
  | _ => false

/-- A destination that takes octets. -/
def takes (c : Chip) (w : Word) (n : Nat) : Bool := c.destOk w n [0] && c.spaceAccess 0 == .served

/-- The handle of endpoint 1 or another. -/
def hdl (i : Nat) : Word := .mk' .handle (2 ^ 34 + i)

/-- A pointer. -/
def ptr (p : Nat) : Word := .mk' .ptr p

/-- A chip as REC_READ finds it. -/
def recs : Chip := begun 0x10 [hdl 1, ptr 0x2000]

/-- RecordOperations: a record named, buffers that serve; a counter above the stored one and one that is not. -/
theorem test_RecordOperations_met :
    due 0x10 [hdl 1, ptr 0x2000] = true ∧ due 0x11 [hdl 1, ptr 0x1020] = true ∧ due 0x12 [hdl 7, .int 1, .bits 2] = true ∧
    due 0x13 [hdl 1, .int 1, .bits 8] = true ∧ recs.takeoverAhead (hdl 1) = false ∧ recs.endpointOf (hdl 1) = some 1 ∧
    recs.endpointOf (hdl 7) = some 7 ∧ recs.endpointOf (hdl 8) = none ∧ recs.recordStopped (recs.recordPtr 1) = false ∧
    recs.recordBuffer (ptr 0x2000) = true ∧ recs.recordStopped 0x2000 = false ∧
    (∀ k, k < 4 → recs.inPartners (0x2000 + k) = false) ∧
    (asked 0x10 [hdl 1, ptr 0x2000]).worksInDram (workOf 0x10 [hdl 1, ptr 0x2000]) = false ∧
    (asked 0x11 [hdl 1, ptr 0x1020]).worksInDram (workOf 0x11 [hdl 1, ptr 0x1020]) = false ∧
    (asked 0x12 [hdl 7, .int 1, .bits 2]).worksInDram (workOf 0x12 [hdl 7, .int 1, .bits 2]) = false ∧
    (asked 0x13 [hdl 1, .int 1, .bits 8]).worksInDram (workOf 0x13 [hdl 1, .int 1, .bits 8]) = false ∧
    (readPair (recs.recordPtr 1) recs).1.bad = false ∧ (readPair (recs.recordPtr 1 + 2) recs).1.bad = false ∧
    (readPair (recs.recordPtr 1 + 2) recs).1.odd = .bits (2 ^ 35 + 7) ∧ recs.recordBuffer (ptr 0x1020) = true ∧
    (readPair 0x1020 recs).1.bad = false ∧
    [(readPair 0x1020 recs).1.even.tag, (readPair 0x1020 recs).1.odd.tag, (readPair 0x1022 recs).1.even.tag,
      (readPair 0x1022 recs).1.odd.tag] = recordTags := by decide +kernel

/-- The arguments of the hash unit's operations, on octets at 0x1000 and destinations at 0x3000. -/
def hashArgs (mode len : Int) : List Word := [.int mode, ptr 0x1000, .int 128, ptr 0x3000, .int len]
@[inherit_doc hashArgs] def kmacArgs : List Word := [ptr 0x1000, ptr 0x1000, .int 128, ptr 0x1000, .int 256, ptr 0x3000]
@[inherit_doc hashArgs] def sigArgs : List Word := [ptr 0x1000, ptr 0x1000, .int 128, ptr 0x1000, ptr 0x1000]

/-- HashAndVerify: the longest digest and another; every operation next in its engine, its buffers and destinations ready. What
a verification answers is the cryptography's own. -/
theorem test_HashAndVerify_met :
    due 0x30 (hashArgs 0 64) = true ∧ due 0x30 (hashArgs 1 200) = true ∧ smallArg (.int 1) 2 = some 1 ∧
    smallArg (.int 64) (2 ^ 32) = some 64 ∧ takes (begun 0x30 (hashArgs 0 64)) (ptr 0x3000) 64 = true ∧
    reads (begun 0x30 (hashArgs 0 64)) (ptr 0x1000) 128 [0, 1, 4] = true ∧
    due 0x31 kmacArgs = true ∧ takes (begun 0x31 kmacArgs) (ptr 0x3000) 32 = true ∧
    reads (begun 0x31 kmacArgs) (ptr 0x1000) 64 [0] = true ∧
    due 0x32 [.int 1] = true ∧ smallArg (.int 1) 2 = some 1 ∧ (asked 0x32 [.int 1]).spaceAccess 4 = .served ∧
    due 0x33 sigArgs = true ∧ due 0x3F [ptr 0x3000, .int 4096] = true ∧ smallArg (.int 4096) 4097 = some 4096 ∧
    takes (begun 0x3F [ptr 0x3000, .int 4096]) (ptr 0x3000) 4096 = true ∧ (begun 0x3F [ptr 0x3000, .int 4096]).drbgReady = true ∧
    due 0x40 [.int 7, ptr 0x1000, .int 128] = true ∧ smallArg (.int 7) 8 = some 7 := by decide +kernel

/-- KeyOperations: cells and slots at both ends of their ranges that hold keys; a partner entry for PARTNER_KEY. -/
theorem test_KeyOperations_met :
    due 0x37 [.int 15] = true ∧ smallArg (.int 15) 16 = some 15 ∧ (begun 0x37 [.int 15]).drbgReady = true ∧
    due 0x38 [.int 1, .int 15, .int 1, ptr 0x3000] = true ∧ due 0x38 [.int 0, .int 15, .int 2, ptr 0x3000] = true ∧
    (begun 0x38 []).cell 15 ≠ [] ∧ (begun 0x38 []).nmk 1 ≠ [] ∧ takes (begun 0x38 []) (ptr 0x3000) 88 = true ∧
    due 0x39 [ptr 0x1000, .int 0, .int 15] = true ∧ (begun 0x39 []).cell 0 ≠ [] ∧
    reads (begun 0x39 []) (ptr 0x1000) 88 [0] = true ∧ due 0x3A [.int 0, .int 1] = true ∧ due 0x3B [.int 1] = true ∧ (begun 0x3B [.int 1]).nmkEmpty 1 = false ∧
    (begun 0x3A []).spaceAccess 4 = .served ∧ (begun 0x3A []).drbgReady = true ∧
    due 0x34 [.mk' .handle 3, .int 1, .int 255] = true ∧
    (begun 0x34 []).partnerOf (.mk' .handle 3) = some 3 ∧ (begun 0x34 []).isOn .link = true ∧
    (begun 0x34 []).b Fld.LINK_PARTNER_STATUS_BUSY = false := by decide +kernel

/-- KemAttestToken, of the buffers each operation reads, those of 32 octets and of the token's 7315. What
the cryptography answers is its own. -/
theorem test_KemAttestToken_met :
    due 0x3C [ptr 0x3000] = true ∧ takes (begun 0x3C []) (ptr 0x3000) 1568 = true ∧ (begun 0x3C []).drbgReady = true ∧
    due 0x3D [ptr 0x1000, ptr 0x3000, .int 15] = true ∧ due 0x3E [ptr 0x1000, .int 15] = true ∧
    (begun 0x3E []).sec.kem = some [5] ∧ due 0x41 [ptr 0x1000, ptr 0x3000] = true ∧
    takes (begun 0x41 []) (ptr 0x3000) 5283 = true ∧ reads (begun 0x41 []) (ptr 0x1000) 32 [0] = true ∧
    (begun 0x41 []).sec.idSeed = some [6] ∧ ((begun 0x41 [] (rec_.setB Fld.RTC_STATUS_OSC_STOP false))).oscStop = false ∧
    (attestCheck [ptr 0x1000, ptr 0x3000] (fun _ c => (.int 0, c)) (asked 0x41 [ptr 0x1000, ptr 0x3000] (rec_.setB Fld.RTC_STATUS_OSC_STOP false))).1 = .int 0 ∧
    due 0x42 [ptr 0x3000] = true ∧ takes (begun 0x42 []) (ptr 0x3000) 7307 = true ∧
    due 0x43 [ptr 0x1000] = true ∧ (begun 0x43 []).spaceAccess 4 = .served := by decide +kernel

/-- `n` words of octets from an address. -/
def octetRun : Nat → Nat → Store Word
  | _, 0 => []
  | b, n + 1 => (b, .bits 1) :: octetRun (b + 1) n

theorem get_octetRun (n : Nat) : ∀ (b k : Nat), k < n → Store.get (Word.int 0) (octetRun b n) (b + k) = .bits 1 := by
  induction n with
  | zero => intro b k h; omega
  | succ n ih =>
    intro b k h
    by_cases hk : k = 0
    · simp [octetRun, Store.get, hk]
    · obtain ⟨j, rfl⟩ : ∃ j, k = j + 1 := ⟨k - 1, by omega⟩
      simp only [octetRun, Store.get, show ¬ b + (j + 1) = b by omega, if_false]
      rw [show b + (j + 1) = b + 1 + j by omega]
      exact ih (b + 1) j (by omega)

/-- A chip with octets in the whole of the data memory from 0x1000. -/
def filled (c : Chip) : Chip := { c with mems := { Mems.reset with words := octetRun 0x1000 4096 } }

/-- Buffers of every length that an operation reads: the encapsulation key and ciphertext (1568), the token (7315), the public
key (2592) and the signature (4627), a KMAC key and a context of any length. -/
theorem test_octets_met (n : Nat) (h : n ≤ 7315) (c : Chip) (hc : c.spaceAccess 0 = .served) :
    ∃ xs, readOctets 0x1000 n (filled c) = (.ok xs, filled c) := by
  refine readOctets_clean 0x1000 n (filled c) fun i hi => ?_
  have hi : i < 1829 := by rw [show ceilDiv n 4 = (n + 3) / 4 from rfl] at hi; omega
  have hsp : spaceOf (0x1000 + i) = 0 := by unfold spaceOf; omega
  have hst : (filled c).stored (0x1000 + i) = .bits 1 := get_octetRun 4096 0x1000 i (by omega)
  rw [hsp, hst]
  exact ⟨hc, by decide, by decide, rfl, rfl, by decide⟩

/-- A secured frame of level 5 from an extended address, three octets sealed. -/
def sealed : List Nat := [0x09, 0xE0, 1, 1, 2, 1, 2, 3, 4, 5, 6, 7, 8, 5, 0, 0, 0, 0, 9, 9, 9, 1, 2, 3, 4, 0, 0, 0, 0]

/-- A chip that holds that frame, with its descriptor, where an operation is asked for. -/
def holding (code : Nat) (args : List Word) : Chip :=
  let c := begun code args
  let desc := [(ptrOf 1 0, Word.bits (vUnverified * 2 ^ 32 + 29)), (ptrOf 1 13, .bits (5 * 2 ^ 33)), (ptrOf 1 15, ptr (ptrOf 1 64))]
  let pay := (List.range 8).map fun k => (ptrOf 1 (64 + k), Word.bits (leNat ((sealed.drop (4 * k)).take 4)))
  { c with mems := { c.mems with words := desc ++ pay } }

/-- The arguments of EP_OPEN and EP_SEAL. -/
def openArgs : List Word := [ptr (ptrOf 1 0), hdl 7, .int 255, .int 1]
@[inherit_doc openArgs] def sealArgs : List Word := [ptr (ptrOf 1 64), .int 21, hdl 7, .int 255, .int 1]

/-- EndpointFrames: an unverified frame with an extended source, its descriptor and buffers; a frame to seal with room for its
MIC. Whether a MIC checks is the cryptography's own. -/
theorem test_EndpointFrames_met :
    due 0x35 openArgs = true ∧ (holding 0x35 openArgs).endpointOf (hdl 7) = some 7 ∧ Store.get [] ((holding 0x35 openArgs).keysOf (.held 0) (workOf 0x35 openArgs)) 1 ≠ [] ∧
    (holding 0x35 openArgs).bufferOk (ptr (ptrOf 1 0)) 64 [1] = true ∧ (holding 0x35 openArgs).spaceAccess 1 = .served ∧
    (readWords (ptrOf 1 0) 16 (holding 0x35 openArgs)).1.all (fun x => x.tag != .poison) = true ∧
    openDesc (readWords (ptrOf 1 0) 16 (holding 0x35 openArgs)).1 =
      { length := 29, verdict := vUnverified, level := 5, suppressed := false, fc := 0, pay := ptr (ptrOf 1 64) } ∧
    reads (holding 0x35 openArgs) (ptr (ptrOf 1 64)) 32 [1] = true ∧
    (parseMhr (sealed.take (29 - fcsLen (! fcsGood false sealed)))).map (fun m => m.srcMode) = some 3 ∧
    due 0x36 sealArgs = true ∧ reads (holding 0x36 sealArgs) (ptr (ptrOf 1 64)) 21 [1] = true ∧
    ((parseMhr (sealed.take 21)).bind fun m => m.aux).map (fun x => (x.level, x.fc)) = some (5, some 0) ∧
    (holding 0x36 sealArgs).bufferOk (ptr (ptrOf 1 64)) (21 + micLen 5) [1] = true ∧
    (holding 0x36 sealArgs).isOn .link = true ∧ (holding 0x36 sealArgs).regN Reg.LINK_TX_FRAME_COUNTER < 2 ^ 32 - 1 := by
  decide +kernel

/-! ### Update and recovery -/

/-- A chip in a device state with a state record, the supply at 3.3 V. -/
def updating (dev : Nat) (r : SlotRec) (trial : Bool) : Chip :=
  let c := ((setDev dev rec_).setF Fld.PWR_MONITOR_VSYS_MV 3300).setB Fld.SYS_STATE_TRIAL trial
  { c with pwr := { c.pwr with vsys := 3300 }
           upd := { c.upd with record := some r, trialEnd := 100000 } }

/-- Records: nothing begun, the radio writing to slot A, slot A staged, in germination with B confirmed. -/
def idleRec : SlotRec := .empty
@[inherit_doc idleRec] def writingRec : SlotRec := { SlotRec.empty with a := slotWriting, owner := ownerRadio, length := 4096 }
@[inherit_doc idleRec] def stagedRec : SlotRec := { SlotRec.empty with a := slotStaged, b := slotConfirmed, owner := ownerRadio }
@[inherit_doc idleRec] def openRec : SlotRec := { SlotRec.empty with recoveryOpen := true, length := 4096 }

/-- The longest copy of one step, from octets that fill the data memory. -/
def copyArgs : List Word := [.int 3840, ptr 0x1000, .int 256]

/-- A chip whose mailbox of path 0 waits for an engine. -/
def mailed (code : Nat) (args : List Word) (c : Chip) : Chip :=
  setMbx 0 { Mbx.idle with busy := true, code := code, args := args } c

/-- The mailbox's work. -/
def mailWork (code : Nat) (args : List Word) : Work :=
  { code := code, args := args, steps := 0, prog := 0, sweep := none, running := false, host := true }

/-- The operation of the mailbox is the next work of its engine. -/
def mailDue (code : Nat) (args : List Word) (c : Chip) : Bool :=
  ((mailed code args c).engineFor (.mbx 0)).any (fun e => (mailed code args c).alone e (.mbx 0)) && (mailed code args c).work (.mbx 0) == some (mailWork code args)

/-- SteppedOperations: copies of the longest step in each place; a sweep of one record; an engine with no work, and one with an
operation of one step. -/
theorem test_SteppedOperations_met :
    due 0x20 [ptr 0x1000, .int 0xFFF00, .int 256] = true ∧ (0xFFF00 + 256 ≤ 0x100000) ∧ rec_.spaceAccess 0 = .served ∧
    rec_.spaceAccess 4 = .served ∧
    due 0x51 copyArgs (updating devRun writingRec false) = true ∧
    (asked 0x51 copyArgs (updating devRun writingRec false)).updRefusal 0x51 false copyArgs = none ∧
    (asked 0x51 copyArgs (updating devRun writingRec false)).copyOk (.int 3840) (ptr 0x1000) (.int 256) 4096 = true ∧
    (updating devRun writingRec false).slotRec.slot 0 = slotWriting ∧
    due 0x58 (.int 0 :: copyArgs) (updating devRun idleRec false) = true ∧
    (updating devRun idleRec false).updRefusal 0x58 false (.int 0 :: copyArgs) = none ∧
    (updating devRun idleRec false).copyOk (.int 3840) (ptr 0x1000) (.int 256) areaLen = true ∧
    mailDue 0x61 copyArgs (updating devRecovery openRec false) = true ∧ (updating devRecovery openRec false).sessionRefusal 0 = none ∧
    (updating devRecovery openRec false).copyOk (.int 3840) (ptr 0x1000) (.int 256) 4096 = true ∧
    due 0x18 [ptr 0x1000] = true ∧ (sweepStep (.int 1) none rec_).1 = some (refused .badArg) ∧ rec_.takeoverMeets (workOf 0x18 [ptr 0x1000]) = false ∧
    ({ writeMem 0x1001 (.int 1) rec_ with gang := { rec_.gang with takeover := some (0, 5) } }).takeoverMeets (workOf 0x18 [ptr 0x1000]) = true ∧ rec_.pick 5 = none ∧ rec_.pick 0 = none ∧
    (mailed 0x3B [.int 1] rec_).pick 0 = some (.mbx 0) ∧ rec_.worksInDram (workOf 0x18 [ptr 0x1000]) = false ∧ rec_.stepsOf (mailWork 0x3B [.int 1]) = some 1 := by decide +kernel

/-- A touch of a record in DRAM, and a copy of two steps to MRAM, octets filling the data memory. -/
def inDram : Chip := (asked 0x12 [hdl 1, .int 1, .bits 2]).setRegN Reg.MEM_ENDPOINT_SRAM 0
@[inherit_doc inDram] def twoSteps : Chip := filled (asked 0x20 [ptr 0x1000, .int 0, .int 512])

/-- SteppedOperations, its clauses on ENGINE_STEP: a step that is not the last, the last, a step with an effect of its own that
is not and that is the last, a record in DRAM, and a release by the MRAM writer with nothing else to do. -/
theorem test_EngineSteps_met :
    (mailed 0x3C [ptr 0x3000] rec_).pick 2 = some (.mbx 0) ∧
    ((rec_.stepsOf (mailWork 0x3C [ptr 0x3000])).any fun n => decide (1 < n)) = true ∧ opStepped 0x3C = false ∧
    (runOp (.mbx 0) (mailWork 0x3B [.int 1]) State.reset.otp (noteStep (.mbx 0) 1 0 none (mailed 0x3B [.int 1] rec_))).1.isSome = true ∧
    twoSteps.pick 4 = some (.held 0) ∧ opStepped 0x20 = true ∧
    (runStep (.held 0) (workOf 0x20 [ptr 0x1000, .int 0, .int 512]) State.reset.otp twoSteps).1.isNone = true ∧
    (runStep (.held 0) { workOf 0x20 [ptr 0x1000, .int 0, .int 512] with prog := 256 } State.reset.otp twoSteps).1.isSome = true ∧
    inDram.pick 3 = some (.held 0) ∧ inDram.worksInDram (workOf 0x12 [hdl 1, .int 1, .bits 2]) = true ∧
    (rec_.onUpd fun u => { u with release := some (0, 0) }).pick 4 = none := by decide +kernel

/-- A chip on trial whose shadow is lost, asked to fall back, or with its trial at an end; and one asked to verify nothing. -/
def shadowLost : Chip := asked 0x56 [] ((updating devGerminate stagedRec true).onUpd fun u => { u with slot := 0 })
@[inherit_doc shadowLost] def shadowBack : Chip := (updating devGerminate stagedRec true).onUpd fun u => { u with reload := some 0 }
@[inherit_doc shadowLost] def verifyNone : Chip := asked 0x52 [] (updating devRun idleRec false)

/-- SteppedOperations: a fallback that reloads the shadow first, a reload at the end of a trial, and an operation refused before it begins. -/
theorem test_Reloads_met :
    shadowLost.pick 0 = some (.held 0) ∧ shadowLost.reloads = true ∧ shadowLost.opFirst (workOf 0x56 []) = none ∧
    shadowBack.pick 0 = none ∧ shadowBack.reloads = true ∧ shadowBack.upd.reload = some 0 ∧
    verifyNone.pick 4 = some (.held 0) ∧ (verifyNone.opFirst (workOf 0x52 [])).isSome = true ∧ opStepped 0x52 = false ∧
    verifyNone.worksInDram (workOf 0x52 []) = false ∧ rec_.reloads = false := by decide +kernel

/-- UpdateOperations: each operation with no check against it, where the state record allows it. -/
theorem test_UpdateOperations_met :
    due 0x50 [.int 6291456, .bits 0] (updating devRun idleRec false) = true ∧
    (updating devRun idleRec false).updRefusal 0x50 false [.int 6291456, .bits 0] = none ∧
    due 0x52 [] (updating devRun writingRec false) = true ∧ (updating devRun writingRec false).verifyRefusal false [] = none ∧
    due 0x53 [.int 1] (updating devRun stagedRec false) = true ∧
    (updating devRun stagedRec false).updRefusal 0x53 false [.int 1] = none ∧
    ((updating devRun stagedRec false).initSection ((updating devRun stagedRec false).slotSection 0 4)).isSome = true ∧ stagedRec.slot stagedRec.staging = slotStaged ∧
    due 0x54 [.mk' .grain 5000, .bits 0, .int 259200] (updating devGerminate stagedRec false) = true ∧
    (updating devGerminate stagedRec false).updRefusal 0x54 false [.mk' .grain 5000, .bits 0, .int 259200] = none ∧
    ((updating devGerminate stagedRec false).now : Int) + 2048 ≤ (updating devGerminate stagedRec false).longOf 5000 ∧
    (updating devGerminate stagedRec false).core.paused = false ∧
    (updating devGerminate stagedRec false).upd.armed = none ∧ (updating devRun stagedRec false).upd.release = none ∧
    due 0x55 [] (updating devGerminate stagedRec true) = true ∧
    (updating devGerminate stagedRec true).updRefusal 0x55 false [] = none ∧
    (updating devGerminate stagedRec true).now < (updating devGerminate stagedRec true).upd.trialEnd ∧
    due 0x56 [] (updating devGerminate stagedRec false) = true ∧
    (updating devGerminate stagedRec false).updRefusal 0x56 false [] = none ∧
    due 0x57 [] (updating devRun writingRec false) = true ∧ (updating devRun writingRec false).updRefusal 0x57 false [] = none ∧
    due 0x59 [.bits 65535] (updating devRun idleRec false) = true ∧
    (updating devRun idleRec false).updRefusal 0x59 false [.bits 65535] = none ∧ (updating devGerminate stagedRec true).mayBurn = true ∧ rec_.sec.burns = [] := by
  decide +kernel

/-- A chip under the recipe of the image in slot A. -/
def underOwn (c : Chip) : Chip := { c with recipe := some (parseRecipe (c.slotSection 0 2)) }

theorem underOwn_recipe (c : Chip) :
    ((underOwn c).recipe.map Recipe.digestList) = some (parseRecipe ((underOwn c).slotSection 0 2)).digestList := rfl

/-- UPD_GERMINATE: asked for under the recipe of its image, and at its last step, of the settings area in mode 1 and of the digests in
mode 0; UPD_CONFIRM with a burn due. -/
def germinating (steps prog : Nat) (mode : Int) : Chip :=
  let c := asked 0x53 [.int mode] (updating (if steps = 0 then devRun else devGerminate) stagedRec false)
  underOwn (onOp (.held 0) (fun t => { t with steps := steps, prog := prog, state := if steps = 0 then 1 else 2 })
    { c with upd := { c.upd with germinating := if steps = 0 then 0 else 1 + mode.toNat } })
@[inherit_doc germinating] def kilnDue : Chip :=
  let c := asked 0x55 [] (updating devGerminate stagedRec true)
  { c with mems := { c.mems with mram := Store.put 0 c.mems.mram (slotBase 0 / 4 + 2) 1 } }

/-- UpdateOperations: the steps of UPD_GERMINATE and of UPD_CONFIRM, and UPD_FALLBACK in germination. Whether a digest agrees is the
cryptography's own. -/
theorem test_UpdateSteps_met :
    (germinating 0 0 1).pick 4 = some (.held 0) ∧ (germinating 0 0 0).pick 4 = some (.held 0) ∧
    (germinating 0 0 0).updRefusal 0x53 false [.int 0] = none ∧ (germinating 0 0 0).upd.release = none ∧
    (germinating 0 0 0).spaceAccess 4 = .served ∧ ((germinating 0 0 0).initSection ((germinating 0 0 0).slotSection 0 4)).isSome = true ∧
    imageCodeOk ((germinating 0 0 0).slotSection 0 1) = true ∧ smallArg (.int 0) 2 = some 0 ∧
    (germinating 3 (areaLen - 256) 1).pick 4 = some (.held 0) ∧
    ((germinating 3 (areaLen - 256) 1).engineFor (.held 0)).any (fun e => (germinating 3 (areaLen - 256) 1).alone e (.held 0)) = true ∧
    (germinating 3 (areaLen - 256) 1).dev = devGerminate ∧ (germinating 3 (areaLen - 256) 1).upd.germinating = 2 ∧
    ((germinating 3 areaLen 0).engineFor (.held 0)).any (fun e => (germinating 3 areaLen 0).alone e (.held 0)) = true ∧
    areaLen + (germinating 3 areaLen 0).germinateDigest [.int 0] ≤ areaLen + (germinating 3 areaLen 0).digestStep ∧
    (germinating 3 areaLen 0).upd.germinating = 1 ∧
    rollbackCount State.reset.otp < kilnDue.slotRollback kilnDue.trialSlot ∧ kilnDue.pick 4 = some (.held 0) ∧
    kilnDue.updRefusal 0x55 false [] = none ∧ kilnDue.upd.kiln = none ∧ kilnDue.mayBurn = true ∧
    ¬ rollbackCount State.reset.otp < (updating devGerminate stagedRec true).slotRollback (updating devGerminate stagedRec true).trialSlot ∧
    (updating devGerminate stagedRec false).trial = false ∧ (begun 0x56 [] (updating devGerminate stagedRec false)).core.paused = false := by
  decide +kernel

theorem test_UpdateSteps_recipe :
    ((germinating 0 0 0).recipe.map Recipe.digestList) = some (parseRecipe ((germinating 0 0 0).slotSection 0 2)).digestList :=
  underOwn_recipe _

/-- RecoveryAndDead: sessions to open, to write to and to end; the supply of DEAD. -/
theorem test_RecoveryAndDead_met :
    mailDue 0x60 [.int 6291456] (updating devRecovery idleRec false) = true ∧
    (updating devRecovery idleRec false).upd.session = none ∧ (updating devRecovery idleRec false).locked_ = false ∧
    (updating devRecovery idleRec false).pin pinMotion = false ∧
    (updating devRecovery idleRec false).b Fld.UPD_CTRL_MOVING = false ∧
    (updating devRecovery idleRec false).regN Reg.UPD_MIN_SUPPLY ≤ (updating devRecovery idleRec false).f Fld.PWR_MONITOR_VSYS_MV ∧
    mailDue 0x62 [] (updating devRecovery openRec false) = true ∧
    mailDue 0x63 [] ((updating devRecovery openRec false).onUpd fun u => { u with session := some 0 }) = true ∧
    ((updating devRecovery openRec false).onUpd fun u => { u with session := some 0 }).upd.session = some 0 ∧
    recoveryCount State.reset.otp < 15 ∧ (updating devDead idleRec false).dev = devDead ∧
    (updating devDead idleRec false).mayBurn = true ∧ (updating devRun idleRec false).dev ≠ devDead := by decide +kernel

/-- A chip with a lock and debug access that end at second 5 of a clock past it. -/
def expiring : Chip :=
  let c := (rec_.setB Fld.RTC_STATUS_OSC_STOP false).setRegN Reg.RTC_SECONDS 5
  c.onSec fun x => { x with lock := some 5, unlock := some 5 }

/-- A chip with an activation due, in restart mode or not, and one that waits for a quiet gap to the end. -/
def arming (at_ : Option Nat) (restart : Bool) : Chip :=
  ((updating devGerminate stagedRec false).setB Fld.UPD_STATUS_RESTART_MODE restart).onUpd fun u =>
    { u with armed := some { via := .ticket 0, at_ := at_, limit := 0, posts := true } }

/-- A chip whose trial has run out. -/
def runOut : Chip := (updating devGerminate stagedRec true).onUpd fun u => { u with trialEnd := 0 }

/-- ExpiriesAndActivation: lock and debug access at their last second; activations and trials due. -/
theorem test_ExpiriesAndActivation_met :
    expiring.sec.lock = some 5 ∧ expiring.sec.unlock = some 5 ∧ expiring.oscStop = false ∧ expiring.rtcSeconds = 5 ∧
    (arming (some 0) true).dev = devGerminate ∧ (arming (some 0) true).isOn .core = true ∧
    (arming (some 0) true).b Fld.UPD_STATUS_RESTART_MODE = true ∧ (arming (some 0) false).b Fld.UPD_STATUS_RESTART_MODE = false ∧
    (arming (some 0) false).core.accesses = [] ∧ (arming (some 0) false).core.stalled = none ∧ (arming (some 0) false).power ≤ 3 ∧
    (arming none false).upd.armed.isSome = true ∧
    runOut.trial = true ∧ runOut.upd.trialEnd ≤ runOut.now ∧ runOut.awake = true ∧ runOut.isOn .core = true ∧
    runOut.b Fld.UPD_STATUS_RESTART_MODE = false ∧ rec_.dev ≠ devGerminate ∧ runOut.power ≤ 3 ∧ runOut.core.accesses = [] ∧
    runOut.core.stalled = none ∧ ({ runOut.core with shadowValid := true }).shadowValid = true ∧ runOut.core.shadowValid = false ∧
    4 ≤ (setPower 4 runOut).power ∧ (arming (some 0) true).upd.germinating = 0 ∧ deadFused State.reset.otp = false ∧
    rec_.isOn .core = true ∧ (rec_.setIsland .core .off).isOn .core = false ∧
    (after (.reinit true) rec_).sec.testing = some (3355, true) ∧ (after (.reinit true) rec_).now < 3355 := by decide +kernel

/-- A record operation in DRAM, and the chip at the end of its transaction. -/
def dramAsked (code : Nat) (args : List Word) : Chip :=
  ((asked code args).setRegN Reg.MEM_ENDPOINT_SRAM 0).setB Fld.MEM_DDR_STATUS_TRAINED true
@[inherit_doc dramAsked] def dramOver : Chip :=
  onOp (.held 0) (fun t => { t with state := 2, steps := 1, dram := some (0, 1) }) (dramAsked 0x12 [hdl 1, .int 1, .bits 2])

/-- An operation on a record in DRAM is the next work of its engine, and nothing stops it. -/
def dramDue (code : Nat) (args : List Word) : Bool :=
  let c := dramAsked code args
  let b := Safety.opBegun (.ticket 0) (workOf code args) c
  (c.engineFor (.held 0)).any (fun e => c.alone e (.held 0)) && c.work (.held 0) == some (workOf code args) &&
    c.worksInDram (workOf code args) && (c.ticket 0).isSome && ! b.takeoverAhead (hdl 1) && b.endpointOf (hdl 1) == some 1 &&
    ! b.recordStopped (b.recordPtr 1)

/-- RecordOperations: each operation on a record in DRAM, and a transaction that has ended. -/
theorem test_DramOperations_met :
    dramDue 0x10 [hdl 1, ptr 0x2000] = true ∧ dramDue 0x11 [hdl 1, ptr 0x1020] = true ∧ dramDue 0x12 [hdl 1, .int 1, .bits 2] = true ∧
    dramDue 0x13 [hdl 1, .int 1, .bits 8] = true ∧ dramOver.dramHeld = 1 ∧ dramOver.dramEnded.isSome = true ∧
    (runOp (.held 0) (workOf 0x12 [hdl 1, .int 1, .bits 2]) [] dramOver).1.isSome = true := by decide +kernel

/-! ### Tickets, mailboxes, restart and remash -/

/-- The core with a launch's words in its registers and a completion ring of 8 entries; with one ticket done. -/
def launching : Chip := [(0x28, Word.int 0x3B), (0x29, .int 0x7F), (0x2A, .mk' .ticket (2 ^ 16)), (0x910, .mk' .ptr 0x100), (0x911, .int 8),
  (0x912, .int 0), (0x913, .int 0)].foldl (fun c p => c.setPort p.1 p.2) core
@[inherit_doc launching] def finished : Chip := launching.onTk fun x => { x with
  held := [{ number := 511, cls := 0, gen := 0, code := 0x3B, args := [], state := 3, steps := 1, result := .int 0, doneAt := 0,
             priv := true, prog := 0, sweep := none, stalled := false, dram := none }] }

/-- Tickets: a code that launches, one that is unknown, a ticket to ask about, a consumer to move; a result to post. -/
theorem test_Tickets_met :
    Safety.coreAtRest launching = true ∧ launching.sysPort 0 = true ∧ launching.priv = true ∧
    Safety.operandWord launching (.port 0x28) = some (.int 0x3B) ∧ opKnown 0x3B = true ∧ launching.engineOut 0x3B = false ∧
    (launching.port 0x911).nat ≠ 0 ∧ launching.grants (opClass 0x3B) = true ∧ launching.freeTickets ≠ [] ∧
    opKnown 0x7F = false ∧ Safety.operandWord launching (.port 0x29) = some (.int 0x7F) ∧
    Safety.operandWord launching (.port 0x2A) = some (.mk' .ticket (2 ^ 16)) ∧ (tkConsWrite (.int 0) launching).isSome = true ∧
    finished.isOn .core = true ∧ finished.nextPost.isSome = true ∧ finished.ringUsed < (finished.port 0x911).nat ∧
    finished.isOn .memD = true ∧ ((finished.port 0x910).nat + 4 * ((finished.port 0x912).nat % (finished.port 0x911).nat)) % 2 = 0 ∧
    finished.ringEntryOk ((finished.port 0x910).nat + 4 * ((finished.port 0x912).nat % (finished.port 0x911).nat)) = true := by
  decide +kernel
/-- A chip numbered 1 in its gang, which is commanded over the chain. -/
def far : Chip := (run.setF Fld.SYS_STATE_CHIP_NUMBER 1).onGang fun g => { g with numbered := true }

/-- Mailboxes: a path at rest and one busy, its command at both ends of POWER's range; a reply to fill in. -/
theorem test_Mailboxes_met :
    far.mbxOpen 4 = true ∧ rec_.mbxOpen 0 = true ∧ (far.mbxOf 4).busy = false ∧ run.isOn .pcie = true ∧ (rec_.mbxOf 0).busy = false ∧
    (mailed 0x00 [] rec_).mbxOpen 0 = true ∧ ((mailed 0x00 [] run).mbxOf 0).busy = true ∧ ((mailed 0x00 [] run).mbxOf 0).result = none ∧
    argOf ((mailed 0x04 [.int 7] run).mbxOf 0).args 0 = .int 7 ∧ run.power ≠ 5 ∧
    ((setMbx 4 { Mbx.idle with busy := true, result := some [.int 0] } run).mbxOf 4).result = some [.int 0] := by decide +kernel

/-- A chip whose table memory restarts for path 0. -/
def restarting : Chip := setMbx 0 { Mbx.idle with busy := true, code := 0x02, args := [.int Island.memT.num], steps := 1 }
  (run.setIsland .memT .restarting)

/-- A chip in a remash, lane 0 quiesced to now, or its frame past the wait. -/
def remashing (hold : Bool) : Chip :=
  let c := { rec_ with remash := some { path := 0, recipe := rcp, wait := 0, todo := [0], held := [], took := [], count := 0 } }
  setLaneState 0 laneReceive
    (setLaneSt 0 { c.laneSt 0 with hold := if hold then some 0 else none, quiesce := if hold then none else some 0 } c)

/-- RestartAndRemash: an island that may restart and one that may not; both guards; lanes of a remash. -/
theorem test_RestartAndRemash_met :
    argOf ((mailed 0x02 [.int Island.memT.num] run).mbxOf 0).args 0 = .int Island.memT.num ∧ run.isOn .memT = true ∧
    pathIsland 0 ≠ some .memT ∧ restarting.island .memT = .restarting ∧ (restarting.mbxOf 0).steps = 1 ∧
    argOf ((mailed 0x03 [run.reg Reg.SYS_ID] run).mbxOf 0).args 0 = run.reg Reg.SYS_ID ∧
    argOf ((mailed 0x03 [.int 0] run).mbxOf 0).args 0 ≠ run.reg Reg.SYS_ID ∧ run.sec.burns = [] ∧
    pathIsland 0 = some .core ∧ argOf ((mailed 0x02 [.int Island.core.num] run).mbxOf 0).args 0 = .int Island.core.num ∧ run.isOn .core = true ∧
    mailDue 0x05 [ptr 0x1000, .int 262144, .int 67108864] rec_ = true ∧ rec_.recipe = some rcp ∧ rec_.remash = none ∧
    deadFused State.reset.otp = false ∧ remashRefusal rcp rcp = none ∧ (remashing true).isOn .lane = true ∧ ((remashing true).laneSt 0).hold = some 0 ∧
    ((remashing false).laneSt 0).quiesce = some 0 ∧ (remashing false).laneState 0 = laneReceive := by decide +kernel

/-! ### Hosts -/

/-- A chip whose recipe serves PCIe and quad SPI, and one in RECOVERY, whose path is UART0. -/
def hosted : Chip := { rec_ with recipe := some { rcp with hostPath := 3 } }
@[inherit_doc hosted] def recovering : Chip := setDev devRecovery rec_

/-- WordAccess: registers that refuse a write each in its way, one that takes it; paths served and not; words in and out of the
memory; whole slots and partial ones. -/
theorem test_WordAccess_met :
    run.regPresent 0x0FFF = false ∧ (run.setIsland .rtc .isolated).regServed Reg.RTC_SET_FRAC = false ∧
    regTakes Reg.RTC_SET_FRAC .code = false ∧ run.isOn .rtc = true ∧ run.power ≠ 7 ∧ (0x7FFF < 2 ^ 15) ∧
    hosted.pathServed 1 = true ∧ hosted.pathServed 2 = true ∧ hosted.pathServed 3 = false ∧
    hosted.hostRefusal 0 0x7FFFF = none ∧ hosted.hostRefusal 0 0x80000 = some (refused .badArg) ∧
    hosted.hostRefusal 7 0 = some .absent ∧ Tag.ofNum 15 = some .absent ∧ hosted.hostWritable 0 0x7FFFF = true ∧
    hosted.isOn .memD = true ∧ hosted.flaw (ptrOf 0 0x7FFFF) = [] := by decide +kernel

/-- A chip of a gang of two that hears chip 1, its first aperture there; with a remote read that has run out. -/
def ganged : Chip := (hosted.setF Fld.HOST_CHAIN_STATUS_GANG_SIZE 2).setF (Fld.HOST_APERTURE_CHIP 0) 1
@[inherit_doc ganged] def waitedOut : Chip := ganged.onGang fun g => { g with remote := [{ chip := 1, count := 1, due := 0 }] }

/-- PcieHost: apertures on this chip, on one the gang reaches and on one it does not; a read past its time; the island in and
out; both ends of the vectors. -/
theorem test_PcieHost_met :
    hosted.pathServed 1 = true ∧ hosted.f (Fld.HOST_APERTURE_CHIP 3) = hosted.f Fld.SYS_STATE_CHIP_NUMBER ∧
    ganged.f (Fld.HOST_APERTURE_CHIP 0) ≠ ganged.f Fld.SYS_STATE_CHIP_NUMBER ∧ ganged.reaches 1 = true ∧
    (ganged.onGang fun g => { g with breaks := [(0, true), (1, true)] }).reaches 1 = false ∧ waitedOut.gang.remote.length = 1 ∧ waitedOut.now = 0 ∧
    hosted.isOn .pcie = true ∧ (hosted.setIsland .pcie .off).isOn .pcie = false ∧
    hosted.b Fld.HOST_PCIE_STATUS_LINK_UP ≠ ((3 : Fin 4).val != 0) := by decide +kernel

/-- A UART0 frame: a read of one word, and a write of one, with their CRCs. -/
def readFrame : List Nat := let b := [1, 0, 0, 0, 0, 1, 1]; b ++ leOctets 2 (fcs16 b)
@[inherit_doc readFrame] def writeFrame : List Nat := let b := [2, 0, 0, 0, 0, 1, 1] ++ List.replicate 8 0; b ++ leOctets 2 (fcs16 b)

/-- SerialHosts: paths 2 and 3 served; whole frames; one that is open to its end. -/
theorem test_SerialHosts_met :
    hosted.pathServed 2 = true ∧ recovering.pathServed 3 = true ∧ recovering.uart.bytes = none ∧
    readFrame.length = 9 ∧ readFrame.headD 0 = 1 ∧ uartFrame readFrame = some (0, 1, 1, []) ∧
    (readFrame.map (BitVec.ofNat 8)).map BitVec.toNat = readFrame ∧
    writeFrame.length = 17 ∧ writeFrame.headD 0 = 2 ∧ writeFrame.getD 6 0 = 1 ∧ uartFrame writeFrame = some (0, 1, 1, List.replicate 8 0) ∧
    ({ recovering with uart := { bytes := some [1], at_ := 0 }, now := uartIdle }).uart.at_ + uartIdle ≤ uartIdle := by decide +kernel

/-! ### Chain -/

/-- The chip at the head of a gang, numbered; and one that is not. -/
def head : Chip := ((run.setPin pinGangHead true).onGang fun g => { g with numbered := true, enumAt := some 0 })
@[inherit_doc head] def member : Chip := run.setPin pinGangHead false

/-- A member with both ports up, and with one down. -/
def linked : Chip := (member.setF (portRate false) 2).setF (portRate true) 2
@[inherit_doc linked] def halved : Chip := (member.setF (portRate false) 2).setF (portRate true) 0

/-- Heads of frames: a broadcast and a unicast from chip 63, one hop short of too many. -/
def bcastHead : FrameHead := { bcast := true, dst := 0, src := 63, hops := 126, seq := 0, back := false }
@[inherit_doc bcastHead] def ucastHead : FrameHead := { bcastHead with bcast := false }

/-- A head that a path asked to enumerate, with both ports up; its frames waiting, as many as the credits allow; and a member that
hears a frame of its own. -/
def asking : Chip := (((mailed 0x08 [] linked).setPin pinGangHead true).onGang fun g => { g with numbered := true, enumAt := some 0, enumPaths := [0] })
@[inherit_doc asking] def crowded : Chip :=
  (after .enumSend asking).onGang fun g => { g with waiting := (List.replicate chainCredits g.waiting).flatten, sent := [] }
@[inherit_doc asking] def echoing : Chip :=
  (linked.setF Fld.SYS_STATE_CHIP_NUMBER 63).onGang fun g => { g with numbered := true }

/-- ChainRing: head and member, ports up and down in each way, a broadcast not seen before and one of its own, on either lane. -/
theorem test_ChainRing_met :
    head.isOn .chain = true ∧ head.isHead = true ∧ head.gang.enumAt = some 0 ∧ head.recipe = none ∧ head.gang.enumPaths = [] ∧
    (asking.gang.enumPaths = [0] ∧ (asking.mbxOf 0).busy = true ∧ (asking.mbxOf 0).result = none ∧ (asking.mbxOf 0).code = 0x08 ∧
      asking.isHead = true) ∧
    ({ head with recipe := some rcp }).recipe = some rcp ∧ member.isHead = false ∧ member.gang.numbered = false ∧
    bcastHead.hops.toNat ≠ 127 ∧ linked.f (portRate true) ≠ 0 ∧ halved.f (portRate true) = 0 ∧ halved.f (portRate false) ≠ 0 ∧
    halved.chainSlow = false ∧ halved.retrainAt true ≤ halved.now ∧ member.isChip bcastHead.src.toNat = false ∧
    member.frameSeen bcastHead = false ∧ head.frameSeen bcastHead = false ∧ ((mailed 0x08 [] head).mbxOf 0).steps = 0 ∧
    (echoing.isChip 63 = true ∧ echoing.f (portRate false) ≠ 0) ∧
    (crowded.gang.waiting.length = chainCredits ∧ crowded.gang.sent = [] ∧
      (∀ f ∈ crowded.gang.waiting, (crowded.portOut f.back).isSome = true)) ∧
    (halved.setF (portRate false) 0).f (portRate false) = 0 ∧ (halved.setF (portRate true) 1).f (portRate true) ≠ 0 := by decide +kernel

/-- A chip that hears chip 63 as alive, not heard for 2^22 gr. -/
def silent : Chip := { member.setReg Reg.HOST_GANG_ALIVE_HI (.bits (2 ^ 31)) with now := 2 ^ 22 }

/-- GangTimeAndMembers: due and not due; offsets of time within 2 gr, and beyond with the link controller off and on; a
member gone silent. -/
theorem test_GangTimeAndMembers_met :
    head.gang.numbered = true ∧ head.gang.statusAt ≤ head.now ∧ head.gang.timeAt ≤ head.now ∧
    head.now < ({ head with gang := { head.gang with statusAt := 1 } }).gang.statusAt ∧
    (16 * ((2 + 0 * 2 ^ 36 : Nat) : Int) + member.gang.delay0 - 16 * member.now).natAbs = 32 ∧
    32 < (16 * ((3 + 0 * 2 ^ 36 : Nat) : Int) + member.gang.delay0 - 16 * member.now).natAbs ∧
    member.b Fld.LINK_CTRL_ENABLE = false ∧ (member.setB Fld.LINK_CTRL_ENABLE true).b Fld.LINK_CTRL_ENABLE = true ∧
    member.isChip 63 = false ∧ member.frameSeen bcastHead = false ∧ member.isOn .evf = true ∧ silent.alive 63 = true ∧ Store.get 0 silent.gang.heard 63 + 2 ^ 22 ≤ silent.now + 1 := by
  decide +kernel

/-- A chip that takes mirror forwards of chip 63, its DRAM trained; and one that waits for a response of that chip. -/
def mirroringTo : Chip := (((((run.setB Fld.MEM_MIRROR_CTRL_ACCEPT true).setF Fld.MEM_MIRROR_CTRL_SOURCE 63).setB
  Fld.MEM_DDR_STATUS_TRAINED true).setF Fld.MEM_DDR_STATUS_SIZE 3).setPin pinGangHead false).onGang fun g => { g with numbered := true }
@[inherit_doc mirroringTo] def awaiting : Chip := run.onGang fun g => { g with numbered := true, remote := [{ chip := 63, count := 1, due := 9 }] }

/-- ChainAccess: a frame for this chip and one for another; words in memory; forwards from the source and from another chip; a
takeover of no record. -/
theorem test_ChainAccess_met :
    head.isChip ucastHead.dst.toNat = true ∧ head.isChip ({ ucastHead with dst := 1 } : FrameHead).dst.toNat = false ∧
    (head.hostRefusal 0 0x7FFFF = none ∧ ((mailed 0x09 [.int 63, hdl 0, .int 0] mirroringTo).pick 3 = some (.mbx 0))) ∧
    run.hostRefusal 0 0x7FFFF = none ∧ (awaiting.gang.remote.find? fun r => r.chip == 63).isSome = true ∧
    mirroringTo.isChip 0 = true ∧ awaiting.isChip 0 = true ∧ mirroringTo.b Fld.MEM_MIRROR_CTRL_ACCEPT = true ∧ mirroringTo.f Fld.MEM_MIRROR_CTRL_SOURCE = 63 ∧
    run.f Fld.MEM_MIRROR_CTRL_SOURCE ≠ 63 ∧ mirroringTo.spaceAccess 3 = .served ∧
    mirroringTo.ptrValid (ptrOf 3 0x8000000 + 3) = true ∧ mirroringTo.flaw (ptrOf 3 0x8000000) = [] ∧
    takeoverRefusal (.int 63) (hdl 0) (.int 0) mirroringTo = none ∧ mirroringTo.gang.takeover = none := by decide +kernel

/-! ### Radio front end -/

/-- A chip whose chains A and B and transmitter are locked at 915 MHz, its link controller on, with eight partner entries. -/
def radio : Chip :=
  [synthEnable 0, synthEnable 1, synthEnable 2, Fld.LINK_CTRL_ENABLE].foldl (fun c f => c.setB f true)
    ([synthNow 0, synthNow 1, synthNow 2].foldl (fun c r => c.setRegN r 915000000) (rec_.setF Fld.LINK_FEATURE_PARTNER_ENTRIES 8))

/-- A synthesizer armed for now, and one that settles to now. -/
def armed (x : Nat) (c : Chip) : Chip := setSynth x { c.synth x with armed := some 0 } c
@[inherit_doc armed] def settlingNow (x : Nat) (c : Chip) : Chip := setSynth x { c.synth x with lockAt := some 0 } c

/-- A chip whose chain B follows chain A. -/
def following : Chip := radio.setB (Fld.RF_CHAIN_CTRL_FOLLOW 1) true

/-- RetunesAndGain: each synthesizer on, plain and following, armed, settling, enabled and not; gains at their ends. -/
theorem test_RetunesAndGain_met :
    (∀ x, x < 3 → radio.isOn (synthIsland x) = true ∧ radio.followed x = false ∧ (radio.synth x).lockAt = none ∧
      ((armed x radio).synth x).armed = some 0 ∧ (radio.setB (synthEnable x) false).b (synthEnable x) = false ∧ ((armed x radio).synth x).lockAt = none ∧ (armed x radio).b (synthEnable x) = true ∧
      (armed x rec_).b (synthEnable x) = false ∧ ((settlingNow x radio).synth x).lockAt = some 0) ∧
    following.followed 1 = true ∧ radio.follows = false ∧ rec_.stepCode 2 ≠ 2 ∧ rec_.dev ≠ devDead ∧
    radio.gainLive 1 = true ∧ radio.b (Fld.RF_CHAIN_CTRL_AGC_MANUAL 1) = false ∧ radio.sinceStep 1 14 = true ∧
    (after (.gainStepDown 1 true) radio).gainIndex 1 ≠ 0 ∧
    ({ after (.gainStepDown 1 true) radio with now := 100000 }).sinceStep 1
      (max 14 (max (radio.f Fld.RF_AGC_CONFIG_MIN_INTERVAL) (radio.f Fld.RF_AGC_CONFIG_UP_HOLD))) = true ∧
    (radio.setB (Fld.RF_CHAIN_CTRL_AGC_MANUAL 1) true).b (Fld.RF_CHAIN_CTRL_AGC_MANUAL 1) = true ∧
    radio.regN (synthNow 0) ≠ 0 ∧ ((settlingNow 0 (setSynth 0 { radio.synth 0 with target := 915000000 } radio)).synth 0).target ≠ 0 ∧
    ((following.onRadio fun r => { r with followDue := true }).follows = true ∧
      (settlingNow 1 (following.onRadio fun r => { r with followDue := true })).radio.followDue = true ∧ following.follows = true) ∧
    following.isOn .rfRxB = true ∧ following.b (synthEnable 1) = true ∧ ((armed 0 following).synth 0).armed = some 0 := by decide +kernel

/-- A carrier on air, and the chip that sends it. -/
def aCarrier : Carrier := {
  id := 1, kind := .at, commit := 0, ramp := 0, first := 0, last := 5, freq := 915000000, phy := 0x40, powerDb := 0, lane := 0,
  priority := 0, ticket := 0, handle := none, onAir := true, cut := false, octets := [], wave := [], heard := none }
@[inherit_doc aCarrier] def sending : Chip := radio.onRadio fun x => { x with carriers := [aCarrier] }

/-- TransmitSettingsAndCalibration: nothing on air and a carrier on air; a candidate to judge and one to swap, near a ramp and
far; a burst and a calibration that end; a chip at rest. -/
theorem test_TransmitSettings_met :
    radio.isOn .rfTx = true ∧ radio.anyCarrier = false ∧ radio.f Fld.RF_TX_CTRL_PA_SELECT = radio.radio.effPa ∧
    sending.onAir = true ∧ sending.f Fld.RF_DPD_IMD_LIMIT_LIMIT_QDB ≤ 1000 ∧
    (radio.onRadio fun x => { x with solveSet := some 3 }).dpdState 3 ≠ dpdCurrent ∧
    (setDpd (24 * 3) (.bits (dpdCurrent * 2 ^ 34)) (radio.onRadio fun x => { x with solveSet := some 3 })).dpdState 3 = dpdCurrent ∧
    (radio.onRadio fun x => { x with swapSet := some 3 }).swapClear = true ∧
    (sending.onRadio fun x => { x with swapSet := some 3 }).swapClear = false ∧
    radio.radio.effPa = 0 ∧ radio.b Fld.RF_CAL_STATUS_BUSY = false ∧ radio.radio.carriers = [] ∧
    radio.txFree radio.now (radio.now + 134218) = true ∧
    (radio.onRadio fun x => { x with tempBin := some 0 }).radio.tempBin = some (radio.f Fld.RF_DPD_CTRL_TRAIN_SET % 4) ∧
    ((after .trainNow (radio.onRadio fun x => { x with tempBin := some 0 })).radio.burst.map fun b => b.2) = some 134218 ∧
    (radio.setB Fld.RF_CAL_STATUS_BUSY true).b Fld.RF_CAL_STATUS_BUSY = true ∧
    (after (.startCal 4) radio).radio.cal.isSome = true ∧ radio.radio.calNow = [] ∧
    (radio.onRadio fun r => { r with calNow := [1] }).radio.calNow ≠ [] ∧ radio.isOn .mram = true ∧ (radio.setIsland .mram .off).isOn .mram = false := by
  decide +kernel

/-! ### Lanes and the link controller -/

/-- A chip with lane 0 in a state, on its channel. -/
def laned (st_ : Nat) : Chip :=
  setLaneState 0 st_ (setLaneSt 0 { radio.laneSt 0 with freq := 915000000, phy := 0x80 }
    (((radio.setRegN (Reg.LANE_FREQ 0) 915000000).setRegN (Reg.LANE_PHY 0) 0x80).setB (Fld.LANE_CTRL_ENABLE 0) true))

/-- Bits as the demodulator gives them, and the header of an uncoded MR-FSK frame of 25 octets (R90): no mode switch, FCS of four
octets, no whitening, 11 bits of length. -/
def soft (bs : List Nat) : List Soft := bs.map fun b => if b = 1 then 7 else 25
@[inherit_doc soft] def hdr : List Soft := soft [0, 0, 0, 0, 0, 0, 0, 0, 0, 0, 0, 1, 1, 0, 0, 1]

/-- A preamble that a lane takes, stronger on chain B. -/
def pre : Preamble := { corr := 256, octets := 8, powerA := -300, powerB := -299, offset := 36600, clock := 40000 }

/-- A chip whose lane 0 has detected it, and one that receives a frame. -/
def detecting : Chip := after (.preambleDetect 0 pre) (laned laneIdle)
@[inherit_doc detecting] def receiving : Chip := by_ (execDelimiterFound 0 ⟨0x904E, hdr⟩) detecting

/-- The octets of a PSDU as soft values, the low bit of each octet first. -/
def softOctets (xs : List Nat) : List Soft := soft (xs.flatMap fun x => (List.range 8).map fun k => x / 2 ^ k % 2)

/-- Octets of an unsecured data frame, source and destination none but a PAN, with its FCS of four octets, and those of an
acknowledgement. -/
def psdu : List Nat := withFcs false [0x01, 0x08, 7, 0xFF, 0xFF, 0xFF, 0xFF, 9]
@[inherit_doc psdu] def ackPsdu : List Nat := withFcs false [0x02, 0x00, 7]

/-- A frame whose first bytes have come, and one that has ended. -/
def started : Chip := by_ (execPsduStart 0 (softOctets psdu)) receiving
@[inherit_doc started] def ended_ (xs : List Nat) : Chip :=
  { receiving with radio := { receiving.radio with frames := receiving.radio.frames.map fun f => { f with
    started := true, taken := true, psdu := xs, endAt := some 0 } } , now := 67 }

/-- Lanes: the lane off, idle, detecting, receiving and switching; commands armed, waits at their end. -/
theorem test_Lanes_met :
    (laned laneIdle).laneUp 0 = true ∧ (∀ k, k < 6 → (laned k).laneState 0 = k ∧ (laned k).laneState 0 ≠ laneQuiesced) ∧
    (radio.b (Fld.LANE_CTRL_ENABLE 0) = false ∧ (laned laneIdle).b (Fld.LANE_CTRL_ENABLE 0) = true) ∧
    (laned laneIdle).laneClash 0 ((laned laneIdle).regN (Reg.LANE_FREQ 0)) ((laned laneIdle).regN (Reg.LANE_PHY 0)) = false ∧
    (laned laneIdle).b (Fld.LANE_STATUS_SCHEDULED 0) = false ∧ ((laned laneIdle).laneSt 0).until_ = none ∧
    ((by_ (execLaneSwitchAtWrite 0 0) (laned laneReceive)).laneSt 0).switchAt.isSome = true ∧
    (laned laneReceive).b (Fld.LANE_CTRL_FORCE_SWITCH 0) = false ∧ (laned laneIdle).laneHears 0 = true ∧ (laned laneIdle).laneStopped 0 = false ∧
    ((setLaneSt 0 { (laned laneSwitching).laneSt 0 with until_ := some 0 } (laned laneSwitching)).laneSt 0).until_ = some 0 ∧
    detecting.laneState 0 = laneDetect ∧ (detecting.laneFrame 0).isSome = true ∧
    (laned laneIdle).preambleTaken 0 pre = true ∧ (laned laneIdle).preambleTaken 0 { pre with offset := 36601 } = false ∧
    (laned laneIdle).preambleTaken 0 { pre with corr := 0 } = false ∧
    (detecting.laneFrame 0).map (fun f => (f.blind, f.chain, f.power, detecting.frameHears f)) = some (false, 0, -300, true) ∧
    (detecting.laneSt 0).agcA = some (-300) ∧ (detecting.laneSt 0).agcB = none ∧
    (detecting.laneFrame 0).all (fun f => (phyHeader f.phy 0x904E (hdr.map BitVec.toInt)).any (headerGood f.phy)) = true ∧
    (detecting.laneFrame 0).all (fun f => phyHeader f.phy 0x1234 (hdr.map BitVec.toInt) == none) = true ∧
    (detecting.laneFrame 0).all (fun f => (phyHeader f.phy 0x6F4E []).any fun h => ! headerGood f.phy h) = true ∧
    (receiving.laneFrame 0).map (fun f => (f.length, f.phy)) = some (25, 0x80) ∧
    (started.laneFrame 0).map (fun f => f.psdu.take 8) = some [0x01, 0x08, 7, 0xFF, 0xFF, 0xFF, 0xFF, 9] ∧
    within40ppm 915000000 36600 = true ∧ within40ppm 915000000 (-36601) = false ∧
    (detecting.laneFrame 0).all (fun f => decide (f.detectAt + symbolSpan f.phy (detecting.f (Fld.LANE_DETECT_SFD_TIMEOUT 0)) ≤
      ({ detecting with now := 2 ^ 30 }).now)) = true ∧
    receiving.laneState 0 = laneReceive ∧ started.laneState 0 = laneReceive ∧
    (started.laneFrame 0).map (fun f => (f.started, f.faulted)) = some (true, false) ∧
    (laned laneDetect).b (Fld.LANE_CTRL_CAPTURE 0) = false ∧
    ((laned laneDetect).setB (Fld.LANE_CTRL_CAPTURE 0) true).laneState 0 = laneDetect ∧ (detecting.laneClips 0 (-228)) = false ∧
    (detecting.laneClips 0 (-227)) = true ∧ (laned laneDetect).f (Fld.LANE_CTRL_CAPTURE_DB 0) = 10 ∧
    (laned laneDetect).laneHears 0 = true ∧ (laned laneDetect).preambleTaken 0 pre = true := by decide +kernel

/-- A frame that has ended, for the judging of one. -/
def judged (xs : List Nat) : Option Frame := (ended_ xs).radio.frames.head?

/-- A chip with a partner entry whose frame counter stands at 7. -/
def partnered : Chip := { radio with mems := { radio.mems with words :=
  [(radio.entryPtr 7, .bits (2 ^ 35)), (radio.entryPtr 7 + 1, .bits 1), (radio.entryPtr 7 + 2, .bits 0), (radio.entryPtr 7 + 3, .bits 7),
    (radio.entryPtr 7 + 4, .bits 0), (radio.entryPtr 7 + 5, .bits 0), (radio.entryPtr 7 + 6, .bits 0), (radio.entryPtr 7 + 7, .bits (2 ^ 35))] } }

/-- The auxiliary header of a frame with a counter. -/
def aux (fc : Nat) : Aux := { at_ := 0, level := 5, kidMode := 0, fc := some fc, keyIndex := 0 }

/-- A chip whose frame owes an acknowledgement on air. -/
def acking : Chip := sending.onRadio fun x => { x with
  acks := [{ carrier := 1, lane := 0, addr := none, ring := 0, number := 0, word0 := 0, handle := none, accepted := true, start := 0,
             freq := 915000000, drift := 0, tc := none, phy := 0x40, frameEnd := 0, resync := none, lost := none, fc := 0, pending := false, shown := 0 }] }
/-- LinkReception: first bytes with the controller on and off; a frame to look up; whole frames good and bad, an
acknowledgement, in and out of promiscuous mode; counters below, at and above the one stored; an ACK on air; ring positions at
the end of their range. -/
theorem test_LinkReception_met :
    receiving.laneUp 0 = true ∧ (receiving.laneFrame 0).map (fun f => (f.startAt.isSome, f.started)) = some (true, false) ∧
    receiving.radio.tschRx = none ∧ receiving.isOn .link = true ∧ receiving.b Fld.LINK_CTRL_ENABLE = true ∧
    receiving.b Fld.LINK_CTRL_PROMISCUOUS = false ∧ (receiving.setIsland .link .off).isOn .link = false ∧
    (started.radio.frames.find? fun f => f.lane == 0 && f.taken && ! f.looked).isSome = true ∧
    (judged psdu).all (fun f => f.lane == 0 && f.taken && f.endAt == some 0 && ! f.abandoned && ! f.faulted &&
      fcsGood f.fcs2 f.psdu && f.slot.isNone) = true ∧ (judged psdu).isSome = true ∧ (ended_ psdu).now = 67 ∧ (ended_ psdu).radio.frames.length = 1 ∧
    ((judged psdu).bind fun f => f.mhr.map fun h => (h.type, h.aux.isNone)) = some (1, true) ∧
    ((judged ackPsdu).bind fun f => f.mhr.map fun h => h.type) = some 2 ∧
    (judged (psdu.take 11)).map (fun f => fcsGood f.fcs2 f.psdu) = some false ∧
    (judged psdu).map (fun f => radio.screen f) = some (some vFiltered) ∧
    (judged psdu).map (fun f => (radio.setB Fld.LINK_CTRL_ALLOW_UNSECURED true).screen f) = some none ∧
    (partnered.entry 7).fcValid = true ∧ (partnered.entry 7).lastFc = 7 ∧ rxCounter 0 (aux 7) none = 7 ∧ rxCounter 0 (aux 6) none < 7 ∧
    7 < rxCounter 0 (aux 8) none ∧ (acking.radio.carriers.find? fun k => k.id == 1) = some aCarrier ∧ aCarrier.first ≤ acking.now ∧
    (judged psdu).any (fun f => ({ f with triedRing := some 0 }).triedRing.isSome && f.slot.isNone) = true ∧
    radio.regN (Reg.LINK_RING_CONS 1) < 65536 ∧ radio.radio.slots = [] ∧ radio.regN (Reg.LINK_RING_PROD 1) = (0 : Payload).toNat := by
  decide +kernel

/-! ### Sending and schedules -/

/-- A request that asks for an acknowledgement; its chip with lane 0 listening on its channel. -/
def job (ph : TxPhase) : TxJob := { blankJob 0 (ptrOf 1 0) with
  freq := 915000000, phy := 0x40, ar := true, seq := some 7, phase := ph, carrier := 1, plan := some 0 }
@[inherit_doc job] def jobbed (ph : TxPhase) : Chip := (laned laneIdle).onRadio fun x => { x with jobs := [job ph] }

/-- A ticket of code 1 launched for a block in the dual-port memory, and one whose argument is no pointer to it. -/
def txAsked (arg : Word) : Chip := { radio with
  tk := (asked 1 [arg]).tk
  mems := { radio.mems with words := [(ptrOf 1 0, .bits 0)] } }

/-- A chip whose crystal stands, a beacon committed. -/
def stopped : Chip := (jobbed .committed).setB Fld.LINK_STATUS_OSC_STOP true |>.onRadio fun x =>
  { x with jobs := [{ job .committed with kind := 16 }], carriers := [{ aCarrier with kind := .beacon, onAir := false }] }

/-- Sending: the link controller on and off; arguments of each kind; a request queued, waiting and awaiting its ACK; a
carrier committed and ending; a CCA before, at and after its time; windows that are legal and one that is not. -/
theorem test_Sending_met :
    ((txAsked (ptr (ptrOf 1 0))).ticket 0).map (fun k => (k.code, k.state)) = some (1, 1) ∧
    (txAsked (ptr (ptrOf 1 0))).isOn .link = true ∧ (txAsked (ptr (ptrOf 1 0))).b Fld.LINK_CTRL_ENABLE = true ∧
    rec_.b Fld.LINK_CTRL_ENABLE = false ∧ (ptr (ptrOf 1 0)).tag = .ptr ∧ spaceOf (ptr (ptrOf 1 0)).nat = 1 ∧ (Word.int 0).tag ≠ .ptr ∧
    (txAsked (ptr (ptrOf 1 0))).ptrValid (ptrOf 1 0 + 7) = true ∧
    (match parseRequest 0 (ptrOf 1 0) (txAsked (ptr (ptrOf 1 0))) with
      | (.error _, _) => true
      | _ => false) = true ∧
    (jobbed .queued).isOn .link = true ∧ (jobbed .queued).entering = false ∧ (jobbed .queued).radio.jobs.length = 1 ∧
    (jobbed .queued).jobPlan (job .queued) = some (0, 915000000, 0x40, none) ∧
    (jobbed .queued).jobPlan { job .queued with plan := some 3000 } = none ∧
    { aCarrier with onAir := false }.ramp ≤ radio.now ∧ aCarrier.last ≤ ({ sending with now := 5 }).now ∧ aCarrier.kind = .at ∧
    ((sending.onRadio fun x => { x with jobs := [job .committed] }).jobOf 1).isSome = true ∧
    (chkTxEnd aCarrier (dropCarrier 1 (jobbed .committed))).carrierHeard aCarrier = true ∧
    radio.carrierHeard { aCarrier with heard := some false } = false ∧
    (jobbed .awaiting).ackComing 915000000 0x40 0 = false ∧ (txRefused (job .awaiting) .timeout (jobbed .awaiting)).radio.resyncs = [] ∧
    ((jobbed .backoff).radio.jobs.find? fun j => j.ticket == 0 && j.phase == .backoff) = some (job .backoff) ∧
    (jobbed .backoff).chainHolds 915000000 (planBandwidth 0x40) = true ∧
    ((jobbed .backoff).setRegN (synthNow 0) 0 |>.setRegN (synthNow 1) 0).chainHolds 915000000 (planBandwidth 0x40) = false ∧
    (jobbed .backoff).ccaBusy 915000000 (-1000) = false ∧ (jobbed .backoff).ccaBusy 915000000 0 = true ∧
    windowLegal 15 = false ∧ windowLegal 1000 = true ∧ radio.f Fld.LINK_DWELL_WINDOW_WINDOW_MS ≠ 1000 ∧
    radio.regN (Reg.LINK_DUTY_WINDOW 7) ≠ 1000 ∧
    ((judged ackPsdu).bind fun f => f.mhr.bind fun h => consumeAck f h
      ((ended_ ackPsdu).onRadio fun x => { x with frames := [], jobs := [{ job .awaiting with due := 10 ^ 6 }] })).isSome = true := by
  decide +kernel

/-- Sending: a block whose memory serves and one whose memory does not; a beacon that is due while the crystal stands. -/
theorem test_Beacons_met :
    (txAsked (ptr (ptrOf 1 0))).spaceAccess 1 = .served ∧ ((txAsked (ptr (ptrOf 1 0))).setIsland .memD .off).spaceAccess 1 ≠ .served ∧
    (stopped.linkOsc = true ∧ stopped.jobPlan { job .queued with kind := 16 } = some (0, 915000000, 0x40, none) ∧
      (stopped.jobOf 1).map (fun j => j.kind) = some 16 ∧ (jobbed .queued).linkOsc = false) := by decide +kernel

/-- A chip with a request block of a kind for a grain, its frame beside it. -/
def blocked (kind g : Nat) : Chip := { txAsked (ptr (ptrOf 1 0)) with
  mems := { radio.mems with words := [(ptrOf 1 0, .bits (kind * 2 ^ 32 + 8)), (ptrOf 1 1, .bits 0), (ptrOf 1 2, .mk' .grain g),
    (ptrOf 1 3, .int 915000000), (ptrOf 1 4, .bits 0x40), (ptrOf 1 5, ptr (ptrOf 1 64)), (ptrOf 1 6, .bits 0), (ptrOf 1 7, .bits 0),
    (ptrOf 1 64, .bits (leNat (psdu.take 4))), (ptrOf 1 65, .bits (leNat ((psdu.drop 4).take 4)))] } }

/-- The kind and the planned grain of the request a block holds. -/
def planned (kind g : Nat) : Option (Nat × Nat) := match parseRequest 0 (ptrOf 1 0) (blocked kind g) with
  | (.ok j, _) => some (j.kind, j.plan.getD 0)
  | _ => none

/-- Sending: blocks that read well, planned 4160 gr ahead, one grain less, and contending. -/
theorem test_Requests_met :
    planned 0 4160 = some (0, 4160) ∧ planned 0 4159 = some (0, 4159) ∧ planned 1 0 = some (1, 0) ∧ (blocked 0 0).now = 0 := by
  decide +kernel

/-- A chip whose TSCH schedule runs, its next timeslot due, and one whose partner schedule runs. -/
def tsch : Chip := (((laned laneIdle).setF Fld.LINK_CTRL_SCHED_MODE 1).setB Fld.LINK_TSCH_CTRL_RUN true).onRadio fun x =>
  { x with tschNext := some 0 }
@[inherit_doc tsch] def psched : Chip := ((radio.setF Fld.LINK_CTRL_SCHED_MODE 2).setB Fld.LINK_PSCHED_CTRL_RUN true).setRegN
  Reg.LINK_PSCHED_OUI 1

/-- A rendezvous window that has closed. -/
def window : RdvWindow := { kind := 0, handle := 0, n := 0, lane := 0, at_ := 0, half := 0, freq := 0, closed := false, heard := false, until_ := 0 }

/-- A downlink for partner 1 that is due, its request queued. -/
def downlinked : Chip := psched.onRadio fun x => { x with
  downlinks := [{ handle := 1, freq := 915000000, goAt := 2112, limit := 0 }], jobs := [{ job .queued with kind := 3, handle := some 1, plan := none }] }

/-- A chip with a page to send, one whose page waits, and one that owes a grant. -/
def paging : Chip := psched.onRadio fun x => { x with pages := [(1, 0)] }
@[inherit_doc paging] def paged : Chip := psched.onRadio fun x => { x with page := some { handle := 1, carrier := 0, waitUntil := some 0, answered := false } }
@[inherit_doc paging] def granting : Chip := psched.onRadio fun x => { x with resyncs := [{
  handle := 1, phy := 0x40, freq := 915000000, goAt := 2112, carrier := none, m := 0, mark := 0, seq := 0, level := 5, kidMode := 0,
  keyIndex := 0, waitUntil := none }] }

/-- A chip whose one slotframe holds a link in its first slot: to receive, or to send to partner 1, whose request waits. -/
def linkAt (options : Nat) : Chip :=
  let c := [(Reg.LINK_TSCH_TABLE, 0x2000), (Reg.LINK_TSCH_HOP_BASE, 0x2100), (Reg.LINK_TSCH_HOP_LEN, 1)].foldl (fun c r => c.setRegN r.1 r.2)
    ((tsch.setF (Fld.LINK_TSCH_SF_SIZE 0) 10).onRadio fun x => { x with jobs := [{ job .queued with kind := 3, handle := some 1, plan := none }] })
  { c with mems := { c.mems with words := [(0x2000, .bits options), (0x2001, .mk' .handle 1), (0x2100, .int 915000000)] } }

/-- A chip with partner 1 in the schedule, its rendezvous coming up: the first, or the second far on, its clock drifting. -/
def meeting (now : Nat) : Chip :=
  let c := psched.setRegN Reg.LINK_PSCHED_BASE 0x1000
  let f := c.channelFreq 0
  let c1 := [synthNow 0, synthNow 1].foldl (fun c r => c.setRegN r f) c
  let r : Sched := { active := true, role := 0, channel := 0, dwell := 1, phy := 0x40, seed := 0, period := 100000, syncN := 0, sync := 2000,
                     drift := 1000000, wakeId := 0, step := 0 }
  let words := (List.range 8).map fun k => (0x1008 + k, (schedWords r).getD k .absent)
  { c1 with now := now, mems := { c1.mems with words := (c1.entryPtr 1, .bits (2 ^ 35)) :: words } }
/-- Schedules: timeslots with nothing to serve and a lane that could; both schedules running and not; a window at its end; a
downlink, a page and a grant that are due. -/
theorem test_Schedules_met :
    tsch.radio.tschNext = some 0 ∧ tsch.isOn .link = true ∧ tsch.f Fld.LINK_CTRL_SCHED_MODE = 1 ∧ tsch.b Fld.LINK_TSCH_CTRL_RUN = true ∧
    tsch.radio.tschRx = none ∧ tsch.radio.tschAck = none ∧ psched.ackHeardFor window = false ∧
    (paged.setB Fld.LINK_PSCHED_CTRL_RUN false).schedRuns = false ∧ paged.schedRuns = true ∧ tsch.entering = false ∧ tsch.radio.tschIn = false ∧ (tschAdvance tsch).tschPick (tschAdvance tsch).asn = none ∧ (tschAdvance tsch).tschLane 915000000 = some 0 ∧
    psched.schedRuns = true ∧ radio.schedRuns = false ∧ psched.f Fld.LINK_CTRL_SCHED_MODE = 2 ∧ psched.entering = false ∧
    window.closed = false ∧ window.at_ + window.half ≤ psched.now ∧ psched.radio.tschRx = none ∧
    (downlinked.radio.jobs.find? fun j => j.kind == 3 && j.handle == some 1 && j.phase == .queued).isSome = true ∧
    downlinked.radio.downlinks.all (fun d => decide (d.goAt ≤ downlinked.now + 2112)) = true ∧ downlinked.radio.windows = [] ∧
    paging.radio.pages = [(1, 0)] ∧ paging.radio.page = none ∧ paging.radio.pageNext ≤ paging.now ∧
    paged.radio.page.map (fun g => g.waitUntil) = some (some 0) ∧
    granting.radio.resyncs.map (fun r => (r.carrier, r.goAt)) = [(none, 2112)] ∧
    granting.regN Reg.LINK_TX_FRAME_COUNTER ≠ 2 ^ 32 - 1 := by decide +kernel

/-- The chip as the scheduler has gone through its records. -/
def found (now : Nat) : Chip := readAll ((meeting now).regN Reg.LINK_PSCHED_BASE) (meeting now)

/-- Schedules: a link to receive on, one to send on; rendezvous that a lane takes, that none does, and that drifted too far. -/
theorem test_Rendezvous_met :
    ((tschAdvance (linkAt 4)).tschPick (tschAdvance (linkAt 4)).asn).map (fun l => (l.rx, l.advertising, (tschAdvance (linkAt 4)).tschRequest l)) = some (true, false, none) ∧
    (tschAdvance (linkAt 4)).tschFreq 0 0 = 915000000 ∧ (tschAdvance (linkAt 4)).tschLane 915000000 = some 0 ∧
    (((tschAdvance (linkAt 8)).tschPick (tschAdvance (linkAt 8)).asn).bind fun l => (tschAdvance (linkAt 8)).tschRequest l).isSome = true ∧
    (meeting 0).schedRuns = true ∧ (meeting 0).entering = false ∧ (found 0).rdvDue = [(626, 0, 1, 0)] ∧
    ((readPartner 1 (found 0)).sched 1).widening 0 = 0 ∧
    (readPartner 1 (found 0)).pickLane 0x40 ((meeting 0).rdvFreq ((meeting 0).sched 1) 0) = some 0 ∧
    ((readPartner 1 (found 0)).setRegN (synthNow 0) 0).pickLane 0x40 ((meeting 0).rdvFreq ((meeting 0).sched 1) 0) = none ∧
    (found 204801999).rdvDue = [(204595826, 0, 1, 1)] ∧
    (meeting 204801999).regN Reg.LINK_PSCHED_MAX_WINDOW < ((readPartner 1 (found 204801999)).sched 1).widening 1 := by decide +kernel

/-! ### Partners, wake-up, memories, starts -/

/-- A chip with a partner operation under way, held by a frame or not. -/
def opAt (op handle : Nat) : Chip := partnered.onRadio fun x => { x with op := some { op := op, handle := handle, entry := none, ticket := none } }
@[inherit_doc opAt] def opHeld : Chip := (opAt 0 7).onRadio fun x => { x with
  frames := ((judged psdu).map fun f => { f with looked := true, handle := some 7 }).toList }

/-- A chip whose wake-up receiver listens. -/
def listening : Chip := (radio.setB Fld.LINK_WUR_CTRL_ENABLE true).setRegN Reg.LINK_WUR_ID 5

/-- PartnersAndWakeUp: BUSY and not; operations free to act and held; handles at the end of the table and past it; patterns that
match and that do not, held off and not. -/
theorem test_PartnersAndWakeUp_met :
    radio.isOn .link = true ∧ radio.b Fld.LINK_PARTNER_STATUS_BUSY = false ∧
    (radio.setB Fld.LINK_PARTNER_STATUS_BUSY true).b Fld.LINK_PARTNER_STATUS_BUSY = true ∧
    (opAt 3 7).handleHeld 7 = false ∧ opHeld.handleHeld 7 = true ∧ (opAt 3 7).partners = 8 ∧ (opAt 3 7).spaceAccess 0 = .served ∧
    ((readPartner 7 (opAt 3 7)).partners = 8 ∧ (readPartner 7 (opAt 3 7)).spaceAccess 0 = .served) ∧
    ((readPartner 7 (opAt 4 7)).entry 7).valid = true ∧ ((readPartner 6 (opAt 4 6)).entry 6).valid = false ∧
    schedLegal (readPartner 7 ((opAt 4 7).setReg (Reg.LINK_PSCHED_STAGE 0) (.bits (2 ^ 35)))).schedStage = false ∧
    listening.isOn .wur = true ∧ listening.b Fld.LINK_WUR_CTRL_ENABLE = true ∧ listening.onAir = false ∧
    listening.power ≠ 7 ∧ listening.pwr.heldInReset = false ∧
    listening.wakeMatches (wakePattern (listening.regN Reg.LINK_WUR_NET) 5) = some false ∧
    listening.wakeMatches 0xABCDEFABCDEF = none ∧ listening.b Fld.LINK_WUR_STATUS_HOLDOFF = false ∧
    (listening.setB Fld.LINK_WUR_STATUS_HOLDOFF true).b Fld.LINK_WUR_STATUS_HOLDOFF = true := by decide +kernel

/-- A chip whose march test is due at the first segment, four spares of the bank used or none. -/
def marching (used : List Nat) : Chip :=
  let c := run.setReg Reg.MEM_MARCH_CTRL (.bits 3)
  { c with mems := { c.mems with redirected := used } }

/-- A table operation held over from a restart, its transaction with DRAM under way; and a segment under test. -/
def dramBusy : Chip := { run with tk := { run.tk with orphans := (((asked 1 [ptr (ptrOf 1 0)]).ticket 0).toList.map
  (fun t => { t with dram := some (0, 1) })) } }
@[inherit_doc dramBusy] def testing : Chip := run.onMems fun m => { m with marchRun := some { segment := 0, fails := true, phase := 2, done_ := 0 } }

/-- MemoryUpkeep, ErrorCode: the scrubber due and not; an island that restarts; segments with spares and without, and under test;
sleep; DRAM idle, busy, training and trained; a codeword with one byte in error. -/
theorem test_MemoryUpkeep_met :
    run.spaceAccess (scrubSpace .data) = .served ∧ run.b (scrubControl (scrubSpace .data)).1 = true ∧
    Store.get 0 run.mems.scrubDue (scrubSpace .data) ≤ run.now ∧ run.awake = true ∧
    ({ run with mems := { run.mems with scrubDue := [(0, 1)] } }).now < Store.get 0 [(0, 1)] (scrubSpace .data) ∧
    run.island (memIslandOf .memT) ≠ .restarting ∧ (run.setIsland .memT .restarting).island (memIslandOf .memT) = .restarting ∧
    (marching []).marchSegment = some 0 ∧ (marching []).mems.marchDue ≤ (marching []).now ∧ (marching []).awake = true ∧
    (marching []).mems.marchRun = none ∧ (marching []).mems.redirected.contains 0 = false ∧
    (marching []).sparesUsed (segmentBank 0) < 4 ∧
    (marching [1, 2, 3, 4]).sparesUsed (segmentBank 0) = 4 ∧ (marching [1, 2, 3, 4]).mems.redirected.contains 0 = false ∧
    testing.mems.marchRun.isSome = true ∧ (marchNext { segment := 0, fails := true, phase := 2, done_ := 0 } testing).mems.redirected = [0] ∧
    (marchNext { segment := 0, fails := true, phase := 2, done_ := 0 } (testing.onMems fun m => { m with redirected := [1, 2, 3] })).mems.exhausted =
      [segmentBank 0] ∧
    (setPower 5 run).power = 5 ∧ run.isOn .ddr = true ∧ run.dramHeld = 0 ∧ dramBusy.dramHeld = 1 ∧ (after .retrain run).mems.training = true ∧
    (run.setB Fld.MEM_DDR_STATUS_TRAINED true).b Fld.MEM_DDR_STATUS_TRAINED = true ∧
    run.b Fld.MEM_DDR_STATUS_TRAIN_FAILED = false ∧
    ({ run with mems := { run.mems with flaws := [(0, (List.replicate 13 0).set 12 255)] } }).flaw 0 =
      (List.replicate 13 0).set 12 255 := by decide +kernel

/-! ### The machine -/

/-- The facts of a start that goes well, and of ones that do not. -/
def facts : StartFacts := {
  romGood := true, vsys := 1850, recoveryLow := false, motion := false, gangHead := false, xtal := true, pll := true, health := true,
  cal := true, dpd := true, temp := 25, ddr := none, lock0 := some ⟨false, 1⟩, lock1 := some ⟨false, 1⟩ }

/-- Starts: the device in BOOT, free to run, and not in BOOT; each fact both ways, the supply at its limit and one below. -/
theorem test_Starts_met :
    c0.dev = devBoot ∧ c0.pwr.heldInReset = false ∧ c0.power ≠ 7 ∧ run.dev ≠ devBoot ∧ run.sec.burns = [] ∧
    (1850 ≤ facts.vsys.toNat) ∧ { facts with vsys := 1849 }.vsys.toNat < 1850 ∧ { facts with romGood := false }.romGood = false ∧
    { facts with recoveryLow := true }.recoveryLow = true ∧ (after (.start { facts with recoveryLow := true }) c0).dev = devRecovery ∧
    (after (.start { facts with romGood := false }) c0).dev = devDead := by decide +kernel

/-- A chip whose state record is read, with the facts of a start that goes well. -/
def opening : Chip := { rec_ with upd := { rec_.upd with record := some { c0.slotRec with a := slotConfirmed } } }
@[inherit_doc opening] def allGood : StartFacts := { facts with ddr := some ⟨1, 0⟩ }

/-- Starts: the steps before the image is verified and those after it is loaded end done, and the slot is not on trial. S5 and S7
between them turn on a signature and digests, whose functions are opaque constants of Config, so no concrete chip can be shown to
pass them; after S10 the chip holds the coefficients it found, which are free values, so S11 starts afresh here. -/
theorem test_Starts_done :
    (Safety.stepsDone 0 ((bootSteps allGood State.reset.otp).take 5) opening).isSome = true ∧
    (Safety.stepsDone 0 (((bootSteps allGood State.reset.otp).drop 8).take 3) opening).isSome = true ∧
    (Safety.stepsDone 0 ((bootSteps allGood State.reset.otp).drop 11) opening).any
      (fun d => d.slotRec.slot d.upd.slot != slotTrial) = true := by decide +kernel

/-- StepTakesTheFront, CommandsKeepTheQueue, FusesNeverUnburn, FusesStayCanonical: a queue to step, and fuses in their form. -/
theorem test_machine_met :
    Safety.fusesOk State.reset.otp = true ∧ Safety.memsOk State.reset.chip.mems = true ∧ State.reset.pending = [] ∧
    Safety.stops (step { st run with pending := [.snap, .set] }) = false := by decide +kernel

/-- UnsecuredFrames: an unsecured frame that passes its address, from no partner and from one whose sequence number is known. -/
theorem test_UnsecuredFrames_met :
    (judged psdu).all (fun f => ! f.abandoned && ! f.faulted && fcsGood f.fcs2 f.psdu && f.handle.isNone &&
      f.mhr.any fun h => h.aux.isNone && radio.addressPasses h && h.type != 2 && h.seq == some 7) = true ∧
    (judged psdu).isSome = true ∧ radio.b Fld.LINK_CTRL_PROMISCUOUS = false ∧ radio.b Fld.LINK_CTRL_ALLOW_UNSECURED = false ∧
    (judged psdu).map (fun f => (radio.judge f).1) = some vFiltered ∧
    (judged psdu).map (fun f => ((radio.setB Fld.LINK_CTRL_ALLOW_UNSECURED true).judge f).1) = some vAccept := by decide +kernel

/-- TagsThatDoNotExist: the core at rest with an ALU, a tag of each end; a path that is served. -/
theorem test_Tags_met :
    Safety.coreAtRest core = true ∧ (core.window 0).type = 1 ∧ (core.window 0).writeBuses.testBit 0 = true ∧
    9 ≤ (9#4).toNat ∧ (12#4).toNat ≤ 12 ∧ hosted.pathServed 1 = true ∧
    (∀ e ∈ Safety.aluRows, after (e.1 0 0 (.tagged 9 5)) core =
      takeTrap (Safety.moveTrapOf .reservedBits 0 (windowBase 0 + e.2.offset) (.tagged 9 5) (.int 0) false) core) := by decide +kernel

/-! ### Well-formed commands

One ill-formed command for each check, and one that the same check lets pass. -/

theorem test_wellFormed_start : (Instr.start { facts with ddr := some ⟨0, 0⟩ }).wellFormed = false ∧ (Instr.start facts).wellFormed = true := by
  decide
theorem test_wellFormed_wake : (Instr.wake (some ⟨0, 0⟩)).wellFormed = false ∧ (Instr.wake (some ⟨1, 0⟩)).wellFormed = true := by decide
theorem test_wellFormed_train :
    (Instr.dramTrainDone (some ⟨0, 0⟩)).wellFormed = false ∧ (Instr.dramTrainDone (some ⟨3, 0⟩)).wellFormed = true := by decide
theorem test_wellFormed_restart :
    (Instr.islandRestartDone 0 (some ⟨0, 0⟩) 0 0).wellFormed = false ∧ (Instr.islandRestartDone 0 none 0 0).wellFormed = true := by decide
theorem test_wellFormed_scrub :
    (Instr.scrubRead .data [⟨0, 0, List.replicate 12 0⟩]).wellFormed = false ∧
    (Instr.scrubRead .data [⟨4, 0, List.replicate 13 0⟩]).wellFormed = false ∧
    (Instr.scrubRead .data [⟨0, 0, List.replicate 13 0⟩]).wellFormed = true := by decide
theorem test_wellFormed_dip :
    (Instr.retentionSupplyDip [⟨6, 0, []⟩]).wellFormed = false ∧
    (Instr.retentionSupplyDip [⟨6, 0, List.replicate 13 1⟩]).wellFormed = true := by decide
theorem test_wellFormed_psdu :
    (Instr.psduStart 0 (List.replicate 262145 0)).wellFormed = false ∧ (Instr.psduStart 0 (List.replicate 262144 0)).wellFormed = true := by
  simp only [Instr.wellFormed, List.length_replicate]
  decide
theorem test_wellFormed_delimiter :
    (Instr.delimiterFound 0 ⟨0, List.replicate 4097 0⟩).wellFormed = false ∧ (Instr.delimiterFound 0 ⟨0, List.replicate 4096 0⟩).wellFormed = true := by
  simp only [Instr.wellFormed, List.length_replicate]
  decide
theorem test_wellFormed_mirror :
    (Instr.mirror bcastHead 0 (.int 0) []).wellFormed = false ∧ (Instr.mirror bcastHead 3 (.int 0) [.int 0]).wellFormed = false ∧
    (Instr.mirror bcastHead 1 (.int 0) [.int 0, .int 0]).wellFormed = true := by decide
theorem test_wellFormed_accessReq :
    (Instr.accessReq bcastHead 0 0 false 0 []).wellFormed = false ∧ (Instr.accessReq bcastHead 0 0 true 64 (List.replicate 64 (.int 0))).wellFormed = false ∧
    (Instr.accessReq bcastHead 0 0 true 2 [.int 0]).wellFormed = false ∧ (Instr.accessReq bcastHead 0 0 false 64 []).wellFormed = true := by
  decide
theorem test_wellFormed_accessRsp :
    (Instr.accessRsp bcastHead []).wellFormed = false ∧ (Instr.accessRsp bcastHead [.int 0]).wellFormed = true := by decide
/-- No row of the table has bits, so no word spells a command. -/
theorem test_no_word_decodes : decodeTableWord 16 0 = none ∧ (State.reset.withFetchWord 16 0).pending = [] := by decide

/-! ### Values that the spec works out -/

/-- R31: the worked cases of 02_words_tags_grains.md, with now at 4096. -/
theorem test_grain_order :
    grainAfter 0x1043 0x1000 = true ∧ grainAfter 0x1000 0x1000 = false ∧ grainAfter 0xFFFFFF000 0x1000 = false ∧
    grainAfter 0x800001000 0x1000 = false ∧ grainAfter 0x960001000 0x1000 = false := by decide

/-- R40: the reset word of SYS_STATE is 0x200, BITS. -/
theorem test_sys_state_reset : c0.reg Reg.SYS_STATE = .bits 0x200 := by decide +kernel

/-- R315: 2031-06-15 02:30:00, a Sunday, is second 992,572,200. -/
theorem test_calendar :
    calDate 992572200 = 31 * 2 ^ 15 + 6 * 2 ^ 11 + 15 * 2 ^ 6 ∧ calTime 992572200 = 2 * 2 ^ 12 + 30 * 2 ^ 6 := by decide +kernel

/-- R325: the worked example of the alarm that a jump of the clock passes. -/
def jumping : Chip :=
  let c := (after .oscRecovered run).setRegN (Reg.RTC_ALARM_SECONDS 1) 992572200
  let c1 := after (.alarmArm 1) (rtcSetCounter c (992572199 * 32768 + 30000))
  after (.alarmFire 1) (after .rtcCmdApply (rtcTick (after .set ((c1.setRegN Reg.RTC_SET_SECONDS 992572260).setRegN Reg.RTC_SET_FRAC 0))))
@[inherit_doc jumping] theorem test_alarm_skipped :
    jumping.b (Fld.RTC_ALARM_CTRL_FIRED 1) = true ∧ jumping.b (Fld.RTC_ALARM_CTRL_SKIPPED 1) = true ∧
    jumping.b (Fld.RTC_ALARM_CTRL_ARMED 1) = false ∧ jumping.regN Reg.RTC_SECONDS = 992572260 := by decide +kernel

/-- R337: a change from Evening to Noon takes 1350 gr, as the worked example of 15_power.md counts. -/
theorem test_level_time : levelTime 2 0 = 1350 := by decide

/-- The worked example after R298: a period shortened below the present count fires late, and moves on by the new ADD. -/
def shortened : Chip :=
  let c := ((run.setB (Fld.TMR_CTRL_RUN 4) true).setB (Fld.TMR_CCFG_RELOAD 4 0) true).setReg (Reg.TMR_ADD 4 0) (.mk' .int 20000)
  by_ (execTmrCmpWrite 4 0 1020000) (c.setReg (Reg.TMR_COUNT 4) (.mk' .grain 1040000))
@[inherit_doc shortened] theorem test_late_compare :
    shortened.fab.late = [(channel 4 0, 1)] ∧ by_ (execCompareFire 4 0) shortened = shortened ∧
    (let d := by_ (execCompareFire 4 0) { shortened with now := 1 }
     d.regN (Reg.TMR_CMP 4 0) = 1040000 ∧ d.fab.fired.map (fun x => (x.source, x.payload)) = [(0x10, some 1)]) := by decide +kernel

/-- R80, R82: the worked example of four channels, chain A at 914.9 MHz in its wide setting. -/
theorem test_channels :
    (∀ x ∈ [(920000000, 200000, true, true), (927000000, 1600000, true, true), (927500000, 1200000, false, false),
        (902200000, 200000, true, false)],
      withinSpan x.1 x.2.1 914900000 (usableHalf false) = x.2.2.1 ∧ (x.2.2.1 = true → spurred x.1 x.2.1 914900000 = x.2.2.2)) ∧
    subBand false 5100000 = 10 ∧ subBand false 12100000 = 13 ∧ subBand false (-12700000) = 3 := by decide +kernel

/-- R146: the window of a leaf heard again after six hours is 60,882 gr. -/
def sixHours : Sched :=
  {
    active := true, role := 0, channel := 0, dwell := 0, phy := 0, seed := 0, period := 29491200, syncN := 0, sync := 0, drift := 42,
    wakeId := 0, step := 0 }
@[inherit_doc sixHours] theorem test_window : sixHours.widening 24 = 60882 := by decide

/-- R395: a word slot as a host sees it, bytes of the SYS_STATE reset word. -/
theorem test_slot_bytes : (slotOfBytes [0x00, 0x02, 0, 0, 0x70, 0, 0, 0]).tag = 7 ∧ (slotOfBytes [0x00, 0x02, 0, 0, 0x70, 0, 0, 0]).payload = 0x200 := by
  decide

end Sys2Proof.Tests
end

section
/-! Words and moves: the numbers that name no tag (R28), and the slot that a move from a source to a port is coded as (R215). -/

namespace Sys2Proof

theorem Tag.num_not_reserved (t : Tag) : ¬ (9 ≤ t.num ∧ t.num ≤ 12) := by
  cases t <;> decide

theorem Tag.ofNum_reserved (n : Nat) (h9 : 9 ≤ n) (h12 : n ≤ 12) : Tag.ofNum n = none := by
  interval_cases n <;> rfl

end Sys2Proof

namespace Sys2Proof.Machine

/-- Decoding undoes encoding for the layout of R215. -/
theorem slotCode_bits (x : SlotCode) (hinv : x.inv < 2) (hguard : x.guard < 8) (hform : x.form < 4) (hdst : x.dst < 2 ^ 12)
    (hsrc : x.src < 2 ^ 22) : slotCode x.bits = x := by
  obtain ⟨inv, guard, form, dst, src⟩ := x
  simp only [slotCode, SlotCode.bits, bitsOf, SlotCode.mk.injEq] at *
  omega

theorem SlotCode.bits_lt (x : SlotCode) (hinv : x.inv < 2) (hguard : x.guard < 8) (hform : x.form < 4) (hdst : x.dst < 2 ^ 12)
    (hsrc : x.src < 2 ^ 22) : x.bits < 2 ^ 40 := by
  simp only [SlotCode.bits]
  omega

theorem sourceForm_form_lt (src : MoveSource) : (sourceForm src).1 < 4 := by
  cases src <;> simp [sourceForm]

theorem sourceForm_src_lt (src : MoveSource) : (sourceForm src).2 < 2 ^ 22 := by
  cases src with
  | port p => have := p.isLt; simp only [sourceForm]; omega
  | int v => have := v.isLt; simp only [sourceForm]; omega
  | tagged t v => have ht := t.isLt; have hv := v.isLt; simp only [sourceForm]; omega

/-- The fields of an unguarded move: its source's form, its port and its source. -/
theorem slotCode_moveBits (dst : Nat) (src : MoveSource) (h : dst < 2 ^ 12) :
    slotCode (moveBits dst src % 2 ^ 40) =
      { inv := 0, guard := 0, form := (sourceForm src).1, dst := dst, src := (sourceForm src).2 } := by
  have hform := sourceForm_form_lt src
  have hsrc := sourceForm_src_lt src
  rw [moveBits, Nat.mod_eq_of_lt (SlotCode.bits_lt _ Nat.two_pos (Nat.succ_pos 7) hform h hsrc)]
  exact slotCode_bits _ Nat.two_pos (Nat.succ_pos 7) hform h hsrc

/-- An immediate that names a tag which does not exist has reserved bits (R28, R216). -/
theorem reservedBits_tagged (t : BitVec 4) (v : BitVec 16) (dst : Nat) (h : Tag.ofNum t.toNat = none) :
    SlotCode.reservedBits
      { inv := 0, guard := 0, form := (sourceForm (.tagged t v)).1, dst := dst, src := (sourceForm (.tagged t v)).2 } = true := by
  have hv := v.isLt
  have htag : (t.toNat * 2 ^ 18 + v.toNat * 4) / 2 ^ 18 = t.toNat := by omega
  simp only [SlotCode.reservedBits, sourceForm, htag, h, Option.isNone_none, Bool.or_true]

end Sys2Proof.Machine
end

section
/-! A bundle of one move: the other slots are the all-zero no-op, so what the checks of a bundle find, they find in the one move's
slot (R213, R216). -/

namespace Sys2Proof.Machine

/-- The slot of an unguarded move on a bus. -/
def moveSlot (bus : Fin 4) (dst : Nat) (src : MoveSource) : SlotAt :=
  { slot := bus.val, bits := moveBits dst src % 2 ^ 40, code := slotCode (moveBits dst src % 2 ^ 40) }

/-- The all-zero slot of a number. -/
def noopSlot (k : Nat) : SlotAt := { slot := k, bits := 0, code := slotCode 0 }

@[simp] theorem slotCode_zero : slotCode 0 = { inv := 0, guard := 0, form := 0, dst := 0, src := 0 } := rfl

@[simp] theorem noopSlot_dst (k : Nat) : (noopSlot k).code.dst = 0 := rfl
@[simp] theorem noopSlot_srcPort (k : Nat) : (noopSlot k).code.srcPort = 0 := by simp [noopSlot, SlotCode.srcPort]

@[simp] theorem slotTrap_noopSlot (c : Chip) (k : Nat) : c.slotTrap (noopSlot k) = none := rfl

theorem slotsOf_oneMove (bus : Fin 4) (dst : Nat) (src : MoveSource) :
    slotsOf (oneMove bus dst src) = (List.range 4).map fun k => if k = bus.val then moveSlot bus dst src else noopSlot k := by
  refine List.map_congr_left fun k hk => ?_
  have hk4 : k < (oneMove bus dst src).length := by simpa [oneMove] using hk
  rw [List.getD_eq_getElem _ _ hk4]
  by_cases h : k = bus.val <;> simp [oneMove, h, moveSlot, noopSlot]

section
variable (bus : Fin 4) (dst : Nat) (src : MoveSource)

/-- What picks nothing from a no-op picks at most the one move. -/
theorem filterMap_slotsOf_oneMove {α : Type} (f : SlotAt → Option α) (h : ∀ k, f (noopSlot k) = none) :
    (slotsOf (oneMove bus dst src)).filterMap f = (f (moveSlot bus dst src)).toList := by
  rw [slotsOf_oneMove]
  cases hf : f (moveSlot bus dst src) <;> fin_cases bus <;> simp_all [List.range_succ]

theorem length_filter_take_slotsOf_oneMove_le (p : SlotAt → Bool) (h : ∀ k, p (noopSlot k) = false) (n : Nat) :
    (((slotsOf (oneMove bus dst src)).take n).filter p).length ≤ 1 := by
  calc (((slotsOf (oneMove bus dst src)).take n).filter p).length
      ≤ ((slotsOf (oneMove bus dst src)).filter p).length := ((List.take_sublist n _).filter p).length_le
    _ = (Option.guard p (moveSlot bus dst src)).toList.length := by
      rw [← List.filterMap_eq_filter, filterMap_slotsOf_oneMove _ _ _ _ fun k => by simp [h]]
    _ ≤ 1 := Option.length_toList_le

end

theorem eraseDups_of_length_le_one (xs : List Nat) (h : xs.length ≤ 1) : xs.eraseDups = xs := by
  match xs, h with
  | [], _ => rfl
  | [x], _ => rfl

theorem length_filePorts_le_one (lo : Nat) (ps : List Nat) (h : (ps.filter fun p => inPorts lo (lo + 31) p).length ≤ 1) :
    (filePorts lo ps).length ≤ 1 := by
  rw [filePorts, eraseDups_of_length_le_one _ h]
  exact h

/-- A lone move is within the limits of R213. -/
theorem portLimit_oneMove (c : Chip) (bus : Fin 4) (dst : Nat) (src : MoveSource) :
    c.portLimit (slotsOf (oneMove bus dst src)) = none := by
  have hpick := length_filter_take_slotsOf_oneMove_le bus dst src
  have hfile (lo : Nat) (hlo : lo ∈ [0x20, 0x40]) : inPorts lo (lo + 31) 0 = false := by
    fin_cases hlo <;> rfl
  simp only [Chip.portLimit, List.find?_eq_none, Chip.beyondLimit, Bool.or_eq_true, not_or, decide_eq_true_eq, not_lt,
    List.any_eq_true, not_exists, not_and]
  intro k _
  constructor
  · rw [eraseDups_of_length_le_one _ (by simpa using hpick (fun x => c.executes x && x.code.dst != 0) (by simp) (k + 1))]
  · intro ps hps lo hlo
    have hone : (ps.filter fun p => inPorts lo (lo + 31) p).length ≤ 1 := by
      rcases List.mem_pair.mp hps with rfl | rfl
      · rw [List.filter_map, List.length_map]
        exact hpick (fun x => inPorts lo (lo + 31) x.code.dst) (by simp [hfile lo hlo]) (k + 1)
      · rw [List.filter_map, List.length_map, List.filter_filter]
        exact hpick (fun x => inPorts lo (lo + 31) x.code.srcPort && x.code.form == 0) (by simp [hfile lo hlo]) (k + 1)
    exact (length_filePorts_le_one lo ps hone).trans (by decide)

/-- The encoding trap of a lone move is that of its slot. -/
theorem codeTrap_oneMove (c : Chip) (bus : Fin 4) (dst : Nat) (src : MoveSource) :
    c.codeTrap (slotsOf (oneMove bus dst src)) =
      (c.slotTrap (moveSlot bus dst src)).map fun z => Safety.moveTrapOf z bus dst src (.int 0) false := by
  rw [Chip.codeTrap, filterMap_slotsOf_oneMove _ _ _ _ fun k => by simp, portLimit_oneMove]
  cases c.slotTrap (moveSlot bus dst src) <;> rfl

/-- A move of a tagged immediate whose tag does not exist traps at its slot, whatever its port (R28, R216). -/
theorem slotTrap_moveSlot_of_no_tag (c : Chip) (bus : Fin 4) (dst : Nat) (t : BitVec 4) (v : BitVec 16) (hdst : dst < 2 ^ 12)
    (h : Tag.ofNum t.toNat = none) : c.slotTrap (moveSlot bus dst (.tagged t v)) = some .reservedBits := by
  rw [Chip.slotTrap, moveSlot, slotCode_moveBits dst _ hdst, reservedBits_tagged t v dst h]
  rfl

/-- A core at rest takes a lone move at once (R211, R232). -/
theorem coreAtRest_issues (c : Chip) (h : Safety.coreAtRest c = true) :
    (c.canIssue && c.core.stalled == none && c.interruptLevel == 0) = true := by
  simp only [Safety.coreAtRest, Bool.and_eq_true] at h ⊢
  tauto

/-- A lone move whose slot traps: the core takes that trap and nothing else happens (R229). -/
theorem issueOne_of_slotTrap (c : Chip) (bus : Fin 4) (dst : Nat) (src : MoveSource) (z : TrapCause)
    (hrest : Safety.coreAtRest c = true) (hz : c.slotTrap (moveSlot bus dst src) = some z) :
    issueOne bus dst src c = takeTrap (Safety.moveTrapOf z bus dst src (.int 0) false) c := by
  rw [issueOne, if_pos (coreAtRest_issues c hrest), runBundle, codeTrap_oneMove, hz]
  rfl

/-- Every row of the ALU's table issues a lone move to its trigger in the window (R221). -/
theorem exec_aluRow (s : State) (bus : Fin 4) (w : Fin 28) (src : MoveSource) :
    ∀ e ∈ Safety.aluRows, exec (e.1 bus w src) s = issueUnit bus w e.2.offset src s := by
  intro e he
  fin_cases he <;> rfl

/-- The triggers of the ALU lie in the port space (R217, R220). -/
theorem aluPort_lt (w : Fin 28) (op : AluOp) : windowBase w.val + op.offset < 2 ^ 12 := by
  have hop : op.offset ≤ 0x18 := by cases op <;> decide
  have hw := w.isLt
  simp only [windowBase]
  omega

end Sys2Proof.Machine
end

section
/-! A host write whose tag does not exist (R28, R40). -/

namespace Sys2Proof.Machine

/-- A slot whose tag does not exist is discarded, wherever it goes, and sets the two flags of a discarded write. -/
theorem hostWrite_of_no_tag (sp a : Nat) (x : SlotWrite) (c : Chip) (h : Tag.ofNum x.tag.toNat = none) :
    hostWrite sp a x c = (true, c.regReject.hostReject) := by
  rw [hostWrite, h]

/-- The write is discarded after the check units have seen it on a path that is served (R307, R390). -/
theorem hostWordWrite_of_no_tag (p sp a : Nat) (x : SlotWrite) (c : Chip) (hp : c.pathServed p = true)
    (h : Tag.ofNum x.tag.toNat = none) : hostWordWrite p sp a x c = (writeSeen p x true c).regReject.hostReject := by
  rw [hostWordWrite, if_pos hp, hostWrite_of_no_tag _ _ _ _ h]

theorem exec_hostWordWrite (s : State) (p : Fin 4) (sp : BitVec 4) (a : BitVec 32) (x : SlotWrite) :
    exec (.hostWordWrite p sp a x) s = .next { s with chip := hostWordWrite (p.val + 1) sp.toNat a.toNat x s.chip } := rfl

/-- A discarded write leaves REG_REJECT set: HOST_REJECT is another bit of SYS_STATUS (R40, R407). -/
theorem regReject_hostReject_flag (c : Chip) : c.regReject.hostReject.b Fld.SYS_STATUS_REG_REJECT = true := by
  have hkeep : c.regReject.hostReject.f Fld.SYS_STATUS_REG_REJECT = c.regReject.f Fld.SYS_STATUS_REG_REJECT :=
    Chip.raise_f_ne _ .sys 1 Fld.SYS_STATUS_REG_REJECT (.inr (by decide))
  rw [Chip.b, hkeep]
  exact Chip.raise_flag c .sys 0 (by decide)

end Sys2Proof.Machine
end

section
namespace Sys2Proof

open Machine

/-- Settles O60: a word's tag is one of R26's twelve; a lone move's encoding trap is that of its slot, where the immediate's
tag decides before the port does; a host write looks its tag up first. -/
theorem tagsThatDoNotExist : Obligations.TagsThatDoNotExist := by
  unfold Obligations.TagsThatDoNotExist
  refine ⟨fun w => w.tag.num_not_reserved, ?_, ?_⟩
  · intro s bus w t v hrest _ h9 h12 e he
    have htrap : s.chip.slotTrap (moveSlot bus (windowBase w.val + e.2.offset) (.tagged t v)) = some .reservedBits :=
      slotTrap_moveSlot_of_no_tag _ _ _ _ _ (aluPort_lt w e.2) (Tag.ofNum_reserved _ h9 h12)
    rw [exec_aluRow s bus w _ e he, issueUnit, onChip, issueOne_of_slotTrap _ _ _ _ _ hrest htrap]
  · intro s p sp a x hp h9 h12
    refine ⟨?_, regReject_hostReject_flag _⟩
    rw [exec_hostWordWrite, hostWordWrite_of_no_tag _ _ _ _ _ hp (Tag.ofNum_reserved _ h9 h12)]

end Sys2Proof
end

section
/-! The verdict and the descriptor of an unsecured frame (R108, R112, R113). -/

namespace Sys2Proof.Machine

section Screen
variable {c : Chip} {f : Frame} {h : Mhr} (hmhr : f.mhr = some h) (haux : h.aux = none)
include hmhr haux

/-- Steps 3 and 4 both filter an unsecured frame that LINK_CTRL does not allow: its address does not matter (R112). -/
theorem Chip.screen_of_unsecured_not_allowed (hallow : c.b Fld.LINK_CTRL_ALLOW_UNSECURED = false) :
    c.screen f = some vFiltered := by
  simp [Chip.screen, hmhr, haux, hallow]

/-- An allowed unsecured frame of a known type passes steps 3 and 4 by its address alone (R109, R112). -/
theorem Chip.screen_of_unsecured_allowed (hallow : c.b Fld.LINK_CTRL_ALLOW_UNSECURED = true)
    (haddr : c.addressPasses h = true) (hack : h.type ≠ 2) (htype : h.type ≤ 3) : c.screen f = none := by
  simp [Chip.screen, hmhr, haux, hallow, haddr, hack, htype]

end Screen

section Judge
variable {c : Chip} {f : Frame} (habandoned : f.abandoned = false) (hfaulted : f.faulted = false)
  (hfcs : fcsGood f.fcs2 f.psdu = true) (hprom : c.b Fld.LINK_CTRL_PROMISCUOUS = false)
include habandoned hfaulted hfcs hprom

/-- A frame that passes steps 1 and 2 takes the verdict of step 3 or 4 where it fails one, unopened (R108). -/
theorem Chip.judge_of_screen {v : Nat} (hscreen : c.screen f = some v) : c.judge f = (v, none) := by
  simp [Chip.judge, habandoned, hfaulted, hfcs, hprom, hscreen]

/-- An unsecured frame goes from step 4 to step 6: it is not opened (R112). -/
theorem Chip.judge_of_unsecured {h : Mhr} (hscreen : c.screen f = none) (hmhr : f.mhr = some h) (haux : h.aux = none) :
    c.judge f = (c.counterCheck f h, none) := by
  simp [Chip.judge, habandoned, hfaulted, hfcs, hprom, hscreen, hmhr, haux]

end Judge

/-- Step 6 accepts a frame of no partner: nothing is kept to compare it with (R113). -/
theorem Chip.counterCheck_of_no_handle (c : Chip) {f : Frame} (h : Mhr) (hhandle : f.handle = none) :
    c.counterCheck f h = vAccept := by
  rw [Chip.counterCheck, hhandle]

/-- Step 6 compares an unsecured frame's sequence number with its partner's last accepted one (R113). -/
theorem Chip.counterCheck_of_unsecured (c : Chip) {f : Frame} {h : Mhr} {i q : Nat} (hhandle : f.handle = some i)
    (haux : h.aux = none) (hseq : h.seq = some q) : c.counterCheck f h =
      if (c.entry i).seqValid = true ∧ q = (c.entry i).lastSeq then vDuplicate else vAccept := by
  simp [Chip.counterCheck, hhandle, haux, hseq]

/-- Word 13 of an unsecured frame's descriptor, the security word, is zero (R112, R133). -/
theorem Chip.descWords_security_of_unsecured (c : Chip) (j : Judged) (e pay : Nat) {h : Mhr} (hmhr : j.frame.mhr = some h)
    (haux : h.aux = none) : (c.descWords j e pay).getD 12 .absent = .bits 0 := by
  have hshown : j.frame.shown.aux = none := by rw [Frame.shown, hmhr]; exact haux
  cases hreport : j.frame.report <;> simp [Chip.descWords, hshown, hreport]

end Sys2Proof.Machine
end

section
namespace Sys2Proof

open Machine

/-- Settles O59: without ALLOW_UNSECURED the frame ends in the screen of steps 3 and 4; with it, the frame passes the screen
and its verdict is step 6's, unopened. -/
theorem unsecuredFrames : Obligations.UnsecuredFrames := by
  unfold Obligations.UnsecuredFrames
  intro c f h hmhr haux
  refine ⟨fun habandoned hfaulted hfcs hprom => ⟨fun hallow => ?_, fun hallow haddr hack htype => ?_⟩, ?_⟩
  · rw [Chip.judge_of_screen habandoned hfaulted hfcs hprom (Chip.screen_of_unsecured_not_allowed hmhr haux hallow)]
  · have hjudge : c.judge f = (c.counterCheck f h, none) :=
      Chip.judge_of_unsecured habandoned hfaulted hfcs hprom
        (Chip.screen_of_unsecured_allowed hmhr haux hallow haddr hack htype) hmhr haux
    refine ⟨fun hhandle => ?_, fun i q hhandle hseq => ?_⟩
    · rw [hjudge, Chip.counterCheck_of_no_handle c h hhandle]
    · rw [hjudge, Chip.counterCheck_of_unsecured c hhandle haux hseq]
  · rintro j e pay rfl
    rw [Chip.descWords_security_of_unsecured c j e pay hmhr haux]
    rfl

end Sys2Proof
end

section
/-! What any command and any step leave of the queue and of the fuses (R188). -/

namespace Sys2Proof.Machine

/-- RESET_N has no outcome between 100 ns and 1 us (R414). -/
theorem execResetN_undefined (s : State) {ns : Nat} (hlo : 100 ≤ ns) (hhi : ns < 1000) :
    exec (.resetN ns) s = .fault .resetPulseUndefined := by
  change execResetN ns s = _
  rw [execResetN, if_neg (by omega), if_neg (by omega)]

/-- A command answers with burned fuses at most, or is the RESET_N pulse of no defined outcome (R188, R414). -/
theorem exec_burns_or_undefined (i : Instr) (s : State) :
    Burns s (exec i s) ∨ ∃ ns, i = .resetN ns ∧ 100 ≤ ns ∧ ns < 1000 := by
  by_cases h : ∃ ns, i = .resetN ns ∧ 100 ≤ ns ∧ ns < 1000
  · exact .inr h
  · refine .inl (exec_burns i s fun ns hi => ?_)
    by_contra hns
    exact h ⟨ns, hi, by omega, by omega⟩

/-- A command that answers a next state has burned fuses at most. -/
theorem exec_next_burns {i : Instr} {s t : State} (h : exec i s = .next t) :
    ∃ c bs, t = { s with chip := c, otp := burned s.otp bs } := by
  rcases exec_burns_or_undefined i s with ⟨c, bs, hb⟩ | ⟨ns, rfl, hlo, hhi⟩
  · exact ⟨c, bs, by simpa [h] using hb⟩
  · simp [execResetN_undefined s hlo hhi] at h

/-- A step takes one command of the queue, and burns fuses at most. -/
theorem step_next_burns {s t : State} (h : step s = .next t) :
    ∃ c bs, t = { pending := s.pending.tail, chip := c, otp := burned s.otp bs } := by
  unfold step at h
  split at h
  next i rest hp =>
    obtain ⟨c, bs, rfl⟩ := exec_next_burns h
    exact ⟨c, bs, by simp [hp]⟩
  next hp =>
    injection h with h
    exact ⟨timePasses s.chip, [], by simp [← h, hp, burned]⟩

/-! ### Burning -/

/-- A row after a burn: its own bits and the burned ones, cut to 32; every other row as it was. -/
theorem otpRow_put (o : Store Nat) (r v k : Nat) : otpRow (Store.put 0 o r v) k = if k = r then v else otpRow o k :=
  Store.get_put 0 o r k v

/-- One burn keeps every burned fuse (R188). -/
theorem fusesKept_burn (o : Store Nat) (r m : Nat) :
    Safety.FusesKept o (Store.put 0 o r (Nat.lor (otpRow o r) m % 2 ^ 32)) := by
  intro k b hb hset
  rw [otpRow_put]
  split
  next hk =>
    subst hk
    have hor : (Nat.lor (otpRow o k) m).testBit b = true := by
      change (otpRow o k ||| m).testBit b = true
      rw [Nat.testBit_or, hset, Bool.true_or]
    rw [Nat.testBit_mod_two_pow, hor, decide_eq_true hb, Bool.and_true]
  next => exact hset

/-- Burns keep every burned fuse (R188). -/
theorem fusesKept_burned (bs : List (Nat × Nat)) (o : Store Nat) : Safety.FusesKept o (burned o bs) := by
  induction bs generalizing o with
  | nil => exact fun _ _ _ h => h
  | cons e bs ih => exact fun r b hb hset => ih _ r b hb (fusesKept_burn o e.1 e.2 r b hb hset)

/-- What a table lists after an entry is put into its place: that entry, or one that was there. -/
theorem Store.mem_insert {α : Type} {a : Nat} {v : α} {m : Store α} {e : Nat × α} (h : e ∈ Store.insert a v m) :
    e = (a, v) ∨ e ∈ m := by
  induction m with
  | nil => simpa [Store.insert] using h
  | cons x m ih =>
    simp only [Store.insert] at h
    split at h
    · rcases List.mem_cons.mp h with h | h
      · exact .inr (by simp [h])
      · exact (ih h).imp_right fun h => by simp [h]
    · exact (List.mem_cons.mp h)

/-- What a table lists after a write: the entry written, or one that was there. -/
theorem Store.mem_put {α : Type} [DecidableEq α] {d v : α} {a : Nat} {m : Store α} {e : Nat × α}
    (h : e ∈ Store.put d m a v) : e = (a, v) ∨ e ∈ m := by
  unfold Store.put at h
  split at h
  · exact .inr (List.mem_of_mem_filter h)
  · exact (Store.mem_insert h).imp_right List.mem_of_mem_filter

/-- One burn keeps the canonical form of the fuses (R188). -/
theorem fusesOk_burn (o : Store Nat) (r m : Nat) (h : Safety.fusesOk o = true) :
    Safety.fusesOk (Store.put 0 o r (Nat.lor (otpRow o r) m % 2 ^ 32)) = true := by
  simp only [Safety.fusesOk, Bool.and_eq_true, List.all_eq_true, decide_eq_true_eq] at h ⊢
  obtain ⟨hok, hlt⟩ := h
  refine ⟨Store.ok_put (fun _ => 0) o r _ hok, fun e he => ?_⟩
  rcases Store.mem_put he with rfl | he
  · exact Nat.mod_lt _ (Nat.two_pow_pos 32)
  · exact hlt e he

/-- Burns keep the canonical form of the fuses (R188). -/
theorem fusesOk_burned (bs : List (Nat × Nat)) (o : Store Nat) (h : Safety.fusesOk o = true) :
    Safety.fusesOk (burned o bs) = true := by
  induction bs generalizing o with
  | nil => exact h
  | cons e bs ih => exact ih _ (fusesOk_burn o e.1 e.2 h)

end Sys2Proof.Machine
end

section
namespace Sys2Proof

open Machine

/-- Settles O56: a step burns fuses at most, and a burn joins bits to a row. -/
theorem fusesNeverUnburn : Obligations.FusesNeverUnburn := by
  intro s t h
  obtain ⟨c, bs, rfl⟩ := step_next_burns h
  exact fusesKept_burned bs s.otp

/-- Settles O57: a step burns fuses at most, and a burn writes a row of 32 bits into its place. -/
theorem fusesStayCanonical : Obligations.FusesStayCanonical := by
  intro s t hok h
  obtain ⟨c, bs, rfl⟩ := step_next_burns h
  exact fusesOk_burned bs s.otp hok

/-- Settles O54: the three equations of `step`. -/
theorem stepTakesTheFront : Obligations.StepTakesTheFront := by
  refine ⟨fun _ _ => rfl, fun s i rest h => ?_, fun s h => ?_⟩
  · simp only [step, h]
  · simp only [step, h]

/-- Settles O55: a command leaves the queue it runs with, and a step takes the front. -/
theorem commandsKeepTheQueue : Obligations.CommandsKeepTheQueue := by
  refine ⟨fun s t i h => ?_, fun s t h => ?_⟩
  · obtain ⟨c, bs, rfl⟩ := exec_next_burns h
    rfl
  · obtain ⟨c, bs, rfl⟩ := step_next_burns h
    rfl

/-- Settles O5: every other command answers a next state. -/
theorem onlyTheUndefinedPulseStops : Obligations.OnlyTheUndefinedPulseStops := by
  refine ⟨fun s ns hlo hhi => execResetN_undefined s hlo hhi, fun s i hstops => ?_⟩
  rcases exec_burns_or_undefined i s with ⟨c, bs, hb⟩ | hpulse
  · simp [hb, Safety.stops] at hstops
  · exact hpulse

/-- Settles O58: State.reset lists no register and no word, so each value is that of its table. -/
theorem resetValues : Obligations.ResetValues := by
  simp only [Obligations.ResetValues]
  decide +kernel

end Sys2Proof
end

section
/-! Requests of a power state (R334 to R337, R341). -/

namespace Sys2Proof

theorem Status.code_lt (st : Status) : st.code < 4096 := by
  cases st <;> decide

end Sys2Proof

namespace Sys2Proof.Machine

variable (c : Chip)

/-- The request takes the next sequence number (R334). -/
def nextSeq (c : Chip) : Nat := (c.f Fld.PWR_STATUS_LAST_SEQ + 1) % 256

/-- The chip with the number taken. -/
def numbered (c : Chip) : Chip := c.setF Fld.PWR_STATUS_LAST_SEQ (nextSeq c)

theorem nextSeq_lt : nextSeq c < 256 := Nat.mod_lt _ (by decide)

theorem numbered_lastSeq : (numbered c).f Fld.PWR_STATUS_LAST_SEQ = nextSeq c := by
  rw [numbered, Chip.f_setF _ _ _ (by decide)]
  exact Nat.mod_eq_of_lt (nextSeq_lt c)

theorem numbered_f_ne (y : Field) (h : y.reg ≠ Reg.PWR_STATUS ∨ y.lo + y.w ≤ 36 ∧
    (y.lo + y.w ≤ Fld.PWR_STATUS_LAST_SEQ.lo ∨ Fld.PWR_STATUS_LAST_SEQ.lo + Fld.PWR_STATUS_LAST_SEQ.w ≤ y.lo)) :
    (numbered c).f y = c.f y := Chip.f_setF_ne c _ y _ h

theorem numbered_power : (numbered c).power = c.power := numbered_f_ne c _ (by decide)

theorem numbered_active : (numbered c).b Fld.PWR_STATUS_ACTIVE = c.b Fld.PWR_STATUS_ACTIVE := by
  unfold Chip.b; rw [numbered_f_ne c _ (by decide)]

/-- An answer leaves PWR_STATUS alone. -/
theorem pwrAnswer_status (seq target : Nat) (st : Status) (y : Field) (h : y.reg = Reg.PWR_STATUS) :
    (pwrAnswer seq target st c).f y = c.f y :=
  pwrAnswer_f_ne c seq target st y (by rw [h]; decide) (by rw [h]; decide)

theorem pwrAnswer_radio (seq target : Nat) (st : Status) : (pwrAnswer seq target st c).radio = c.radio := by
  simp [pwrAnswer]

/-- What taking the pending request's place leaves of PWR_STATUS: all but the pending fields (R336). -/
theorem supersedePending_status (y : Field) (h : y.reg = Reg.PWR_STATUS) (hw : y.lo + y.w ≤ 36)
    (hp : y.lo + y.w ≤ Fld.PWR_STATUS_PENDING.lo ∨ Fld.PWR_STATUS_PENDING.lo + 1 ≤ y.lo)
    (ht : y.lo + y.w ≤ Fld.PWR_STATUS_PENDING_TARGET.lo ∨ Fld.PWR_STATUS_PENDING_TARGET.lo + 4 ≤ y.lo) :
    (supersedePending c).f y = c.f y := by
  unfold supersedePending
  split
  · rw [Chip.f_setF_ne _ _ _ _ (.inr ⟨hw, ht⟩), Chip.setB, Chip.f_setF_ne _ _ _ _ (.inr ⟨hw, hp⟩),
      pwrAnswer_status _ _ _ _ _ h]
  · rfl

section Request
variable {c} {target : Nat} (h8 : target < 8) (h7 : c.power ≠ 7) (hheld : c.pwr.heldInReset = false)
include h8 h7 hheld

/-- A request that a check refuses is answered with its status (R335). -/
theorem powerRequest_refused {st : Status} (hst : (numbered c).powerRefusal target = some st) :
    powerRequest target c = pwrAnswer (nextSeq c) target st (numbered c) := by
  have hst' : (c.setF Fld.PWR_STATUS_LAST_SEQ ((c.f Fld.PWR_STATUS_LAST_SEQ + 1) % 256)).powerRefusal target = some st := hst
  simp only [powerRequest, h7, hheld, Bool.false_eq_true, or_self, if_false, Nat.not_le.mpr h8, hst']
  rfl

variable (hok : (numbered c).powerRefusal target = none)
include hok

/-- A request that no check refuses is made pending, answered at once or started (R336). -/
theorem powerRequest_taken :
    powerRequest target c =
      if c.b Fld.PWR_STATUS_ACTIVE then
        (((supersedePending (numbered c)).setB Fld.PWR_STATUS_PENDING true).setF Fld.PWR_STATUS_PENDING_TARGET target).onPwr
          fun p => { p with pendingSeq := nextSeq c }
      else if target = c.power then pwrAnswer (nextSeq c) target .ok (numbered c)
      else startTransition (nextSeq c) target false (numbered c) := by
  have hok' : (c.setF Fld.PWR_STATUS_LAST_SEQ ((c.f Fld.PWR_STATUS_LAST_SEQ + 1) % 256)).powerRefusal target = none := hok
  have hp := numbered_power c
  have ha := numbered_active c
  simp only [numbered, nextSeq] at hp ha
  simp only [powerRequest, h7, hheld, Bool.false_eq_true, or_self, if_false, Nat.not_le.mpr h8, hok', hp, ha]
  rfl

end Request

/-- The fields of a transition that becomes active, of a level or to Dusk (R336, R337, R341). -/
theorem startTransition_fields (seq target : Nat) (hseq : seq < 256) (ht : target ≤ 4) :
    let d := startTransition seq target false c
    d.b Fld.PWR_STATUS_ACTIVE = true ∧ d.f Fld.PWR_STATUS_ACTIVE_TARGET = target ∧ d.f Fld.PWR_STATUS_ACTIVE_SEQ = seq ∧
      d.f Fld.PWR_STATUS_LAST_SEQ = c.f Fld.PWR_STATUS_LAST_SEQ ∧ d.power = c.power ∧
      d.pwr.doneAt = (if target ≤ 3 then some (c.now + levelTime c.power target) else none) := by
  have hlt : target % 16 = target := Nat.mod_eq_of_lt (by omega)
  have hsq : seq % 256 = seq := Nat.mod_eq_of_lt hseq
  simp (disch := decide) [startTransition, ht, Chip.b, Chip.power, Chip.setB, b2n, Chip.f_setF_ne, Chip.f_setF, hlt, hsq]

end Sys2Proof.Machine
end

section
namespace Sys2Proof

open Machine

/-- Settles O1: a refused request is an answer; one that is taken is pending, answered or a transition, and each is read field
by field. -/
theorem powerRequests : Obligations.PowerRequests := by
  constructor
  · intro s target st h8 h7 hheld hst
    have hstatus := fun y h => pwrAnswer_status (numbered s.chip) (nextSeq s.chip) target.toNat st y h
    obtain ⟨hseq, htarget, hcode⟩ := pwrAnswer_result (numbered s.chip) (nextSeq s.chip) target.toNat st
    have hb := numbered_active s.chip
    refine ⟨_, rfl, ?_⟩
    dsimp only
    rw [powerRequest_refused h8 h7 hheld hst]
    refine ⟨(hstatus _ rfl).trans (numbered_lastSeq _), hseq.trans (Nat.mod_eq_of_lt (nextSeq_lt _)),
      htarget.trans (Nat.mod_eq_of_lt (by omega)), hcode.trans (Nat.mod_eq_of_lt st.code_lt), ?_,
      (hstatus _ rfl).trans (numbered_power _), pwrAnswer_pwr _ _ _ _, pwrAnswer_radio _ _ _ _, pwrAnswer_core _ _ _ _, rfl⟩
    rw [← hb, Chip.b, Chip.b, hstatus _ rfl]
  intro s target h8 h7 hheld seq hok
  refine ⟨fun hact hne h4 => ?_, fun hact => ?_, fun hact heq => ?_⟩
  · obtain ⟨h1, h2, h3, hlast, hpower, hdone⟩ := startTransition_fields (numbered s.chip) seq target.toNat (nextSeq_lt _) h4
    refine ⟨_, rfl, ?_⟩
    dsimp only
    rw [powerRequest_taken h8 h7 hheld hok, hact, if_neg Bool.false_ne_true, if_neg hne]
    rw [numbered_power] at hdone
    exact ⟨h1, h2, h3, hlast.trans (numbered_lastSeq _), hpower.trans (numbered_power _), hdone⟩
  · have hkeep := fun y h hw => supersedePending_status (numbered s.chip) y h hw
    have h16 : target.toNat % 16 = target.toNat := Nat.mod_eq_of_lt (by omega)
    refine ⟨_, rfl, ?_⟩
    dsimp only
    rw [powerRequest_taken h8 h7 hheld hok, if_pos hact]
    simp only [Chip.onPwr_b, Chip.onPwr_f, Chip.onPwr_power, Chip.onPwr_pwr]
    have hold : (numbered s.chip).f Fld.PWR_STATUS_ACTIVE = 1 := by
      rw [numbered_f_ne _ _ (by decide)]; simpa [Chip.b] using hact
    refine ⟨?_, ?_, ?_, rfl, ?_⟩
    · simp (disch := decide) [Chip.b, Chip.setB, Chip.f_setF_ne, hkeep, hold]
    · simp (disch := decide) [Chip.b, Chip.setB, b2n, Chip.f_setF_ne, Chip.f_setF]
    · simp (disch := decide) [Chip.f_setF, h16]
    · rw [← numbered_power s.chip]
      simp (disch := decide) [Chip.power, Chip.setB, Chip.f_setF_ne, hkeep]
  · obtain ⟨hseq, -, hcode⟩ := pwrAnswer_result (numbered s.chip) (nextSeq s.chip) target.toNat .ok
    refine ⟨_, rfl, ?_⟩
    dsimp only
    rw [powerRequest_taken h8 h7 hheld hok, hact, if_neg Bool.false_ne_true, if_pos heq]
    exact ⟨hseq.trans (Nat.mod_eq_of_lt (nextSeq_lt _)), hcode, (pwrAnswer_status _ _ _ _ _ rfl).trans (numbered_power _)⟩

end Sys2Proof
end

section
/-! The ends of transitions, Dusk, and the idle timer (R336, R338, R341). -/

namespace Sys2Proof.Machine

variable (c : Chip)

/-- The power state stands in its own fields alone. -/
theorem setPower_f_ne (p : Nat) (y : Field) (h : y.reg ≠ Reg.SYS_STATE ∧ (y.reg ≠ Reg.PWR_STATUS ∨ y.lo + y.w ≤ 32)) :
    (setPower p c).f y = c.f y := by
  obtain ⟨h1, h2⟩ := h
  rw [setPower, Chip.f_setF_ne _ _ _ _ (h2.imp_right fun h => ⟨h.trans (by decide), .inl h⟩), Chip.f_setF_reg _ _ _ _ h1]

@[simp] theorem setPower_pwr (p : Nat) : (setPower p c).pwr = c.pwr := by simp [setPower]
@[simp] theorem setPower_core (p : Nat) : (setPower p c).core = c.core := by simp [setPower]

theorem setPower_b_ne (p : Nat) (y : Field) (h : y.reg ≠ Reg.SYS_STATE ∧ (y.reg ≠ Reg.PWR_STATUS ∨ y.lo + y.w ≤ 32)) :
    (setPower p c).b y = c.b y := by
  unfold Chip.b; rw [setPower_f_ne c p y h]

theorem Chip.f_lt (x : Field) : c.f x < 2 ^ x.w := Nat.mod_lt _ (Nat.two_pow_pos _)

/-- A level transition that has settled ends at its target (R336). -/
theorem transitionDone_due {g : Nat} (hact : c.b Fld.PWR_STATUS_ACTIVE = true) (hat : c.pwr.doneAt = some g) (hg : g ≤ c.now)
    (ht : c.f Fld.PWR_STATUS_ACTIVE_TARGET ≤ 3) (hp : c.power ≤ 3) :
    transitionDone c = transitionEnd ((setPower (c.f Fld.PWR_STATUS_ACTIVE_TARGET) c).onPwr fun p =>
      { p with level := c.f Fld.PWR_STATUS_ACTIVE_TARGET }) := by
  simp [transitionDone, hat, hact, hg, ht, hp]

/-- An entry to Dusk with the core at a bundle boundary (R341). -/
theorem duskEntry_due (hact : c.b Fld.PWR_STATUS_ACTIVE = true) (ht : c.f Fld.PWR_STATUS_ACTIVE_TARGET = 4)
    (hp : c.power ≤ 3) (hacc : c.core.accesses = []) (hst : c.core.stalled = none) :
    duskEntry c = (setPower 4 c).onPwr fun p => { p with level := c.power, doneAt := none } := by
  simp [duskEntry, hact, ht, hp, hacc, hst]

/-- A wake from Dusk that is due (R341). -/
theorem duskWake_due {g : Nat} (hat : c.pwr.doneAt = some g) (hg : g ≤ c.now) (hp : c.power = 4) :
    duskWake c = transitionEnd (setPower c.pwr.level c) := by
  simp [duskWake, hat, hg, hp]

/-- The flag of a rejected register write. -/
theorem regReject_flag : c.regReject.b Fld.SYS_STATUS_REG_REJECT = true := Chip.raise_flag c .sys 0 (by decide)

theorem regReject_f_ne (y : Field) (h : y.reg ≠ Reg.SYS_STATUS) : c.regReject.f y = c.f y := Chip.raise_f_reg c .sys 0 y h

theorem regReject_reg_ne (a : Nat) (h : a ≠ Reg.SYS_STATUS) : c.regReject.reg a = c.reg a := Chip.raise_reg_ne c .sys 0 a h

section IdleArm
variable (v : Nat)

/-- A legal write of PWR_IDLE_ARM takes its fields and restarts the count (R338). -/
theorem idleArmWrite_legal (ht : bitsOf v 28 4 < 8) (hk : ¬ (bitOf v 32 = true ∧ v % 2 ^ 24 = 0)) :
    let d := idleArmWrite v c
    d.b Fld.PWR_IDLE_ARM_ARMED = bitOf v 32 ∧ d.f Fld.PWR_IDLE_ARM_TARGET = bitsOf v 28 4 ∧
      d.f Fld.PWR_IDLE_ARM_TICKS = v % 2 ^ 24 ∧ d.regN Reg.PWR_IDLE_COUNT = 0 := by
  have htarget : decide (8 ≤ bitsOf v 28 4) = false := decide_eq_false (by omega)
  have hticks : (bitOf v 32 && v % 2 ^ 24 == 0) = false := by simpa using hk
  have h16 : bitsOf v 28 4 % 16 = bitsOf v 28 4 := Nat.mod_eq_of_lt (by omega)
  simp only [idleArmWrite, htarget, hticks, Bool.or_self, Bool.false_eq_true, if_false, Chip.onPwr_f, Chip.onPwr_b, Chip.onPwr_regN]
  refine ⟨?_, ?_, ?_, by simp⟩
  · rw [Chip.b, Chip.f_setRegN_ne _ _ _ _ (by decide)]
    exact Chip.b_setB _ _ _ rfl (by decide)
  · simp (disch := decide) [Chip.f_setRegN_ne, Chip.setB, Chip.f_setF_ne, Chip.f_setF, h16]
  · simp (disch := decide) [Chip.f_setRegN_ne, Chip.setB, Chip.f_setF_ne, Chip.f_setF]

/-- A write of PWR_IDLE_ARM with a reserved field is rejected: that field, the count, and an arming that the write does not clear
stay (R37, R338). -/
theorem idleArmWrite_reserved (h : 8 ≤ bitsOf v 28 4 ∨ bitOf v 32 = true ∧ v % 2 ^ 24 = 0) :
    let d := idleArmWrite v c
    d.b Fld.SYS_STATUS_REG_REJECT = true ∧ d.b Fld.PWR_IDLE_ARM_ARMED = (bitOf v 32 && c.b Fld.PWR_IDLE_ARM_ARMED) ∧
      d.regN Reg.PWR_IDLE_COUNT = c.regN Reg.PWR_IDLE_COUNT ∧
      (8 ≤ bitsOf v 28 4 → d.f Fld.PWR_IDLE_ARM_TARGET = c.f Fld.PWR_IDLE_ARM_TARGET) ∧
      (bitOf v 32 = true → v % 2 ^ 24 = 0 → d.f Fld.PWR_IDLE_ARM_TICKS = c.f Fld.PWR_IDLE_ARM_TICKS) := by
  have hbad : (decide (8 ≤ bitsOf v 28 4) || (bitOf v 32 && v % 2 ^ 24 == 0)) = true := by simpa using h
  simp only [idleArmWrite, hbad, if_true]
  refine ⟨regReject_flag _, ?_, ?_, fun ht => ?_, fun h1 h2 => ?_⟩
  · rw [Chip.b, regReject_f_ne _ _ (by decide)]
    exact Chip.b_setB _ _ _ rfl (by decide)
  · unfold Chip.regN
    rw [regReject_reg_ne _ _ (by decide), Chip.reg_setB_ne _ _ _ _ (by decide)]
    split <;> split <;> simp (disch := decide) only [Chip.reg_setF_ne]
  · simp (disch := decide) only [ht, decide_true, if_true, regReject_f_ne, Chip.setB, Chip.f_setF_ne]
    split <;> simp (disch := decide) only [Chip.f_setF_ne]
  · simp (disch := decide) only [h1, h2, Bool.and_self, BEq.rfl, if_true, regReject_f_ne, Chip.setB, Chip.f_setF_ne]
    split <;> simp (disch := decide) only [Chip.f_setF_ne]

end IdleArm

/-- The idle timer whose count has reached TICKS makes its request (R338). -/
theorem idleFired_due (harm : c.b Fld.PWR_IDLE_ARM_ARMED = true)
    (h : c.f Fld.PWR_IDLE_ARM_TICKS ≤ c.regN Reg.PWR_IDLE_COUNT) :
    idleFired c = powerRequest (c.f Fld.PWR_IDLE_ARM_TARGET) ((c.setB Fld.PWR_IDLE_ARM_ARMED false).raise .pwr 5) := by
  simp [idleFired, harm, h]

end Sys2Proof.Machine
end

section
namespace Sys2Proof

open Machine

/-- Settles O2: a transition that is due ends at its power state with nothing to follow; PWR_IDLE_ARM is taken or rejected
whole. -/
theorem transitionsAndIdleTimer : Obligations.TransitionsAndIdleTimer := by
  refine ⟨fun s hact hpend hforced hnext => ⟨fun g hat hg ht hp => ?_, fun ht hp hacc hst => ?_, fun g hat hg hp hl => ?_⟩,
    fun s => ⟨fun v ht hk => ⟨_, rfl, idleArmWrite_legal s.chip v.toNat ht hk⟩, fun v ht => ?_, fun v h1 h2 => ?_,
      fun harm hcount => ?_⟩⟩
  · have hend := transitionEnd_fields ((setPower (s.chip.f Fld.PWR_STATUS_ACTIVE_TARGET) s.chip).onPwr fun p =>
      { p with level := s.chip.f Fld.PWR_STATUS_ACTIVE_TARGET }) (by simpa using hforced) (by simpa using hnext)
      (by rw [Chip.onPwr_b, setPower_b_ne _ _ _ (by decide), hpend])
    simp only [Chip.onPwr_power, setPower_power, Chip.onPwr_f, Chip.onPwr_pwr] at hend
    rw [setPower_f_ne _ _ _ (by decide), setPower_f_ne _ _ _ (by decide)] at hend
    obtain ⟨hpow, hoff, hseq, htarget, hstatus, hlevel, -⟩ := hend
    have hsq : s.chip.f Fld.PWR_STATUS_ACTIVE_SEQ % 256 = s.chip.f Fld.PWR_STATUS_ACTIVE_SEQ :=
      Nat.mod_eq_of_lt (s.chip.f_lt Fld.PWR_STATUS_ACTIVE_SEQ)
    have htg : s.chip.f Fld.PWR_STATUS_ACTIVE_TARGET % 16 = s.chip.f Fld.PWR_STATUS_ACTIVE_TARGET := Nat.mod_eq_of_lt (by omega)
    refine ⟨_, rfl, ?_⟩
    dsimp only
    rw [transitionDone_due _ hact hat hg ht hp]
    exact ⟨hpow.trans htg, hoff, hseq.trans hsq, htarget.trans htg, hstatus, hlevel⟩
  · refine ⟨_, rfl, ?_⟩
    dsimp only
    rw [duskEntry_due _ hact ht hp hacc hst]
    simp only [Chip.onPwr_power, Chip.onPwr_pwr, Chip.onPwr_core, Chip.onPwr_b, setPower_power]
    exact ⟨trivial, trivial, rfl, (setPower_b_ne _ _ _ (by decide)).trans hact⟩
  · obtain ⟨hpow, hoff, -, -, -, -, hcore⟩ := transitionEnd_fields (setPower s.chip.pwr.level s.chip) hforced hnext
      ((setPower_b_ne _ _ _ (by decide)).trans hpend)
    refine ⟨_, rfl, ?_⟩
    dsimp only
    rw [duskWake_due _ hat hg hp]
    exact ⟨hpow.trans ((setPower_power _ _).trans (Nat.mod_eq_of_lt (by omega))), hoff, hcore⟩
  · obtain ⟨hrej, harm, hcount, htarget, -⟩ := idleArmWrite_reserved s.chip v.toNat (.inl ht)
    exact ⟨_, rfl, htarget ht, hrej, harm, hcount⟩
  · obtain ⟨hrej, harm, hcount, -, hticks⟩ := idleArmWrite_reserved s.chip v.toNat (.inr ⟨h1, h2⟩)
    exact ⟨_, rfl, hticks h1 h2, hrej, harm.trans (by rw [h1, Bool.true_and]), hcount⟩
  · change Host.Outcome.next { s with chip := idleFired s.chip } = _
    rw [idleFired_due _ harm hcount]

end Sys2Proof
end

section
/-! Entry to a sleep state, the end of the wake sequence, and resets into BOOT (R22, R341, R343, R349, R414). -/

namespace Sys2Proof.Machine

variable (c : Chip)

/-! ### MRAM writes and the state record leave the update state alone but for the record (R356) -/

@[simp] theorem writeMramBytes_upd (xs : List Nat) (b : Nat) (c : Chip) : (writeMramBytes b xs c).upd = c.upd := by
  induction xs generalizing b c with
  | nil => rfl
  | cons x xs ih => rw [writeMramBytes, ih]; rfl

@[simp] theorem writeCopy_upd (base len : Nat) (magic body : List Nat) : (writeCopy base len magic body c).upd = c.upd := by
  simp [writeCopy]

@[simp] theorem putRec_aonFails (r : SlotRec) : (putRec r c).upd.aonFails = c.upd.aonFails := by simp [putRec]

theorem countFailure_of_record {r : SlotRec} (h : c.upd.record = some r) :
    countFailure c = putRec { r with fails := r.fails + 1 } c := by simp [countFailure, h]

theorem countFailure_of_no_record (h : c.upd.record = none) :
    countFailure c = c.onUpd fun u => { u with aonFails := u.aonFails + 1 } := by simp [countFailure, h]

@[simp] theorem deviceReset_aonFails (cause : Option Nat) (lost : Bool) :
    (deviceReset cause lost c).upd.aonFails = c.upd.aonFails := by
  simp only [deviceReset, linkOscFollow_upd, Chip.setRegN_upd, Chip.setReg_upd]

/-! ### Sleep and wake -/

/-- An entry that finds nothing left in the radio (R341). -/
theorem sleepEntryDrained_due (hent : c.entering = true) (hwait : c.b Fld.PWR_STATUS_ENTRY_WAIT = true) (hp : c.power ≤ 3)
    (hf : c.radio.frames = []) (hc : c.radio.carriers = []) (ha : c.radio.acks = []) :
    sleepEntryDrained c = (setPower (c.f Fld.PWR_STATUS_ACTIVE_TARGET)
      (latchPads 1 ((sleepDown (c.f Fld.PWR_STATUS_ACTIVE_TARGET) c).setB Fld.PWR_STATUS_ENTRY_WAIT false))).onPwr fun p =>
        { p with wakeEdge := none, entered := nextEdge c.now, doneAt := none } := by
  simp [sleepEntryDrained, hent, hwait, hp, hf, hc, ha]

/-- Latched pads show it (R349). -/
theorem latchPads_latched (cause : Nat) : (latchPads cause c).b Fld.PAD_STATUS_LATCHED = true := by
  simp (disch := decide) [latchPads, Chip.b, Chip.setB, b2n, Chip.f_setF_ne, Chip.f_setF]

/-- The islands that a sleep put down stand on again, but those the recipe leaves off (R343). -/
def islandsBack (c : Chip) : Chip :=
  (sleepOff c.power c).foldl (fun c i => if c.island i == .absent then c else c.setIsland i .on) c

/-- Only the islands change. -/
theorem islandsBack_eq : ∃ m, islandsBack c = { c with islands := m } := by
  unfold islandsBack
  generalize sleepOff c.power c = l
  induction l generalizing c with
  | nil => exact ⟨c.islands, rfl⟩
  | cons i l ih =>
    simp only [List.foldl_cons]
    split
    · exact ih c
    · obtain ⟨m, hm⟩ := ih (c.setIsland i .on)
      exact ⟨m, hm⟩

section Wake
variable {c} {g : Nat} (found : Option (Nat × Nat)) (o : Store Nat) (hat : c.pwr.doneAt = some g) (hg : g ≤ c.now)
  (hp : c.power = 5 ∨ c.power = 6)
include hat hg hp

/-- A wake whose recipe does not re-apply is a failed start (R271, R343). -/
theorem wake_failed (hfail : (islandsBack c).wakeFails (c.kept.getD (parseRecipe [])) = true) :
    wake found o c = deviceReset (some causeWakeFail) false (countFailure (islandsBack c)) := by
  simp only [islandsBack] at hfail
  simp only [wake, hat, hp, Nat.not_lt.mpr hg, hfail, not_true_eq_false, or_self, if_false, if_true, islandsBack]

/-- A wake whose recipe re-applies ends with firmware started (R239, R343). -/
theorem wake_starts (hok : (islandsBack c).wakeFails (c.kept.getD (parseRecipe [])) = false) :
    ∃ d, wake found o c = transitionEnd (coreStart 1 d) := by
  simp only [islandsBack] at hok
  simp only [wake, hat, hp, Nat.not_lt.mpr hg, hok, not_true_eq_false, or_self, if_false, Bool.false_eq_true]
  exact ⟨_, rfl⟩

end Wake

end Sys2Proof.Machine
end

section
namespace Sys2Proof

open Machine

/-- Settles O3: an entry that is due is one record update; a wake that is due starts firmware last of all, or counts its failure
and resets. -/
theorem sleepAndWake : Obligations.SleepAndWake := by
  constructor
  · intro s hent hwait hp hf hc ha target
    have hdue := sleepEntryDrained_due s.chip hent hwait hp hf hc ha
    have htarget : target % 16 = target := Nat.mod_eq_of_lt (s.chip.f_lt Fld.PWR_STATUS_ACTIVE_TARGET)
    refine ⟨?_, _, rfl, ?_⟩
    · change Host.Outcome.next { s with chip := sleepEntryDrained s.chip } = _
      rw [hdue]
    · dsimp only
      rw [hdue]
      simp only [Chip.onPwr_power, Chip.onPwr_b, Chip.onPwr_pwr, setPower_power]
      refine ⟨htarget, ?_, rfl⟩
      rw [setPower_b_ne _ _ _ (by decide), latchPads_latched]
  · intro s found g hat hg hp back
    have hback : back = islandsBack s.chip := rfl
    obtain ⟨m, hm⟩ := islandsBack_eq s.chip
    rw [hback]
    refine ⟨fun hok => ?_, fun hfail => ?_⟩
    · obtain ⟨d, hd⟩ := wake_starts (found.map fun f => (f.size.val, f.rate.val)) s.otp hat hg hp hok
      refine ⟨_, rfl, ?_⟩
      dsimp only
      rw [hd, transitionEnd_core]
      exact ⟨rfl, rfl, rfl, rfl⟩
    · refine ⟨_, rfl, ?_⟩
      dsimp only
      rw [wake_failed _ _ hat hg hp hfail]
      refine ⟨deviceReset_dev _ _ _, deviceReset_core _ _ _, deviceReset_cause _ _ _ (by decide), rfl, fun r hr => ?_,
        fun hr => ?_⟩
      · have hr' : (islandsBack s.chip).upd.record = some r := by rw [hm]; exact hr
        rw [deviceReset_mram, deviceReset_aonFails, countFailure_of_record _ hr', putRec_aonFails]
        exact ⟨rfl, by rw [hm]⟩
      · have hr' : (islandsBack s.chip).upd.record = none := by rw [hm]; exact hr
        rw [deviceReset_mram, deviceReset_aonFails, countFailure_of_no_record _ hr', Chip.onUpd_mems, Chip.onUpd_upd, hm]
        exact ⟨rfl, rfl⟩

end Sys2Proof
end

section
/-! Resets into BOOT, and brown-out (R22, R339, R414). -/

namespace Sys2Proof.Machine

variable (c : Chip)

theorem mainValid_f (held : Bool) (x : Field) (h : islandOf x.reg ≠ .rtc) (h3 : x.reg ≠ Reg.LINK_STATUS) :
    (mainValid held c).f x = c.f x := by
  unfold Chip.f; rw [mainValid_reg c held _ h h3]

/-- A reset of a chip whose DEAD fuse is not burned: BOOT, its cause, no firmware (R22). -/
theorem resetDevice_boot (b : Nat) (hb : b < 36) (lost : Bool) {o : Store Nat} (h : deadFused o = false) :
    (resetDevice (some b) lost o c).dev = devBoot ∧ (resetDevice (some b) lost o c).regN Reg.PWR_RESET_CAUSE = 2 ^ b ∧
      (resetDevice (some b) lost o c).core.running = false := by
  rw [resetDevice_live c _ lost o h, deviceReset_core]
  exact ⟨deviceReset_dev c _ _, deviceReset_cause c b lost hb, rfl⟩

/-- The return of main changes neither the device state, nor the reset cause, nor the core (R329). -/
theorem mainValid_boot (held : Bool) : (mainValid held c).dev = c.dev ∧
    (mainValid held c).regN Reg.PWR_RESET_CAUSE = c.regN Reg.PWR_RESET_CAUSE ∧ (mainValid held c).core = c.core := by
  refine ⟨mainValid_f c held _ (by decide) (by decide), ?_, mainValid_core c held⟩
  unfold Chip.regN; rw [mainValid_reg c held _ (by decide) (by decide)]

/-- POWER_UP is a reset, after which main is valid (R22, R329). -/
theorem powerUp_resets (held : Bool) (mv : Nat) (io33 : Bool) (o : Store Nat) :
    ∃ d, powerUp held mv io33 o c = mainValid held (resetDevice (some causePowerUp) true o d) := ⟨_, rfl⟩

/-- The rows that end in a reset hand the chip on with its burns joined in: everything but the security state stands. -/
theorem execResetN_reset (s : State) {ns : Nat} (h : 1000 ≤ ns) (hb : s.chip.pwr.brownout = false) :
    exec (.resetN ns) s = .next (Safety.settled s (resetDevice (some causePin) (s.chip.power == 7) s.otp s.chip)) := by
  change execResetN ns s = _
  rw [execResetN, if_pos h, onChipBurn, hb]
  rfl

theorem execResetN_ignored (s : State) {ns : Nat} (h : ns < 100) : exec (.resetN ns) s = .next s := by
  change execResetN ns s = _
  rw [execResetN, if_neg (by omega), if_pos h]

end Sys2Proof.Machine
end

section
namespace Sys2Proof

open Machine

/-- Settles O4: each row ends in a device reset with its cause, after which POWER_UP only gives the RTC domain back. -/
theorem resetsIntoBoot : Obligations.ResetsIntoBoot := by
  intro s halive
  refine ⟨fun held mv io33 => ?_, fun ns hns hbrown => ?_, fun ns hns => execResetN_ignored s hns, fun mv hbrown => ?_⟩
  · refine ⟨_, rfl, ?_⟩
    obtain ⟨d, hd⟩ := powerUp_resets s.chip held mv.toNat io33 s.otp
    simp only [Chip.onSec_dev, Chip.onSec_regN, Chip.onSec_core, hd]
    obtain ⟨hdev, hcause, hcore⟩ := mainValid_boot (resetDevice (some causePowerUp) true s.otp d) held
    obtain ⟨hboot, hbit, hstop⟩ := resetDevice_boot d causePowerUp (by decide) true halive
    exact ⟨hdev.trans hboot, hcause.trans hbit, by rw [hcore, hstop]⟩
  · obtain ⟨hboot, hbit, hstop⟩ := resetDevice_boot s.chip causePin (by decide) (s.chip.power == 7) halive
    refine ⟨_, execResetN_reset s hns hbrown, ?_⟩
    simp only [Safety.settled, Chip.onSec_dev, Chip.onSec_regN, Chip.onSec_core, Chip.onSec_mems]
    exact ⟨hboot, hbit, hstop, by rw [resetDevice_live _ _ _ _ halive, deviceReset_mram]⟩
  · refine ⟨_, rfl, ?_⟩
    simp only [Chip.onSec_dev, Chip.onSec_regN, Chip.onSec_core, Chip.onSec_pwr, brownOutExit, hbrown, if_true]
    obtain ⟨hboot, hbit, hstop⟩ := resetDevice_boot
      (s.chip.onPwr fun p => { p with vsys := mv.toNat, brownout := false, heldInReset := false }) causeBrownout (by decide) true
      halive
    refine ⟨hboot, hbit, ?_, hstop, ?_⟩ <;> rw [resetDevice_live _ _ _ _ halive, deviceReset_pwr] <;> rfl

end Sys2Proof
end

section
/-! What happens in the radio, the lanes and the link controller leaves MRAM (R180) and the mailboxes alone: transmit requests end in words of
their blocks, and no word of a block is one of MRAM. -/

namespace Sys2Proof.Machine

variable (c : Chip)

/-- What folds over a list and leaves a part of the chip alone at each member leaves it alone. -/
theorem foldl_same {α β : Type} (g : Chip → β) (f : Chip → α → Chip) (hf : ∀ c x, g (f c x) = g c) (xs : List α) (c : Chip) :
    g (xs.foldl f c) = g c := by
  induction xs generalizing c with
  | nil => rfl
  | cons x xs ih => exact (ih _).trans (hf c x)

theorem keeps_trans {c d e : Chip} (h : d.mems.mram = c.mems.mram ∧ d.mbx = c.mbx) (h' : e.mems.mram = d.mems.mram ∧ e.mbx = d.mbx) :
    e.mems.mram = c.mems.mram ∧ e.mbx = c.mbx := ⟨h'.1.trans h.1, h'.2.trans h.2⟩

/-- What folds over a list and leaves MRAM and the mailboxes alone at each member leaves them alone. -/
theorem foldl_keeps {α : Type} (f : Chip → α → Chip) (hf : ∀ c x, (f c x).mems.mram = c.mems.mram ∧ (f c x).mbx = c.mbx)
    (xs : List α) (c : Chip) : (xs.foldl f c).mems.mram = c.mems.mram ∧ (xs.foldl f c).mbx = c.mbx :=
  ⟨foldl_same (fun d => d.mems.mram) f (fun d x => (hf d x).1) xs c, foldl_same Chip.mbx f (fun d x => (hf d x).2) xs c⟩

/-- … and so of all memories. -/
theorem foldl_keepsAll {α : Type} (f : Chip → α → Chip) (hf : ∀ c x, (f c x).mems = c.mems ∧ (f c x).mbx = c.mbx)
    (xs : List α) (c : Chip) : (xs.foldl f c).mems = c.mems ∧ (xs.foldl f c).mbx = c.mbx :=
  ⟨foldl_same Chip.mems f (fun d x => (hf d x).1) xs c, foldl_same Chip.mbx f (fun d x => (hf d x).2) xs c⟩

/-! ### Check units -/

@[simp] theorem Chip.setChk_mbx (n : Nat) (u : ChkUnit) : (c.setChk n u).mbx = c.mbx := (rfl)

@[simp] theorem chkReload_mbx (n : Nat) : (chkReload n c).mbx = c.mbx := by simp [chkReload]

@[simp] theorem chkEnd_mbx (n : Nat) (a : Bool) : (chkEnd n a c).mbx = c.mbx := by
  simp only [chkEnd, Chip.setChk_mbx, chkReload_mbx, Chip.bump_mbx, Chip.raise_mbx]
  split
  · split <;> split <;> simp
  · split <;> simp

@[simp] theorem chkOctet_mbx (n o : Nat) : (chkOctet n c o).mbx = c.mbx := by
  simp only [chkOctet]
  split <;> split <;> simp

theorem chkOctets_keep_mbx (n : Nat) (xs : List Nat) : (xs.foldl (chkOctet n) c).mbx = c.mbx :=
  (foldl_keepsAll _ (fun c o => ⟨chkOctet_mems n c o, chkOctet_mbx c n o⟩) xs c).2

/-! ### Words of other memories -/

@[simp] theorem chkStream_mbx (src sel : Nat) (xs : List Nat) (marker : Bool) : (chkStream src sel xs marker c).mbx = c.mbx := by
  refine (foldl_keepsAll _ (fun c n => ?_) _ c).2
  split
  · split
    · split <;> simp
    · dsimp only
      split <;> simp [chkOctets_mems, chkOctets_keep_mbx]
  · exact ⟨rfl, rfl⟩

@[simp] theorem portWatch_mbx (p : Nat) (ws : List Word) : (portWatch p ws c).mbx = c.mbx := by
  unfold portWatch; split <;> simp

@[simp] theorem tableNote_mbx (p : Nat) : (tableNote p c).mbx = c.mbx := by
  simp only [tableNote]; split <;> rfl

@[simp] theorem storePair_keeps (p : Nat) (w0 w1 : Word) : (storePair p w0 w1 c).mems.mram = c.mems.mram ∧ (storePair p w0 w1 c).mbx = c.mbx := ⟨rfl, rfl⟩

@[simp] theorem fillNote_keeps (p : Nat) : (fillNote p c).mems.mram = c.mems.mram ∧ (fillNote p c).mbx = c.mbx := by
  simp only [fillNote]; split <;> exact ⟨rfl, rfl⟩

@[simp] theorem writePair_keeps (p : Nat) (w0 w1 : Word) : (writePair p w0 w1 c).mems.mram = c.mems.mram ∧ (writePair p w0 w1 c).mbx = c.mbx := by
  simp [writePair]

@[simp] theorem reportPoison_keeps (p : Nat) : (reportPoison p c).mems = c.mems ∧ (reportPoison p c).mbx = c.mbx := by simp [reportPoison]

@[simp] theorem readPair_keeps (p : Nat) : (readPair p c).2.mems.mram = c.mems.mram ∧ (readPair p c).2.mbx = c.mbx := by
  simp only [readPair]; split <;> simp

@[simp] theorem mergeWord_keeps (p : Nat) (w : Word) (r : PairRead) : (mergeWord p w r c).mems.mram = c.mems.mram ∧ (mergeWord p w r c).mbx = c.mbx := by
  simp only [mergeWord, portWatch_mems]; split <;> simp

@[simp] theorem writeWord_keeps (p : Nat) (w : Word) : (writeWord p w c).mems.mram = c.mems.mram ∧ (writeWord p w c).mbx = c.mbx := by simp [writeWord]

@[simp] theorem writeMem_keeps (p : Nat) (w : Word) : (writeMem p w c).mems.mram = c.mems.mram ∧ (writeMem p w c).mbx = c.mbx := by
  simp only [writeMem]; split <;> simp

@[simp] theorem takeFree_keeps (n : Nat) : (takeFree n c).2.mems = c.mems ∧ (takeFree n c).2.mbx = c.mbx := ⟨rfl, rfl⟩

@[simp] theorem sameCycle_keeps (u : PortUse) (k : Nat) (x : Field) : (sameCycle u k x c).2.mems = c.mems ∧ (sameCycle u k x c).2.mbx = c.mbx := by
  simp only [sameCycle]
  split
  · exact ⟨rfl, rfl⟩
  · split
    · simp
    · split <;> simp

@[simp] theorem portsMeet_keeps (a b : List (Nat × Word)) : (portsMeet a b c).mems = c.mems ∧ (portsMeet a b c).mbx = c.mbx := by
  simp only [portsMeet]
  split
  · simp
  · split <;> simp

@[simp] theorem portNote_keeps (x : DpPort) (rs : List Nat) (ws : List (Nat × Word × Word)) :
    (portNote x rs ws c).mems.mram = c.mems.mram ∧ (portNote x rs ws c).mbx = c.mbx := by
  simp only [portNote]; split <;> exact ⟨rfl, rfl⟩

@[simp] theorem linkWrite_keeps (p : Nat) (ws : List Word) : (linkWrite p ws c).mems.mram = c.mems.mram ∧ (linkWrite p ws c).mbx = c.mbx := by
  simp only [linkWrite, portNote_keeps]
  split
  · split
    · split <;> simp
    · split <;> simp
  · have hfold := foldl_keeps (fun c (y : Nat × Word × Word) => writeMem y.1 y.2.2 c) fun c y => writeMem_keeps c _ _
    rw [(hfold _ _).1, (hfold _ _).2]
    split <;> simp

/-! ### Tickets and transmit requests -/

@[simp] theorem finishTicket_keeps (n : Nat) (w : Word) : (finishTicket n w c).mems = c.mems ∧ (finishTicket n w c).mbx = c.mbx := by
  simp only [finishTicket]
  split
  · split <;> simp [putTicket]
  · exact ⟨rfl, rfl⟩

@[simp] theorem finishJob_keeps (j : TxJob) (w : Word) (acked : Bool) (tc : Option Int) :
    (finishJob j w acked tc c).mems.mram = c.mems.mram ∧ (finishJob j w acked tc c).mbx = c.mbx := by
  simp only [finishJob]; split <;> simp [dropJob]

theorem finishWhere_keeps (p : TxJob → Bool) (g : TxJob → Chip → Chip) (hg : ∀ c j, (g j c).mems.mram = c.mems.mram ∧ (g j c).mbx = c.mbx) :
    (finishWhere p g c).mems.mram = c.mems.mram ∧ (finishWhere p g c).mbx = c.mbx := foldl_keeps _ (fun c j => hg c j) _ c

@[simp] theorem releaseSlot_keeps (s : Slot) : (releaseSlot s c).mems = c.mems ∧ (releaseSlot s c).mbx = c.mbx := by simp [releaseSlot, refreshRing]

@[simp] theorem refreshAir_keeps : (refreshAir c).mems = c.mems ∧ (refreshAir c).mbx = c.mbx := by simp [refreshAir]

/-! ### Lanes -/

@[simp] theorem setSynth_keeps (x : Nat) (s : Synth) : (setSynth x s c).mems = c.mems ∧ (setSynth x s c).mbx = c.mbx := ⟨rfl, rfl⟩
@[simp] theorem setLaneSt_keeps (n : Nat) (s : LaneSt) : (setLaneSt n s c).mems = c.mems ∧ (setLaneSt n s c).mbx = c.mbx := ⟨rfl, rfl⟩
@[simp] theorem setLaneState_keeps (n v : Nat) : (setLaneState n v c).mems = c.mems ∧ (setLaneState n v c).mbx = c.mbx := ⟨rfl, rfl⟩
@[simp] theorem setLaneIdle_keeps (n : Nat) : (setLaneIdle n c).mems = c.mems ∧ (setLaneIdle n c).mbx = c.mbx := ⟨rfl, rfl⟩
@[simp] theorem putFrame_keeps (f : Frame) : (putFrame f c).mems = c.mems ∧ (putFrame f c).mbx = c.mbx := ⟨rfl, rfl⟩
@[simp] theorem dropFrame_keeps (id : Nat) : (dropFrame id c).mems = c.mems ∧ (dropFrame id c).mbx = c.mbx := ⟨rfl, rfl⟩
@[simp] theorem laneDisarm_keeps (n : Nat) : (laneDisarm n c).mems = c.mems ∧ (laneDisarm n c).mbx = c.mbx := by simp [laneDisarm]
@[simp] theorem freeLane_keeps (n : Nat) : (freeLane n c).mems = c.mems ∧ (freeLane n c).mbx = c.mbx := ⟨rfl, rfl⟩
@[simp] theorem laneSwitching_keeps (n dur : Nat) (d : Bool) : (laneSwitching_ n dur d c).mems = c.mems ∧ (laneSwitching_ n dur d c).mbx = c.mbx := ⟨rfl, rfl⟩
@[simp] theorem laneRefuse_keeps (n : Nat) : (laneRefuse n c).mems = c.mems ∧ (laneRefuse n c).mbx = c.mbx := by simp [laneRefuse]

@[simp] theorem laneListen_keeps (n : Nat) (v : Bool) : (laneListen n v c).mems = c.mems ∧ (laneListen n v c).mbx = c.mbx := by
  simp only [laneListen]
  split
  · split <;> simp
  · simp

@[simp] theorem laneGeo_keeps (n : Nat) : (laneGeo n c).mems = c.mems ∧ (laneGeo n c).mbx = c.mbx := by
  simp [laneGeo, apply_ite Chip.mems, apply_ite Chip.mbx]

@[simp] theorem laneTake_keeps (n : Nat) : (laneTake n c).mems = c.mems ∧ (laneTake n c).mbx = c.mbx := by simp [laneTake]

@[simp] theorem laneRest_keeps (n : Nat) : (laneRest n c).mems = c.mems ∧ (laneRest n c).mbx = c.mbx := by
  simp only [laneRest]
  split <;> split <;> simp

@[simp] theorem laneFree_keeps (n : Nat) : (laneFree n c).mems = c.mems ∧ (laneFree n c).mbx = c.mbx := by
  simp only [laneFree]
  split
  · simp
  · split
    · split <;> simp
    · simp

@[simp] theorem chkFold_keeps (n : Nat) (xs : List Nat) (upto : Nat) : (chkFold n xs upto c).mems = c.mems ∧ (chkFold n xs upto c).mbx = c.mbx := by
  simp [chkFold, chkOctets_mems, chkOctets_keep_mbx]

@[simp] theorem chkLaneClose_keeps (lane : Nat) (xs : List Nat) (a : Bool) : (chkLaneClose lane xs a c).mems = c.mems ∧ (chkLaneClose lane xs a c).mbx = c.mbx := by
  refine foldl_keepsAll _ (fun c n => ?_) _ c
  split
  · split
    · simp
    · simp only [Chip.setChk_mems, Chip.setChk_mbx]
      split <;> split <;> simp
  · exact ⟨rfl, rfl⟩

@[simp] theorem dropWithMark_keeps (n cause : Nat) : (dropWithMark n cause c).mems = c.mems ∧ (dropWithMark n cause c).mbx = c.mbx := by
  simp only [dropWithMark]
  split
  · exact ⟨rfl, rfl⟩
  · split
    · split <;> simp
    · simp

@[simp] theorem laneAbandon_keeps (n cause : Nat) : (laneAbandon n cause c).mems = c.mems ∧ (laneAbandon n cause c).mbx = c.mbx := by simp [laneAbandon]

@[simp] theorem chainStops_keeps (x cause : Nat) : (chainStops x cause c).mems = c.mems ∧ (chainStops x cause c).mbx = c.mbx := by
  refine foldl_keepsAll _ (fun c n => ?_) _ c
  split
  · exact ⟨rfl, rfl⟩
  · split
    · exact ⟨rfl, rfl⟩
    · split
      · simp
      · split <;> simp

@[simp] theorem lanesCombine_keeps : (lanesCombine c).mems = c.mems ∧ (lanesCombine c).mbx = c.mbx :=
  foldl_keepsAll _ (fun c n => by split <;> simp) _ c

/-! ### Carriers that are lost (R119 to R121, R155, R428) -/

@[simp] theorem refreshPage_keeps : (refreshPage c).mems = c.mems ∧ (refreshPage c).mbx = c.mbx := by simp [refreshPage, apply_ite Chip.mems, apply_ite Chip.mbx]

@[simp] theorem refreshNext_keeps : (refreshNext c).mems = c.mems ∧ (refreshNext c).mbx = c.mbx := by
  simp only [refreshNext]; split <;> simp

@[simp] theorem refreshUsed_keeps : (refreshUsed c).mems = c.mems ∧ (refreshUsed c).mbx = c.mbx := foldl_keepsAll _ (fun c n => by simp) _ c

@[simp] theorem putJob_keeps (j : TxJob) : (putJob j c).mems = c.mems ∧ (putJob j c).mbx = c.mbx := ⟨rfl, rfl⟩
@[simp] theorem dropJob_keeps (t : Nat) : (dropJob t c).mems = c.mems ∧ (dropJob t c).mbx = c.mbx := ⟨rfl, rfl⟩
@[simp] theorem putCarrier_keeps (k : Carrier) : (putCarrier k c).mems = c.mems ∧ (putCarrier k c).mbx = c.mbx := ⟨rfl, rfl⟩
@[simp] theorem dropResync_keeps (i : Nat) : (dropResync i c).mems = c.mems ∧ (dropResync i c).mbx = c.mbx := ⟨rfl, rfl⟩
@[simp] theorem askGrant_keeps (i : Nat) (a : AckRec) (last : Nat) : (askGrant i a last c).mems = c.mems ∧ (askGrant i a last c).mbx = c.mbx := ⟨rfl, rfl⟩
@[simp] theorem withdraw_keeps (id : Nat) : (withdraw id c).mems = c.mems ∧ (withdraw id c).mbx = c.mbx := by simp [withdraw, releaseCharge, dropCarrier]
@[simp] theorem finalSlot_keeps (r n : Nat) : (finalSlot r n c).mems = c.mems ∧ (finalSlot r n c).mbx = c.mbx := by simp [finalSlot, refreshRing]
@[simp] theorem missed_keeps (cause : Nat) : (missed cause c).mems = c.mems ∧ (missed cause c).mbx = c.mbx := by simp [missed, apply_ite Chip.mems, apply_ite Chip.mbx]

@[simp] theorem setEntryBit_keeps (i bit : Nat) (v : Bool) : (setEntryBit i bit v c).mems.mram = c.mems.mram ∧ (setEntryBit i bit v c).mbx = c.mbx := by
  simp [setEntryBit]

@[simp] theorem writeWords_keeps (ws : List Word) (p : Nat) (c : Chip) : (writeWords p ws c).mems.mram = c.mems.mram ∧ (writeWords p ws c).mbx = c.mbx := by
  induction ws generalizing p c with
  | nil => exact ⟨rfl, rfl⟩
  | cons w ws ih => exact ⟨(ih _ _).1.trans (writeMem_keeps c p w).1, (ih _ _).2.trans (writeMem_keeps c p w).2⟩

@[simp] theorem startBackoff_keeps (j : TxJob) : (startBackoff j c).mems = c.mems ∧ (startBackoff j c).mbx = c.mbx := by
  simp [startBackoff, apply_ite Chip.mems, apply_ite Chip.mbx]

@[simp] theorem txRefused_keeps (j : TxJob) (st : Status) : (txRefused j st c).mems.mram = c.mems.mram ∧ (txRefused j st c).mbx = c.mbx := by simp [txRefused]
@[simp] theorem txStateRefused_keeps (j : TxJob) : (txStateRefused j c).mems.mram = c.mems.mram ∧ (txStateRefused j c).mbx = c.mbx := by simp [txStateRefused]

@[simp] theorem rendezvousUpdate_keeps (i : Nat) (a : AckRec) (sent : Bool) :
    (rendezvousUpdate i a sent c).mems.mram = c.mems.mram ∧ (rendezvousUpdate i a sent c).mbx = c.mbx := by
  simp only [rendezvousUpdate]
  split
  · exact ⟨rfl, rfl⟩
  · split <;> simp [putSched]

@[simp] theorem settleFrame_keeps (a : AckRec) (sent : Bool) (last : Nat) : (settleFrame a sent last c).mems.mram = c.mems.mram ∧ (settleFrame a sent last c).mbx = c.mbx := by
  simp only [settleFrame]
  split
  · exact ⟨rfl, rfl⟩
  · simp [apply_ite Chip.mems, apply_ite Chip.mbx, apply_ite Mems.mram]

@[simp] theorem ackFinish_keeps (a : AckRec) (st cause last : Nat) : (ackFinish a st cause last c).mems.mram = c.mems.mram ∧ (ackFinish a st cause last c).mbx = c.mbx := by
  simp only [ackFinish, settleFrame_keeps]
  split
  · simp [apply_ite Chip.mems, apply_ite Chip.mbx]
  · simp

@[simp] theorem ackLost_keeps (k : Carrier) (cause : Nat) : (ackLost k cause c).mems = c.mems ∧ (ackLost k cause c).mbx = c.mbx := by
  simp only [ackLost]; split <;> simp

@[simp] theorem pageFailed_keeps (i : Nat) : (pageFailed i c).mems.mram = c.mems.mram ∧ (pageFailed i c).mbx = c.mbx := by
  simp only [pageFailed]
  split
  · exact ⟨rfl, rfl⟩
  · split <;> simp [pageLeave]

@[simp] theorem pageLost_keeps (k : Carrier) (cause : Nat) : (pageLost k cause c).mems.mram = c.mems.mram ∧ (pageLost k cause c).mbx = c.mbx := by
  simp only [pageLost]
  split
  · simp
  · split <;> simp

@[simp] theorem jobLost_keeps (k : Carrier) (cause : Nat) : (jobLost k cause c).mems.mram = c.mems.mram ∧ (jobLost k cause c).mbx = c.mbx := by
  simp only [jobLost]
  split
  · exact ⟨rfl, rfl⟩
  · simp [apply_ite Chip.mems, apply_ite Chip.mbx, apply_ite Mems.mram]

@[simp] theorem loseCarrier_keeps (k : Carrier) (cause : Nat) : (loseCarrier k cause c).mems.mram = c.mems.mram ∧ (loseCarrier k cause c).mbx = c.mbx := by
  simp only [loseCarrier]; split <;> simp

@[simp] theorem settleLost_keeps : (settleLost c).mems.mram = c.mems.mram ∧ (settleLost c).mbx = c.mbx :=
  foldl_keeps _ (fun c a => by split <;> simp) _ c

@[simp] theorem cutCarriers_keeps : (cutCarriers c).mems.mram = c.mems.mram ∧ (cutCarriers c).mbx = c.mbx := by
  simp only [cutCarriers]
  refine keeps_trans (keeps_trans (keeps_trans (keeps_trans ?_ (foldl_keeps _ (fun d x => ?_) _ _))
    (foldl_keeps _ (fun d k => ?_) _ _)) (settleLost_keeps _)) (foldl_keeps _ (fun d k => ?_) _ _) <;> simp

/-! ### Islands that stop (R12, R341) -/

@[simp] theorem refreshChain_keeps (x : Nat) : (refreshChain x c).mems = c.mems ∧ (refreshChain x c).mbx = c.mbx := by
  simp [refreshChain, apply_ite Chip.mems, apply_ite Chip.mbx]

/-- ENABLE of a synthesizer falls (R49, R428). -/
@[simp] theorem chainEnableWrite_false_keeps (x : Nat) : (chainEnableWrite x false c).mems.mram = c.mems.mram ∧ (chainEnableWrite x false c).mbx = c.mbx := by
  simp [chainEnableWrite, apply_ite Chip.mems, apply_ite Chip.mbx, apply_ite Mems.mram]

@[simp] theorem chainDown_keeps (x : Nat) (i : Island) : (chainDown x i c).mems.mram = c.mems.mram ∧ (chainDown x i c).mbx = c.mbx := by
  simp [chainDown, apply_ite Chip.mems, apply_ite Chip.mbx, apply_ite Mems.mram]

@[simp] theorem rfTxDown_keeps : (rfTxDown c).mems.mram = c.mems.mram ∧ (rfTxDown c).mbx = c.mbx := by
  simp [rfTxDown, apply_ite Chip.mems, apply_ite Chip.mbx, apply_ite Mems.mram]

@[simp] theorem laneDown_keeps : (laneDown c).mems = c.mems ∧ (laneDown c).mbx = c.mbx := by
  simp only [laneDown, loseFrames, Chip.resetRegs_mems, Chip.onRadio_mems]
  exact foldl_keepsAll _ (fun c f => by split <;> simp) _ c

@[simp] theorem tschStopRx_keeps : (tschStopRx c).mems = c.mems ∧ (tschStopRx c).mbx = c.mbx := by
  simp only [tschStopRx]
  split <;> split <;> simp

@[simp] theorem tschDrive_keeps (v : Bool) : (tschDrive v c).mems = c.mems ∧ (tschDrive v c).mbx = c.mbx :=
  foldl_keepsAll _ (fun c n => by split <;> simp) _ c

@[simp] theorem lanesLetGo_keeps : (lanesLetGo c).mems = c.mems ∧ (lanesLetGo c).mbx = c.mbx := by
  have hfold := foldl_keepsAll (fun c (w : RdvWindow) => freeLane w.lane (laneListen w.lane false c)) fun c w => by simp
  rw [lanesLetGo, (hfold _ _).1, (hfold _ _).2]
  simp

@[simp] theorem resetRegsBut_keeps (keep : List Nat) (i : Island) : (resetRegsBut keep i c).mems = c.mems ∧ (resetRegsBut keep i c).mbx = c.mbx := by
  have hfold := foldl_keepsAll (fun d a => d.setReg a (c.reg a)) fun d a => by simp
  rw [resetRegsBut, (hfold _ _).1, (hfold _ _).2]
  simp

@[simp] theorem linkDown_keeps : (linkDown c).mems.mram = c.mems.mram ∧ (linkDown c).mbx = c.mbx := by
  simp only [linkDown, refreshAir_keeps, resetRegsBut_keeps]
  split
  · split <;> simp [finishWhere_keeps _ _ _ txStateRefused_keeps]
  · simp [finishWhere_keeps _ _ _ txStateRefused_keeps]

@[simp] theorem mbxDown_mems (ps : List Nat) : (mbxDown ps c).mems = c.mems :=
  foldl_mems (fun c p => setMbx p .idle c) (fun _ _ => rfl) ps c

@[simp] theorem coreDown_keeps : (coreDown c).mems = c.mems ∧ (coreDown c).mbx = c.mbx := ⟨rfl, rfl⟩

@[simp] theorem stopTickets_keeps (sel : Ticket → Bool) : (stopTickets sel c).mems = c.mems ∧ (stopTickets sel c).mbx = c.mbx := by
  have hfold := foldl_keepsAll (fun c (t : Ticket) => finishTicket t.number c.stateRefused c) fun c t => by simp
  rw [stopTickets, (hfold _ _).1, (hfold _ _).2]
  simp

@[simp] theorem marchStop_keeps (sel : Nat → Bool) : (marchStop sel c).mems.mram = c.mems.mram ∧ (marchStop sel c).mbx = c.mbx := by
  simp only [marchStop]
  split
  · split <;> simp
  · exact ⟨rfl, rfl⟩

@[simp] theorem refreshMem_keeps : (refreshMem c).mems = c.mems ∧ (refreshMem c).mbx = c.mbx := by simp [refreshMem]

/-- A stopping island keeps MRAM (R12). -/
@[simp] theorem islandDown_mram (i : Island) : (islandDown i c).mems.mram = c.mems.mram := by
  cases i <;> simp [islandDown]

/-- One that carries no mailbox keeps the mailboxes. -/
theorem islandDown_mbx (i : Island) (hc : i ≠ .core) (hp : i ≠ .pcie) : (islandDown i c).mbx = c.mbx := by
  cases i <;> simp [islandDown] at hc hp ⊢

/-- Sleep keeps MRAM (R346). -/
@[simp] theorem sleepDown_mram (target : Nat) : (sleepDown target c).mems.mram = c.mems.mram := by
  simp only [sleepDown, Chip.onMems_mems, Chip.setReg_mems]
  exact foldl_same (fun d => d.mems.mram) _ (fun d i => by split <;> simp) _ c

end Sys2Proof.Machine
end

section
/-! Brown-out, the thermal guard and the pads (R339, R340, R349). -/

namespace Sys2Proof.Machine

variable (c : Chip)

/-! ### The switch to VBAT (R328) -/

theorem switchToVbat_reg (a : Nat) (h : islandOf a ≠ .rtc) : (switchToVbat c).reg a = c.reg a := by
  have hlog : a ≠ Reg.RTC_SUPPLY_LOG := by intro e; rw [e] at h; exact h (by decide)
  simp only [switchToVbat]
  split
  · rfl
  · rw [Chip.bump_reg_ne _ _ _ hlog, supplyLog_reg _ _ _ h]
    rfl

theorem switchToVbat_f (x : Field) (h : islandOf x.reg ≠ .rtc) : (switchToVbat c).f x = c.f x := by
  unfold Chip.f; rw [switchToVbat_reg c _ h]

@[simp] theorem switchToVbat_onVbat : (switchToVbat c).rtc.onVbat = true := by
  simp only [switchToVbat]
  split
  · assumption
  · simp [supplyLog, rtcLockout]

@[simp] theorem switchToVbat_mems : (switchToVbat c).mems = c.mems := by
  simp only [switchToVbat]
  split
  · rfl
  · simp [supplyLog, rtcLockout]

@[simp] theorem setPower_mems (p : Nat) : (setPower p c).mems = c.mems := by simp [setPower]
@[simp] theorem latchPads_mems (cause : Nat) : (latchPads cause c).mems = c.mems := by simp [latchPads]

/-- The chip of a brown-out with no request active or pending: the status fields stand cleared (R339). -/
theorem brownOut_idle (o : Store Nat) (hb : c.pwr.brownout = false) (ha : c.b Fld.PWR_STATUS_ACTIVE = false)
    (hp : c.b Fld.PWR_STATUS_PENDING = false) :
    brownOut o c = if c.b Fld.RTC_CTRL_NO_BACKUP then
        (resetDevice (some causeBrownout) true o (clearActive c)).onPwr fun p => { p with brownout := true, heldInReset := true }
      else (switchToVbat (setPower 7 (latchPads 0 (sleepDown 7 (clearActive c))))).onPwr fun p =>
        { p with brownout := true, forcedNext := false, wakeEdge := none, entered := nextEdge c.now } := by
  have hkeep : (clearActive c).b Fld.RTC_CTRL_NO_BACKUP = c.b Fld.RTC_CTRL_NO_BACKUP := by
    unfold Chip.b
    simp (disch := decide) only [clearActive, Chip.onPwr_f, Chip.setB, Chip.f_setF_ne]
  simp only [brownOut, hb, ha, hp, supersedePending, Bool.false_and, Bool.false_eq_true, if_false, hkeep]

/-! ### The thermal guard (R340) -/

theorem supersedePending_pwr : (supersedePending c).pwr = c.pwr := by
  simp [supersedePending, apply_ite Chip.pwr]

/-- Taking the pending request's place writes PWR_STATUS, PWR_RESULT and a flag. -/
theorem supersedePending_f_ne (y : Field) (h : y.reg ≠ Reg.PWR_STATUS) (h1 : y.reg ≠ Reg.PWR_RESULT)
    (h2 : y.reg ≠ Reg.PWR_INT_STATUS) : (supersedePending c).f y = c.f y := by
  unfold supersedePending
  split
  · rw [Chip.f_setF_reg _ _ _ _ h, Chip.setB, Chip.f_setF_reg _ _ _ _ h, pwrAnswer_f_ne _ _ _ _ _ h1 h2]
  · rfl

/-- The guard trips: THERMAL_HOLD stands, and a forced transition to Evening leaves the sample and the supply alone (R340). -/
theorem thermalTrip_fields : (thermalTrip c).pwr.vsys = c.pwr.vsys ∧
    (thermalTrip c).f Fld.PWR_MONITOR_VSYS_MV = c.f Fld.PWR_MONITOR_VSYS_MV ∧
    (thermalTrip c).f Fld.PWR_MONITOR_JUNCTION = c.f Fld.PWR_MONITOR_JUNCTION ∧
    (thermalTrip c).f Fld.PWR_STATUS_THERMAL_HOLD = 1 := by
  simp only [thermalTrip]
  generalize hd : ((c.setB Fld.PWR_STATUS_THERMAL_HOLD true).raise .pwr 3).bump Fld.PWR_COUNTS_THERMAL_TRIPS = d
  have hpwr : d.pwr = c.pwr := by simp [← hd]
  have hhold : d.f Fld.PWR_STATUS_THERMAL_HOLD = 1 := by
    rw [← hd]
    simp (disch := decide) [Chip.bump_f_ne, Chip.raise_f, Chip.setB, b2n, Chip.f_setF_ne, Chip.f_setF]
  have hmon : ∀ y : Field, y.reg = Reg.PWR_MONITOR → d.f y = c.f y := fun y hy => by
    rw [← hd, Chip.bump_f_ne _ _ _ (.inl (by rw [hy]; decide)), Chip.raise_f_reg _ _ _ _ (by rw [hy]; decide), Chip.setB,
      Chip.f_setF_reg _ _ _ _ (by rw [hy]; decide)]
  have hsup : ∀ y : Field, y.reg = Reg.PWR_MONITOR → (supersedePending d).f y = c.f y := fun y hy => by
    rw [supersedePending_f_ne d y (by rw [hy]; decide) (by rw [hy]; decide) (by rw [hy]; decide), hmon y hy]
  have hsuph : (supersedePending d).f Fld.PWR_STATUS_THERMAL_HOLD = 1 := by
    rw [supersedePending_status _ _ rfl (by decide) (by decide) (by decide), hhold]
  split
  · exact ⟨by rw [hpwr], hmon _ rfl, hmon _ rfl, hhold⟩
  · split
    · exact ⟨by simp [supersedePending_pwr, hpwr], hsup _ rfl, hsup _ rfl, hsuph⟩
    · split
      · exact ⟨by simp [supersedePending_pwr, hpwr], hsup _ rfl, hsup _ rfl, hsuph⟩
      · simp (disch := first | decide | rfl) [startTransition, Chip.setB, Chip.f_setF_ne, supersedePending_pwr, hpwr, hsup, hsuph]

/-- The sample as it is recorded, before the guard acts on it (R340). -/
def sampled (t : Int) (mv : Nat) (c : Chip) : Chip :=
  ((c.setF Fld.PWR_MONITOR_JUNCTION (unsigned 8 t)).setF Fld.PWR_MONITOR_VSYS_MV mv).onPwr fun p => { p with
    vsys := mv
    hot := if 125 ≤ t then min (p.hot + 1) 2 else 0
    cool := if t < 115 then min (p.cool + 1) 2 else 0 }

theorem signed_unsigned_toInt (x : BitVec 8) : signed 8 (unsigned 8 x.toInt % 2 ^ 8) = x.toInt := by
  have hlo := BitVec.le_toInt x
  have hhi := BitVec.toInt_lt (x := x)
  norm_num [signed, unsigned] at *
  split_ifs <;> omega

theorem sampled_fields (x : BitVec 8) (mv : BitVec 12) :
    (sampled x.toInt mv.toNat c).pwr.vsys = mv.toNat ∧ (sampled x.toInt mv.toNat c).f Fld.PWR_MONITOR_VSYS_MV = mv.toNat ∧
      signed 8 ((sampled x.toInt mv.toNat c).f Fld.PWR_MONITOR_JUNCTION) = x.toInt := by
  have hmv : mv.toNat % 4096 = mv.toNat := Nat.mod_eq_of_lt mv.isLt
  have hx := signed_unsigned_toInt x
  simp (disch := decide) [sampled, Chip.f_setF_ne, Chip.f_setF, hmv] at hx ⊢
  exact hx

section Sample
variable {c} (t : Int) (mv : Nat) (hawake : c.awake = true) (hb : c.pwr.brownout = false)
include hawake hb

/-- What a sample of an awake chip does: it is recorded, and trips or releases the guard at the second in a row (R340). -/
theorem thermalSample_awake : thermalSample t mv c =
    if (sampled t mv c).pwr.hot = 2 ∧ ¬ (sampled t mv c).b Fld.PWR_STATUS_THERMAL_HOLD = true then thermalTrip (sampled t mv c)
    else if (sampled t mv c).pwr.cool = 2 ∧ (sampled t mv c).b Fld.PWR_STATUS_THERMAL_HOLD = true then
      ((sampled t mv c).setB Fld.PWR_STATUS_THERMAL_HOLD false).raise .pwr 4
    else sampled t mv c := by
  simp only [thermalSample, hawake, hb, Bool.not_true, Bool.or_self, Bool.false_eq_true, if_false]
  rfl

end Sample

/-- The guard leaves the sample and the supply as they were recorded. -/
theorem thermalSample_keeps (t : Int) (mv : Nat) (hawake : c.awake = true) (hb : c.pwr.brownout = false) :
    (thermalSample t mv c).pwr.vsys = (sampled t mv c).pwr.vsys ∧
    (thermalSample t mv c).f Fld.PWR_MONITOR_VSYS_MV = (sampled t mv c).f Fld.PWR_MONITOR_VSYS_MV ∧
    (thermalSample t mv c).f Fld.PWR_MONITOR_JUNCTION = (sampled t mv c).f Fld.PWR_MONITOR_JUNCTION := by
  rw [thermalSample_awake t mv hawake hb]
  split
  · obtain ⟨h1, h2, h3, -⟩ := thermalTrip_fields (sampled t mv c)
    exact ⟨h1, h2, h3⟩
  · split
    · simp (disch := decide) [Chip.raise_f_reg, Chip.setB, Chip.f_setF_ne]
    · exact ⟨rfl, rfl, rfl⟩

/-- The second sample in a row at 125 °C or more leaves the guard holding (R340). -/
theorem thermalSample_hot {t : Int} (mv : Nat) (hawake : c.awake = true) (hb : c.pwr.brownout = false) (ht : 125 ≤ t)
    (hhot : 1 ≤ c.pwr.hot) : (thermalSample t mv c).b Fld.PWR_STATUS_THERMAL_HOLD = true := by
  have hcount : (sampled t mv c).pwr.hot = 2 := by simp [sampled, ht]; omega
  have hcool : (sampled t mv c).pwr.cool = 0 := by simp [sampled, show ¬ t < 115 by omega]
  rw [thermalSample_awake t mv hawake hb]
  by_cases hold : (sampled t mv c).b Fld.PWR_STATUS_THERMAL_HOLD = true
  · simp [hold, hcool]
  · obtain ⟨-, -, -, h⟩ := thermalTrip_fields (sampled t mv c)
    rw [if_pos ⟨hcount, hold⟩, Chip.b, h]
    rfl

/-- The second sample in a row below 115 °C leaves the guard released (R340). -/
theorem thermalSample_cool {t : Int} (mv : Nat) (hawake : c.awake = true) (hb : c.pwr.brownout = false) (ht : t < 115)
    (hcool : 1 ≤ c.pwr.cool) : (thermalSample t mv c).b Fld.PWR_STATUS_THERMAL_HOLD = false := by
  have hcount : (sampled t mv c).pwr.cool = 2 := by simp [sampled, ht]; omega
  have hhot : ¬ ((sampled t mv c).pwr.hot = 2 ∧ ¬ (sampled t mv c).b Fld.PWR_STATUS_THERMAL_HOLD = true) := by
    simp [sampled, show ¬ 125 ≤ t by omega]
  rw [thermalSample_awake t mv hawake hb, if_neg hhot]
  by_cases hold : (sampled t mv c).b Fld.PWR_STATUS_THERMAL_HOLD = true
  · rw [if_pos ⟨hcount, hold⟩]
    simp (disch := decide) [Chip.b, Chip.raise_f_reg, Chip.setB, b2n, Chip.f_setF]
  · simp [hold]

/-! ### The pads (R349) -/

theorem regPresent_padStatus : c.regPresent Reg.PAD_STATUS = true := by
  have hinfo : (regInfo Reg.PAD_STATUS).isSome = true := by decide +kernel
  simp only [Chip.regPresent, hinfo]
  rfl

/-- While boundary scan holds the pads PAD_STATUS shows it (R349). -/
theorem readReg_padStatus_scan (who : Nat) (o : Store Nat) (h : c.regServed Reg.PAD_STATUS = true) (hs : c.scan = true) :
    (readReg who o Reg.PAD_STATUS c).1 = .bits 5 := by
  simp only [readReg, regPresent_padStatus, h, Bool.not_true, Bool.false_eq_true, if_false]
  simp [readServed, dpdPlace, otpPlace, Reg.PAD_STATUS, hs]

end Sys2Proof.Machine
end

section
namespace Sys2Proof

open Machine

/-- Settles O6: with a cell, the sleep of Small Hours keeps MRAM and the pads latch before the power state and the RTC domain move;
with none, a device reset. -/
theorem brownOut : Obligations.BrownOut := by
  intro s hb ha hp
  refine ⟨fun hcell => ⟨_, rfl, ?_⟩, fun hcell halive => ⟨_, rfl, ?_⟩⟩
  · have hpad : ∀ d : Chip, (switchToVbat (setPower 7 (latchPads 0 d))).b Fld.PAD_STATUS_LATCHED = true := fun d => by
      rw [Chip.b, switchToVbat_f _ _ (by decide), setPower_f_ne _ _ _ (by decide)]
      exact latchPads_latched d 0
    simp only [brownOut_idle _ _ hb ha hp, hcell, Bool.false_eq_true, if_false, Chip.onSec_power, Chip.onSec_b, Chip.onSec_pwr,
      Chip.onSec_rtc, Chip.onSec_mems, Chip.onPwr_power, Chip.onPwr_b, Chip.onPwr_pwr, Chip.onPwr_rtc, Chip.onPwr_mems]
    refine ⟨?_, hpad _, trivial, switchToVbat_onVbat _, by simp [clearActive]⟩
    rw [Chip.power, switchToVbat_f _ _ (by decide)]
    exact setPower_power _ _
  · simp only [brownOut_idle _ _ hb ha hp, hcell, if_true, Chip.onSec_dev, Chip.onSec_pwr, Chip.onPwr_dev, Chip.onPwr_pwr]
    exact ⟨by rw [resetDevice_live _ _ _ _ halive, deviceReset_dev], trivial, trivial⟩

/-- Settles O7: a sample is recorded and the guard acts on it; the pads' rows are one update each. -/
theorem guardAndPads : Obligations.GuardAndPads := by
  intro s
  refine ⟨fun x mv hawake hb => ⟨?_, fun ht hhot => ⟨_, rfl, thermalSample_hot _ _ hawake hb ht hhot⟩,
    fun ht hcool => ⟨_, rfl, thermalSample_cool _ _ hawake hb ht hcool⟩⟩, fun hdev hscan => ?_, fun hdev => ?_, ?_, ?_⟩
  · obtain ⟨hv, hmv, hj⟩ := thermalSample_keeps s.chip x.toInt mv.toNat hawake hb
    obtain ⟨hv', hmv', hj'⟩ := sampled_fields s.chip x mv
    exact ⟨_, rfl, hv.trans hv', hmv.trans hmv', (congrArg (signed 8) hj).trans hj'⟩
  · have hno : ¬ (s.chip.dev = devBoot ∨ s.chip.dev = devRecovery ∨ s.chip.dev = devDead ∨ s.chip.scan = true) := by
      rcases hdev with h | h <;> simp [h, hscan]
    change Host.Outcome.next { s with chip := padRelease s.chip } = _
    rw [padRelease, if_neg hno]
  · change Host.Outcome.next { s with chip := padRelease s.chip } = _
    rw [padRelease, if_pos hdev]
  · refine ⟨rfl, fun hp p => ?_, fun hserved who => readReg_padStatus_scan _ _ _ hserved rfl⟩
    have hp' : ({ s.chip with scan := true } : Chip).power ≠ 7 := hp
    rw [Chip.padState, if_neg hp']
    rfl
  · exact ⟨_, rfl, rfl, rfl, rfl⟩

end Sys2Proof
end

section
/-! SUPPORT. The register table as a table of its own: every update of a chip's registers is a write of the table, whatever else
of the chip it changes, and one field or register is read after the writes. -/

namespace Sys2Proof.Machine

/-- A field of a register table. -/
def regF (m : Store Word) (x : Field) : Nat := (regGet m x.reg).field x.lo x.w

/-- The payload of a register of a table. -/
def regNat (m : Store Word) (a : Nat) : Nat := (regGet m a).nat

/-- A field of a table is set. -/
def putF (m : Store Word) (x : Field) (v : Nat) : Store Word := regPut m x.reg ((regGet m x.reg).withField x.lo x.w v)

/-- The payload of a register of a table is set. -/
def putN (m : Store Word) (a n : Nat) : Store Word := regPut m a (Word.mk' (regGet m a).tag n)

section Views
variable (c : Chip)

theorem Chip.f_regs (x : Field) : c.f x = regF c.regs x := (rfl)
theorem Chip.b_regs (x : Field) : c.b x = (regF c.regs x == 1) := (rfl)
theorem Chip.regN_regs (a : Nat) : c.regN a = regNat c.regs a := (rfl)
theorem Chip.reg_regs (a : Nat) : c.reg a = regGet c.regs a := (rfl)
theorem Chip.power_regs : c.power = regF c.regs Fld.PWR_STATUS_STATE := (rfl)
theorem Chip.dev_regs : c.dev = regF c.regs Fld.SYS_STATE_DEVICE_STATE := (rfl)
@[simp] theorem Chip.setF_regs (x : Field) (v : Nat) : (c.setF x v).regs = putF c.regs x v := (rfl)
@[simp] theorem Chip.setB_regs (x : Field) (v : Bool) : (c.setB x v).regs = putF c.regs x (b2n v) := (rfl)
@[simp] theorem Chip.setRegN_regs (a n : Nat) : (c.setRegN a n).regs = putN c.regs a n := (rfl)
@[simp] theorem Chip.setReg_regs (a : Nat) (w : Word) : (c.setReg a w).regs = regPut c.regs a w := (rfl)

@[simp] theorem Chip.raise_regs_put (b : Block) (k : Nat) : (c.raise b k).regs = putF c.regs ⟨b.status, k, 1⟩ 1 :=
  Chip.raise_regs c b k

@[simp] theorem Chip.setFlag_regs_put (a k : Nat) : (c.setFlag a k).regs = putF c.regs ⟨a, k, 1⟩ 1 := Chip.setFlag_regs c a k

/-! The status register of each block source (R277, R278). -/
@[simp] theorem Block.lane_status (n : Nat) : (Block.lane n).status = Reg.LANE_INT_STATUS n := (rfl)
@[simp] theorem Block.rf_status : Block.rf.status = Reg.RF_INT_STATUS := (rfl)
@[simp] theorem Block.link_status : Block.link.status = Reg.LINK_INT_STATUS := (rfl)
@[simp] theorem Block.psched_status : Block.psched.status = Reg.LINK_PSCHED_INT_STATUS := (rfl)
@[simp] theorem Block.mem_status : Block.mem.status = Reg.MEM_INT_STATUS := (rfl)
@[simp] theorem Block.sec_status : Block.sec.status = Reg.SEC_INT_STATUS := (rfl)
@[simp] theorem Block.rtc_status : Block.rtc.status = Reg.RTC_INT_STATUS := (rfl)
@[simp] theorem Block.pwr_status : Block.pwr.status = Reg.PWR_INT_STATUS := (rfl)
@[simp] theorem Block.upd_status : Block.upd.status = Reg.UPD_INT_STATUS := (rfl)
@[simp] theorem Block.chk_status (n : Nat) : (Block.chk n).status = Reg.CHK_STATUS n := (rfl)
@[simp] theorem Block.sys_status : Block.sys.status = Reg.SYS_STATUS := (rfl)
@[simp] theorem Block.host_status : Block.host.status = Reg.HOST_INT_STATUS := (rfl)
@[simp] theorem Block.evf_status : Block.evf.status = Reg.EVF_INT_STATUS := (rfl)

theorem Chip.isOn_islands (i : Island) : c.isOn i = (Store.get .on c.islands i.num == .on) := (rfl)

end Views

section Table
variable (m : Store Word)

theorem regGet_regPut (a b : Nat) (w : Word) : regGet (regPut m a w) b = if b = a then w else regGet m b := by
  unfold regGet regPut
  by_cases h : b = a
  · subst h; simp
  · simp [Store.get_put_ne, h]

@[simp] theorem regGet_regPut_same (a : Nat) (w : Word) : regGet (regPut m a w) a = w := by simp [regGet_regPut]
@[simp] theorem regGet_regPut_ne (a b : Nat) (w : Word) (h : b ≠ a) : regGet (regPut m a w) b = regGet m b := by
  simp [regGet_regPut, h]
@[simp] theorem regGet_putF_ne (x : Field) (v a : Nat) (h : a ≠ x.reg) : regGet (putF m x v) a = regGet m a :=
  regGet_regPut_ne m _ _ _ h
@[simp] theorem regGet_putN_ne (b n a : Nat) (h : a ≠ b) : regGet (putN m b n) a = regGet m a := regGet_regPut_ne m _ _ _ h

/-- A field reads back what it was set to. -/
@[simp] theorem regF_putF (x : Field) (v : Nat) (h : x.lo + x.w ≤ 36) : regF (putF m x v) x = v % 2 ^ x.w := by
  unfold regF putF
  rw [regGet_regPut_same]
  exact Word.field_withField _ _ _ _ h

/-- A field elsewhere is left alone. -/
@[simp] theorem regF_putF_ne (x y : Field) (v : Nat)
    (h : y.reg ≠ x.reg ∨ (y.lo + y.w ≤ 36 ∧ (y.lo + y.w ≤ x.lo ∨ x.lo + x.w ≤ y.lo))) : regF (putF m x v) y = regF m y := by
  unfold regF
  by_cases hr : y.reg = x.reg
  · obtain ⟨h1, h2⟩ := h.resolve_left (not_not_intro hr)
    rw [hr, putF, regGet_regPut_same]
    exact Word.field_withField_ne _ _ _ _ _ _ h1 h2
  · rw [regGet_putF_ne m x v _ hr]

@[simp] theorem regF_putN_ne (a n : Nat) (y : Field) (h : y.reg ≠ a) : regF (putN m a n) y = regF m y := by
  unfold regF; rw [regGet_putN_ne m a n _ h]

@[simp] theorem regF_regPut_ne (a : Nat) (w : Word) (y : Field) (h : y.reg ≠ a) : regF (regPut m a w) y = regF m y := by
  unfold regF; rw [regGet_regPut_ne m a _ w h]

@[simp] theorem regNat_putN (a n : Nat) : regNat (putN m a n) a = n % 2 ^ 36 := by simp [regNat, putN]
@[simp] theorem regNat_putN_ne (a n b : Nat) (h : b ≠ a) : regNat (putN m a n) b = regNat m b := by
  unfold regNat; rw [regGet_putN_ne m a n b h]
@[simp] theorem regNat_putF_ne (x : Field) (v b : Nat) (h : b ≠ x.reg) : regNat (putF m x v) b = regNat m b := by
  unfold regNat; rw [regGet_putF_ne m x v b h]
@[simp] theorem regNat_regPut (a : Nat) (w : Word) : regNat (regPut m a w) a = w.nat := by simp [regNat]
@[simp] theorem regNat_regPut_ne (a : Nat) (w : Word) (b : Nat) (h : b ≠ a) : regNat (regPut m a w) b = regNat m b := by
  unfold regNat; rw [regGet_regPut_ne m a b w h]

theorem regF_lt (x : Field) : regF m x < 2 ^ x.w := Nat.mod_lt _ (Nat.two_pow_pos _)
theorem regNat_lt (a : Nat) : regNat m a < 2 ^ 36 := Word.nat_lt _

end Table

end Sys2Proof.Machine
end

section
/-! The counter, its commands and their tick (R314, R317, R319 to R325). -/

namespace Sys2Proof.Machine

variable (c : Chip)

theorem next_chip {s : State} {c d : Chip} (h : c = d) :
    (Host.Outcome.next { s with chip := c } : Host.Outcome State Fault Refusal) = .next { s with chip := d } := by rw [h]

/-! ### What the RTC's operations leave alone -/

@[simp] theorem setOscStop_rtc (v : Bool) : (setOscStop c v).rtc = c.rtc := by simp [setOscStop, apply_ite Chip.rtc]
@[simp] theorem setOscStop_islands (v : Bool) : (setOscStop c v).islands = c.islands := by
  simp [setOscStop, apply_ite Chip.islands]

@[simp] theorem rtcSetCounter_rtc (t : Nat) : (rtcSetCounter c t).rtc = c.rtc := by simp [rtcSetCounter]
@[simp] theorem rtcSetCounter_islands (t : Nat) : (rtcSetCounter c t).islands = c.islands := by simp [rtcSetCounter]

/-- The registers that show the counter (R315). -/
def counterRegs : List Nat := [Reg.RTC_SECONDS, Reg.RTC_FRAC, Reg.RTC_CAL_DATE, Reg.RTC_CAL_TIME]

theorem rtcSetCounter_regs (t : Nat) : (rtcSetCounter c t).regs =
    putN (putN (putN (putN c.regs Reg.RTC_SECONDS (t / 32768)) Reg.RTC_FRAC (t % 32768)) Reg.RTC_CAL_DATE (calDate (t / 32768)))
      Reg.RTC_CAL_TIME (calTime (t / 32768)) := by simp only [rtcSetCounter, Chip.setRegN_regs]

theorem rtcSetCounter_reg (t a : Nat) (h : a ∉ counterRegs) : (rtcSetCounter c t).reg a = c.reg a := by
  simp only [counterRegs, List.mem_cons, List.not_mem_nil, or_false, not_or] at h
  obtain ⟨h1, h2, h3, h4⟩ := h
  simp only [Chip.reg_regs, rtcSetCounter_regs, regGet_putN_ne, h1, h2, h3, h4, ne_eq, not_false_eq_true]

/-- The counter reads the time put into it. -/
theorem rtcNow_rtcSetCounter (t : Nat) (h : t < 2 ^ 36 * 32768) : (rtcSetCounter c t).rtcNow = t := by
  have h1 : t / 32768 % 2 ^ 36 = t / 32768 := Nat.mod_eq_of_lt (by omega)
  have h2 : t % 32768 % 2 ^ 36 = t % 32768 := Nat.mod_eq_of_lt (by omega)
  simp (disch := decide) [Chip.rtcNow, Chip.regN_regs, rtcSetCounter_regs] at h1 h2 ⊢
  omega

/-- The chip with its RTC state changed. -/
def Chip.onRtc (c : Chip) (g : Rtc → Rtc) : Chip := { c with rtc := g c.rtc }

section OnRtc
variable (g : Rtc → Rtc)
@[simp] theorem Chip.onRtc_rtc : (c.onRtc g).rtc = g c.rtc := (rfl)
@[simp] theorem Chip.onRtc_regs : (c.onRtc g).regs = c.regs := (rfl)
@[simp] theorem Chip.onRtc_islands : (c.onRtc g).islands = c.islands := (rfl)
@[simp] theorem Chip.onRtc_now : (c.onRtc g).now = c.now := (rfl)
@[simp] theorem Chip.onRtc_pwr : (c.onRtc g).pwr = c.pwr := (rfl)
@[simp] theorem Chip.onRtc_fab : (c.onRtc g).fab = c.fab := (rfl)
end OnRtc

/-- An adjustment that is not due changes nothing (R319). -/
theorem compAdjust_idle (h : c.rtc.adjDue = false) : compAdjust c = c := by simp [compAdjust, h]

/-- The alarms due once those whose time the counter shows are (R324). -/
def dueNow (c : Chip) : List Nat :=
  c.rtc.alarmDue ++ alarms.filter fun a => c.alarmArmed a && c.alarmTime a == c.rtcNow
    && ! c.rtc.alarmDue.contains a && ! c.rtc.alarmSkipped.contains a

/-- The alarms due whose time the counter has reached (R319, R324). -/
def dueStill (c : Chip) : List Nat := c.rtc.alarmDue.filter fun a => decide (c.alarmTime a ≤ c.rtcNow)

theorem markAlarms_eq : markAlarms c = c.onRtc fun r => { r with alarmDue := dueNow c } := (rfl)

/-- What an adjustment that is due does: nothing where it is lost, else one fraction more or less (R319). -/
theorem compAdjust_due (h : c.rtc.adjDue = true) : compAdjust c =
    if c.rtc.adjLost || c.b Fld.RTC_STATUS_RANGE_END then c.onRtc fun r => { r with adjDue := false, adjLost := false }
    else if 0 < c.compTicks then
      if c.rtcNow + 1 < (rtcLastSecond + 1) * 32768 then
        markAlarms (rtcSetCounter (c.onRtc fun r => { r with adjDue := false, adjLost := false, adjMade := 1 }) (c.rtcNow + 1))
      else c.onRtc fun r => { r with adjDue := false, adjLost := false, adjMade := 1, endDue := true }
    else
      let c1 := c.onRtc fun r => { r with adjDue := false, adjLost := false, adjMade := -1, endDue := false }
      let d := if c.rtc.endDue then c1 else rtcSetCounter c1 (c.rtcNow - 1)
      d.onRtc fun r => { r with alarmDue := dueStill d } := by
  rw [compAdjust, if_pos h]
  rfl

/-- COMP_ADJUST leaves an adjustment due no longer, and what waits for the tick as it was (R319, R321). -/
theorem compAdjust_rtc : (compAdjust c).rtc.adjDue = false ∧ (compAdjust c).rtc.cmdDue = c.rtc.cmdDue ∧
    (compAdjust c).rtc.pending = c.rtc.pending ∧ (compAdjust c).rtc.snapDue = c.rtc.snapDue := by
  by_cases h : c.rtc.adjDue = true
  · rw [compAdjust_due c h]
    split_ifs <;> simp [markAlarms_eq]
  · simp [compAdjust_idle c (Bool.eq_false_iff.mpr h), h]

@[simp] theorem compAdjust_adjDue : (compAdjust c).rtc.adjDue = false := (compAdjust_rtc c).1
@[simp] theorem compAdjust_cmdDue : (compAdjust c).rtc.cmdDue = c.rtc.cmdDue := (compAdjust_rtc c).2.1
@[simp] theorem compAdjust_pending : (compAdjust c).rtc.pending = c.rtc.pending := (compAdjust_rtc c).2.2.1
@[simp] theorem compAdjust_snapDue : (compAdjust c).rtc.snapDue = c.rtc.snapDue := (compAdjust_rtc c).2.2.2

@[simp] theorem compAdjust_twice : compAdjust (compAdjust c) = compAdjust c := compAdjust_idle _ (compAdjust_adjDue c)

@[simp] theorem compAdjust_islands : (compAdjust c).islands = c.islands := by
  by_cases h : c.rtc.adjDue = true
  · rw [compAdjust_due c h]
    split_ifs <;> simp [markAlarms_eq]
  · rw [compAdjust_idle c (Bool.eq_false_iff.mpr h)]

theorem compAdjust_reg (a : Nat) (h : a ∉ counterRegs) : (compAdjust c).reg a = c.reg a := by
  by_cases hd : c.rtc.adjDue = true
  · rw [compAdjust_due c hd]
    have hset : ∀ d : Chip, ∀ t, regGet (rtcSetCounter d t).regs a = regGet d.regs a := fun d t => rtcSetCounter_reg d t a h
    split_ifs <;> simp [markAlarms_eq, Chip.reg_regs, hset]
  · rw [compAdjust_idle c (Bool.eq_false_iff.mpr hd)]

/-! ### Alarms that fire, and moves of the counter -/

/-- An operation writes registers of the RTC island and LINK_STATUS alone, and puts no island up or down. -/
def RtcOnly (c d : Chip) : Prop :=
  d.islands = c.islands ∧ ∀ a, islandOf a ≠ .rtc → a ≠ Reg.LINK_STATUS → d.reg a = c.reg a

variable {c} in
theorem RtcOnly.trans {d e : Chip} (h : RtcOnly c d) (h' : RtcOnly d e) : RtcOnly c e :=
  ⟨h'.1.trans h.1, fun a h1 h2 => (h'.2 a h1 h2).trans (h.2 a h1 h2)⟩

theorem RtcOnly.refl : RtcOnly c c := ⟨rfl, fun _ _ _ => rfl⟩

theorem RtcOnly.onRtc (g : Rtc → Rtc) : RtcOnly c (c.onRtc g) := ⟨rfl, fun _ _ _ => rfl⟩

theorem RtcOnly.setF (x : Field) (v : Nat) (hx : islandOf x.reg = .rtc) : RtcOnly c (c.setF x v) :=
  ⟨by simp, fun a h _ => Chip.reg_setF_ne c x v a fun e => h (e ▸ hx)⟩

theorem RtcOnly.setB (x : Field) (v : Bool) (hx : islandOf x.reg = .rtc) : RtcOnly c (c.setB x v) := RtcOnly.setF c x _ hx

theorem RtcOnly.raise (k : Nat) : RtcOnly c (c.raise .rtc k) :=
  ⟨by simp, fun a h _ => Chip.raise_reg_ne c .rtc k a fun e => h (e ▸ rfl)⟩

theorem RtcOnly.fire (n : Nat) (p : Option Nat) : RtcOnly c (c.fire n p) := ⟨by simp, fun a _ _ => by simp⟩

theorem RtcOnly.latchWake (k : Nat) : RtcOnly c (latchWake c k) := by
  simp only [Machine.latchWake]; split <;> exact ⟨rfl, fun _ _ _ => rfl⟩

variable {c} in
theorem RtcOnly.isOn {d : Chip} (h : RtcOnly c d) (i : Island) : d.isOn i = c.isOn i := by
  rw [Chip.isOn_islands, Chip.isOn_islands, h.1]

variable {c} in
theorem RtcOnly.power {d : Chip} (h : RtcOnly c d) : d.power = c.power := by
  unfold Chip.power Chip.f; rw [h.2 _ (by decide) (by decide)]

theorem counterRegs_rtc {a : Nat} (h : islandOf a ≠ .rtc) : a ∉ counterRegs := fun hm => by
  simp only [counterRegs, List.mem_cons, List.not_mem_nil, or_false] at hm
  rcases hm with e | e | e | e <;> exact h (by rw [e]; rfl)

theorem RtcOnly.setCounter (t : Nat) : RtcOnly c (rtcSetCounter c t) :=
  ⟨by simp, fun a h _ => rtcSetCounter_reg c t a (counterRegs_rtc h)⟩

theorem RtcOnly.compAdjust : RtcOnly c (compAdjust c) :=
  ⟨by simp, fun a h _ => compAdjust_reg c a (counterRegs_rtc h)⟩

theorem RtcOnly.setOscStop (v : Bool) : RtcOnly c (setOscStop c v) :=
  ⟨by simp, fun a h h3 => setOscStop_reg c v a h h3⟩

/-- What a fired alarm leaves of the RTC's own state: all but the alarms that wait. -/
def AlarmsOnly (r r' : Rtc) : Prop := ∃ d s l, r' = { r with alarmDue := d, alarmSkipped := s, alarmLate := l }

theorem latchWake_rtc (k : Nat) : (latchWake c k).rtc = c.rtc := by simp only [latchWake]; split <;> rfl

theorem latchWake_islands (k : Nat) : (latchWake c k).islands = c.islands := by simp only [latchWake]; split <;> rfl

@[simp] theorem latchWake_regs (k : Nat) : (latchWake c k).regs = c.regs := by simp only [latchWake]; split <;> rfl

/-- The registers of a fired alarm (R324). -/
theorem fireAlarm_regs (a : Nat) (k : Bool) : (fireAlarm c a k).regs =
    let m := putF (putF c.regs (Fld.RTC_ALARM_CTRL_ARMED a) 0) (Fld.RTC_ALARM_CTRL_FIRED a) 1
    if k then putF m (Fld.RTC_ALARM_CTRL_SKIPPED a) 1 else m := by
  cases k <;> simp [fireAlarm, b2n]

theorem fireAlarm_rtc (a : Nat) (k : Bool) : (fireAlarm c a k).rtc = { c.rtc with
    alarmDue := c.rtc.alarmDue.filter (· != a), alarmSkipped := c.rtc.alarmSkipped.filter (· != a),
    alarmLate := c.rtc.alarmLate.filter (· != a) } := by
  cases k <;> simp [fireAlarm, latchWake_rtc]

theorem RtcOnly.fireAlarm {a : Nat} (ha : a < 4) (k : Bool) : RtcOnly c (fireAlarm c a k) := by
  have hctrl : ∀ y : Field, y.reg = Reg.RTC_ALARM_CTRL a → islandOf y.reg = .rtc := fun y hy => by
    simp only [hy, islandOf, Reg.RTC_ALARM_CTRL]; rw [if_neg (by omega), if_pos (by omega)]
  refine ⟨by cases k <;> simp [Machine.fireAlarm, latchWake_islands], fun b hb _ => ?_⟩
  have hne : b ≠ Reg.RTC_ALARM_CTRL a := fun e => hb (hctrl ⟨b, 0, 0⟩ e)
  cases k <;> simp [Chip.reg_regs, fireAlarm_regs, hne]

/-- One alarm as the counter moves (R325). -/
def moveStep (old new : Nat) (c : Chip) (a : Nat) : Chip :=
  if c.alarmArmed a then
    if decide (old < c.alarmTime a) && decide (c.alarmTime a < new) then fireAlarm c a true
    else if c.alarmTime a == new then fireAlarm c a false else c
  else c

theorem moveStep_keeps (old new : Nat) {a : Nat} (ha : a < 4) :
    RtcOnly c (moveStep old new c a) ∧ AlarmsOnly c.rtc (moveStep old new c a).rtc := by
  have hfire : ∀ k, RtcOnly c (fireAlarm c a k) ∧ AlarmsOnly c.rtc (fireAlarm c a k).rtc := fun k =>
    ⟨.fireAlarm c ha k, _, _, _, fireAlarm_rtc c a k⟩
  have hself : RtcOnly c c ∧ AlarmsOnly c.rtc c.rtc := ⟨.refl c, _, _, _, rfl⟩
  unfold moveStep
  split_ifs
  · exact hfire true
  · exact hfire false
  · exact hself
  · exact hself

/-- A move of the counter fires alarms, and does no more (R325). -/
theorem alarmsAfterMove_keeps (old new : Nat) : RtcOnly c (alarmsAfterMove c old new) ∧
    AlarmsOnly c.rtc (alarmsAfterMove c old new).rtc := by
  suffices h : ∀ l : List Nat, (∀ a ∈ l, a < 4) → ∀ c : Chip,
      RtcOnly c (l.foldl (moveStep old new) c) ∧ AlarmsOnly c.rtc (l.foldl (moveStep old new) c).rtc from
    h alarms (by decide) c
  intro l
  induction l with
  | nil => exact fun _ c => ⟨.refl c, _, _, _, rfl⟩
  | cons a l ih =>
    intro hl c
    obtain ⟨h1, _, _, _, h2⟩ := moveStep_keeps c old new (hl a (by simp))
    obtain ⟨h3, d, s, l, h4⟩ := ih (fun b hb => hl b (by simp [hb])) (moveStep old new c a)
    exact ⟨h1.trans h3, d, s, l, by rw [List.foldl_cons, h4, h2]⟩

/-- With no alarm armed a move fires none. -/
theorem alarmsAfterMove_unarmed (old new : Nat) (h : ∀ a, a < 4 → c.alarmArmed a = false) : alarmsAfterMove c old new = c := by
  simp [alarmsAfterMove, alarms, h]

/-! ### Commands (R317, R320, R321) -/

/-- A command's answer (R320). -/
def cmdAnswered (st : Status) (c : Chip) : Chip := (c.setF Fld.RTC_STATUS_CMD_RESULT st.code).raise .rtc 3

/-- The pending command is taken (R320). -/
def cmdTaken (c : Chip) : Chip :=
  (c.onRtc fun r => { r with pending := none, cmdDue := false }).setB Fld.RTC_STATUS_CMD_PENDING false

@[simp] theorem cmdAnswered_rtc (st : Status) : (cmdAnswered st c).rtc = c.rtc := by simp [cmdAnswered]
@[simp] theorem cmdTaken_rtc : (cmdTaken c).rtc = { c.rtc with pending := none, cmdDue := false } := by simp [cmdTaken]

theorem RtcOnly.cmdAnswered (st : Status) : RtcOnly c (cmdAnswered st c) := .trans (.setF c _ _ rfl) (.raise _ 3)
theorem RtcOnly.cmdTaken : RtcOnly c (cmdTaken c) := .trans (.onRtc c _) (.setB _ _ _ rfl)

/-- What a command taken does at its tick (R320, R321). -/
def cmdEffect (c : Chip) : RtcPending → Chip
  | .set =>
    if 0 ≤ c.regI Reg.RTC_SET_SECONDS && c.regI Reg.RTC_SET_SECONDS ≤ rtcLastSecond then
      cmdAnswered .ok (rtcLoad (rtcOverwrite (compAdjust c)) (c.regN Reg.RTC_SET_SECONDS * 32768 + c.regN Reg.RTC_SET_FRAC) 1)
    else cmdAnswered .badArg c
  | .shift z =>
    if z = 0 then cmdAnswered .ok c
    else
      let t := (rtcShiftBase c).2 + z
      if 0 ≤ t && t < ((rtcLastSecond + 1) * 32768 : Nat) then
        cmdAnswered .ok (alarmsAfterMove (rtcOffEnd (rtcSetCounter (rtcShiftBase c).1 t.toNat)) c.rtcNow t.toNat)
      else cmdAnswered .badArg c

theorem cmdTaken_regN (a : Nat) (h : a ≠ Reg.RTC_STATUS) : (cmdTaken c).regN a = c.regN a := by
  simp [cmdTaken, Chip.regN_regs, h]

theorem cmdTaken_regI (a : Nat) (h : a ≠ Reg.RTC_STATUS) : (cmdTaken c).regI a = c.regI a := by
  simp [cmdTaken, Chip.regI, Chip.reg_regs, h]

theorem cmdTaken_running : (cmdTaken c).b Fld.RTC_STATUS_OSC_RUNNING = c.b Fld.RTC_STATUS_OSC_RUNNING := by
  simp (disch := decide) [cmdTaken, Chip.b_regs]

theorem cmdTaken_rtcNow : (cmdTaken c).rtcNow = c.rtcNow := by
  unfold Chip.rtcNow; rw [cmdTaken_regN _ _ (by decide), cmdTaken_regN _ _ (by decide)]

/-- A pending command waits for its tick, is refused while the crystal stands still, or has its effect (R320). -/
theorem rtcCommandDone_pending {p : RtcPending} (hp : c.rtc.pending = some p) : rtcCommandDone c =
    if c.b Fld.RTC_STATUS_OSC_RUNNING && ! c.rtc.cmdDue then c
    else if ! (cmdTaken c).b Fld.RTC_STATUS_OSC_RUNNING then cmdAnswered .stateRefused (cmdTaken c)
    else cmdEffect (cmdTaken c) p := by
  rw [rtcCommandDone, hp]
  cases p <;> rfl

theorem rtcCommandDone_none (hp : c.rtc.pending = none) : rtcCommandDone c = c := by rw [rtcCommandDone, hp]

/-- The counter as it is loaded, before the alarms are judged (R314, R320, R323). -/
def loaded (c : Chip) (t source : Nat) : Chip :=
  rtcOffEnd ((setOscStop (rtcSetCounter c t) false).setF Fld.RTC_STATUS_TIME_SOURCE source)

theorem RtcOnly.offEnd : RtcOnly c (rtcOffEnd c) := .trans (.onRtc c fun r => { r with endDue := false }) (.setB _ _ _ rfl)

@[simp] theorem rtcOffEnd_rtc : (rtcOffEnd c).rtc = { c.rtc with endDue := false } := by simp [rtcOffEnd]
@[simp] theorem rtcOffEnd_regs : (rtcOffEnd c).regs = putF c.regs Fld.RTC_STATUS_RANGE_END 0 := by simp [rtcOffEnd, b2n]

theorem setOscStop_regs (v : Bool) : (setOscStop c v).regs =
    if c.rtc.lockout then putF c.regs Fld.RTC_STATUS_OSC_STOP (b2n v)
    else putF (putF c.regs Fld.RTC_STATUS_OSC_STOP (b2n v)) Fld.LINK_STATUS_OSC_STOP (b2n v) := by
  simp [setOscStop, apply_ite Chip.regs]

theorem loaded_keeps (t source : Nat) : RtcOnly c (loaded c t source) ∧ (loaded c t source).rtc = { c.rtc with endDue := false } :=
  ⟨.trans (.trans (.trans (.setCounter c t) (.setOscStop _ false)) (.setF _ _ _ rfl)) (.offEnd _), by simp [loaded]⟩

theorem rtcLoad_eq (t source : Nat) : rtcLoad c t source = alarmsAfterMove (loaded c t source) c.rtcNow t := rfl

theorem rtcLoad_keeps (t source : Nat) : RtcOnly c (rtcLoad c t source) ∧
    AlarmsOnly { c.rtc with endDue := false } (rtcLoad c t source).rtc := by
  obtain ⟨h1, h2⟩ := loaded_keeps c t source
  obtain ⟨h3, h4⟩ := alarmsAfterMove_keeps (loaded c t source) c.rtcNow t
  exact ⟨h1.trans h3, h2 ▸ h4⟩

@[simp] theorem rtcOverwrite_eq : rtcOverwrite c = c.onRtc fun r => { r with adjDue := false, adjMade := 0, setNow := true } := (rfl)

theorem RtcOnly.overwrite : RtcOnly c (rtcOverwrite c) := .onRtc c fun r => { r with adjDue := false, adjMade := 0, setNow := true }

/-- The chip in which a SHIFT has lost the adjustment next to it (R322). -/
theorem rtcShiftBase_eq : ∃ k, (rtcShiftBase c).1 = c.onRtc fun r => { r with adjLost := k, adjMade := 0 } := ⟨_, rfl⟩

/-- An answered command's effect is in the RTC domain, leaves none pending and no adjustment it did not find (R320, R321). -/
theorem cmdEffect_keeps (p : RtcPending) : RtcOnly c (cmdEffect c p) ∧ (cmdEffect c p).rtc.pending = c.rtc.pending ∧
    (cmdEffect c p).rtc.cmdDue = c.rtc.cmdDue ∧ (cmdEffect c p).rtc.snapDue = c.rtc.snapDue ∧
    (c.rtc.adjDue = false → (cmdEffect c p).rtc.adjDue = false) := by
  have hanswer : ∀ st, RtcOnly c (cmdAnswered st c) := .cmdAnswered c
  cases p with
  | set =>
    simp only [cmdEffect]
    split_ifs
    · obtain ⟨h1, d, s, l, h2⟩ := rtcLoad_keeps (rtcOverwrite (compAdjust c))
        (c.regN Reg.RTC_SET_SECONDS * 32768 + c.regN Reg.RTC_SET_FRAC) 1
      rw [cmdAnswered_rtc, h2]
      exact ⟨.trans (.trans (.compAdjust c) (.overwrite _)) (h1.trans (.cmdAnswered _ _)), by simp, by simp, by simp, by simp⟩
    · exact ⟨hanswer _, by simp, by simp, by simp, by simp⟩
  | shift z =>
    obtain ⟨k, hb⟩ := rtcShiftBase_eq c
    simp only [cmdEffect, hb]
    split_ifs
    · exact ⟨hanswer _, by simp, by simp, by simp, by simp⟩
    · obtain ⟨h1, d, s, l, h2⟩ := alarmsAfterMove_keeps (rtcOffEnd (rtcSetCounter (c.onRtc fun r => { r with adjLost := k, adjMade := 0 })
        ((rtcShiftBase c).2 + z).toNat)) c.rtcNow ((rtcShiftBase c).2 + z).toNat
      rw [cmdAnswered_rtc, h2]
      exact ⟨.trans (.trans (.trans (.onRtc c fun r => { r with adjLost := k, adjMade := 0 }) (.setCounter _ _)) (.offEnd _)) (h1.trans (.cmdAnswered _ _)), by simp,
        by simp, by simp, by simp⟩
    · exact ⟨hanswer _, by simp, by simp, by simp, by simp⟩

/-- A command that does not wait is answered: none is pending, none due, and the domain alone has changed (R320). -/
theorem rtcCommandDone_keeps {p : RtcPending} (hp : c.rtc.pending = some p)
    (hw : ¬ (c.b Fld.RTC_STATUS_OSC_RUNNING = true ∧ c.rtc.cmdDue = false)) :
    RtcOnly c (rtcCommandDone c) ∧ (rtcCommandDone c).rtc.pending = none ∧ (rtcCommandDone c).rtc.cmdDue = false ∧
      (rtcCommandDone c).rtc.snapDue = c.rtc.snapDue ∧ (c.rtc.adjDue = false → (rtcCommandDone c).rtc.adjDue = false) := by
  rw [rtcCommandDone_pending c hp, if_neg (by simpa using hw)]
  have htaken : RtcOnly c (cmdTaken c) := .cmdTaken c
  split_ifs
  · exact ⟨htaken.trans (.cmdAnswered _ _), by simp, by simp, by simp, by simp⟩
  · obtain ⟨h1, h2, h3, h4, h5⟩ := cmdEffect_keeps (cmdTaken c) p
    exact ⟨htaken.trans h1, by simp [h2], by simp [h3], by simp [h4], fun h => h5 (by simpa using h)⟩

/-! ### Wakes from Small Hours (R325) -/

theorem alarmWakes_awake (h : c.power ≠ 7) : alarmWakes c = c := by simp [alarmWakes, h]

theorem alarmWakes_cases : alarmWakes c = c ∨ alarmWakes c = deviceReset (some causeSmallHours) true c := by
  unfold alarmWakes; split
  · exact .inr rfl
  · exact .inl rfl

/-- A device reset keeps the registers of the RTC domain, RTC_REF_PPB apart, and its state (R22). -/
theorem deviceReset_rtcReg (cause : Option Nat) (lost : Bool) (a : Nat) (h : islandOf a = .rtc) (hr : a ≠ Reg.RTC_REF_PPB) :
    (deviceReset cause lost c).reg a = c.reg a := by
  have h1 : a ≠ Reg.LINK_STATUS := fun e => by rw [e] at h; exact absurd h (by decide)
  have h2 : a ≠ Reg.PWR_RESET_CAUSE := fun e => by rw [e] at h; exact absurd h (by decide)
  have h3 : a ≠ Reg.PAD_FEATURE := fun e => by rw [e] at h; exact absurd h (by decide)
  simp only [deviceReset]
  rw [linkOscFollow_reg _ _ h1, Chip.reg_setRegN_ne _ _ _ _ h2, Chip.reg_setReg_ne _ _ _ _ h3, Chip.reg_setRegN_ne _ _ _ _ hr]
  unfold Chip.reg regGet
  rw [Store.get_drop]
  simp [h]

theorem deviceReset_rtc (cause : Option Nat) (lost : Bool) :
    (deviceReset cause lost c).rtc = { c.rtc with refArmed := false } := by
  simp only [deviceReset, linkOscFollow, Chip.setB_rtc, Chip.setRegN_rtc, Chip.setReg_rtc]

theorem alarmWakes_reg (a : Nat) (h : islandOf a = .rtc) (hr : a ≠ Reg.RTC_REF_PPB) : (alarmWakes c).reg a = c.reg a := by
  rcases alarmWakes_cases c with e | e <;> rw [e]
  exact deviceReset_rtcReg c _ _ a h hr

theorem alarmWakes_rtc : ∃ b, (alarmWakes c).rtc = { c.rtc with refArmed := b } := by
  rcases alarmWakes_cases c with e | e <;> rw [e]
  · exact ⟨c.rtc.refArmed, rfl⟩
  · exact ⟨false, deviceReset_rtc c _ _⟩

/-- The pending command completes and may wake the chip, or waits (R320, R325). -/
theorem rtcApply_done {p : RtcPending} (hp : c.rtc.pending = some p)
    (hw : ¬ (c.b Fld.RTC_STATUS_OSC_RUNNING = true ∧ c.rtc.cmdDue = false)) : rtcApply c = alarmWakes (rtcCommandDone c) := by
  obtain ⟨-, h, -⟩ := rtcCommandDone_keeps c hp hw
  simp [rtcApply, hp, h]

theorem rtcApply_waits (h : c.rtc.pending = none ∨ c.b Fld.RTC_STATUS_OSC_RUNNING = true ∧ c.rtc.cmdDue = false) :
    rtcApply c = c := by
  rcases hp : c.rtc.pending with _ | p
  · simp [rtcApply, hp]
  · obtain ⟨h1, h2⟩ := h.resolve_left (by simp [hp])
    simp [rtcApply, rtcCommandDone_pending c hp, h1, h2, hp]

theorem rtcApply_reg (a : Nat) (h : islandOf a = .rtc) (hr : a ≠ Reg.RTC_REF_PPB) :
    (rtcApply c).reg a = (rtcCommandDone c).reg a := by
  rcases hp : c.rtc.pending with _ | p
  · rw [rtcApply_waits c (.inl hp), rtcCommandDone_none c hp]
  · by_cases hw : c.b Fld.RTC_STATUS_OSC_RUNNING = true ∧ c.rtc.cmdDue = false
    · rw [rtcApply_waits c (.inr hw), rtcCommandDone_pending c hp, if_pos (by simp [hw])]
    · rw [rtcApply_done c hp hw, alarmWakes_reg _ _ h hr]

/-- A command whose tick has come is no longer pending, and what else waits for the tick does (R320, R321). -/
theorem rtcApply_due (hd : c.rtc.cmdDue = true) : (rtcApply c).rtc.pending = none ∧
    (rtcApply c).rtc.snapDue = c.rtc.snapDue ∧ (c.rtc.adjDue = false → (rtcApply c).rtc.adjDue = false) := by
  rcases hp : c.rtc.pending with _ | p
  · rw [rtcApply_waits c (.inl hp)]
    exact ⟨hp, rfl, id⟩
  · obtain ⟨-, h1, -, h2, h3⟩ := rtcCommandDone_keeps c hp (by simp [hd])
    obtain ⟨b, hb⟩ := alarmWakes_rtc (rtcCommandDone c)
    rw [rtcApply_done c hp (by simp [hd]), hb]
    exact ⟨h1, h2, h3⟩

theorem rtcApply_f (x : Field) (h : islandOf x.reg = .rtc) (hr : x.reg ≠ Reg.RTC_REF_PPB) :
    (rtcApply c).f x = (rtcCommandDone c).f x := by
  unfold Chip.f; rw [rtcApply_reg c _ h hr]

theorem rtcApply_regN (a : Nat) (h : islandOf a = .rtc) (hr : a ≠ Reg.RTC_REF_PPB) :
    (rtcApply c).regN a = (rtcCommandDone c).regN a := by
  unfold Chip.regN; rw [rtcApply_reg c _ h hr]

theorem rtcApply_b (x : Field) (h : islandOf x.reg = .rtc) (hr : x.reg ≠ Reg.RTC_REF_PPB) :
    (rtcApply c).b x = (rtcCommandDone c).b x := by
  unfold Chip.b; rw [rtcApply_f c _ h hr]

theorem rtcApply_rtcNow : (rtcApply c).rtcNow = (rtcCommandDone c).rtcNow := by
  unfold Chip.rtcNow; rw [rtcApply_regN c _ (by decide) (by decide), rtcApply_regN c _ (by decide) (by decide)]

theorem rtcApply_pending {p : RtcPending} (hp : c.rtc.pending = some p)
    (hw : ¬ (c.b Fld.RTC_STATUS_OSC_RUNNING = true ∧ c.rtc.cmdDue = false)) : (rtcApply c).rtc.pending = none := by
  obtain ⟨-, h, -⟩ := rtcCommandDone_keeps c hp hw
  obtain ⟨b, hb⟩ := alarmWakes_rtc (rtcCommandDone c)
  rw [rtcApply_done c hp hw, hb, h]

@[simp] theorem cmdAnswered_regs (st : Status) : (cmdAnswered st c).regs =
    putF (putF c.regs Fld.RTC_STATUS_CMD_RESULT st.code) ⟨Reg.RTC_INT_STATUS, 3, 1⟩ 1 := by
  rw [cmdAnswered, Chip.raise_regs_put, Chip.setF_regs]; rfl

@[simp] theorem cmdTaken_regs : (cmdTaken c).regs = putF c.regs Fld.RTC_STATUS_CMD_PENDING 0 := by simp [cmdTaken, b2n]

theorem cmdAnswered_result (st : Status) : (cmdAnswered st c).f Fld.RTC_STATUS_CMD_RESULT = st.code := by
  have h : st.code % 4096 = st.code := Nat.mod_eq_of_lt st.code_lt
  simp (disch := decide) [Chip.f_regs, h]

theorem cmdAnswered_regN (st : Status) (a : Nat) (h : a ≠ Reg.RTC_STATUS) (h' : a ≠ Reg.RTC_INT_STATUS) :
    (cmdAnswered st c).regN a = c.regN a := by
  simp (disch := assumption) only [Chip.regN_regs, cmdAnswered_regs, regNat_putF_ne]

/-- An answer leaves the fields beside CMD_RESULT alone. -/
theorem cmdAnswered_f (st : Status) (y : Field)
    (h : y.reg ≠ Reg.RTC_STATUS ∨ (y.lo + y.w ≤ 36 ∧ (y.lo + y.w ≤ 12 ∨ 24 ≤ y.lo))) (h' : y.reg ≠ Reg.RTC_INT_STATUS) :
    (cmdAnswered st c).f y = c.f y := by
  rw [Chip.f_regs, cmdAnswered_regs, regF_putF_ne _ _ _ _ (.inl h'), regF_putF_ne _ _ _ _ h, Chip.f_regs]

theorem cmdAnswered_b (st : Status) (y : Field)
    (h : y.reg ≠ Reg.RTC_STATUS ∨ (y.lo + y.w ≤ 36 ∧ (y.lo + y.w ≤ 12 ∨ 24 ≤ y.lo))) (h' : y.reg ≠ Reg.RTC_INT_STATUS) :
    (cmdAnswered st c).b y = c.b y := by
  unfold Chip.b; rw [cmdAnswered_f c st y h h']

theorem cmdAnswered_rtcNow (st : Status) : (cmdAnswered st c).rtcNow = c.rtcNow := by
  simp (disch := decide) [Chip.rtcNow, Chip.regN_regs]

/-- A command answered without effect: the counter stands, and the status is there to read (R320). -/
theorem rtcApply_answered (st : Status) {p : RtcPending} (hp : c.rtc.pending = some p)
    (hw : ¬ (c.b Fld.RTC_STATUS_OSC_RUNNING = true ∧ c.rtc.cmdDue = false))
    (h : rtcCommandDone c = cmdAnswered st (cmdTaken c)) :
    (rtcApply c).rtcNow = c.rtcNow ∧ (rtcApply c).b Fld.RTC_STATUS_CMD_PENDING = false ∧
      (rtcApply c).f Fld.RTC_STATUS_CMD_RESULT = st.code ∧ (rtcApply c).rtc.pending = none := by
  refine ⟨?_, ?_, ?_, rtcApply_pending c hp hw⟩
  · rw [rtcApply_rtcNow, h, cmdAnswered_rtcNow, cmdTaken_rtcNow]
  · rw [rtcApply_b c _ (by decide) (by decide), h]
    simp (disch := decide) [Chip.b_regs]
  · rw [rtcApply_f c _ (by decide) (by decide), h, cmdAnswered_result]

/-- At its tick a command has its effect (R320). -/
theorem rtcCommandDone_due {p : RtcPending} (hp : c.rtc.pending = some p) (hr : c.b Fld.RTC_STATUS_OSC_RUNNING = true)
    (hd : c.rtc.cmdDue = true) : rtcCommandDone c = cmdEffect (cmdTaken c) p := by
  rw [rtcCommandDone_pending c hp, cmdTaken_running]
  simp [hr, hd]

theorem rtcCommandDone_stopped {p : RtcPending} (hp : c.rtc.pending = some p) (hr : c.b Fld.RTC_STATUS_OSC_RUNNING = false) :
    rtcCommandDone c = cmdAnswered .stateRefused (cmdTaken c) := by
  rw [rtcCommandDone_pending c hp, cmdTaken_running]
  simp [hr]

/-- SET of a time outside the range is answered BAD_ARG (R320). -/
theorem cmdEffect_set_bad (h : c.regI Reg.RTC_SET_SECONDS < 0 ∨ (rtcLastSecond : Int) < c.regI Reg.RTC_SET_SECONDS) :
    cmdEffect (cmdTaken c) .set = cmdAnswered .badArg (cmdTaken c) := by
  simp only [cmdEffect, cmdTaken_regI c Reg.RTC_SET_SECONDS (by decide)]
  rw [if_neg (by simp only [Bool.and_eq_true, decide_eq_true_eq]; omega)]

theorem alarmArmed_of_reg {c d : Chip} {a : Nat} (h : d.reg (Reg.RTC_ALARM_CTRL a) = c.reg (Reg.RTC_ALARM_CTRL a)) :
    d.alarmArmed a = c.alarmArmed a := by unfold Chip.alarmArmed Chip.b Chip.f; rw [h]

/-- An alarm's control register shows neither the counter nor a status. -/
theorem alarmCtrl_apart {a : Nat} (h : a < 4) : Reg.RTC_ALARM_CTRL a ∉ counterRegs ∧ Reg.RTC_ALARM_CTRL a ≠ Reg.RTC_STATUS ∧
    Reg.RTC_ALARM_CTRL a ≠ Reg.LINK_STATUS := by
  interval_cases a <;> decide

theorem cmdTaken_alarmArmed {a : Nat} (h : a < 4) : (cmdTaken c).alarmArmed a = c.alarmArmed a := by
  obtain ⟨-, h2, -⟩ := alarmCtrl_apart h
  exact alarmArmed_of_reg (by simp (disch := exact h2) only [Chip.reg_regs, cmdTaken_regs, regGet_putF_ne])

theorem loaded_alarmArmed (t source : Nat) {a : Nat} (h : a < 4) : (loaded c t source).alarmArmed a = c.alarmArmed a := by
  obtain ⟨h1, h2, h3⟩ := alarmCtrl_apart h
  have hset := rtcSetCounter_reg c t _ h1
  refine alarmArmed_of_reg ?_
  rw [← hset]
  simp only [Chip.reg_regs, loaded, rtcOffEnd_regs, Chip.setF_regs, setOscStop_regs]
  split <;> simp (disch := assumption) only [regGet_putF_ne]

theorem compAdjust_alarmArmed {a : Nat} (h : a < 4) : (compAdjust c).alarmArmed a = c.alarmArmed a :=
  alarmArmed_of_reg (compAdjust_reg c _ (alarmCtrl_apart h).1)

theorem onRtc_alarmArmed (g : Rtc → Rtc) (a : Nat) : (c.onRtc g).alarmArmed a = c.alarmArmed a := rfl

/-- With no alarm armed the counter is loaded and no more (R314, R320). -/
theorem rtcLoad_unarmed (t source : Nat) (h : ∀ a, a < 4 → c.alarmArmed a = false) : rtcLoad c t source = loaded c t source := by
  rw [rtcLoad_eq, alarmsAfterMove_unarmed _ _ _ fun a ha => (loaded_alarmArmed c t source ha).trans (h a ha)]

/-- What the registers show of a counter that is loaded (R314, R320, R323). -/
theorem loaded_reads (t source : Nat) (ht : t < 2 ^ 36 * 32768) : (loaded c t source).regN Reg.RTC_SECONDS = t / 32768 ∧
    (loaded c t source).regN Reg.RTC_FRAC = t % 32768 ∧ (loaded c t source).b Fld.RTC_STATUS_OSC_STOP = false ∧
    (loaded c t source).b Fld.RTC_STATUS_RANGE_END = false ∧ (loaded c t source).f Fld.RTC_STATUS_TIME_SOURCE = source % 4 := by
  have h1 : t / 32768 % 68719476736 = t / 32768 := Nat.mod_eq_of_lt (by omega)
  have h2 : t % 32768 % 68719476736 = t % 32768 := Nat.mod_eq_of_lt (by omega)
  simp only [loaded, Chip.regN_regs, Chip.b_regs, Chip.f_regs, rtcOffEnd_regs, Chip.setF_regs, setOscStop_regs, rtcSetCounter_regs]
  split <;> simp (disch := decide) [h1, h2, b2n]

/-- SET of a time within the range puts it into the counter (R317, R320). -/
theorem cmdEffect_set_ok (hlo : 0 ≤ c.regI Reg.RTC_SET_SECONDS) (hhi : c.regI Reg.RTC_SET_SECONDS ≤ rtcLastSecond)
    (hf : c.regN Reg.RTC_SET_FRAC < 32768) (ha : ∀ a, a < 4 → c.alarmArmed a = false) :
    let d := cmdEffect (cmdTaken c) .set
    d.regN Reg.RTC_SECONDS = c.regN Reg.RTC_SET_SECONDS ∧ d.regN Reg.RTC_FRAC = c.regN Reg.RTC_SET_FRAC ∧
      d.b Fld.RTC_STATUS_OSC_STOP = false ∧ d.b Fld.RTC_STATUS_RANGE_END = false ∧ d.f Fld.RTC_STATUS_TIME_SOURCE = 1 ∧
      d.f Fld.RTC_STATUS_CMD_RESULT = Status.ok.code := by
  have hs : c.regN Reg.RTC_SET_SECONDS < 2 ^ 36 := regNat_lt _ _
  have hunarmed : ∀ a, a < 4 → (rtcOverwrite (compAdjust (cmdTaken c))).alarmArmed a = false := fun a h => by
    rw [rtcOverwrite_eq, onRtc_alarmArmed, compAdjust_alarmArmed _ h, cmdTaken_alarmArmed c h, ha a h]
  have heff : cmdEffect (cmdTaken c) .set = cmdAnswered .ok (loaded (rtcOverwrite (compAdjust (cmdTaken c)))
      (c.regN Reg.RTC_SET_SECONDS * 32768 + c.regN Reg.RTC_SET_FRAC) 1) := by
    simp only [cmdEffect, cmdTaken_regI c Reg.RTC_SET_SECONDS (by decide), cmdTaken_regN c Reg.RTC_SET_SECONDS (by decide),
      cmdTaken_regN c Reg.RTC_SET_FRAC (by decide)]
    rw [if_pos (by simp only [Bool.and_eq_true, decide_eq_true_eq]; exact ⟨hlo, hhi⟩), rtcLoad_unarmed _ _ _ hunarmed]
  obtain ⟨h1, h2, h3, h4, h5⟩ := loaded_reads (rtcOverwrite (compAdjust (cmdTaken c)))
    (c.regN Reg.RTC_SET_SECONDS * 32768 + c.regN Reg.RTC_SET_FRAC) 1 (by omega)
  intro d
  simp only [d, heff]
  have hdiv : (c.regN Reg.RTC_SET_SECONDS * 32768 + c.regN Reg.RTC_SET_FRAC) / 32768 = c.regN Reg.RTC_SET_SECONDS := by omega
  have hmod : (c.regN Reg.RTC_SET_SECONDS * 32768 + c.regN Reg.RTC_SET_FRAC) % 32768 = c.regN Reg.RTC_SET_FRAC := by omega
  exact ⟨(cmdAnswered_regN _ _ _ (by decide) (by decide)).trans (h1.trans hdiv),
    (cmdAnswered_regN _ _ _ (by decide) (by decide)).trans (h2.trans hmod), (cmdAnswered_b _ _ _ (by decide) (by decide)).trans h3,
    (cmdAnswered_b _ _ _ (by decide) (by decide)).trans h4, (cmdAnswered_f _ _ _ (by decide) (by decide)).trans h5,
    cmdAnswered_result _ _⟩

/-- The time a SHIFT by `z` leads to (R320, R322). -/
def shiftTime (c : Chip) (z : Int) : Int := c.rtcNow - c.rtc.adjMade + z

theorem rtcShiftBase_time (z : Int) : (rtcShiftBase (cmdTaken c)).2 + z = shiftTime c z := by
  rw [rtcShiftBase, cmdTaken_rtcNow, cmdTaken_rtc]; rfl

/-- SHIFT by nothing, and one that leads out of the range, leave the counter (R320). -/
theorem cmdEffect_shift_zero : cmdEffect (cmdTaken c) (.shift 0) = cmdAnswered .ok (cmdTaken c) := rfl

theorem cmdEffect_shift_bad {z : Int} (hz : z ≠ 0)
    (h : shiftTime c z < 0 ∨ ((rtcLastSecond + 1) * 32768 : Nat) ≤ shiftTime c z) :
    cmdEffect (cmdTaken c) (.shift z) = cmdAnswered .badArg (cmdTaken c) := by
  simp only [cmdEffect, rtcShiftBase_time, if_neg hz]
  rw [if_neg (by simp only [Bool.and_eq_true, decide_eq_true_eq]; omega)]

/-- The counter as a SHIFT moves it. -/
def shifted (c : Chip) (z : Int) : Chip := rtcOffEnd (rtcSetCounter (rtcShiftBase (cmdTaken c)).1 (shiftTime c z).toNat)

theorem shifted_alarmArmed (z : Int) {a : Nat} (h : a < 4) : (shifted c z).alarmArmed a = c.alarmArmed a := by
  obtain ⟨h1, h2, -⟩ := alarmCtrl_apart h
  obtain ⟨k, hk⟩ := rtcShiftBase_eq (cmdTaken c)
  rw [← cmdTaken_alarmArmed c h]
  refine alarmArmed_of_reg ?_
  have hset := rtcSetCounter_reg (rtcShiftBase (cmdTaken c)).1 (shiftTime c z).toNat _ h1
  simp only [Chip.reg_regs, hk, Chip.onRtc_regs] at hset
  simp (disch := exact h2) only [Chip.reg_regs, shifted, rtcOffEnd_regs, regGet_putF_ne, hk, hset]

section Shift
variable {c} {z : Int} (hz : z ≠ 0) (hlo : 0 ≤ shiftTime c z) (hhi : shiftTime c z < ((rtcLastSecond + 1) * 32768 : Nat))
include hlo hhi

theorem shifted_reads : ((shifted c z).rtcNow : Int) = shiftTime c z ∧ (shifted c z).b Fld.RTC_STATUS_RANGE_END = false ∧
    (shifted c z).b Fld.RTC_STATUS_OSC_STOP = c.b Fld.RTC_STATUS_OSC_STOP ∧
    (shifted c z).f Fld.RTC_STATUS_TIME_SOURCE = c.f Fld.RTC_STATUS_TIME_SOURCE ∧ (shifted c z).rtc.adjMade = 0 ∧
    (4094 ≤ c.rtc.periodTick % 4096 ∨ c.rtc.adjDue = true → (shifted c z).rtc.adjLost = true) := by
  obtain ⟨k, hk⟩ := rtcShiftBase_eq (cmdTaken c)
  have hnow := rtcNow_rtcSetCounter (rtcShiftBase (cmdTaken c)).1 (shiftTime c z).toNat
    (by simp only [rtcLastSecond] at hhi; omega)
  have hregs : ∀ x : Field, x.reg = Reg.RTC_STATUS → regF (rtcSetCounter (rtcShiftBase (cmdTaken c)).1
      (shiftTime c z).toNat).regs x = regF (cmdTaken c).regs x := fun x hx => by
    rw [rtcSetCounter_regs, hk, Chip.onRtc_regs]
    simp (disch := rw [hx]; decide) only [regF_putN_ne]
  refine ⟨?_, ?_, ?_, ?_, ?_, fun h => ?_⟩
  · have hoff : (shifted c z).rtcNow = (shiftTime c z).toNat := by
      rw [← hnow]
      simp (disch := decide) only [shifted, Chip.rtcNow, Chip.regN_regs, rtcOffEnd_regs, regNat_putF_ne]
    rw [hoff, Int.toNat_of_nonneg hlo]
  · simp (disch := decide) [shifted, Chip.b_regs]
  · simp (disch := first | decide | rfl) [shifted, Chip.b_regs, hregs]
  · simp (disch := first | decide | rfl) [shifted, Chip.f_regs, hregs]
  · simp [shifted, hk]
  · simp only [shifted, rtcOffEnd_rtc, rtcSetCounter_rtc, rtcShiftBase, cmdTaken_rtc]
    rcases h with h | h <;> simp [h]

include hz
/-- SHIFT within the range, with no alarm armed, moves the counter and no more (R320). -/
theorem cmdEffect_shift_ok (ha : ∀ a, a < 4 → c.alarmArmed a = false) :
    cmdEffect (cmdTaken c) (.shift z) = cmdAnswered .ok (shifted c z) := by
  simp only [cmdEffect, rtcShiftBase_time, if_neg hz]
  rw [if_pos (by simp only [Bool.and_eq_true, decide_eq_true_eq]; exact ⟨hlo, hhi⟩)]
  exact congrArg _ (alarmsAfterMove_unarmed (shifted c z) _ _ fun a h => (shifted_alarmArmed c z h).trans (ha a h))

end Shift

/-! ### Commands as they are written, and snapshots (R317, R320, R321) -/

/-- A command is staged (R320). -/
def staged (p : RtcPending) (c : Chip) : Chip :=
  (c.onRtc fun r => { r with pending := some p, cmdDue := false }).setB Fld.RTC_STATUS_CMD_PENDING true

/-- A time command in a block that is on: one that waits for its tick is answered SUPERSEDED, one whose tick has come has its
effect (R320). -/
theorem rtcCommand_on (p : RtcPending) (hon : c.isOn .rtc = true) : rtcCommand p c = staged p
    (if ! c.rtc.pending.isSome then c else if c.rtc.cmdDue then rtcApply c else cmdAnswered .superseded c) := by
  rw [rtcCommand, if_pos hon]; rfl

theorem rtcCommand_off (p : RtcPending) (hon : c.isOn .rtc = false) : rtcCommand p c = c.regReject := by
  simp [rtcCommand, hon]

/-- What is read of a command staged in place of another (R320). -/
theorem staged_superseded (p : RtcPending) : let d := staged p (cmdAnswered .superseded c)
    d.rtc.pending = some p ∧ d.b Fld.RTC_STATUS_CMD_PENDING = true ∧
      d.f Fld.RTC_STATUS_CMD_RESULT = Status.superseded.code ∧ d.b ⟨Reg.RTC_INT_STATUS, 3, 1⟩ = true := by
  have h : Status.superseded.code % 4096 = Status.superseded.code := by decide
  simp (disch := decide) [staged, Chip.b_regs, Chip.f_regs, b2n, h]

theorem rtcApply_power {p : RtcPending} (hp : c.rtc.pending = some p) (hd : c.rtc.cmdDue = true) (h7 : c.power ≠ 7) :
    RtcOnly c (rtcApply c) := by
  obtain ⟨h, -⟩ := rtcCommandDone_keeps c hp (by simp [hd])
  rw [rtcApply_done c hp (by simp [hd]), alarmWakes_awake _ (by rwa [h.power])]
  exact h

/-- The grain that a snapshot shows: within one of that of its tick (R317). -/
def snapGrain (c : Chip) (n : Nat) : Nat := (c.now - c.now % 2048 + n + 2 ^ 36 - 1) % 2 ^ 36

/-- A snapshot due is taken after the adjustment and the command of its tick (R317). -/
theorem rtcSnapTaken_due (h : c.rtc.snapDue = true) : rtcSnapTaken c =
    let c0 := compAdjust (if c.rtc.cmdDue then rtcApply c else c)
    let c1 := (takeFree 3 (c0.onRtc fun r => { r with snap := false, snapDue := false })).2
    (((c1.setRegN Reg.RTC_SNAP_SECONDS (c1.regN Reg.RTC_SECONDS)).setRegN Reg.RTC_SNAP_FRAC (c1.regN Reg.RTC_FRAC)).setRegN
      Reg.RTC_SNAP_GRAIN (snapGrain c1 (takeFree 3 c0).1)).raise .rtc 4 := by
  rw [rtcSnapTaken, if_pos h]
  rfl

/-- The adjustment and the command of a tick act once (R321). -/
theorem tick_twice : let d := compAdjust (if c.rtc.cmdDue then rtcApply c else c)
    compAdjust (if d.rtc.cmdDue then rtcApply d else d) = d ∧ d.rtc.snapDue = c.rtc.snapDue := by
  intro d
  by_cases hd : c.rtc.cmdDue = true
  · obtain ⟨h1, h2, -⟩ := rtcApply_due c hd
    have hpend : d.rtc.pending = none := by simp only [d, hd, if_true, compAdjust_pending, h1]
    rw [rtcApply_waits d (.inl hpend), ite_self]
    exact ⟨compAdjust_idle d (compAdjust_adjDue _), by simp only [d, hd, if_true, compAdjust_snapDue, h2]⟩
  · have he : d = compAdjust c := by simp only [d, hd]; rfl
    have hcmd : d.rtc.cmdDue = false := by rw [he, compAdjust_cmdDue]; exact Bool.eq_false_iff.mpr hd
    rw [hcmd, if_neg Bool.false_ne_true]
    exact ⟨compAdjust_idle d (compAdjust_adjDue _), by rw [he, compAdjust_snapDue]⟩

/-- What a snapshot takes (R317). -/
theorem rtcSnapTaken_reads (h : c.rtc.snapDue = true) (ha : c.rtc.adjDue = false) (hd : c.rtc.cmdDue = false) :
    let d := rtcSnapTaken c
    d.regN Reg.RTC_SNAP_SECONDS = c.regN Reg.RTC_SECONDS ∧ d.regN Reg.RTC_SNAP_FRAC = c.regN Reg.RTC_FRAC ∧
      (∃ n, n < 3 ∧ d.regN Reg.RTC_SNAP_GRAIN = (c.now / 2048 * 2048 + n + 2 ^ 36 - 1) % 2 ^ 36) ∧
      d.rtc.snap = false ∧ d.b ⟨Reg.RTC_INT_STATUS, 4, 1⟩ = true := by
  have hs : ∀ a, regNat c.regs a % 68719476736 = regNat c.regs a := fun a => Nat.mod_eq_of_lt (regNat_lt c.regs a)
  have hgrain : c.now - c.now % 2048 = c.now / 2048 * 2048 := by omega
  rw [rtcSnapTaken_due c h, hd, if_neg Bool.false_ne_true, compAdjust_idle c ha]
  refine ⟨?_, ?_, ⟨(takeFree 3 c).1, Nat.mod_lt _ (by decide), ?_⟩, ?_, Chip.raise_flag _ .rtc 4 (by decide)⟩
  · simp (disch := decide) [Chip.regN_regs, hs]
  · simp (disch := decide) [Chip.regN_regs, hs]
  · simp only [Chip.regN_regs, Chip.raise_regs_put, Chip.setRegN_regs]
    rw [regNat_putF_ne _ _ _ _ (by decide), regNat_putN, ← hgrain]
    exact Nat.mod_mod _ _
  · simp

end Sys2Proof.Machine
end


section
namespace Sys2Proof

open Machine

/-- Settles O8: a command is staged, answered or has its effect, which the RTC's registers show even after a wake from Small
Hours; a snapshot is taken after both acts of its tick. -/
theorem rtcCommands : Obligations.RtcCommands := by
  refine ⟨fun s => ⟨fun hon hp => ?_, fun hon h7 hp hd => ?_, fun hon hp hd => ?_, fun hon hp hd n hn => ?_, ?_, fun hon => ?_,
    fun hoff => ⟨?_, fun n => ?_, ?_⟩⟩, fun s hosc hp => ?_, fun s hosc => ⟨fun h => ?_, fun hp hd hlo hhi hf ha => ?_,
    fun hp hd hbad => ?_, fun hp hd hbad => ?_, fun z hp hd => ?_, fun h => ?_, fun h _ => ?_, fun h ha hd => ?_⟩⟩
  · have hput : ∀ p, rtcCommand p s.chip = staged p s.chip := fun p => by rw [rtcCommand_on _ p hon, hp]; rfl
    refine ⟨next_chip (hput _), fun n hn => ?_⟩
    refine next_chip ?_
    rw [rtcShift, if_neg hn, hput]
    rfl
  · obtain ⟨p, hp⟩ := Option.isSome_iff_exists.mp hp
    have hon' : (rtcApply s.chip).isOn .rtc = true := by rw [(rtcApply_power _ hp hd h7).isOn, hon]
    have hnone := rtcApply_pending s.chip hp (by simp [hd])
    refine next_chip ?_
    simp only [rtcCommand_on _ _ hon, rtcCommand_on _ _ hon', hp, hd, hnone, Option.isSome_some, Option.isSome_none, Bool.not_true,
      Bool.not_false, Bool.false_eq_true, if_false, if_true]
  · refine ⟨_, rfl, ?_⟩
    dsimp only
    rw [rtcCommand_on _ _ hon, hp, hd]
    obtain ⟨h1, -, h2, h3⟩ := staged_superseded s.chip .set
    exact ⟨h1, h2, h3⟩
  · refine ⟨_, rfl, ?_⟩
    dsimp only
    rw [rtcShift, if_neg hn, rtcCommand_on _ _ hon, hp, hd]
    exact staged_superseded s.chip _
  · rfl
  · refine next_chip ?_
    rw [rtcSnap, if_pos hon]
  · exact next_chip (rtcCommand_off _ _ hoff)
  · refine next_chip ?_
    rw [rtcShift, rtcCommand_off _ _ hoff, ite_self]
  · refine next_chip ?_
    rw [rtcSnap, if_neg (by simp [hoff])]
  · obtain ⟨p, hp⟩ := Option.isSome_iff_exists.mp hp
    exact ⟨_, rfl, rtcApply_answered _ _ hp (by simp [hosc]) (rtcCommandDone_stopped _ hp hosc)⟩
  · refine next_chip (rtcApply_waits _ ?_)
    exact h.imp_right fun h => ⟨hosc, h⟩
  · have hdone := rtcCommandDone_due _ hp hosc hd
    obtain ⟨h1, h2, h3, h4, h5, h6⟩ := cmdEffect_set_ok s.chip hlo hhi hf ha
    rw [← hdone] at h1 h2 h3 h4 h5 h6
    exact ⟨_, rfl, (rtcApply_regN _ _ (by decide) (by decide)).trans h1, (rtcApply_regN _ _ (by decide) (by decide)).trans h2,
      (rtcApply_b _ _ (by decide) (by decide)).trans h3, (rtcApply_b _ _ (by decide) (by decide)).trans h4,
      (rtcApply_f _ _ (by decide) (by decide)).trans h5, (rtcApply_f _ _ (by decide) (by decide)).trans h6,
      rtcApply_pending _ hp (by simp [hd])⟩
  · obtain ⟨h1, -, h2, h3⟩ := rtcApply_answered _ .badArg hp (by simp [hd])
      ((rtcCommandDone_due _ hp hosc hd).trans (cmdEffect_set_bad _ (.inr hbad)))
    exact ⟨_, rfl, h1, h2, h3⟩
  · obtain ⟨h1, -, h2, h3⟩ := rtcApply_answered _ .badArg hp (by simp [hd])
      ((rtcCommandDone_due _ hp hosc hd).trans (cmdEffect_set_bad _ (.inl hbad)))
    exact ⟨_, rfl, h1, h2, h3⟩
  · have hdone := rtcCommandDone_due _ hp hosc hd
    have hwait : ¬ (s.chip.b Fld.RTC_STATUS_OSC_RUNNING = true ∧ s.chip.rtc.cmdDue = false) := by simp [hd]
    intro tm
    refine ⟨fun hz => ?_, fun hz hlo hhi ha => ?_, fun hz hbad => ?_⟩
    · subst hz
      obtain ⟨h1, -, h2, h3⟩ := rtcApply_answered _ .ok hp hwait (hdone.trans (cmdEffect_shift_zero _))
      exact ⟨_, rfl, h1, h2, h3⟩
    · rw [cmdEffect_shift_ok hz hlo hhi ha] at hdone
      obtain ⟨h1, h2, h3, h4, h5, h6⟩ := shifted_reads hlo hhi
      obtain ⟨b, hb⟩ := alarmWakes_rtc (rtcCommandDone s.chip)
      rw [← rtcApply_done _ hp hwait] at hb
      refine ⟨_, rfl, ?_, ?_, ?_, ?_, ?_, rtcApply_pending _ hp hwait, ?_, fun h => ?_⟩
      · rw [rtcApply_rtcNow, hdone, cmdAnswered_rtcNow, h1]
        rfl
      · rw [rtcApply_b _ _ (by decide) (by decide), hdone, cmdAnswered_b _ _ _ (by decide) (by decide), h2]
      · rw [rtcApply_b _ _ (by decide) (by decide), hdone, cmdAnswered_b _ _ _ (by decide) (by decide), h3]
      · rw [rtcApply_f _ _ (by decide) (by decide), hdone, cmdAnswered_f _ _ _ (by decide) (by decide), h4]
      · rw [rtcApply_f _ _ (by decide) (by decide), hdone, cmdAnswered_result]
      · simp only [hb, hdone, cmdAnswered_rtc, h5]
      · simp only [hb, hdone, cmdAnswered_rtc, h6 h]
    · obtain ⟨h1, -, h2, h3⟩ := rtcApply_answered _ .badArg hp hwait (hdone.trans (cmdEffect_shift_bad _ hz hbad))
      exact ⟨_, rfl, h1, h2, h3⟩
  · refine next_chip ?_
    rw [rtcSnapTaken, if_neg (by simp [h])]
  · obtain ⟨htwice, hsnap⟩ := tick_twice s.chip
    refine next_chip ?_
    rw [rtcSnapTaken_due _ h, rtcSnapTaken_due _ (hsnap.trans h)]
    dsimp only at htwice ⊢
    rw [htwice]
  · exact ⟨_, rfl, rtcSnapTaken_reads _ h ha hd⟩

end Sys2Proof
end

section
/-! What the tick brings: the period, the adjustment, the end of the range and the alarms (R314, R319, R324, R325, R327). -/

namespace Sys2Proof.Machine

variable (c : Chip)

/-! ### Sources that fire -/

/-- A source that fires in a chip whose fabric is on waits for its tick (R276). -/
theorem fire_hasFired (n : Nat) (p : Option Nat) (k : Nat) (h : c.isOn .evf = true) : (c.fire n p k).hasFired n p = true := by
  simp [Chip.fire, h, Chip.hasFired]

/-- A flag whose bit is enabled fires its block (R278). -/
theorem raise_hasFired (b : Block) (k : Nat) (hne : b.enable ≠ b.status) (he : c.b ⟨b.enable, k, 1⟩ = true)
    (h : c.isOn .evf = true) : (c.raise b k).hasFired b.source none = true := by
  have hbit : ((c.setFlag b.status k).reg b.enable).field k 1 = 1 := by
    simp (disch := exact hne) only [Chip.reg_regs, Chip.setFlag_regs_put, regGet_putF_ne]
    simpa [Chip.b_regs, regF] using he
  simp only [Chip.raise, hbit, if_true]
  exact fire_hasFired _ _ _ _ (by simp [Chip.isOn_islands] at h ⊢; exact h)

/-! ### The period (R319, R327) -/

/-- COMP_PENDING is refreshed, and no more but a free value is taken (R319). -/
theorem refreshCompPending_eq : ∃ n v, refreshCompPending c = { c with free := n }.setB Fld.RTC_STATUS_COMP_PENDING v := by
  simp only [refreshCompPending]
  split
  · exact ⟨_, _, rfl⟩
  · exact ⟨c.free, _, rfl⟩

@[simp] theorem refreshCompPending_rtc : (refreshCompPending c).rtc = c.rtc := by
  obtain ⟨n, v, h⟩ := refreshCompPending_eq c; rw [h, Chip.setB_rtc]

theorem refreshCompPending_regs : ∃ v, (refreshCompPending c).regs = putF c.regs Fld.RTC_STATUS_COMP_PENDING v := by
  obtain ⟨n, v, h⟩ := refreshCompPending_eq c; exact ⟨b2n v, by rw [h, Chip.setB_regs]⟩

@[simp] theorem backupMeasure_rtc (mv : Nat) : (backupMeasure mv c).rtc = c.rtc := by
  simp [backupMeasure, apply_ite Chip.rtc]

/-- The registers that a measurement of VBAT writes (R327). -/
theorem backupMeasure_regs (mv : Nat) : (backupMeasure mv c).regs =
    if c.rtc.onVbat || c.b Fld.RTC_CTRL_NO_BACKUP then c.regs
    else
      let m := putN c.regs Reg.RTC_BACKUP_NOW mv
      if mv < regNat m Reg.RTC_BACKUP_LEVEL then putF (putF m Fld.RTC_STATUS_LOW_BACKUP 1) ⟨Reg.RTC_INT_STATUS, 1, 1⟩ 1
      else if regNat m Reg.RTC_BACKUP_LEVEL + 100 ≤ mv then putF m Fld.RTC_STATUS_LOW_BACKUP 0 else m := by
  simp [backupMeasure, apply_ite Chip.regs, b2n, Chip.regN_regs]

/-- The chip as a period begins: its temperature taken, its measured rate recorded (R317, R319). -/
def periodBegun (t ppb : Int) (c : Chip) : Chip :=
  (if c.rtc.refArmed then c.setRegI Reg.RTC_REF_PPB ppb else c).onRtc fun r =>
    { r with periodDue := false, lastTemp := t, refArmed := true }

/-- A period without compensation leaves no adjustment (R319). -/
def noneFormed (c : Chip) : Chip :=
  ((c.onRtc fun r => { r with adjLost := false }).setF Fld.RTC_COMP_STATUS_TICKS 0).setB Fld.RTC_COMP_STATUS_CLAMPED false

theorem compPeriod_due (temp ppb : Int) (mv : Nat) (h : c.rtc.periodDue = true) : compPeriod temp mv ppb c =
    let t := if c.rtc.onVbat then c.rtc.lastTemp else temp
    let d := periodBegun t ppb c
    backupMeasure mv (refreshCompPending (if d.b Fld.RTC_CTRL_COMP_ENABLE then compForm t d else noneFormed d)) := by
  rw [compPeriod, if_pos h]
  rfl

@[simp] theorem Chip.setRegI_regs (a : Nat) (z : Int) : (c.setRegI a z).regs = putN c.regs a (unsigned 36 z) := (rfl)
@[simp] theorem Chip.setRegI_rtc (a : Nat) (z : Int) : (c.setRegI a z).rtc = c.rtc := (rfl)

theorem unsigned_lt (w : Nat) (z : Int) : unsigned w z < 2 ^ w := by
  have hpos : (0 : Int) < (2 ^ w : Nat) := by exact_mod_cast Nat.two_pow_pos w
  have h1 := Int.emod_lt_of_pos z hpos
  have h2 := Int.emod_nonneg z hpos.ne'
  unfold unsigned
  omega

/-- A number of ticks reads back signed. -/
theorem signed_unsigned_nine {n : Int} (hlo : -255 ≤ n) (hhi : n ≤ 255) : signed 9 (unsigned 9 n % 2 ^ 9) = n := by
  norm_num [signed, unsigned]
  split_ifs <;> omega

theorem clamp255_range (z : Int) : -255 ≤ clamp255 z ∧ clamp255 z ≤ 255 := by unfold clamp255; omega

theorem periodBegun_regs (t ppb : Int) : (periodBegun t ppb c).regs =
    if c.rtc.refArmed then putN c.regs Reg.RTC_REF_PPB (unsigned 36 ppb) else c.regs := by
  simp [periodBegun, apply_ite Chip.regs]

theorem periodBegun_rtc (t ppb : Int) : (periodBegun t ppb c).rtc =
    { c.rtc with periodDue := false, lastTemp := t, refArmed := true } := by
  simp only [periodBegun, Chip.onRtc_rtc, apply_ite Chip.rtc, Chip.setRegI_rtc, ite_self]

theorem periodBegun_reg (t ppb : Int) (a : Nat) (h : a ≠ Reg.RTC_REF_PPB) : (periodBegun t ppb c).reg a = c.reg a := by
  rw [Chip.reg_regs, periodBegun_regs]
  split
  · rw [regGet_putN_ne _ _ _ _ h, Chip.reg_regs]
  · rfl

theorem errorPpb_of_regs {c d : Chip} (h : ∀ a, a ≠ Reg.RTC_REF_PPB → d.reg a = c.reg a) (t : Int) : d.errorPpb t = c.errorPpb t := by
  have hI : ∀ a, a ≠ Reg.RTC_REF_PPB → d.regI a = c.regI a := fun a ha => by unfold Chip.regI; rw [h a ha]
  simp (disch := decide) only [Chip.errorPpb, hI]

/-- What a period forms, before it is refreshed and VBAT is measured: the adjustment, or none (R319). -/
def periodFormed (t ppb : Int) (c : Chip) : Chip :=
  if (periodBegun t ppb c).b Fld.RTC_CTRL_COMP_ENABLE then compForm t (periodBegun t ppb c) else noneFormed (periodBegun t ppb c)

/-- The accumulator and the adjustment wanted at a temperature (R319). -/
def accAt (t : Int) (c : Chip) : Int := c.rtc.acc - c.errorPpb t * 1048576
def wantAt (t : Int) (c : Chip) : Int := roundNear (accAt t c) 1000000000

/-- The period's adjustment `n` as it is recorded, of the `want` that the accumulator gave (R319). -/
def formWith (t e acc want n : Int) (c : Chip) : Chip :=
  let c1 := c.onRtc fun r =>
    { r with acc := acc - n * 1000000000, adjDue := n != 0 && ! c.rtc.setNow, adjLost := c.rtc.adjLost && n != 0 }
  let c2 := (((c1.setF Fld.RTC_COMP_STATUS_TEMP (unsigned 8 t)).setF Fld.RTC_COMP_STATUS_TICKS (unsigned 9 n)).setB
    Fld.RTC_COMP_STATUS_CLAMPED (n != want)).setRegI Reg.RTC_COMP_ERROR e
  if n != want then c2.raise .rtc 6 else c2

theorem compForm_eq (t : Int) : compForm t c = formWith t (c.errorPpb t) (accAt t c) (wantAt t c) (clamp255 (wantAt t c)) c := by
  unfold compForm formWith accAt wantAt
  rfl

section Form
variable (t e acc want n : Int)

theorem formWith_rtc : (formWith t e acc want n c).rtc = { c.rtc with
    acc := acc - n * 1000000000, adjDue := n != 0 && ! c.rtc.setNow, adjLost := c.rtc.adjLost && n != 0 } := by
  simp [formWith, apply_ite Chip.rtc]

theorem formWith_regs : (formWith t e acc want n c).regs =
    let m := putN (putF (putF (putF c.regs Fld.RTC_COMP_STATUS_TEMP (unsigned 8 t)) Fld.RTC_COMP_STATUS_TICKS (unsigned 9 n))
      Fld.RTC_COMP_STATUS_CLAMPED (b2n (n != want))) Reg.RTC_COMP_ERROR (unsigned 36 e)
    if n != want then putF m ⟨Reg.RTC_INT_STATUS, 6, 1⟩ 1 else m := by
  simp [formWith, apply_ite Chip.regs]

end Form

/-- A field that neither the refresh nor the measurement of VBAT writes. -/
abbrev restField (x : Field) : Prop :=
  x.reg ≠ Reg.RTC_STATUS ∧ x.reg ≠ Reg.RTC_BACKUP_NOW ∧
    (x.reg ≠ Reg.RTC_INT_STATUS ∨ x.lo + x.w ≤ 36 ∧ (x.lo + x.w ≤ 1 ∨ 2 ≤ x.lo))

theorem measured_f (mv : Nat) (x : Field) (h : restField x) : (backupMeasure mv (refreshCompPending c)).f x = c.f x := by
  obtain ⟨h1, h2, h3⟩ := h
  obtain ⟨v, hv⟩ := refreshCompPending_regs c
  simp only [Chip.f_regs, backupMeasure_regs, hv]
  split_ifs
  · rw [regF_putF_ne _ _ _ _ (.inl h1)]
  · rw [regF_putF_ne _ _ _ _ h3, regF_putF_ne _ _ _ _ (.inl h1), regF_putN_ne _ _ _ _ h2, regF_putF_ne _ _ _ _ (.inl h1)]
  · rw [regF_putF_ne _ _ _ _ (.inl h1), regF_putN_ne _ _ _ _ h2, regF_putF_ne _ _ _ _ (.inl h1)]
  · rw [regF_putN_ne _ _ _ _ h2, regF_putF_ne _ _ _ _ (.inl h1)]

theorem measured_b (mv : Nat) (x : Field) (h : restField x) : (backupMeasure mv (refreshCompPending c)).b x = c.b x := by
  unfold Chip.b; rw [measured_f c mv x h]

theorem measured_regN (mv : Nat) (a : Nat) (h1 : a ≠ Reg.RTC_STATUS) (h2 : a ≠ Reg.RTC_BACKUP_NOW) (h3 : a ≠ Reg.RTC_INT_STATUS) :
    (backupMeasure mv (refreshCompPending c)).regN a = c.regN a := by
  obtain ⟨v, hv⟩ := refreshCompPending_regs c
  simp only [Chip.regN_regs, backupMeasure_regs, hv]
  split_ifs <;> simp (disch := assumption) only [regNat_putF_ne, regNat_putN_ne]

theorem compPeriod_formed (temp ppb : Int) (mv : Nat) (h : c.rtc.periodDue = true) : compPeriod temp mv ppb c =
    backupMeasure mv (refreshCompPending (periodFormed (if c.rtc.onVbat then c.rtc.lastTemp else temp) ppb c)) :=
  compPeriod_due c temp ppb mv h

section Enabled
variable {c} (t ppb : Int)

theorem periodBegun_enable : (periodBegun t ppb c).b Fld.RTC_CTRL_COMP_ENABLE = c.b Fld.RTC_CTRL_COMP_ENABLE := by
  unfold Chip.b Chip.f; rw [periodBegun_reg c t ppb _ (by decide)]

/-- With compensation the period's adjustment is formed (R319). -/
theorem periodFormed_on (h : c.b Fld.RTC_CTRL_COMP_ENABLE = true) : periodFormed t ppb c =
    formWith t (c.errorPpb t) (accAt t c) (wantAt t c) (clamp255 (wantAt t c)) (periodBegun t ppb c) := by
  have he : (periodBegun t ppb c).errorPpb t = c.errorPpb t := errorPpb_of_regs (fun a ha => periodBegun_reg c t ppb a ha) t
  have hacc : accAt t (periodBegun t ppb c) = accAt t c := by simp only [accAt, he, periodBegun_rtc]
  have hwant : wantAt t (periodBegun t ppb c) = wantAt t c := by rw [wantAt, hacc, wantAt]
  rw [periodFormed, periodBegun_enable, if_pos h, compForm_eq, he, hacc, hwant]

theorem periodFormed_off (h : c.b Fld.RTC_CTRL_COMP_ENABLE = false) : periodFormed t ppb c = noneFormed (periodBegun t ppb c) := by
  rw [periodFormed, periodBegun_enable, h, if_neg Bool.false_ne_true]

end Enabled

theorem measured_rtcNow (mv : Nat) : (backupMeasure mv (refreshCompPending c)).rtcNow = c.rtcNow := by
  unfold Chip.rtcNow
  rw [measured_regN c mv _ (by decide) (by decide) (by decide), measured_regN c mv _ (by decide) (by decide) (by decide)]

/-- What VBAT measured with a cell shows (R327). -/
theorem measured_backup (mv : Nat) (hv : c.rtc.onVbat = false) (hb : c.b Fld.RTC_CTRL_NO_BACKUP = false) (hmv : mv < 2 ^ 36) :
    let d := backupMeasure mv (refreshCompPending c)
    d.regN Reg.RTC_BACKUP_NOW = mv ∧
      (mv < c.regN Reg.RTC_BACKUP_LEVEL → d.b Fld.RTC_STATUS_LOW_BACKUP = true ∧ d.b ⟨Reg.RTC_INT_STATUS, 1, 1⟩ = true) ∧
      (c.regN Reg.RTC_BACKUP_LEVEL + 100 ≤ mv → d.b Fld.RTC_STATUS_LOW_BACKUP = false) ∧
      (c.regN Reg.RTC_BACKUP_LEVEL ≤ mv → mv < c.regN Reg.RTC_BACKUP_LEVEL + 100 →
        d.b Fld.RTC_STATUS_LOW_BACKUP = c.b Fld.RTC_STATUS_LOW_BACKUP) := by
  obtain ⟨v, hr⟩ := refreshCompPending_regs c
  have hmod : mv % 68719476736 = mv := Nat.mod_eq_of_lt hmv
  have hnb : (refreshCompPending c).b Fld.RTC_CTRL_NO_BACKUP = false := by
    simp (disch := decide) only [Chip.b_regs, hr, regF_putF_ne] at hb ⊢; exact hb
  have hregs := backupMeasure_regs (refreshCompPending c) mv
  rw [refreshCompPending_rtc, hv, hnb, hr] at hregs
  simp (disch := decide) only [Bool.or_self, Bool.false_eq_true, if_false, regNat_putN_ne, regNat_putF_ne, ← Chip.regN_regs] at hregs
  intro d
  refine ⟨?_, fun h => ?_, fun h => ?_, fun h1 h2 => ?_⟩
  · simp only [d, Chip.regN_regs, hregs]
    split_ifs <;> simp (disch := decide) [hmod]
  · simp (disch := decide) [d, Chip.b_regs, hregs, h]
  · simp (disch := decide) [d, Chip.b_regs, hregs, Nat.not_lt.mpr (show c.regN Reg.RTC_BACKUP_LEVEL ≤ mv by omega), h]
  · simp (disch := decide) [d, Chip.b_regs, hregs, Nat.not_lt.mpr h1, Nat.not_le.mpr h2]

/-- On VBAT, or with no cell, nothing is measured (R327). -/
theorem measured_none (mv : Nat) (h : c.rtc.onVbat = true ∨ c.b Fld.RTC_CTRL_NO_BACKUP = true) :
    let d := backupMeasure mv (refreshCompPending c)
    d.regN Reg.RTC_BACKUP_NOW = c.regN Reg.RTC_BACKUP_NOW ∧ d.b Fld.RTC_STATUS_LOW_BACKUP = c.b Fld.RTC_STATUS_LOW_BACKUP := by
  obtain ⟨v, hr⟩ := refreshCompPending_regs c
  have hnb : (refreshCompPending c).b Fld.RTC_CTRL_NO_BACKUP = c.b Fld.RTC_CTRL_NO_BACKUP := by
    simp (disch := decide) only [Chip.b_regs, hr, regF_putF_ne]
  have hregs := backupMeasure_regs (refreshCompPending c) mv
  rw [refreshCompPending_rtc, hnb, if_pos (by simpa using h), hr] at hregs
  intro d
  constructor <;> simp (disch := decide) only [d, Chip.regN_regs, Chip.b_regs, hregs, regNat_putF_ne, regF_putF_ne]

/-- The registers that a period writes before it measures VBAT (R319). -/
def periodRegs : List Nat := [Reg.RTC_REF_PPB, Reg.RTC_COMP_STATUS, Reg.RTC_COMP_ERROR, Reg.RTC_INT_STATUS]

theorem noneFormed_regs : (noneFormed c).regs =
    putF (putF c.regs Fld.RTC_COMP_STATUS_TICKS 0) Fld.RTC_COMP_STATUS_CLAMPED 0 := by simp [noneFormed, b2n]

theorem noneFormed_rtc : (noneFormed c).rtc = { c.rtc with adjLost := false } := by simp [noneFormed]

theorem periodFormed_reg (t ppb : Int) (a : Nat) (h : a ∉ periodRegs) : (periodFormed t ppb c).reg a = c.reg a := by
  simp only [periodRegs, List.mem_cons, List.not_mem_nil, or_false, not_or] at h
  obtain ⟨h1, h2, h3, h4⟩ := h
  rw [← periodBegun_reg c t ppb a h1]
  by_cases he : c.b Fld.RTC_CTRL_COMP_ENABLE = true
  · simp only [periodFormed_on t ppb he, Chip.reg_regs, formWith_regs]
    split <;> simp (disch := assumption) only [regGet_putF_ne, regGet_putN_ne]
  · simp (disch := assumption) only [periodFormed_off t ppb (Bool.eq_false_iff.mpr he), Chip.reg_regs, noneFormed_regs, regGet_putF_ne]

theorem periodFormed_rtcNow (t ppb : Int) : (periodFormed t ppb c).rtcNow = c.rtcNow := by
  unfold Chip.rtcNow Chip.regN
  rw [periodFormed_reg c t ppb _ (by decide), periodFormed_reg c t ppb _ (by decide)]

/-- What a period leaves of the RTC's own state, the adjustment apart (R317, R319). -/
theorem periodFormed_rtc (t ppb : Int) : ∃ a d l, (periodFormed t ppb c).rtc =
    { c.rtc with periodDue := false, lastTemp := t, refArmed := true, acc := a, adjDue := d, adjLost := l } := by
  by_cases he : c.b Fld.RTC_CTRL_COMP_ENABLE = true
  · exact ⟨_, _, _, by rw [periodFormed_on t ppb he, formWith_rtc, periodBegun_rtc]⟩
  · exact ⟨c.rtc.acc, c.rtc.adjDue, false, by rw [periodFormed_off t ppb (Bool.eq_false_iff.mpr he), noneFormed_rtc, periodBegun_rtc]⟩

theorem periodFormed_refPpb (t ppb : Int) (h : c.rtc.refArmed = true) :
    (periodFormed t ppb c).regN Reg.RTC_REF_PPB = unsigned 36 ppb := by
  have hmod : unsigned 36 ppb % 68719476736 = unsigned 36 ppb := Nat.mod_eq_of_lt (unsigned_lt 36 ppb)
  have hbegun : regNat (periodBegun t ppb c).regs Reg.RTC_REF_PPB = unsigned 36 ppb := by
    simp [periodBegun_regs, h, hmod]
  by_cases he : c.b Fld.RTC_CTRL_COMP_ENABLE = true
  · simp only [periodFormed_on t ppb he, Chip.regN_regs, formWith_regs]
    split <;> simp (disch := decide) only [regNat_putF_ne, regNat_putN_ne, hbegun]
  · simp (disch := decide) only [periodFormed_off t ppb (Bool.eq_false_iff.mpr he), Chip.regN_regs, noneFormed_regs, regNat_putF_ne,
      hbegun]

/-- What a formed adjustment shows (R319). -/
theorem formWith_reads (t e acc want n : Int) (hn : -255 ≤ n ∧ n ≤ 255) : let d := formWith t e acc want n c
    d.compTicks = n ∧ d.b Fld.RTC_COMP_STATUS_CLAMPED = decide (n ≠ want) ∧ d.regN Reg.RTC_COMP_ERROR = unsigned 36 e ∧
      d.f Fld.RTC_COMP_STATUS_TEMP = unsigned 8 t ∧ (n ≠ want → d.b ⟨Reg.RTC_INT_STATUS, 6, 1⟩ = true) := by
  have he : unsigned 36 e % 68719476736 = unsigned 36 e := Nat.mod_eq_of_lt (unsigned_lt 36 e)
  have ht : unsigned 8 t % 256 = unsigned 8 t := Nat.mod_eq_of_lt (unsigned_lt 8 t)
  have hticks := signed_unsigned_nine hn.1 hn.2
  simp only [Chip.compTicks, Chip.fI, Chip.f_regs, Chip.b_regs, Chip.regN_regs, formWith_regs]
  by_cases hw : n = want
  · subst hw
    simp (disch := decide) [he, ht, b2n]
    exact hticks
  · have hbne : (n != want) = true := by simpa using hw
    simp (disch := decide) [hbne, hw, he, ht, b2n]
    exact hticks

theorem noneFormed_reads : (noneFormed c).compTicks = 0 ∧ (noneFormed c).b Fld.RTC_COMP_STATUS_CLAMPED = false := by
  simp (disch := decide) [Chip.compTicks, Chip.fI, Chip.f_regs, Chip.b_regs, noneFormed_regs, signed]

/-- What a period that is due shows (R317, R319, R327). -/
theorem compPeriod_reads (temp ppb : Int) (mv : Nat) (h : c.rtc.periodDue = true) :
    let here := if c.rtc.onVbat then c.rtc.lastTemp else temp
    let d := compPeriod temp mv ppb c
    d.rtc.periodDue = false ∧ d.rtc.refArmed = true ∧ d.rtc.lastTemp = here ∧ d.rtcNow = c.rtcNow ∧
      (c.rtc.refArmed = true → d.regN Reg.RTC_REF_PPB = unsigned 36 ppb) ∧
      (c.b Fld.RTC_CTRL_COMP_ENABLE = true →
        d.rtc.acc = accAt here c - clamp255 (wantAt here c) * 1000000000 ∧ d.compTicks = clamp255 (wantAt here c) ∧
        d.b Fld.RTC_COMP_STATUS_CLAMPED = decide (clamp255 (wantAt here c) ≠ wantAt here c) ∧
        d.regN Reg.RTC_COMP_ERROR = unsigned 36 (c.errorPpb here) ∧ d.f Fld.RTC_COMP_STATUS_TEMP = unsigned 8 here ∧
        d.rtc.adjDue = (decide (clamp255 (wantAt here c) ≠ 0) && ! c.rtc.setNow) ∧
        (clamp255 (wantAt here c) ≠ wantAt here c → d.b ⟨Reg.RTC_INT_STATUS, 6, 1⟩ = true)) ∧
      (c.b Fld.RTC_CTRL_COMP_ENABLE = false →
        d.rtc.acc = c.rtc.acc ∧ d.compTicks = 0 ∧ d.b Fld.RTC_COMP_STATUS_CLAMPED = false ∧ d.rtc.adjDue = c.rtc.adjDue) ∧
      (c.rtc.onVbat = false → c.b Fld.RTC_CTRL_NO_BACKUP = false → mv < 2 ^ 36 →
        d.regN Reg.RTC_BACKUP_NOW = mv ∧
        (mv < c.regN Reg.RTC_BACKUP_LEVEL → d.b Fld.RTC_STATUS_LOW_BACKUP = true ∧ d.b ⟨Reg.RTC_INT_STATUS, 1, 1⟩ = true) ∧
        (c.regN Reg.RTC_BACKUP_LEVEL + 100 ≤ mv → d.b Fld.RTC_STATUS_LOW_BACKUP = false) ∧
        (c.regN Reg.RTC_BACKUP_LEVEL ≤ mv → mv < c.regN Reg.RTC_BACKUP_LEVEL + 100 →
          d.b Fld.RTC_STATUS_LOW_BACKUP = c.b Fld.RTC_STATUS_LOW_BACKUP)) ∧
      (c.rtc.onVbat = true ∨ c.b Fld.RTC_CTRL_NO_BACKUP = true →
        d.regN Reg.RTC_BACKUP_NOW = c.regN Reg.RTC_BACKUP_NOW ∧
        d.b Fld.RTC_STATUS_LOW_BACKUP = c.b Fld.RTC_STATUS_LOW_BACKUP) := by
  intro here d
  have hd : d = backupMeasure mv (refreshCompPending (periodFormed here ppb c)) := compPeriod_formed c temp ppb mv h
  obtain ⟨fa, fd, fl, hrtc⟩ := periodFormed_rtc c here ppb
  have hvbat : (periodFormed here ppb c).rtc.onVbat = c.rtc.onVbat := by rw [hrtc]
  have hkept := fun a ha => periodFormed_reg c here ppb a ha
  have hb : ∀ x : Field, x.reg ∉ periodRegs → (periodFormed here ppb c).b x = c.b x := fun x hx => by
    unfold Chip.b Chip.f; rw [hkept _ hx]
  have hN : ∀ a, a ∉ periodRegs → (periodFormed here ppb c).regN a = c.regN a := fun a ha => by
    unfold Chip.regN; rw [hkept _ ha]
  simp only [hd, backupMeasure_rtc, refreshCompPending_rtc]
  refine ⟨by rw [hrtc], by rw [hrtc], by rw [hrtc], (measured_rtcNow _ _).trans (periodFormed_rtcNow _ _ _), fun href => ?_,
    fun hon => ?_, fun hoff => ?_, fun hv hnb hmv => ?_, fun hv => ?_⟩
  · exact (measured_regN _ _ _ (by decide) (by decide) (by decide)).trans (periodFormed_refPpb _ _ _ href)
  · have hform := periodFormed_on here ppb hon
    obtain ⟨h1, h2, h3, h4, h5⟩ := formWith_reads (periodBegun here ppb c) here (c.errorPpb here) (accAt here c) (wantAt here c) _
      (clamp255_range (wantAt here c))
    rw [← hform] at h1 h2 h3 h4 h5
    have hacc := formWith_rtc (periodBegun here ppb c) here (c.errorPpb here) (accAt here c) (wantAt here c) (clamp255 (wantAt here c))
    rw [← hform, periodBegun_rtc] at hacc
    refine ⟨by rw [hacc], (congrArg (signed 9) (measured_f _ mv _ (by decide))).trans h1, ?_, ?_, ?_, ?_, fun hw => ?_⟩
    · exact (measured_b _ mv _ (by decide)).trans h2
    · exact (measured_regN _ mv _ (by decide) (by decide) (by decide)).trans h3
    · exact (measured_f _ mv _ (by decide)).trans h4
    · rw [hacc]
      by_cases hz : clamp255 (wantAt here c) = 0 <;> simp [hz]
    · exact (measured_b _ mv _ (by decide)).trans (h5 hw)
  · have hform := periodFormed_off here ppb hoff
    obtain ⟨h1, h2⟩ := noneFormed_reads (periodBegun here ppb c)
    rw [← hform] at h1 h2
    have hacc := noneFormed_rtc (periodBegun here ppb c)
    rw [← hform, periodBegun_rtc] at hacc
    exact ⟨by rw [hacc], (congrArg (signed 9) (measured_f _ mv _ (by decide))).trans h1, (measured_b _ mv _ (by decide)).trans h2,
      by rw [hacc]⟩
  · obtain ⟨h1, h2, h3, h4⟩ := measured_backup _ mv (hvbat.trans hv) ((hb _ (by decide)).trans hnb) hmv
    rw [hN _ (by decide)] at h2 h3 h4
    rw [hb _ (by decide)] at h4
    exact ⟨h1, h2, h3, h4⟩
  · obtain ⟨h1, h2⟩ := measured_none _ mv (hv.imp hvbat.trans (hb _ (by decide)).trans)
    exact ⟨h1.trans (hN _ (by decide)), h2.trans (hb _ (by decide))⟩

/-! ### The adjustment and the end of the range (R314, R319) -/

theorem alarmTime_of_reg {c d : Chip} {a : Nat} (hs : d.reg (Reg.RTC_ALARM_SECONDS a) = c.reg (Reg.RTC_ALARM_SECONDS a))
    (hf : d.reg (Reg.RTC_ALARM_FRAC a) = c.reg (Reg.RTC_ALARM_FRAC a)) : d.alarmTime a = c.alarmTime a := by
  unfold Chip.alarmTime Chip.regI Chip.regN; rw [hs, hf]

/-- An alarm's registers do not show the counter. -/
theorem alarmRegs_apart {a : Nat} (h : a < 4) : Reg.RTC_ALARM_SECONDS a ∉ counterRegs ∧ Reg.RTC_ALARM_FRAC a ∉ counterRegs ∧
    Reg.RTC_ALARM_CTRL a ∉ counterRegs := by
  interval_cases a <;> decide

theorem rtcSetCounter_alarm (t : Nat) {a : Nat} (h : a < 4) : (rtcSetCounter c t).alarmTime a = c.alarmTime a ∧
    (rtcSetCounter c t).alarmArmed a = c.alarmArmed a := by
  obtain ⟨h1, h2, h3⟩ := alarmRegs_apart h
  exact ⟨alarmTime_of_reg (rtcSetCounter_reg c t _ h1) (rtcSetCounter_reg c t _ h2), alarmArmed_of_reg (rtcSetCounter_reg c t _ h3)⟩

/-- An armed alarm whose time the counter shows is due, unless it was skipped (R324). -/
theorem dueNow_contains {a : Nat} (h : a < 4) (harm : c.alarmArmed a = true) (ht : c.alarmTime a = c.rtcNow)
    (hs : c.rtc.alarmSkipped.contains a = false) : (dueNow c).contains a = true := by
  have hmem : a ∈ alarms := by simp only [alarms]; interval_cases a <;> decide
  by_cases hd : c.rtc.alarmDue.contains a = true
  · simp [dueNow, List.contains_iff_mem.mp hd]
  · simp at hs hd
    simp [dueNow, hd, hmem, harm, ht, hs]

/-- The calendar shows the counter (R315). -/
theorem rtcSetCounter_calTime (t : Nat) (h : t < 2 ^ 36 * 32768) :
    (rtcSetCounter c t).regN Reg.RTC_CAL_TIME = calTime ((rtcSetCounter c t).regN Reg.RTC_SECONDS) := by
  have h1 : t / 32768 % 68719476736 = t / 32768 := Nat.mod_eq_of_lt (by omega)
  have h2 : calTime (t / 32768) % 68719476736 = calTime (t / 32768) := Nat.mod_eq_of_lt (by simp only [calTime]; omega)
  simp (disch := decide) [Chip.regN_regs, rtcSetCounter_regs, h1, h2]

theorem onRtc_rtcNow (g : Rtc → Rtc) : (c.onRtc g).rtcNow = c.rtcNow := (rfl)

theorem onRtc_regN (g : Rtc → Rtc) (a : Nat) : (c.onRtc g).regN a = c.regN a := (rfl)

theorem rtcNow_lt : c.rtcNow < 2 ^ 36 * 32769 := by
  have h1 := regNat_lt c.regs Reg.RTC_SECONDS
  have h2 := regNat_lt c.regs Reg.RTC_FRAC
  simp only [Chip.rtcNow, Chip.regN_regs]
  omega

/-- A lost adjustment, or one while the counter holds at its end, changes no more (R314, R322). -/
theorem compAdjust_lost (h : c.rtc.adjDue = true) (hl : c.rtc.adjLost = true ∨ c.b Fld.RTC_STATUS_RANGE_END = true) :
    compAdjust c = c.onRtc fun r => { r with adjDue := false, adjLost := false } := by
  rw [compAdjust_due c h, if_pos (by simpa using hl)]

section Adjust
variable {c} (h : c.rtc.adjDue = true) (hl : c.rtc.adjLost = false) (he : c.b Fld.RTC_STATUS_RANGE_END = false)
include h hl he

/-- A fraction is added (R319). -/
theorem compAdjust_add (hp : 0 < c.compTicks) (hr : c.rtcNow + 1 < (rtcLastSecond + 1) * 32768) :
    compAdjust c = markAlarms (rtcSetCounter (c.onRtc fun r => { r with adjDue := false, adjLost := false, adjMade := 1 })
      (c.rtcNow + 1)) := by
  rw [compAdjust_due c h, hl, he, if_neg (by simp), if_pos hp, if_pos hr]

/-- An added fraction that would carry past the range leaves the counter at its end (R314). -/
theorem compAdjust_end (hp : 0 < c.compTicks) (hr : (rtcLastSecond + 1) * 32768 ≤ c.rtcNow + 1) :
    compAdjust c = c.onRtc fun r => { r with adjDue := false, adjLost := false, adjMade := 1, endDue := true } := by
  rw [compAdjust_due c h, hl, he, if_neg (by simp), if_pos hp, if_neg (Nat.not_lt.mpr hr)]

/-- The counter as a fraction is dropped, before alarms not yet reached are due no longer (R319). -/
def dropped (c : Chip) : Chip :=
  let d := c.onRtc fun r => { r with adjDue := false, adjLost := false, adjMade := -1, endDue := false }
  if c.rtc.endDue then d else rtcSetCounter d (c.rtcNow - 1)

theorem compAdjust_drop (hp : c.compTicks < 0) :
    compAdjust c = (dropped c).onRtc fun r => { r with alarmDue := dueStill (dropped c) } := by
  rw [compAdjust_due c h, hl, he, if_neg (by simp), if_neg (by omega)]
  rfl

omit h hl he in
/-- What a dropped fraction shows, with the counter within its range and not at its end (R319). -/
theorem dropped_reads (hend : c.rtc.endDue = false) (hlo : 0 < c.rtcNow) (hhi : c.rtcNow < (rtcLastSecond + 1) * 32768) :
    (dropped c).rtcNow = c.rtcNow - 1 ∧ (dropped c).regN Reg.RTC_CAL_TIME = calTime ((dropped c).regN Reg.RTC_SECONDS) ∧
      (dropped c).rtc.alarmDue = c.rtc.alarmDue ∧ ∀ a, a < 4 → (dropped c).alarmTime a = c.alarmTime a := by
  have hbound : c.rtcNow - 1 < 2 ^ 36 * 32768 := by simp only [rtcLastSecond] at hhi; omega
  simp only [dropped, hend, Bool.false_eq_true, if_false]
  exact ⟨rtcNow_rtcSetCounter _ _ hbound, rtcSetCounter_calTime _ _ hbound, by simp, fun a ha => (rtcSetCounter_alarm _ _ ha).1⟩

end Adjust

theorem rtcRangeEnd_due (h : c.rtc.adjDue = false) (he : c.rtc.endDue = true) : rtcRangeEnd c =
    ((c.onRtc fun r => { r with endDue := false }).setB Fld.RTC_STATUS_RANGE_END true).raise .rtc 5 := by
  rw [rtcRangeEnd, compAdjust_idle c h]
  simp only [he, if_true]
  rfl

theorem rtcRangeEnd_idle (h : c.rtc.adjDue = false) (he : c.rtc.endDue = false) : rtcRangeEnd c = c := by
  rw [rtcRangeEnd, compAdjust_idle c h]
  simp [he]

theorem rtcRangeEnd_reads (h : c.rtc.adjDue = false) (he : c.rtc.endDue = true) : let d := rtcRangeEnd c
    d.b Fld.RTC_STATUS_RANGE_END = true ∧ d.b ⟨Reg.RTC_INT_STATUS, 5, 1⟩ = true ∧ d.rtcNow = c.rtcNow ∧ d.rtc.endDue = false ∧
      (c.b ⟨Reg.RTC_INT_ENABLE, 5, 1⟩ = true → c.isOn .evf = true → d.hasFired 0xCC none = true) := by
  rw [rtcRangeEnd_due c h he]
  refine ⟨?_, ?_, ?_, ?_, fun hbit hon => raise_hasFired _ .rtc 5 (by decide) ?_ ?_⟩
  · simp (disch := decide) [Chip.b_regs, b2n]
  · simp (disch := decide) [Chip.b_regs, b2n]
  · simp (disch := decide) [Chip.rtcNow, Chip.regN_regs]
  · simp
  · simpa (disch := decide) [Chip.b_regs, Block.rtc] using hbit
  · simpa [Chip.isOn_islands] using hon

/-! ### Alarms (R324, R325) -/

/-- An alarm taken off the lists of those that wait. -/
def unlisted (a : Nat) (r : Rtc) : Rtc :=
  { r with
    alarmDue := r.alarmDue.filter (· != a)
    alarmSkipped := r.alarmSkipped.filter (· != a)
    alarmLate := r.alarmLate.filter (· != a) }

theorem contains_filter_ne (l : List Nat) (a b : Nat) : (l.filter (· != a)).contains b = (l.contains b && b != a) := by
  rw [Bool.eq_iff_iff]
  simp [List.mem_filter]

theorem setB_armed_alarmTime (a : Nat) (v : Bool) :
    (c.setB (Fld.RTC_ALARM_CTRL_ARMED a) v).alarmTime a = c.alarmTime a :=
  alarmTime_of_reg (Chip.reg_setB_ne _ _ _ _ (by simp)) (Chip.reg_setB_ne _ _ _ _ (by simp))

/-- ALARM_ARM in a block that is on (R324). -/
theorem alarmArm_on (a : Nat) (h : c.isOn .rtc = true) : alarmArm a c =
    let d := c.setB (Fld.RTC_ALARM_CTRL_ARMED a) true
    d.onRtc fun r => { unlisted a r with alarmLate := (unlisted a r).alarmLate ++ if d.rtcNow < d.alarmTime a then [] else [a] } := by
  rw [alarmArm, if_pos h]
  by_cases ht : (c.setB (Fld.RTC_ALARM_CTRL_ARMED a) true).rtcNow < (c.setB (Fld.RTC_ALARM_CTRL_ARMED a) true).alarmTime a
  · simp only [ht, if_true, List.append_nil]; rfl
  · simp only [ht, if_false]; rfl

theorem rtcNetApply_none (h : c.rtc.net = none) : rtcNetApply c = c := by rw [rtcNetApply, h]

/-- The tick as it is counted, before the counter moves (R319, R321). -/
def tickBegun (c : Chip) : Chip :=
  let pt := (c.rtc.periodTick + 1) % 1048576
  (c.onRtc fun r => { r with
    periodTick := pt
    periodDue := r.periodDue || pt == 0
    cmdDue := r.pending.isSome
    snapDue := r.snap
    setNow := false
    adjLost := r.adjLost && (pt % 4096 != 1 || r.periodDue)
    adjMade := if pt % 4096 == 3 then 0 else r.adjMade
    alarmSkipped := r.alarmSkipped ++ r.alarmLate
    alarmLate := [] }).setF Fld.RTC_STATUS_SUB_TICK (pt % 4096)

/-- The counter moves on, or is at its end (R314, R324). -/
def tickMoved (c : Chip) : Chip :=
  if c.b Fld.RTC_STATUS_RANGE_END then c
  else if c.rtcNow + 1 < (rtcLastSecond + 1) * 32768 then markAlarms (rtcSetCounter c (c.rtcNow + 1))
  else c.onRtc fun r => { r with endDue := true }

/-- A sub-period that carries an adjustment makes it due (R319). -/
def tickAdjusts (pt : Nat) (c : Chip) : Chip :=
  if pt % 4096 == 0 && pt != 0 && c.subAdjusted (pt / 4096) then c.onRtc fun r => { r with adjDue := true } else c

theorem rtcTick_running (h : c.b Fld.RTC_STATUS_OSC_RUNNING = true) : rtcTick c =
    rtcNetApply (refreshCompPending (tickAdjusts ((c.rtc.periodTick + 1) % 1048576) (tickMoved (tickBegun c)))) := by
  rw [rtcTick, if_pos h]
  rfl

theorem tickMoved_lists : (tickMoved c).rtc.net = c.rtc.net ∧ (tickMoved c).rtc.alarmSkipped = c.rtc.alarmSkipped := by
  unfold tickMoved
  split_ifs <;> simp [markAlarms_eq]

theorem tickAdjusts_lists (pt : Nat) :
    (tickAdjusts pt c).rtc.net = c.rtc.net ∧ (tickAdjusts pt c).rtc.alarmSkipped = c.rtc.alarmSkipped := by
  unfold tickAdjusts
  split <;> simp

/-- The tick moves alarms armed too late to those skipped (R324). -/
theorem rtcTick_skipped (ho : c.b Fld.RTC_STATUS_OSC_RUNNING = true) (hn : c.rtc.net = none) :
    (rtcTick c).rtc.alarmSkipped = c.rtc.alarmSkipped ++ c.rtc.alarmLate := by
  obtain ⟨h1, h2⟩ := tickAdjusts_lists (tickMoved (tickBegun c)) ((c.rtc.periodTick + 1) % 1048576)
  obtain ⟨h3, h4⟩ := tickMoved_lists (tickBegun c)
  have hnet : (tickBegun c).rtc.net = none := by simp [tickBegun, hn]
  rw [rtcTick_running c ho, rtcNetApply_none _ (by rw [refreshCompPending_rtc, h1, h3, hnet]), refreshCompPending_rtc, h2, h4]
  simp [tickBegun]

/-- An alarm armed waits for its time, or falls due with the next tick; the others stand (R324). -/
theorem alarmArm_reads {a : Nat} (ha : a < 4) (hon : c.isOn .rtc = true) : let d := alarmArm a c
    d.alarmArmed a = true ∧ d.alarmTime a = c.alarmTime a ∧ d.rtc.alarmDue.contains a = false ∧
      d.rtc.alarmSkipped.contains a = false ∧ (d.rtc.alarmLate.contains a = true ↔ c.alarmTime a ≤ c.rtcNow) ∧
      d.rtc.net = c.rtc.net ∧ d.b Fld.RTC_STATUS_OSC_RUNNING = c.b Fld.RTC_STATUS_OSC_RUNNING ∧
      ∀ b, b < 4 → b ≠ a → d.alarmArmed b = c.alarmArmed b ∧ d.rtc.alarmDue.contains b = c.rtc.alarmDue.contains b := by
  have htime := setB_armed_alarmTime c a true
  obtain ⟨h1, h2, -⟩ := alarmCtrl_apart ha
  have hnow : (c.setB (Fld.RTC_ALARM_CTRL_ARMED a) true).rtcNow = c.rtcNow := by
    simp only [counterRegs, List.mem_cons, List.not_mem_nil, or_false, not_or] at h1
    obtain ⟨hs, hf, -⟩ := h1
    rw [Chip.rtcNow, Chip.regN_regs, Chip.regN_regs, Chip.setB_regs, regNat_putF_ne _ _ _ _ (Ne.symm hs),
      regNat_putF_ne _ _ _ _ (Ne.symm hf)]
    rfl
  have hrun : (c.setB (Fld.RTC_ALARM_CTRL_ARMED a) true).b Fld.RTC_STATUS_OSC_RUNNING = c.b Fld.RTC_STATUS_OSC_RUNNING :=
    Chip.b_setB_ne _ _ _ _ (.inl h2.symm)
  have harm : (c.setB (Fld.RTC_ALARM_CTRL_ARMED a) true).alarmArmed a = true := Chip.b_setB _ _ _ rfl (by simp)
  have hoff : ∀ b, b ≠ a → (c.setB (Fld.RTC_ALARM_CTRL_ARMED a) true).alarmArmed b = c.alarmArmed b := fun b hb =>
    Chip.b_setB_ne _ _ _ _ (.inl (by simp; omega))
  rw [alarmArm_on c a hon]
  dsimp only
  rw [hnow, htime]
  refine ⟨harm, htime, ?_, ?_, ?_, rfl, hrun, fun b _ hb => ⟨hoff b hb, ?_⟩⟩
  · simp [unlisted]
  · simp [unlisted]
  · by_cases hlt : (c.rtcNow : Int) < c.alarmTime a
    · simp [unlisted, hlt]
    · simp [unlisted, hlt, Int.not_lt.mp hlt]
  · rw [Chip.onRtc_rtc, unlisted, contains_filter_ne, Chip.setB_rtc, bne_iff_ne.mpr hb, Bool.and_true]

/-! ### A fired alarm -/

/-- An alarm that has its turn, the adjustment and the command of its tick having acted (R321, R324). -/
theorem alarmFire_first (a : Nat) (hadj : c.rtc.adjDue = false) (hcmd : c.rtc.cmdDue = false) : alarmFire a c =
    if c.alarmArmed a && (c.rtc.alarmDue.contains a || c.rtc.alarmSkipped.contains a) && ! c.b Fld.RTC_STATUS_RANGE_END then
      alarmWakes (fireAlarm c a (c.rtc.alarmSkipped.contains a)) else c := by
  simp only [alarmFire, compAdjust_idle c hadj, hcmd, Bool.false_eq_true, if_false]

section First
variable {c} {a : Nat} (hadj : c.rtc.adjDue = false) (hcmd : c.rtc.cmdDue = false)
include hadj hcmd

theorem alarmFire_due (h : c.alarmArmed a = true ∧ c.b Fld.RTC_STATUS_RANGE_END = false ∧
    (c.rtc.alarmDue.contains a = true ∨ c.rtc.alarmSkipped.contains a = true)) :
    alarmFire a c = alarmWakes (fireAlarm c a (c.rtc.alarmSkipped.contains a)) := by
  obtain ⟨h1, h2, h3⟩ := h
  rw [alarmFire_first c a hadj hcmd, if_pos]
  simp only [Bool.and_eq_true, Bool.or_eq_true, Bool.not_eq_true']
  exact ⟨⟨h1, h3⟩, h2⟩

theorem alarmFire_idle (h : ¬ (c.alarmArmed a = true ∧ c.b Fld.RTC_STATUS_RANGE_END = false ∧
    (c.rtc.alarmDue.contains a = true ∨ c.rtc.alarmSkipped.contains a = true))) : alarmFire a c = c := by
  rw [alarmFire_first c a hadj hcmd, if_neg]
  simp only [Bool.and_eq_true, Bool.or_eq_true, Bool.not_eq_true']
  exact fun ⟨⟨h1, h3⟩, h2⟩ => h ⟨h1, h2, h3⟩

end First

/-- The adjustment and the command of the tick act before an alarm, once (R321). -/
theorem alarmFire_after (a : Nat) : alarmFire a c =
    alarmFire a (if c.rtc.cmdDue then rtcApply (compAdjust c) else compAdjust c) := by
  by_cases hcmd : c.rtc.cmdDue = true
  · obtain ⟨h1, -, h2⟩ := rtcApply_due (compAdjust c) (by rw [compAdjust_cmdDue, hcmd])
    have hadj := h2 (compAdjust_adjDue c)
    simp only [alarmFire, compAdjust_cmdDue, hcmd, if_true, compAdjust_idle _ hadj, rtcApply_waits _ (.inl h1), ite_self]
  · simp only [alarmFire, compAdjust_cmdDue, compAdjust_twice, hcmd, Bool.false_eq_true, if_false]

/-- What a fired alarm shows (R324). -/
theorem fireAlarm_reads {a : Nat} (ha : a < 4) (k : Bool) : let d := fireAlarm c a k
    d.alarmArmed a = false ∧ d.b (Fld.RTC_ALARM_CTRL_FIRED a) = true ∧
      d.b (Fld.RTC_ALARM_CTRL_SKIPPED a) = (c.b (Fld.RTC_ALARM_CTRL_SKIPPED a) || k) ∧
      d.rtc.alarmDue.contains a = false ∧ d.rtc.alarmSkipped.contains a = false ∧ d.rtcNow = c.rtcNow ∧
      (c.isOn .evf = true → d.hasFired (0xC8 + a) (some (b2n k)) = true) := by
  have hnow : (fireAlarm c a k).rtcNow = c.rtcNow := by
    interval_cases a <;> cases k <;> simp (disch := decide) [Chip.rtcNow, Chip.regN_regs, fireAlarm_regs]
  have hfired : c.isOn .evf = true → (fireAlarm c a k).hasFired (0xC8 + a) (some (b2n k)) = true := fun hon => by
    have hwake : ∀ (d : Chip) (n : Nat) (p : Option Nat) (i : Nat), (latchWake d i).hasFired n p = d.hasFired n p := fun d n p i => by
      simp only [latchWake]; split <;> rfl
    simp only [fireAlarm, hwake]
    exact fire_hasFired _ _ _ _ (by cases k <;> simpa [Chip.isOn_islands] using hon)
  refine ⟨?_, ?_, ?_, ?_, ?_, hnow, hfired⟩
  · cases k <;> simp [Chip.alarmArmed, Chip.b_regs, fireAlarm_regs]
  · cases k <;> simp [Chip.b_regs, fireAlarm_regs]
  · cases k <;> simp [Chip.b_regs, fireAlarm_regs]
  · simp [fireAlarm_rtc]
  · simp [fireAlarm_rtc]

/-- A wake source is latched while the chip sleeps, up to the wake edge (R342). -/
theorem latchWake_latched (k : Nat) (hp : 5 ≤ c.power) (hd : c.pwr.doneAt = none) :
    (latchWake c k).pwr = { c.pwr with latched := c.pwr.latched ||| 2 ^ k } := by
  simp [latchWake, hd, hp]

theorem fireAlarm_wakes (a : Nat) (k : Bool) : ∃ d, fireAlarm c a k = latchWake d 1 ∧ d.pwr = c.pwr := by
  refine ⟨_, rfl, ?_⟩
  cases k <;> simp

/-- A fired alarm latches its wake in a chip that sleeps (R342). -/
theorem fireAlarm_pwr {a : Nat} (ha : a < 4) (k : Bool) (hp : 5 ≤ c.power) (hd : c.pwr.doneAt = none) :
    (fireAlarm c a k).pwr = { c.pwr with latched := c.pwr.latched ||| 2 ^ 1 } := by
  obtain ⟨d, he, hpwr⟩ := fireAlarm_wakes c a k
  have hpower : d.power = c.power := by
    rw [← (RtcOnly.fireAlarm c ha k).power, he, Chip.power_regs, Chip.power_regs, latchWake_regs]
  rw [he, latchWake_latched d 1 (hpower ▸ hp) (hpwr ▸ hd), hpwr]

theorem latched_one (n : Nat) : (n ||| 2 ^ 1).testBit 1 = true := by
  have hbit : Nat.testBit 2 1 = true := by decide
  simp [Nat.testBit_or, hbit]

theorem alarmCtrl_rtc {a : Nat} (h : a < 4) :
    islandOf (Reg.RTC_ALARM_CTRL a) = .rtc ∧ Reg.RTC_ALARM_CTRL a ≠ Reg.RTC_REF_PPB := by
  interval_cases a <;> decide

/-- In Small Hours entered by request an enabled alarm is a cold start (R22, R325, R342). -/
theorem fireAlarm_coldStart {a : Nat} (ha : a < 4) (k : Bool) (h7 : c.power = 7) (hd : c.pwr.doneAt = none)
    (hb : c.pwr.brownout = false) (he : c.b Fld.PWR_WAKE_ENABLE_ALARM = true) :
    alarmWakes (fireAlarm c a k) = deviceReset (some causeSmallHours) true (fireAlarm c a k) := by
  have hpwr := fireAlarm_pwr c ha k (by omega) hd
  have hrtc := RtcOnly.fireAlarm c ha k
  have hen : (fireAlarm c a k).b Fld.PWR_WAKE_ENABLE_ALARM = true := by
    rw [← he]; unfold Chip.b Chip.f; rw [hrtc.2 _ (by decide) (by decide)]
  rw [alarmWakes, if_pos]
  simp only [hrtc.power, h7, hpwr, hb, hen, latched_one]
  rfl

end Sys2Proof.Machine
end

section
namespace Sys2Proof

open Machine

/-- Settles O9: each row is the update that its case of the model makes, and what it leaves is read off the register table. -/
theorem rtcTicks : Obligations.RtcTicks := by
  intro s
  refine ⟨fun temp mv ppb => ⟨fun h => ?_, fun h => ?_⟩, ⟨fun h => ?_, fun h hl => ?_, fun h hl he => ⟨fun hp hr => ⟨?_, ?_⟩, fun hp hr => ?_,
    fun hp hend => ?_, fun hp hend hlo hhi => ?_⟩⟩, ⟨fun h => ?_, fun h he => ?_, fun h he => ⟨_, rfl, rtcRangeEnd_reads _ h he⟩⟩,
    fun a => ⟨fun hon => ?_, fun hoff => ?_⟩, fun a => ?_⟩
  · refine next_chip ?_
    rw [compPeriod, if_neg (by simp [h])]
  · exact ⟨_, rfl, compPeriod_reads _ _ _ _ h⟩
  · exact next_chip (compAdjust_idle _ h)
  · exact next_chip (compAdjust_lost _ h hl)
  · exact next_chip (compAdjust_add h hl he hp hr)
  · have hnow := rtcNow_rtcSetCounter (s.chip.onRtc fun r => { r with adjDue := false, adjLost := false, adjMade := 1 })
      (s.chip.rtcNow + 1) (by simp only [rtcLastSecond] at hr; omega)
    refine ⟨_, rfl, ?_⟩
    dsimp only
    rw [compAdjust_add h hl he hp hr, markAlarms_eq, onRtc_rtcNow, Chip.onRtc_rtc]
    refine ⟨hnow, fun a harm ht hskip => ?_⟩
    obtain ⟨htime, harmed⟩ := rtcSetCounter_alarm (s.chip.onRtc fun r => { r with adjDue := false, adjLost := false, adjMade := 1 })
      (s.chip.rtcNow + 1) a.isLt
    exact dueNow_contains _ a.isLt (harmed.trans harm) (by rw [htime, hnow]; exact ht) (by simpa using hskip)
  · refine ⟨_, rfl, ?_⟩
    dsimp only
    rw [compAdjust_end h hl he hp hr, onRtc_rtcNow, Chip.onRtc_rtc]
    exact ⟨rfl, rfl, rfl⟩
  · refine ⟨_, rfl, ?_⟩
    dsimp only
    rw [compAdjust_drop h hl he hp, onRtc_rtcNow, Chip.onRtc_rtc]
    simp [dropped, hend, onRtc_rtcNow]
  · obtain ⟨h1, h2, h3, h4⟩ := dropped_reads hend hlo hhi
    refine ⟨_, rfl, ?_⟩
    dsimp only
    rw [compAdjust_drop h hl he hp, onRtc_rtcNow, onRtc_regN, onRtc_regN, Chip.onRtc_rtc]
    refine ⟨h1, ?_, h2, fun a => ?_⟩
    · simp [dropped, hend]
    · have hcast : (((s.chip.rtcNow - 1 : Nat)) : Int) = s.chip.rtcNow - 1 := by omega
      rw [dueStill, h1, h3, hcast, Bool.eq_iff_iff]
      simp [List.mem_filter, h4 a a.isLt]
  · exact next_chip (by rw [rtcRangeEnd, rtcRangeEnd, compAdjust_twice])
  · exact next_chip (rtcRangeEnd_idle _ h he)
  · obtain ⟨h1, h2, h3, h4, h5, h6, h7, h8⟩ := alarmArm_reads s.chip a.isLt hon
    refine ⟨_, rfl, h1, h2, h3, h4, h5, fun hosc hnet hlate => ?_, fun b hb => h8 b b.isLt (by omega)⟩
    rw [rtcTick_skipped _ (h7.trans hosc) (h6.trans hnet)]
    simpa using .inr (List.contains_iff_mem.mp (h5.mpr hlate))
  · refine next_chip ?_
    rw [alarmArm, if_neg (by simp [hoff])]
  · intro due first
    refine ⟨fun _ => next_chip (alarmFire_after _ _), fun hf hd => next_chip ?_, fun hf hd hp => ?_, fun hf hd h7 hdone hbrown hwake => ?_⟩
    · exact alarmFire_idle hf.1 hf.2 hd
    · obtain ⟨h1, h2, h3, h4, h5, h6, h7⟩ := fireAlarm_reads s.chip a.isLt (s.chip.rtc.alarmSkipped.contains a.val)
      have hkeep := (RtcOnly.fireAlarm s.chip a.isLt (s.chip.rtc.alarmSkipped.contains a.val)).power
      refine ⟨_, rfl, ?_⟩
      dsimp only
      rw [alarmFire_due hf.1 hf.2 hd, alarmWakes_awake _ (by omega)]
      refine ⟨h1, h2, h3, h4, h5, h6, h7, fun h5 hdone => ?_⟩
      rw [fireAlarm_pwr _ a.isLt _ h5 hdone]
      exact latched_one _
    · obtain ⟨h1, h2, -⟩ := fireAlarm_reads s.chip a.isLt (s.chip.rtc.alarmSkipped.contains a.val)
      have hctrl : islandOf (Reg.RTC_ALARM_CTRL a.val) = .rtc ∧ Reg.RTC_ALARM_CTRL a.val ≠ Reg.RTC_REF_PPB := alarmCtrl_rtc a.isLt
      refine ⟨_, rfl, ?_⟩
      dsimp only
      rw [alarmFire_due hf.1 hf.2 hd, fireAlarm_coldStart _ a.isLt _ h7 hdone hbrown hwake]
      refine ⟨deviceReset_dev _ _ _, deviceReset_cause _ _ _ (by decide), ?_, ?_, by rw [deviceReset_core]; rfl⟩
      · rw [← h2, Chip.b, Chip.b, Chip.f, Chip.f, deviceReset_rtcReg _ _ _ _ hctrl.1 hctrl.2]
      · rw [← h1]
        exact alarmArmed_of_reg (deviceReset_rtcReg _ _ _ _ hctrl.1 hctrl.2)

end Sys2Proof
end

section
/-! The supply and the crystal of the RTC domain (R118, R326, R328, R329). -/

namespace Sys2Proof.Machine

variable (c : Chip)

/-! ### Register tables under a count, and tables that lose an island -/

@[simp] theorem Chip.bump_regs (x : Field) : (c.bump x).regs =
    if regF c.regs x + 1 < 2 ^ x.w then putF c.regs x (regF c.regs x + 1) else c.regs := by
  simp [Chip.bump, apply_ite Chip.regs, Chip.f_regs]

/-- A count reads one more, up to all ones. -/
theorem Chip.bump_f (x : Field) (h : x.lo + x.w ≤ 36) : (c.bump x).f x = min (c.f x + 1) (2 ^ x.w - 1) := by
  have hlt : regF c.regs x < 2 ^ x.w := regF_lt c.regs x
  rw [Chip.f_regs, Chip.bump_regs, Chip.f_regs]
  split
  case isTrue hc => rw [regF_putF _ _ _ h, Nat.mod_eq_of_lt hc]; omega
  case isFalse hc => omega

/-- What an island that lost its registers reads. -/
theorem regGet_drop (m : Store Word) (i : Island) (a : Nat) (h : islandOf a = i) :
    regGet (Store.drop m fun b => islandOf b == i) a = regReset a := by
  unfold regGet; rw [Store.get_drop]; simp [h]

theorem setIsland_isOn (i : Island) (s : IslandState) : (c.setIsland i s).isOn i = (s == .on) := by
  simp [Chip.isOn, Chip.island, Chip.setIsland]

@[simp] theorem Chip.setB_setIsland_islands (x : Field) (v : Bool) : (c.setB x v).islands = c.islands := by simp

/-! ### The crystal (R118, R326) -/

/-- A crystal that stands still, as the registers show it (R118, R326). -/
theorem oscStopped_reads : let d := oscStopped c
    d.b Fld.RTC_STATUS_OSC_STOP = true ∧ d.b Fld.LINK_STATUS_OSC_STOP = (! c.rtc.lockout || c.b Fld.LINK_STATUS_OSC_STOP) ∧
      d.b Fld.RTC_STATUS_OSC_RUNNING = false ∧ d.rtcNow = c.rtcNow := by
  have hregs : (oscStopped c).regs =
      let m := (setOscStop (c.setB Fld.RTC_STATUS_OSC_RUNNING false) true).regs
      if c.b Fld.RTC_STATUS_OSC_STOP then m else putF m ⟨Reg.RTC_INT_STATUS, 0, 1⟩ 1 := by
    simp [oscStopped, apply_ite Chip.regs]
  rw [setOscStop_regs, Chip.setB_rtc] at hregs
  rcases hl : c.rtc.lockout <;> rcases hs : c.b Fld.RTC_STATUS_OSC_STOP <;> simp only [hl, hs, Bool.false_eq_true, if_false, if_true] at hregs
  all_goals simp (disch := decide) [Chip.b_regs, Chip.rtcNow, Chip.regN_regs, hregs, b2n]

/-! ### The supply (R328, R329) -/

@[simp] theorem supplyLog_regs (e : Nat) : (supplyLog c e).regs =
    putF (putN (putF c.regs Fld.RTC_SUPPLY_LOG_LAST_EVENT e) Reg.RTC_SUPPLY_LOG_AT (c.regN Reg.RTC_SECONDS))
      ⟨Reg.RTC_INT_STATUS, 2, 1⟩ 1 := by
  simp (disch := decide) [supplyLog, Chip.regN_regs]

@[simp] theorem supplyLog_rtc (e : Nat) : (supplyLog c e).rtc = c.rtc := by simp [supplyLog]
@[simp] theorem supplyLog_islands (e : Nat) : (supplyLog c e).islands = c.islands := by simp [supplyLog]

theorem supplyLog_rtcNow (e : Nat) : (supplyLog c e).rtcNow = c.rtcNow := by
  simp (disch := decide) [Chip.rtcNow, Chip.regN_regs]

theorem supplyLog_reg_ne (e a : Nat) (h1 : a ≠ Reg.RTC_SUPPLY_LOG) (h2 : a ≠ Reg.RTC_SUPPLY_LOG_AT) (h3 : a ≠ Reg.RTC_INT_STATUS) :
    (supplyLog c e).reg a = c.reg a := by
  simp (disch := assumption) only [Chip.reg_regs, supplyLog_regs, regGet_putF_ne, regGet_putN_ne]

theorem supplyLog_event (e : Nat) (h : e < 16) : (supplyLog c e).f Fld.RTC_SUPPLY_LOG_LAST_EVENT = e := by
  have hm : e % 16 = e := Nat.mod_eq_of_lt h
  simp (disch := decide) [Chip.f_regs, hm]

/-- The switch to VBAT, of a domain that ran from main (R328). -/
theorem switchToVbat_main (h : c.rtc.onVbat = false) : switchToVbat c =
    (supplyLog ((c.onRtc fun r => { r with onVbat := true, lockout := true }).setIsland .rtc .isolated)
      (if c.power == 7 then 2 else 1)).bump Fld.RTC_SUPPLY_LOG_SWITCHES := by
  rw [switchToVbat, if_neg (by simp [h])]
  rfl

theorem switchToVbat_reads (h : c.rtc.onVbat = false) : let d := switchToVbat c
    d.rtc.onVbat = true ∧ d.rtc.lockout = true ∧ d.isOn .rtc = false ∧ d.rtcNow = c.rtcNow ∧
      d.f Fld.RTC_SUPPLY_LOG_LAST_EVENT = (if c.power = 7 then 2 else 1) ∧
      d.f Fld.RTC_SUPPLY_LOG_SWITCHES = min (c.f Fld.RTC_SUPPLY_LOG_SWITCHES + 1) (2 ^ Fld.RTC_SUPPLY_LOG_SWITCHES.w - 1) ∧
      ∀ a, a ≠ Reg.RTC_SUPPLY_LOG → a ≠ Reg.RTC_SUPPLY_LOG_AT → a ≠ Reg.RTC_INT_STATUS → d.reg a = c.reg a := by
  have hevent : (if c.power == 7 then 2 else 1) < 16 := by split <;> decide
  simp only [switchToVbat_main c h]
  generalize hd : (c.onRtc fun r => { r with onVbat := true, lockout := true }).setIsland .rtc .isolated = d
  have hregs : d.regs = c.regs := by rw [← hd]; simp
  have hoff : d.isOn .rtc = false := by rw [← hd, setIsland_isOn]; rfl
  refine ⟨by simp [← hd], by simp [← hd], ?_, ?_, ?_, ?_, fun a h1 h2 h3 => ?_⟩
  · simpa [Chip.isOn_islands] using hoff
  · have hnow : ∀ e : Chip, (e.bump Fld.RTC_SUPPLY_LOG_SWITCHES).rtcNow = e.rtcNow := fun e => by
      simp only [Chip.rtcNow, Chip.regN]; rw [Chip.bump_reg_ne _ _ _ (by decide), Chip.bump_reg_ne _ _ _ (by decide)]
    rw [hnow, supplyLog_rtcNow]
    simp only [Chip.rtcNow, Chip.regN_regs, hregs]
  · rw [Chip.bump_f_ne _ _ _ (by decide), supplyLog_event _ _ hevent]
    simp
  · rw [Chip.bump_f _ _ (by decide)]
    simp (disch := decide) [Chip.f_regs, hregs]
  · rw [Chip.bump_reg_ne _ _ _ h1, supplyLog_reg_ne _ _ _ h1 h2 h3, Chip.reg_regs, hregs, Chip.reg_regs]

theorem rtcRelease_eq : rtcRelease c =
    linkOscFollow ((c.onRtc fun r => { r with onVbat := false, lockout := false }).setIsland .rtc .on) := (rfl)

@[simp] theorem linkOscFollow_islands : (linkOscFollow c).islands = c.islands := by simp [linkOscFollow]
@[simp] theorem linkOscFollow_rtc : (linkOscFollow c).rtc = c.rtc := by simp [linkOscFollow]

/-- The domain's return to main (R118, R328). -/
theorem rtcRelease_reads : (rtcRelease c).rtc = { c.rtc with onVbat := false, lockout := false } ∧
    (rtcRelease c).isOn .rtc = true ∧ ∀ a, a ≠ Reg.LINK_STATUS → (rtcRelease c).reg a = c.reg a := by
  refine ⟨by simp [rtcRelease_eq], ?_, fun a h => rtcRelease_reg c a h⟩
  rw [rtcRelease_eq, Chip.isOn_islands, linkOscFollow_islands, ← Chip.isOn_islands, setIsland_isOn]
  rfl

theorem rtcLoss_rtc : (rtcLoss c).rtc = { Rtc.reset with onVbat := c.rtc.onVbat, lockout := c.rtc.lockout } := by
  simp [rtcLoss]

/-- The registers of a lost domain: at their reset values, OSC_STOP apart (R329). -/
theorem rtcLoss_reset (a : Nat) (h : islandOf a = .rtc) (hs : a ≠ Reg.RTC_STATUS) : (rtcLoss c).reg a = regReset a := by
  have hl : a ≠ Reg.LINK_STATUS := fun e => by rw [e] at h; exact absurd h (by decide)
  rw [Chip.reg_regs, rtcLoss, setOscStop_regs]
  split
  · rw [regGet_putF_ne _ _ _ _ hs, regGet_drop _ _ _ h]
  · rw [regGet_putF_ne _ _ _ _ hl, regGet_putF_ne _ _ _ _ hs, regGet_drop _ _ _ h]

theorem regNat_putF (m : Store Word) (x : Field) (v : Nat) :
    regNat (putF m x v) x.reg = putBits (regNat m x.reg) x.lo x.w v % 2 ^ 36 := by
  simp [regNat, putF, Word.withField]

/-- Main is valid again, and the domain was held (R329). -/
theorem mainValid_held (h : c.rtc.onVbat = true) (hb : c.b Fld.RTC_CTRL_NO_BACKUP = false) :
    mainValid true c = rtcRelease (supplyLog c 3) := by
  rw [mainValid, if_pos h, if_pos (by simp [hb])]

theorem mainValid_lost (h : c.rtc.onVbat = true) : mainValid false c = raiseOscStop (rtcRelease (rtcLoss c)) := by
  rw [mainValid, if_pos h, if_neg (by simp)]

/-- A lost domain as it comes back: at its reset values, with OSC_STOP set and raised (R329, R330). -/
theorem lostDomain_reads : let d := raiseOscStop (rtcRelease (rtcLoss c))
    d.isOn .rtc = true ∧ d.b Fld.RTC_STATUS_OSC_STOP = true ∧ d.regN Reg.RTC_SECONDS = 0 ∧
      d.f Fld.RTC_SUPPLY_LOG_LAST_EVENT = 4 ∧ d.regN Reg.RTC_INT_STATUS = 1 := by
  obtain ⟨hrtc, hon, hreg⟩ := rtcRelease_reads (rtcLoss c)
  have hlock : (rtcRelease (rtcLoss c)).rtc.lockout = false := by rw [hrtc]
  have hreset : ∀ a, islandOf a = .rtc → a ≠ Reg.RTC_STATUS → regGet (rtcRelease (rtcLoss c)).regs a = regReset a := fun a h hs =>
    (hreg a fun e => by rw [e] at h; exact absurd h (by decide)).trans (rtcLoss_reset c a h hs)
  have hregs : (raiseOscStop (rtcRelease (rtcLoss c))).regs = putF (putF (putF (rtcRelease (rtcLoss c)).regs Fld.RTC_STATUS_OSC_STOP 1)
      Fld.LINK_STATUS_OSC_STOP 1) ⟨Reg.RTC_INT_STATUS, 0, 1⟩ 1 := by
    simp [raiseOscStop, setOscStop_regs, hlock, b2n]
  refine ⟨?_, ?_, ?_, ?_, ?_⟩
  · simpa [raiseOscStop, Chip.isOn_islands] using hon
  · simp (disch := decide) [Chip.b_regs, hregs]
  · simp (disch := decide) only [Chip.regN_regs, hregs, regNat_putF_ne]
    rw [regNat, hreset _ (by decide) (by decide)]
    decide
  · simp (disch := decide) only [Chip.f_regs, hregs, regF_putF_ne]
    rw [regF, hreset _ (by decide) (by decide)]
    decide
  · rw [Chip.regN_regs, hregs, regNat_putF, regNat_putF_ne _ _ _ _ (by decide), regNat_putF_ne _ _ _ _ (by decide), regNat,
      hreset _ (by decide) (by decide)]
    decide

end Sys2Proof.Machine
end

section
namespace Sys2Proof

open Machine

/-- Settles O10: each row is one update of the domain, read off its registers. -/
theorem rtcSupply : Obligations.RtcSupply := by
  intro s
  refine ⟨⟨_, rfl, oscStopped_reads _⟩, rfl, rfl, fun h => ?_, fun hl hv => next_chip ?_, fun hv hb => ?_, fun hv => ?_⟩
  · obtain ⟨h1, h2, h3, h4, h5, h6, h7⟩ := switchToVbat_reads s.chip h
    exact ⟨_, rfl, h1, h2, h3, h4, h5, h6, fun a _ => h7 a⟩
  · rw [lockoutRelease, if_pos (by simp [hl, hv])]
  · obtain ⟨hrtc, hon, hreg⟩ := rtcRelease_reads (supplyLog s.chip 3)
    refine ⟨_, rfl, ?_⟩
    dsimp only
    rw [mainValid_held _ hv hb]
    refine ⟨by rw [hrtc], by rw [hrtc], hon, ?_, ?_, fun a ha h1 h2 h3 => ?_⟩
    · rw [← supplyLog_rtcNow s.chip 3]
      simp only [Chip.rtcNow, Chip.regN]
      rw [hreg _ (by decide), hreg _ (by decide)]
    · refine Eq.trans ?_ (supplyLog_event s.chip 3 (by decide))
      unfold Chip.f
      rw [hreg _ (by decide)]
    · exact (hreg a fun e => by rw [e] at ha; exact absurd ha (by decide)).trans (supplyLog_reg_ne _ _ _ h1 h2 h3)
  · refine ⟨_, rfl, ?_⟩
    dsimp only
    rw [mainValid_lost _ hv]
    exact lostDomain_reads _

end Sys2Proof
end

section
/-! Timer tasks and writes (R294 to R300). -/

namespace Sys2Proof.Machine

variable (c : Chip)

/-! ### What judging compares leaves alone -/

/-- Compares become due, or are due no longer, and nothing else changes (R296). -/
def DueOnly (c d : Chip) : Prop := ∃ o l, d = c.onFab fun f => { f with onTime := o, late := l }

theorem DueOnly.refl : DueOnly c c := ⟨_, _, rfl⟩

variable {c} in
theorem DueOnly.trans {d e : Chip} (h : DueOnly c d) (h' : DueOnly d e) : DueOnly c e := by
  obtain ⟨o, l, rfl⟩ := h
  obtain ⟨o', l', rfl⟩ := h'
  exact ⟨o', l', rfl⟩

theorem clearDue_due (ch : Nat) : DueOnly c (clearDue c ch) := ⟨_, _, rfl⟩

theorem judge_due (t i : Nat) : DueOnly c (judge c t i) := by
  simp only [judge]
  split
  · exact clearDue_due c _
  · exact (clearDue_due c _).trans ⟨_, _, rfl⟩

theorem foldl_due {α : Type} (f : Chip → α → Chip) (h : ∀ c x, DueOnly c (f c x)) (xs : List α) (c : Chip) :
    DueOnly c (xs.foldl f c) := by
  induction xs generalizing c with
  | nil => exact .refl c
  | cons x xs ih => exact (h c x).trans (ih _)

theorem rejudge_due (t : Nat) : DueOnly c (rejudge c t) := by
  have hstep : ∀ (p : Chip → Nat → Bool) (u : Nat) (c : Chip) (i : Nat), DueOnly c (if p c i then judge c u i else c) := fun p u c i => by
    split
    · exact judge_due c u i
    · exact .refl c
  simp only [rejudge]
  split
  · exact (foldl_due _ (fun c i => hstep (fun c i => c.cmpArmed t i) t c i) _ c).trans
      (foldl_due _ (fun c i => hstep (fun c i => c.tmrWide (t + 1) i && c.cmpArmed (t + 1) i) (t + 1) c i) _ _)
  · exact foldl_due _ (fun c i => hstep (fun c i => c.cmpArmed t i) t c i) _ c

/-- A jump of a count whose grain has seen no capture: the count is set, and the SNAP of the grain takes it (R294, R298). -/
theorem jumpCount_eq (t : Nat) (v : Payload) (hc : c.fab.tick.captured = []) : ∃ d, DueOnly (setTmrCount c t v) d ∧
    jumpCount t v c = if c.fab.tick.snapped.contains t then takeSnap t d else d := by
  obtain ⟨o, l, hd⟩ := rejudge_due (setTmrCount c t v) t
  refine ⟨rejudge (setTmrCount c t v) t, rejudge_due _ _, ?_⟩
  have hsnap : (rejudge (setTmrCount c t v) t).fab.tick = c.fab.tick := by rw [hd]; rfl
  have hcap : (if c.fab.tick.snapped.contains t then takeSnap t (rejudge (setTmrCount c t v) t) else rejudge (setTmrCount c t v) t).fab.tick
      = c.fab.tick := by split <;> exact hsnap
  simp only [jumpCount, hsnap, hcap, hc, List.filter_nil, List.foldl_nil]

/-! ### The tasks (R294, R298) -/

theorem onTick_eq (g : TmrGrain → TmrGrain) : onTick g c = c.onFab fun f => { f with tick := g f.tick } := (rfl)

@[simp] theorem onTick_regs (g : TmrGrain → TmrGrain) : (onTick g c).regs = c.regs := (rfl)
@[simp] theorem onTick_islands (g : TmrGrain → TmrGrain) : (onTick g c).islands = c.islands := (rfl)
@[simp] theorem onTick_mems (g : TmrGrain → TmrGrain) : (onTick g c).mems = c.mems := (rfl)

theorem noteRun_eq (t : Nat) : ∃ g, noteRun t c = c.onFab g := by
  simp only [noteRun]
  split
  · exact ⟨id, rfl⟩
  · exact ⟨_, onTick_eq c _⟩

theorem evfTask_on (f : Chip → Chip) (h : c.isOn .evf = true) : evfTask f c = f c := by simp [evfTask, h]

theorem evfTask_off (f : Chip → Chip) (h : c.isOn .evf = false) : evfTask f c = c := by simp [evfTask, h]

theorem tmrStart_ignored (t : Nat) (h : c.tmrMirror t = true ∨ c.tmrChainedOdd t = true) : tmrStart t c = c := by
  rw [tmrStart, if_pos (by simpa using h)]

theorem tmrStop_ignored (t : Nat) (h : c.tmrMirror t = true ∨ c.tmrChainedOdd t = true) : tmrStop t c = c := by
  rw [tmrStop, if_pos (by simpa using h)]

section Task
variable {c} {t : Nat} (hm : c.tmrMirror t = false)
include hm

section Own
variable (ho : c.tmrChainedOdd t = false)
include ho

/-- START in a grain whose compares stand to come: RUN is set, unless a STOP came (R294). -/
theorem tmrStart_eq (hd : c.tmrMatched t = false) : tmrStart t c =
    if c.fab.tick.stopped.contains t then c else (noteRun t c).setB (Fld.TMR_CTRL_RUN t) true := by
  simp [tmrStart, hm, ho, hd]

theorem tmrStop_eq (hd : c.tmrMatched t = false) : tmrStop t c =
    onTick (fun k => { k with stopped := t :: k.stopped }) ((noteRun t c).setB (Fld.TMR_CTRL_RUN t) false) := by
  simp [tmrStop, hm, ho, hd]

/-- Once the compares of the grain are evaluated START and STOP wait for the next (R294). -/
theorem tmrStart_next (hd : c.tmrMatched t = true) : tmrStart t c = c.onFab fun f => { f with goStart := f.goStart ++ [t] } := by
  rw [tmrStart, if_neg (by simp [hm, ho]), if_pos hd]
  rfl

theorem tmrStop_next (hd : c.tmrMatched t = true) : tmrStop t c = c.onFab fun f => { f with goStop := f.goStop ++ [t] } := by
  rw [tmrStop, if_neg (by simp [hm, ho]), if_pos hd]
  rfl

end Own

theorem tmrClear_next (hd : c.tmrMatched t = true) : tmrClear t c = c.onFab fun f => { f with goClear := f.goClear ++ [t] } := by
  rw [tmrClear, if_neg (by simp [hm]), if_pos hd]
  rfl

/-- CLEAR: the count becomes 0, unless it was written in this grain (R294, R298). -/
theorem tmrClear_eq (hd : c.tmrMatched t = false) : tmrClear t c =
    if c.fab.tick.counted.contains t then c else jumpCount t 0 c := by
  simp [tmrClear, hm, hd]

end Task

theorem setTmrCount_regs (t : Nat) (v : Payload) : (setTmrCount c t v).regs = regPut c.regs (Reg.TMR_COUNT t) ⟨.grain, v⟩ := by
  simp [setTmrCount]

theorem takeSnap_reg (t a : Nat) (h : a ≠ Reg.TMR_SNAPV t) : (takeSnap t c).reg a = c.reg a := Chip.reg_setReg_ne c _ _ _ h

/-- What a jump leaves in a grain without a SNAP or capture of the timer: the count (R298). -/
theorem jumpCount_reads (t : Nat) (v : Payload) (hc : c.fab.tick.captured = []) (hs : c.fab.tick.snapped.contains t = false) :
    (jumpCount t v c).reg (Reg.TMR_COUNT t) = ⟨.grain, v⟩ ∧ (jumpCount t v c).regs = (setTmrCount c t v).regs ∧
      (jumpCount t v c).mems = c.mems ∧ (jumpCount t v c).fab.tick = c.fab.tick := by
  obtain ⟨d, ⟨o, l, hd⟩, he⟩ := jumpCount_eq c t v hc
  rw [he, hs, if_neg Bool.false_ne_true, hd]
  exact ⟨by simp [setTmrCount], rfl, rfl, rfl⟩

/-- A SNAP of the same grain takes the count that results (R294). -/
theorem jumpCount_snapped (t : Nat) (v : Payload) (hc : c.fab.tick.captured = []) (hs : c.fab.tick.snapped.contains t = true)
    (hm : c.tmrMirror t = false) : (jumpCount t v c).reg (Reg.TMR_COUNT t) = ⟨.grain, v⟩ ∧
      (jumpCount t v c).reg (Reg.TMR_SNAPV t) = ⟨.grain, v⟩ := by
  have hne : Reg.TMR_COUNT t ≠ Reg.TMR_SNAPV t := by simp
  have hne' : Reg.TMR_CTRL t ≠ Reg.TMR_COUNT t := by simp
  obtain ⟨d, ⟨o, l, hd⟩, he⟩ := jumpCount_eq c t v hc
  have hcount : d.reg (Reg.TMR_COUNT t) = ⟨.grain, v⟩ := by rw [hd, Chip.onFab_reg]; simp [setTmrCount]
  have hmir : d.tmrMirror t = false := by
    rw [← hm, Chip.tmrMirror, hd, Chip.onFab_b, Chip.tmrMirror]
    unfold Chip.b
    rw [setTmrCount, Chip.f_setReg_ne _ _ _ _ hne']
  rw [he, hs, if_pos rfl]
  refine ⟨(takeSnap_reg _ _ _ hne).trans hcount, ?_⟩
  rw [takeSnap, Chip.reg_setReg_same, Chip.tmrCount, hmir, Bool.false_and, if_neg Bool.false_ne_true, hcount]

/-- TMR_GO_START and TMR_GO_STOP (R295). -/
theorem tmrGo_start (mask : Nat) (h : c.isOn .evf = true) : tmrGo mask 0 c =
    c.onFab fun f => { f with goStart := f.goStart ++ timers.filter fun t => mask.testBit t } := by
  rw [tmrGo, if_neg (by simp [h]), if_neg (by simp)]
  simp [Chip.onFab]

theorem tmrGo_stop (mask : Nat) (h : c.isOn .evf = true) : tmrGo 0 mask c =
    c.onFab fun f => { f with goStop := f.goStop ++ timers.filter fun t => mask.testBit t } := by
  rw [tmrGo, if_neg (by simp [h]), if_neg (by simp)]
  simp [Chip.onFab]

theorem tmrGo_off (start stop : Nat) (h : c.isOn .evf = false) : tmrGo start stop c = c.regReject := by simp [tmrGo, h]

end Sys2Proof.Machine
end

section
namespace Sys2Proof

open Machine

/-- Settles O11: each task is one update of the timer's control register, its count or the grain's list. -/
theorem timerTasks : Obligations.TimerTasks := by
  intro s t
  refine ⟨fun hoff => ?_, fun hon hm ho hd => ⟨fun hs => ?_, fun hs => ?_, ?_⟩, fun hon hm ho hd => ⟨?_, ?_, ?_⟩,
    fun hon h => ⟨?_, ?_⟩, fun hon hm hd => ⟨fun hc => ?_, fun hc hcap => ⟨fun hs => ?_, fun hs => ?_⟩⟩, fun hon => ?_,
    fun hon mask => ⟨next_chip (tmrGo_start _ _ hon), next_chip (tmrGo_stop _ _ hon)⟩,
    fun hoff mask => ⟨next_chip (tmrGo_off _ _ _ hoff), next_chip (tmrGo_off _ _ _ hoff)⟩⟩
  · exact ⟨next_chip (evfTask_off _ _ hoff), next_chip (evfTask_off _ _ hoff), next_chip (evfTask_off _ _ hoff),
      next_chip (evfTask_off _ _ hoff)⟩
  · obtain ⟨g, hg⟩ := noteRun_eq s.chip t.val
    refine ⟨_, rfl, ?_⟩
    dsimp only
    rw [evfTask_on _ _ hon, tmrStart_eq hm ho hd, hs, if_neg Bool.false_ne_true, hg]
    simp
  · exact next_chip (by rw [evfTask_on _ _ hon, tmrStart_eq hm ho hd, hs, if_pos rfl])
  · obtain ⟨g, hg⟩ := noteRun_eq s.chip t.val
    refine ⟨_, rfl, ?_⟩
    dsimp only
    rw [evfTask_on _ _ hon, tmrStop_eq hm ho hd, onTick_eq, hg]
    simp
  · exact next_chip (by rw [evfTask_on _ _ hon, tmrStart_next hm ho hd])
  · exact next_chip (by rw [evfTask_on _ _ hon, tmrStop_next hm ho hd])
  · exact next_chip (by rw [evfTask_on _ _ hon, tmrClear_next hm hd])
  · exact next_chip (by rw [evfTask_on _ _ hon, tmrStart_ignored _ _ h])
  · exact next_chip (by rw [evfTask_on _ _ hon, tmrStop_ignored _ _ h])
  · exact next_chip (by rw [evfTask_on _ _ hon, tmrClear_eq hm hd, hc, if_pos rfl])
  · obtain ⟨h1, h2, h3, -⟩ := jumpCount_reads s.chip t.val 0 hcap hs
    refine ⟨_, rfl, ?_⟩
    dsimp only
    rw [evfTask_on _ _ hon, tmrClear_eq hm hd, hc, if_neg Bool.false_ne_true]
    exact ⟨h1, h2, h3, rfl⟩
  · refine ⟨_, rfl, ?_⟩
    dsimp only
    rw [evfTask_on _ _ hon, tmrClear_eq hm hd, hc, if_neg Bool.false_ne_true]
    exact jumpCount_snapped s.chip t.val 0 hcap hs hm
  · exact next_chip (by rw [evfTask_on _ _ hon]; rfl)

end Sys2Proof
end

section
/-! Writes of counts and of compare values (R296, R298, R299). -/

namespace Sys2Proof.Machine

variable (c : Chip)

/-- Judging a channel: due no longer, and due late where its compare value does not lie after the count (R296). -/
theorem judge_eq (t i : Nat) : judge c t i = c.onFab fun f => { f with
    onTime := f.onTime.filter (· != channel t i)
    late := f.late.filter (fun x => x.1 != channel t i) ++
      if c.cmpAfter t i || c.tmrSilent t i then [] else [(channel t i, c.now + 1)] } := by
  have ha : (clearDue c (channel t i)).cmpAfter t i = c.cmpAfter t i := rfl
  have hs : (clearDue c (channel t i)).tmrSilent t i = c.tmrSilent t i := rfl
  simp only [judge, ha, hs]
  by_cases h : (c.cmpAfter t i || c.tmrSilent t i) = true
  · rw [if_pos h]; simp only [h, if_true, List.append_nil]; rfl
  · rw [if_neg h]; simp only [h]; rfl

/-- What is due of a channel that was judged (R296). -/
theorem judge_reads (t i : Nat) : let d := judge c t i
    d.regs = c.regs ∧ d.mems = c.mems ∧ channel t i ∉ d.fab.onTime ∧
      ((channel t i, c.now + 1) ∈ d.fab.late ↔ (c.cmpAfter t i || c.tmrSilent t i) = false) ∧ d.lateDue (channel t i) = false := by
  rw [judge_eq]
  refine ⟨rfl, rfl, by simp, ?_, ?_⟩
  · cases h : (c.cmpAfter t i || c.tmrSilent t i) <;> simp
  · have hold : ∀ x ∈ c.fab.late, x.1 ≠ channel t i → x.1 = channel t i → c.now < x.2 := fun _ _ h e => absurd e h
    cases h : (c.cmpAfter t i || c.tmrSilent t i) <;> simpa [Chip.lateDue] using hold

/-! ### What a compare is judged by, under the write that arms it -/

/-- The chip whose channel has taken a compare value and is armed (R296). -/
def cmpWritten (t i : Nat) (v : Payload) (c : Chip) : Chip :=
  (c.setReg (Reg.TMR_CMP t i) ⟨.grain, v⟩).setB (Fld.TMR_CCFG_ARMED t i) true

section Written
variable {t i : Nat} (hi : i < 4) (v : Payload)
include hi

theorem ctrl_ne_cmp (u : Nat) : Reg.TMR_CTRL u ≠ Reg.TMR_CMP t i := by simp only [Reg.TMR_CTRL, Reg.TMR_CMP]; omega
theorem count_ne_cmp (u : Nat) : Reg.TMR_COUNT u ≠ Reg.TMR_CMP t i := by simp only [Reg.TMR_COUNT, Reg.TMR_CMP]; omega
theorem ctrl_ne_ccfg (u : Nat) : Reg.TMR_CTRL u ≠ Reg.TMR_CCFG t i := by simp only [Reg.TMR_CTRL, Reg.TMR_CCFG]; omega
theorem count_ne_ccfg (u : Nat) : Reg.TMR_COUNT u ≠ Reg.TMR_CCFG t i := by simp only [Reg.TMR_COUNT, Reg.TMR_CCFG]; omega
theorem ccfg_ne_cmp (u : Nat) {j : Nat} (hj : j < 4) : Reg.TMR_CCFG u j ≠ Reg.TMR_CMP t i := by
  simp only [Reg.TMR_CCFG, Reg.TMR_CMP]; omega

theorem cmpWritten_ctrl (x : Field) (u : Nat) (hx : x.reg = Reg.TMR_CTRL u) : (cmpWritten t i v c).b x = c.b x := by
  unfold Chip.b
  rw [cmpWritten, Chip.setB, Chip.f_setF_reg _ _ _ _ (hx ▸ ctrl_ne_ccfg hi u), Chip.f_setReg_ne _ _ _ _ (hx ▸ ctrl_ne_cmp hi u)]

theorem cmpWritten_wide (u : Nat) {j : Nat} (hj : j < 4) :
    (cmpWritten t i v c).b (Fld.TMR_CCFG_WIDE u j) = c.b (Fld.TMR_CCFG_WIDE u j) := by
  unfold Chip.b
  rw [cmpWritten, Chip.setB, Chip.f_setF_ne _ _ _ _ (.inr (by simp)), Chip.f_setReg_ne _ _ _ _ (ccfg_ne_cmp hi u hj)]

theorem cmpWritten_odd (u : Nat) : (cmpWritten t i v c).tmrChainedOdd u = c.tmrChainedOdd u := by
  rw [Chip.tmrChainedOdd, cmpWritten_ctrl c hi v _ _ rfl, Chip.tmrChainedOdd]

theorem cmpWritten_tmrWide (u : Nat) {j : Nat} (hj : j < 4) : (cmpWritten t i v c).tmrWide u j = c.tmrWide u j := by
  rw [Chip.tmrWide, cmpWritten_odd c hi v, cmpWritten_wide c hi v u hj, Chip.tmrWide]

theorem cmpWritten_silent (u : Nat) {j : Nat} (hj : j < 4) : (cmpWritten t i v c).tmrSilent u j = c.tmrSilent u j := by
  rw [Chip.tmrSilent, cmpWritten_tmrWide c hi v (u + 1) hj, Chip.tmrSilent]

theorem cmpWritten_count (u : Nat) : (cmpWritten t i v c).tmrCount u = c.tmrCount u := by
  have hg : (cmpWritten t i v c).grain = c.grain := by simp [cmpWritten]
  have hr : (cmpWritten t i v c).reg (Reg.TMR_COUNT u) = c.reg (Reg.TMR_COUNT u) := by
    rw [cmpWritten, Chip.reg_setB_ne _ _ _ _ (count_ne_ccfg hi u), Chip.reg_setReg_ne _ _ _ _ (count_ne_cmp hi u)]
  have hm : (cmpWritten t i v c).tmrMirror u = c.tmrMirror u := cmpWritten_ctrl c hi v _ _ rfl
  rw [Chip.tmrCount, hm, cmpWritten_odd c hi v, hg, hr, Chip.tmrCount]

theorem cmpWritten_cmp : (cmpWritten t i v c).reg (Reg.TMR_CMP t i) = ⟨.grain, v⟩ := by
  rw [cmpWritten, Chip.reg_setB_ne _ _ _ _ (ccfg_ne_cmp hi t hi).symm, Chip.reg_setReg_same]

theorem cmpWritten_cmp_ne (u : Nat) (h : u ≠ t) : (cmpWritten t i v c).reg (Reg.TMR_CMP u i) = c.reg (Reg.TMR_CMP u i) := by
  have hne : Reg.TMR_CMP u i ≠ Reg.TMR_CMP t i := by simp only [Reg.TMR_CMP]; omega
  rw [cmpWritten, Chip.reg_setB_ne _ _ _ _ (ccfg_ne_cmp hi t hi).symm, Chip.reg_setReg_ne _ _ _ _ hne]

omit hi in
theorem cmpWritten_armed : (cmpWritten t i v c).cmpArmed t i = true := Chip.b_setB _ _ _ rfl (by simp)

end Written

/-! ### The writes -/

/-- A write of a compare value: of a silent channel it is only stored (R296, R299). -/
theorem tmrCmpWrite_eq (t : Nat) {i : Nat} (hi : i < 4) (v : Payload) (hon : c.isOn .evf = true) : tmrCmpWrite t i v c =
    if c.tmrSilent t i then c.setReg (Reg.TMR_CMP t i) ⟨.grain, v⟩ else judge (cmpWritten t i v c) t i := by
  have hs : (c.setReg (Reg.TMR_CMP t i) ⟨.grain, v⟩).tmrSilent t i = c.tmrSilent t i := by
    have hb : ∀ x : Field, x.reg ≠ Reg.TMR_CMP t i → (c.setReg (Reg.TMR_CMP t i) ⟨.grain, v⟩).b x = c.b x := fun x hx => by
      unfold Chip.b; rw [Chip.f_setReg_ne _ _ _ _ hx]
    simp only [Chip.tmrSilent, Chip.tmrWide, Chip.tmrChainedOdd, hb (Fld.TMR_CTRL_CHAIN _) (ctrl_ne_cmp hi _),
      hb (Fld.TMR_CCFG_WIDE _ _) (ccfg_ne_cmp hi _ hi)]
  simp only [tmrCmpWrite, hon, Bool.not_true, Bool.false_eq_true, if_false, hs]
  rfl

/-- A channel that is not silent is armed, and due late where its compare value does not lie after the count (R296). -/
theorem tmrCmpWrite_reads (t : Nat) {i : Nat} (hi : i < 4) (v : Payload) (hon : c.isOn .evf = true) (hs : c.tmrSilent t i = false) :
    let d := tmrCmpWrite t i v c
    d.reg (Reg.TMR_CMP t i) = ⟨.grain, v⟩ ∧ d.cmpArmed t i = true ∧ channel t i ∉ d.fab.onTime ∧
      ((channel t i, c.now + 1) ∈ d.fab.late ↔ (cmpWritten t i v c).cmpAfter t i = false) ∧ d.lateDue (channel t i) = false ∧
      d.mems = c.mems := by
  obtain ⟨hregs, hmems, hon', hlate, hnone⟩ := judge_reads (cmpWritten t i v c) t i
  have hnow : (cmpWritten t i v c).now = c.now := by simp [cmpWritten]
  have hm : (cmpWritten t i v c).mems = c.mems := by simp [cmpWritten]
  rw [cmpWritten_silent c hi v t hi, hs, Bool.or_false, hnow] at hlate
  rw [tmrCmpWrite_eq c t hi v hon, hs, if_neg Bool.false_ne_true]
  refine ⟨?_, ?_, hon', hlate, hnone, hmems.trans hm⟩
  · rw [Chip.reg_mk _ _ _ hregs, cmpWritten_cmp c hi v]
  · rw [← cmpWritten_armed c v, Chip.cmpArmed, Chip.cmpArmed, Chip.b, Chip.b, Chip.f, Chip.f, Chip.reg_mk _ _ _ hregs]

/-- How a channel that was written compares (R296, R299). -/
theorem cmpWritten_after (t : Nat) {i : Nat} (hi : i < 4) (v : Payload) (hw : c.tmrWide t i = false) :
    (cmpWritten t i v c).cmpAfter t i = grainAfter v (c.tmrCount t) := by
  rw [Chip.cmpAfter, cmpWritten_tmrWide c hi v t hi, hw, if_neg Bool.false_ne_true, cmpWritten_cmp c hi v, cmpWritten_count c hi v]

theorem cmpWritten_after_wide (t : Nat) {i : Nat} (hi : i < 4) (v : Payload) (hw : c.tmrWide t i = true) :
    ((cmpWritten t i v c).cmpAfter t i = false ↔ v.toNat * 2 ^ 36 + c.regN (Reg.TMR_CMP (t - 1) i) ≤ c.pairCount t) := by
  have hodd : t % 2 = 1 := by simp [Chip.tmrWide, Chip.tmrChainedOdd] at hw; exact hw.1.1
  have hcmp : (cmpWritten t i v c).pairCmp t i = v.toNat * 2 ^ 36 + c.regN (Reg.TMR_CMP (t - 1) i) := by
    rw [Chip.pairCmp, Chip.regN, Chip.regN, cmpWritten_cmp c hi v, cmpWritten_cmp_ne c hi v (t - 1) (by omega)]
    rfl
  have hcount : (cmpWritten t i v c).pairCount t = c.pairCount t := by
    rw [Chip.pairCount, cmpWritten_count c hi v, cmpWritten_count c hi v, Chip.pairCount]
  rw [Chip.cmpAfter, cmpWritten_tmrWide c hi v t hi, hw, if_pos rfl, hcmp, hcount, decide_eq_false_iff_not, Nat.not_lt]

section Count
variable {c} {t : Nat} (v : Payload) (hon : c.isOn .evf = true) (hm : c.tmrMirror t = false ∨ c.tmrChainedOdd t = true)
include hon hm

theorem countTaken : ¬ ((! c.isOn .evf || (c.tmrMirror t && ! c.tmrChainedOdd t)) = true) := by
  rcases hm with h | h <;> simp [hon, h]

theorem tmrCountWrite_taken (hd : c.tmrMatched t = false) (hr : c.ranBefore t = false) : tmrCountWrite t v c =
    jumpCount t v (onTick (fun k => { k with counted := t :: k.counted }) c) := by
  rw [tmrCountWrite, if_neg (countTaken hon hm), hd, hr]
  rfl

theorem tmrCountWrite_next (hd : c.tmrMatched t = true) : tmrCountWrite t v c =
    c.onFab fun f => { f with goCount := f.goCount ++ [(t, v)] } := by
  rw [tmrCountWrite, if_neg (countTaken hon hm), if_pos hd]
  rfl

end Count

theorem tmrCountWrite_rejected (t : Nat) (v : Payload)
    (h : c.tmrMatched t = false ∧ c.ranBefore t = true ∨ c.tmrMirror t = true ∧ c.tmrChainedOdd t = false) :
    tmrCountWrite t v c = c.regReject := by
  unfold tmrCountWrite
  split
  · rfl
  case isFalse hn =>
    obtain ⟨h1, h2⟩ := h.resolve_right fun ⟨h1, h2⟩ => hn (by simp [h1, h2])
    simp [h1, h2]

end Sys2Proof.Machine
end

section
namespace Sys2Proof

open Machine

/-- Settles O12: a count is put and judged against, or waits, or is rejected; a compare value is put, and its channel judged. -/
theorem timerWrites : Obligations.TimerWrites := by
  intro s t v hon
  refine ⟨fun hd hr hm hs hc => ?_, fun hd hm => next_chip (tmrCountWrite_next v hon hm hd),
    fun h => next_chip (tmrCountWrite_rejected _ _ _ h), fun i hw hs => ?_, fun i hs => next_chip ?_, fun i hw => ?_⟩
  · obtain ⟨h1, h2, h3, h4⟩ := jumpCount_reads (onTick (fun k => { k with counted := t.val :: k.counted }) s.chip) t.val v hc hs
    refine ⟨_, rfl, ?_⟩
    dsimp only
    rw [tmrCountWrite_taken v hon hm hd hr, h4]
    exact ⟨h1, h2.trans (by rw [setTmrCount_regs, setTmrCount_regs]; rfl), h3, by simp [onTick]⟩
  · obtain ⟨h1, h2, h3, h4, h5, h6⟩ := tmrCmpWrite_reads s.chip t.val i.isLt v hon hs
    rw [cmpWritten_after s.chip t.val i.isLt v hw] at h4
    exact ⟨_, rfl, h1, h2, h3, h4, h5, h6⟩
  · rw [tmrCmpWrite_eq _ _ i.isLt _ hon, hs, if_pos rfl]
  · have hs : s.chip.tmrSilent t.val i.val = false := by
      simp [Chip.tmrWide, Chip.tmrChainedOdd] at hw
      simp [Chip.tmrSilent, hw.1.1]
    obtain ⟨h1, h2, h3, h4, -, h6⟩ := tmrCmpWrite_reads s.chip t.val i.isLt v hon hs
    exact ⟨_, rfl, h1, h2, h3, h4.trans (cmpWritten_after_wide s.chip t.val i.isLt v hw), h6⟩

end Sys2Proof
end

section
/-! Compares that fire, wraps and captures (R294, R296, R297, R299, R301, R304). -/

namespace Sys2Proof.Machine

variable (c : Chip)

/-! ### Flags and firings of the fabric -/

/-- Setting a flag keeps all of the fabric but the bits set in this cycle (R278). -/
theorem setFlag_fab (a k : Nat) : ∃ l, (c.setFlag a k).fab = { c.fab with justSet := l } := by
  simp only [Chip.setFlag]
  split
  · exact ⟨_, rfl⟩
  · exact ⟨c.fab.justSet, rfl⟩

/-- A firing changes the list of sources that have fired alone (R276). -/
theorem fire_fab (n : Nat) (p : Option Nat) (k : Nat) : ∃ l, (c.fire n p k).fab = { c.fab with fired := l } := by
  simp only [Chip.fire]
  split
  · exact ⟨_, rfl⟩
  · exact ⟨c.fab.fired, rfl⟩

theorem hasFired_of_fired {c d : Chip} (h : d.fab.fired = c.fab.fired) (n : Nat) (p : Option Nat) :
    d.hasFired n p = c.hasFired n p := by unfold Chip.hasFired; rw [h]

/-! ### A compare that fires (R296, R297) -/

theorem matchStop_regs (u : Nat) : ∃ b : Bool, (matchStop u c).regs = if b then putF c.regs (Fld.TMR_CTRL_RUN u) 0 else c.regs := by
  simp only [matchStop]
  split
  · exact ⟨false, rfl⟩
  · exact ⟨true, by simp [b2n]⟩

@[simp] theorem matchStop_fab (u : Nat) : (matchStop u c).fab = c.fab := by simp [matchStop, apply_ite Chip.fab]
@[simp] theorem matchStop_islands (u : Nat) : (matchStop u c).islands = c.islands := by simp [matchStop, apply_ite Chip.islands]
@[simp] theorem matchStop_now (u : Nat) : (matchStop u c).now = c.now := by simp [matchStop, apply_ite Chip.now]

/-- The chip of a channel that fires: due no longer, its compares evaluated, its flags set (R294, R296). -/
def compareFlagged (t i : Nat) (late : Bool) (c : Chip) : Chip :=
  let c1 := (onTick (fun k => { k with matched := t :: c.cmpTimer t i :: k.matched }) (clearDue c (channel t i))).setFlag
    (Reg.TMR_STATUS t) i
  if late then c1.setFlag (Reg.TMR_STATUS t) (4 + i) else c1

/-- Its timer stops where the match is to stop it (R294). -/
def compareNoted (t i : Nat) (late : Bool) (c : Chip) : Chip :=
  let d := compareFlagged t i late c
  if d.b (Fld.TMR_CCFG_STOP_ON_MATCH t i) then matchStop (d.cmpTimer t i) d else d

theorem compareFire_due (t i : Nat) (h : (c.cmpArmed t i && ! c.tmrSilent t i &&
    (c.lateDue (channel t i) || c.fab.onTime.contains (channel t i))) = true) : compareFire t i c =
    let d := (compareNoted t i (c.lateDue (channel t i)) c).fire (channel t i) (some (b2n (c.lateDue (channel t i))))
    if d.b (Fld.TMR_CCFG_RELOAD t i) then judge (reloadCmp d t i) t i else d.setB (Fld.TMR_CCFG_ARMED t i) false := by
  rw [compareFire, if_pos h]
  rfl

theorem compareFire_idle (t i : Nat) (h : (c.cmpArmed t i && ! c.tmrSilent t i &&
    (c.lateDue (channel t i) || c.fab.onTime.contains (channel t i))) = false) : compareFire t i c = c := by
  rw [compareFire, if_neg (by simpa using h)]

section Noted
variable (t i : Nat) (late : Bool)

theorem compareFlagged_regs : (compareFlagged t i late c).regs =
    let m := putF c.regs ⟨Reg.TMR_STATUS t, i, 1⟩ 1
    if late then putF m ⟨Reg.TMR_STATUS t, 4 + i, 1⟩ 1 else m := by
  have h0 : (clearDue c (channel t i)).regs = c.regs := rfl
  cases late <;> simp [compareFlagged, onTick_eq, h0]

theorem compareFlagged_fab : ∃ l, (compareFlagged t i late c).fab = { c.fab with
    onTime := c.fab.onTime.filter (· != channel t i), late := c.fab.late.filter (fun x => x.1 != channel t i)
    tick := { c.fab.tick with matched := t :: c.cmpTimer t i :: c.fab.tick.matched }, justSet := l } := by
  obtain ⟨l, h1⟩ := setFlag_fab (onTick (fun k => { k with matched := t :: c.cmpTimer t i :: k.matched }) (clearDue c (channel t i)))
    (Reg.TMR_STATUS t) i
  cases late
  · exact ⟨l, h1⟩
  · obtain ⟨l', h2⟩ := setFlag_fab ((onTick (fun k => { k with matched := t :: c.cmpTimer t i :: k.matched })
      (clearDue c (channel t i))).setFlag (Reg.TMR_STATUS t) i) (Reg.TMR_STATUS t) (4 + i)
    exact ⟨l', h2.trans (by rw [h1]; rfl)⟩

theorem compareFlagged_rest : (compareFlagged t i late c).islands = c.islands ∧ (compareFlagged t i late c).now = c.now := by
  cases late <;> simp [compareFlagged, onTick_eq, clearDue]

/-- What a channel noted to fire leaves (R294, R296). -/
theorem compareNoted_regs : ∃ (u : Nat) (b : Bool), (compareNoted t i late c).regs =
    if b then putF (compareFlagged t i late c).regs (Fld.TMR_CTRL_RUN u) 0 else (compareFlagged t i late c).regs := by
  simp only [compareNoted]
  split
  · obtain ⟨b, hb⟩ := matchStop_regs (compareFlagged t i late c) ((compareFlagged t i late c).cmpTimer t i)
    exact ⟨_, b, hb⟩
  · exact ⟨0, false, rfl⟩

theorem compareNoted_rest : (compareNoted t i late c).islands = c.islands ∧ (compareNoted t i late c).now = c.now ∧
    (compareNoted t i late c).fab = (compareFlagged t i late c).fab := by
  obtain ⟨h1, h2⟩ := compareFlagged_rest c t i late
  simp only [compareNoted]
  split <;> simp [h1, h2]

end Noted

/-- The chip as a due channel fires, before it is armed again or disarmed. -/
def compareFired (t i : Nat) (c : Chip) : Chip :=
  (compareNoted t i (c.lateDue (channel t i)) c).fire (channel t i) (some (b2n (c.lateDue (channel t i))))

section Fired
variable {c} (t : Nat) {i : Nat}

theorem compareFired_reg (a : Nat) (h : a ≠ Reg.TMR_STATUS t) (hc : ∀ u, a ≠ Reg.TMR_CTRL u) :
    (compareFired t i c).reg a = c.reg a := by
  obtain ⟨u, b, hr⟩ := compareNoted_regs c t i (c.lateDue (channel t i))
  have hu := hc u
  rw [compareFired, Chip.fire_reg, Chip.reg_regs, hr, compareFlagged_regs]
  cases b <;> cases c.lateDue (channel t i) <;>
    simp (disch := assumption) only [regGet_putF_ne, Bool.false_eq_true, if_false, if_true] <;> rfl

theorem compareFired_chain (u : Nat) : (compareFired t i c).b (Fld.TMR_CTRL_CHAIN u) = c.b (Fld.TMR_CTRL_CHAIN u) := by
  obtain ⟨v, b, hr⟩ := compareNoted_regs c t i (c.lateDue (channel t i))
  have hs : Reg.TMR_CTRL u ≠ Reg.TMR_STATUS t := by simp only [Reg.TMR_CTRL, Reg.TMR_STATUS]; omega
  have hlo : (Fld.TMR_CTRL_CHAIN u).reg ≠ (Fld.TMR_CTRL_RUN v).reg ∨ (3 + 1 ≤ 36 ∧ (3 + 1 ≤ 0 ∨ 0 + 1 ≤ 3)) := .inr (by decide)
  rw [compareFired, Chip.fire_b, Chip.b_regs, hr, compareFlagged_regs, Chip.b_regs]
  cases b <;> cases c.lateDue (channel t i) <;>
    simp (disch := first | exact hlo | exact .inl hs) only [regF_putF_ne, Bool.false_eq_true, if_false, if_true]

theorem compareFired_ccfg (x : Field) (u : Nat) {j : Nat} (hj : j < 4) (hx : x.reg = Reg.TMR_CCFG u j) :
    (compareFired t i c).b x = c.b x := by
  unfold Chip.b Chip.f
  rw [compareFired_reg t _ (by rw [hx]; simp only [Reg.TMR_CCFG, Reg.TMR_STATUS]; omega)
    fun v => by rw [hx]; simp only [Reg.TMR_CCFG, Reg.TMR_CTRL]; omega]

theorem compareFired_wide (u : Nat) {j : Nat} (hj : j < 4) : (compareFired t i c).tmrWide u j = c.tmrWide u j := by
  rw [Chip.tmrWide, Chip.tmrChainedOdd, compareFired_chain, compareFired_ccfg t _ u hj rfl, Chip.tmrWide, Chip.tmrChainedOdd]

theorem compareFired_regN (a : Nat) (h : a ≠ Reg.TMR_STATUS t) (hc : ∀ u, a ≠ Reg.TMR_CTRL u) :
    (compareFired t i c).regN a = c.regN a := by unfold Chip.regN; rw [compareFired_reg t a h hc]

/-- The flags and the source of a channel that fires (R296). -/
theorem compareFired_reads (hi : i < 4) (hon : c.isOn .evf = true) : let d := compareFired t i c
    let late := c.lateDue (channel t i)
    d.b ⟨Reg.TMR_STATUS t, i, 1⟩ = true ∧ d.b ⟨Reg.TMR_STATUS t, 4 + i, 1⟩ = (late || c.b ⟨Reg.TMR_STATUS t, 4 + i, 1⟩) ∧
      d.hasFired (channel t i) (some (b2n late)) = true ∧ d.lateDue (channel t i) = false ∧
      d.fab.onTime.contains (channel t i) = false ∧ d.tmrMatched (c.cmpTimer t i) = true := by
  obtain ⟨u, b, hr⟩ := compareNoted_regs c t i (c.lateDue (channel t i))
  obtain ⟨h1, h2, h3⟩ := compareNoted_rest c t i (c.lateDue (channel t i))
  obtain ⟨l, h4⟩ := compareFlagged_fab c t i (c.lateDue (channel t i))
  obtain ⟨l', h5⟩ := fire_fab (compareNoted t i (c.lateDue (channel t i)) c) (channel t i) (some (b2n (c.lateDue (channel t i)))) 0
  have hne : Reg.TMR_STATUS t ≠ Reg.TMR_CTRL u := by simp only [Reg.TMR_CTRL, Reg.TMR_STATUS]; omega
  rw [h3, h4] at h5
  intro d late
  have hfab : d.fab = _ := h5
  have hregs : (compareFlagged t i late c).regs = _ := compareFlagged_regs c t i late
  have hflag : ∀ y : Field, y.reg = Reg.TMR_STATUS t → d.b y = (regF (compareFlagged t i late c).regs y == 1) := fun y hy => by
    rw [show d.b y = (regF (compareNoted t i late c).regs y == 1) from by rw [← Chip.b_regs]; exact Chip.fire_b _ _ _ _ _, hr]
    cases b
    · rfl
    · rw [if_pos rfl, regF_putF_ne _ _ _ _ (.inl (hy ▸ hne))]
  have hself : i + 1 ≤ 36 := by omega
  have hself4 : 4 + i + 1 ≤ 36 := by omega
  have hbelow : Reg.TMR_STATUS t ≠ Reg.TMR_STATUS t ∨ (i + 1 ≤ 36 ∧ (i + 1 ≤ 4 + i ∨ 4 + i + 1 ≤ i)) := .inr (by omega)
  have habove : Reg.TMR_STATUS t ≠ Reg.TMR_STATUS t ∨ (4 + i + 1 ≤ 36 ∧ (4 + i + 1 ≤ i ∨ i + 1 ≤ 4 + i)) := .inr (by omega)
  refine ⟨?_, ?_, fire_hasFired _ _ _ _ ?_, ?_, by rw [hfab]; simp, by rw [Chip.tmrMatched, hfab]; simp⟩
  · rw [hflag _ rfl, hregs]
    cases late <;> simp (disch := first | exact hself | exact hbelow) [regF_putF, regF_putF_ne]
  · rw [hflag _ rfl, hregs, Chip.b_regs]
    cases late <;> simp (disch := first | exact hself4 | exact habove) [regF_putF, regF_putF_ne]
  · rw [Chip.isOn_islands, h1, ← Chip.isOn_islands, hon]
  · have hold : ∀ x ∈ c.fab.late, x.1 ≠ channel t i → x.1 = channel t i → d.now < x.2 := fun _ _ h e => absurd e h
    rw [Chip.lateDue, hfab]
    simpa using hold

end Fired

/-- Writes that put a channel's compare value, or arm it, keep the fabric and the flags. -/
theorem reloadCmp_fab (t i : Nat) : (reloadCmp c t i).fab = c.fab := by simp [reloadCmp, apply_ite Chip.fab]

/-- A reloaded compare value (R297). -/
theorem reloadCmp_plain (t i : Nat) (hw : c.tmrWide t i = false) : reloadCmp c t i =
    c.setReg (Reg.TMR_CMP t i) (.grain (c.regN (Reg.TMR_CMP t i) + c.regN (Reg.TMR_ADD t i))) := by
  rw [reloadCmp, if_neg (by simp [hw])]

theorem reloadCmp_wide (t i : Nat) (hw : c.tmrWide t i = true) : reloadCmp c t i =
    (c.setReg (Reg.TMR_CMP t i) (.grain ((c.pairCmp t i + c.regN (Reg.TMR_ADD t i)) / 2 ^ 36))).setReg (Reg.TMR_CMP (t - 1) i)
      (.grain (c.pairCmp t i + c.regN (Reg.TMR_ADD t i))) := by
  rw [reloadCmp, if_pos hw]

/-- Registers other than the compare values stand. -/
theorem reloadCmp_reg (t i a : Nat) (h : ∀ u, a ≠ Reg.TMR_CMP u i) : (reloadCmp c t i).reg a = c.reg a := by
  unfold reloadCmp
  split
  · rw [Chip.reg_setReg_ne _ _ _ _ (h _), Chip.reg_setReg_ne _ _ _ _ (h _)]
  · rw [Chip.reg_setReg_ne _ _ _ _ (h _)]

section Fire
variable {c} {t i : Nat} (hi : i < 4)
include hi

theorem reloadCmp_b (x : Field) (h : x.reg = Reg.TMR_STATUS t ∨ ∃ u, x.reg = Reg.TMR_CCFG u i) : (reloadCmp c t i).b x = c.b x := by
  unfold Chip.b Chip.f
  rw [reloadCmp_reg c t i _ fun u => ?_]
  rcases h with h | ⟨v, h⟩ <;> rw [h]
  · simp only [Reg.TMR_STATUS, Reg.TMR_CMP]; omega
  · exact ccfg_ne_cmp hi v hi

theorem cmp_apart (u v : Nat) : Reg.TMR_CMP u i ≠ Reg.TMR_STATUS t ∧ Reg.TMR_CMP u i ≠ Reg.TMR_CTRL v ∧
    Reg.TMR_ADD u i ≠ Reg.TMR_STATUS t ∧ Reg.TMR_ADD u i ≠ Reg.TMR_CTRL v := by
  simp only [Reg.TMR_CMP, Reg.TMR_STATUS, Reg.TMR_CTRL, Reg.TMR_ADD]; omega

theorem compareFired_cmp (u : Nat) : (compareFired t i c).regN (Reg.TMR_CMP u i) = c.regN (Reg.TMR_CMP u i) :=
  compareFired_regN t _ (cmp_apart hi u 0).1 fun v => (cmp_apart (t := t) hi u v).2.1

theorem compareFired_add (u : Nat) : (compareFired t i c).regN (Reg.TMR_ADD u i) = c.regN (Reg.TMR_ADD u i) :=
  compareFired_regN t _ (cmp_apart hi u 0).2.2.1 fun v => (cmp_apart (t := t) hi u v).2.2.2

variable (hon : c.isOn .evf = true) (ha : c.cmpArmed t i = true) (hs : c.tmrSilent t i = false)
  (hd : c.lateDue (channel t i) = true ∨ c.fab.onTime.contains (channel t i) = true)
include ha hs hd

/-- A due channel fires, and is armed again or disarmed (R296, R297). -/
theorem compareFire_fired : compareFire t i c =
    if c.b (Fld.TMR_CCFG_RELOAD t i) then judge (reloadCmp (compareFired t i c) t i) t i
    else (compareFired t i c).setB (Fld.TMR_CCFG_ARMED t i) false := by
  have hr : (compareFired t i c).b (Fld.TMR_CCFG_RELOAD t i) = c.b (Fld.TMR_CCFG_RELOAD t i) := compareFired_ccfg t _ t hi rfl
  rw [compareFire_due c t i (by rw [ha, hs]; simpa using hd), ← hr]
  rfl

include hon

/-- Without RELOAD a channel that fires is disarmed (R297). -/
theorem compareFire_once (hr : c.b (Fld.TMR_CCFG_RELOAD t i) = false) : let d := compareFire t i c
    let late := c.lateDue (channel t i)
    d.b ⟨Reg.TMR_STATUS t, i, 1⟩ = true ∧ d.b ⟨Reg.TMR_STATUS t, 4 + i, 1⟩ = (late || c.b ⟨Reg.TMR_STATUS t, 4 + i, 1⟩) ∧
      d.cmpArmed t i = false ∧ d.hasFired (channel t i) (some (b2n late)) = true ∧ d.lateDue (channel t i) = false ∧
      d.fab.onTime.contains (channel t i) = false ∧ d.tmrMatched (c.cmpTimer t i) = true ∧
      d.regs = ((compareFired t i c).setB (Fld.TMR_CCFG_ARMED t i) false).regs := by
  have hst : ∀ x : Field, x.reg = Reg.TMR_STATUS t → x.reg ≠ Reg.TMR_CCFG t i := fun x hx => by
    rw [hx]; simp only [Reg.TMR_STATUS, Reg.TMR_CCFG]; omega
  obtain ⟨h1, h2, h3, h4, h5, h6⟩ := compareFired_reads t hi hon
  rw [compareFire_fired hi ha hs hd, hr, if_neg Bool.false_ne_true]
  refine ⟨(Chip.b_setB_ne _ _ _ _ (.inl (hst _ rfl))).trans h1, (Chip.b_setB_ne _ _ _ _ (.inl (hst _ rfl))).trans h2,
    Chip.b_setB _ _ _ rfl (by simp), h3, h4, h5, h6, rfl⟩

/-- With RELOAD a channel that fires stays armed, its compare value moved on (R297). -/
theorem compareFire_again (hr : c.b (Fld.TMR_CCFG_RELOAD t i) = true) : let d := compareFire t i c
    let late := c.lateDue (channel t i)
    d.b ⟨Reg.TMR_STATUS t, i, 1⟩ = true ∧ d.cmpArmed t i = true ∧ d.hasFired (channel t i) (some (b2n late)) = true ∧
      d.lateDue (channel t i) = false ∧ d.tmrMatched (c.cmpTimer t i) = true ∧
      d.regs = (reloadCmp (compareFired t i c) t i).regs := by
  obtain ⟨h1, h2, h3, h4, h5, h6⟩ := compareFired_reads t hi hon
  obtain ⟨hregs, -, -, -, hlate⟩ := judge_reads (reloadCmp (compareFired t i c) t i) t i
  obtain ⟨o, l, hj⟩ := judge_due (reloadCmp (compareFired t i c) t i) t i
  have hb : ∀ x : Field, (judge (reloadCmp (compareFired t i c) t i) t i).b x = (reloadCmp (compareFired t i c) t i).b x := fun x => by
    rw [Chip.b_regs, hregs, ← Chip.b_regs]
  have hfab := reloadCmp_fab (compareFired t i c) t i
  rw [compareFire_fired hi ha hs hd, hr, if_pos rfl]
  refine ⟨?_, ?_, ?_, hlate, ?_, hregs⟩
  · rw [hb, reloadCmp_b hi _ (.inl rfl), h1]
  · rw [Chip.cmpArmed, hb, reloadCmp_b hi _ (.inr ⟨t, rfl⟩), compareFired_ccfg t _ t hi rfl]
    exact ha
  · rw [hasFired_of_fired (c := compareFired t i c) (by rw [hj, Chip.onFab_fab, hfab]), h3]
  · rw [Chip.tmrMatched, hj, Chip.onFab_fab, hfab]
    exact h6

end Fire

/-- A 72-bit compare value put in its two halves (R299). -/
theorem pairCmp_put (v : Nat) : v / 2 ^ 36 % 2 ^ 36 * 2 ^ 36 + v % 2 ^ 36 = v % 2 ^ 72 := by omega

section Reload
variable {c} {t i : Nat} (hi : i < 4)
include hi

theorem reload_cmp (hw : c.tmrWide t i = false) : (reloadCmp (compareFired t i c) t i).regN (Reg.TMR_CMP t i) =
    (c.regN (Reg.TMR_CMP t i) + c.regN (Reg.TMR_ADD t i)) % 2 ^ 36 := by
  rw [reloadCmp_plain _ t i ((compareFired_wide t t hi).trans hw), compareFired_cmp hi, compareFired_add hi]
  simp [Chip.regN, Word.grain]

theorem compareFired_pairCmp : (compareFired t i c).pairCmp t i = c.pairCmp t i := by
  rw [Chip.pairCmp, compareFired_cmp hi, compareFired_cmp hi, Chip.pairCmp]

theorem reload_pairCmp (hw : c.tmrWide t i = true) : (reloadCmp (compareFired t i c) t i).pairCmp t i =
    (c.pairCmp t i + c.regN (Reg.TMR_ADD t i)) % 2 ^ 72 := by
  have hodd : t % 2 = 1 := by simp [Chip.tmrWide, Chip.tmrChainedOdd] at hw; exact hw.1.1
  have hne : Reg.TMR_CMP t i ≠ Reg.TMR_CMP (t - 1) i := by simp only [Reg.TMR_CMP]; omega
  rw [reloadCmp_wide _ t i ((compareFired_wide t t hi).trans hw), compareFired_pairCmp hi, compareFired_add hi, ← pairCmp_put,
    Chip.pairCmp]
  unfold Chip.regN
  rw [Chip.reg_setReg_ne _ _ _ _ hne, Chip.reg_setReg_same, Chip.reg_setReg_same]
  simp [Word.grain]

end Reload

theorem tmrWrap_eq (t : Nat) (h : c.fab.wrapped.contains t = true) : tmrWrap t c =
    (c.onFab fun f => { f with wrapped := f.wrapped.filter (· != t) }).fire (0x40 + t) (some 0) := by
  rw [tmrWrap, if_pos h]
  rfl

/-! ### Captures (R301, R304) -/

/-- The chip of a capture before its source fires. -/
def captured (k : Nat) (c : Chip) : Chip :=
  let c2 := ((captureCount k (onTick (fun x => { x with captured := k :: x.captured }) c)).setB (Fld.CAP_STATUS_FULL k) true).setF
    (Fld.CAP_STATUS_EDGES k) 0
  if c.b (Fld.CAP_STATUS_FULL k) then (c2.setFlag (Reg.CAP_STATUS k) 1).raise .evf 3 else c2

theorem capture_eq (k : Nat) (rising task : Bool) (c : Chip) : capture k rising task c =
    (captured k c).fire (0x50 + k) (some (b2n rising + 2 * b2n (c.b (Fld.CAP_STATUS_FULL k)) + 4 * b2n task)) := rfl

theorem captureCount_regs (k : Nat) : ∃ w, (captureCount k c).regs = regPut (regPut c.regs (Reg.CAP_VALUE_LO k)
    ⟨.grain, c.tmrCount (c.f (Fld.CAP_CTRL_TIMER k))⟩) (Reg.CAP_VALUE_HI k) w :=
  ⟨_, rfl⟩

theorem captureCount_mems (k : Nat) : (captureCount k c).mems = c.mems := by simp [captureCount]
theorem captureCount_islands (k : Nat) : (captureCount k c).islands = c.islands := by simp [captureCount]

theorem onTick_tmrCount (g : TmrGrain → TmrGrain) (t : Nat) : (onTick g c).tmrCount t = c.tmrCount t := (rfl)
theorem onTick_f (g : TmrGrain → TmrGrain) (x : Field) : (onTick g c).f x = c.f x := (rfl)

theorem captured_regs (k : Nat) : ∃ w, (captured k c).regs =
    let m := putF (putF (regPut (regPut c.regs (Reg.CAP_VALUE_LO k) ⟨.grain, c.tmrCount (c.f (Fld.CAP_CTRL_TIMER k))⟩)
      (Reg.CAP_VALUE_HI k) w) (Fld.CAP_STATUS_FULL k) 1) (Fld.CAP_STATUS_EDGES k) 0
    if c.b (Fld.CAP_STATUS_FULL k) then putF (putF m ⟨Reg.CAP_STATUS k, 1, 1⟩ 1) ⟨Reg.EVF_INT_STATUS, 3, 1⟩ 1 else m := by
  obtain ⟨w, hw⟩ := captureCount_regs (onTick (fun x => { x with captured := k :: x.captured }) c) k
  rw [onTick_tmrCount, onTick_f, onTick_regs] at hw
  refine ⟨w, ?_⟩
  cases h : c.b (Fld.CAP_STATUS_FULL k) <;> simp [captured, h, hw, b2n]

theorem captured_rest (k : Nat) : (captured k c).islands = c.islands ∧ (captured k c).mems = c.mems := by
  cases h : c.b (Fld.CAP_STATUS_FULL k) <;> simp [captured, h, captureCount_mems, captureCount_islands]

/-- What a capture leaves (R301, R304). -/
theorem capture_reads {k : Nat} (hk : k < 8) (rising task : Bool) (hon : c.isOn .evf = true) : let d := capture k rising task c
    d.b (Fld.CAP_STATUS_FULL k) = true ∧
      d.reg (Reg.CAP_VALUE_LO k) = ⟨.grain, c.tmrCount (c.f (Fld.CAP_CTRL_TIMER k))⟩ ∧
      d.b (Fld.CAP_STATUS_OVERFLOW k) = (c.b (Fld.CAP_STATUS_FULL k) || c.b (Fld.CAP_STATUS_OVERFLOW k)) ∧
      d.hasFired (0x50 + k) (some (b2n rising + 2 * b2n (c.b (Fld.CAP_STATUS_FULL k)) + 4 * b2n task)) = true ∧
      d.f (Fld.CAP_STATUS_EDGES k) = 0 ∧ d.mems = c.mems ∧ d.b (Fld.CAP_STATUS_LEVEL k) = c.b (Fld.CAP_STATUS_LEVEL k) := by
  obtain ⟨w, hw⟩ := captured_regs c k
  obtain ⟨hisl, hmem⟩ := captured_rest c k
  have h1 : Reg.CAP_VALUE_LO k ≠ Reg.CAP_STATUS k ∧ Reg.CAP_VALUE_LO k ≠ Reg.CAP_VALUE_HI k ∧ Reg.CAP_VALUE_LO k ≠ Reg.EVF_INT_STATUS ∧
      Reg.CAP_STATUS k ≠ Reg.CAP_VALUE_LO k ∧ Reg.CAP_STATUS k ≠ Reg.CAP_VALUE_HI k ∧ Reg.CAP_STATUS k ≠ Reg.EVF_INT_STATUS := by
    interval_cases k <;> decide
  obtain ⟨h1, h2, h3, h4, h5, h6⟩ := h1
  intro d
  have hd : d = _ := capture_eq k rising task c
  have hfire : d.hasFired (0x50 + k) (some (b2n rising + 2 * b2n (c.b (Fld.CAP_STATUS_FULL k)) + 4 * b2n task)) = true :=
    fire_hasFired (captured k c) _ _ _ (by rw [Chip.isOn_islands, hisl, ← Chip.isOn_islands, hon])
  refine ⟨?_, ?_, ?_, hfire, ?_, by rw [hd, Chip.fire_mems, hmem], ?_⟩
  · rw [hd, Chip.fire_b, Chip.b_regs, hw]
    cases c.b (Fld.CAP_STATUS_FULL k) <;> simp (disch := first | assumption | simp [h6]) [regF_putF]
  · rw [hd, Chip.fire_reg, Chip.reg_regs, hw]
    cases c.b (Fld.CAP_STATUS_FULL k) <;> simp (disch := assumption) [regGet_putF_ne, regGet_regPut_ne]
  · rw [hd, Chip.fire_b, Chip.b_regs, hw, Chip.b_regs c (Fld.CAP_STATUS_OVERFLOW k)]
    cases c.b (Fld.CAP_STATUS_FULL k) <;> simp (disch := first | assumption | simp [h6]) [regF_putF]
  · rw [hd, Chip.fire_f, Chip.f_regs, hw]
    cases c.b (Fld.CAP_STATUS_FULL k) <;> simp (disch := first | assumption | simp [h6]) [regF_putF]
  · rw [hd, Chip.fire_b, Chip.b_regs, hw, Chip.b_regs c (Fld.CAP_STATUS_LEVEL k)]
    cases c.b (Fld.CAP_STATUS_FULL k) <;> simp (disch := first | assumption | simp [h6])

/-- An edge that an enabled input has held is seen: its level changes, and it captures or is counted where EDGE selects it
(R301). -/
theorem captureEdge_held (k : Nat) (level : Bool) (hon : c.isOn .evf = true) (he : c.b (Fld.CAP_CTRL_ENABLE k) = true)
    (hp : (c.f Fld.TMR_FEATURE_CAP_PINS).testBit k = true) (hl : c.b (Fld.CAP_STATUS_LEVEL k) = ! level)
    (hh : c.capHeld k level = true) : captureEdge k level c =
    let d := c.setB (Fld.CAP_STATUS_LEVEL k) level
    if edgeSelected (c.f (Fld.CAP_CTRL_EDGE k)) level then
      if c.f (Fld.CAP_CTRL_EDGE_PRESCALE k) ≤ c.f (Fld.CAP_STATUS_EDGES k) then capture k level false d
      else d.setF (Fld.CAP_STATUS_EDGES k) (c.f (Fld.CAP_STATUS_EDGES k) + 1)
    else d := by
  have hne : Reg.CAP_CTRL k ≠ Reg.CAP_STATUS k := by simp
  have h1 : (c.setB (Fld.CAP_STATUS_LEVEL k) level).f (Fld.CAP_CTRL_EDGE k) = c.f (Fld.CAP_CTRL_EDGE k) :=
    Chip.f_setF_reg _ _ _ _ hne
  have h2 : (c.setB (Fld.CAP_STATUS_LEVEL k) level).f (Fld.CAP_CTRL_EDGE_PRESCALE k) = c.f (Fld.CAP_CTRL_EDGE_PRESCALE k) :=
    Chip.f_setF_reg _ _ _ _ hne
  have h3 : (c.setB (Fld.CAP_STATUS_LEVEL k) level).f (Fld.CAP_STATUS_EDGES k) = c.f (Fld.CAP_STATUS_EDGES k) :=
    Chip.f_setF_ne _ _ _ _ (.inr (by simp))
  rw [captureEdge, if_pos (by simp [hon, he, hp, hl, hh])]
  simp only [h1, h2, h3, ge_iff_le]

theorem captureEdge_idle (k : Nat) (level : Bool) (h : c.capHeld k level = false) : captureEdge k level c = c := by
  simp [captureEdge, h]

/-- The level of a capture input is no part of any timer's count. -/
theorem setLevel_tmrCount {k t : Nat} (hk : k < 8) (ht : t < 16) (v : Bool) :
    (c.setB (Fld.CAP_STATUS_LEVEL k) v).tmrCount t = c.tmrCount t := by
  have hctrl : ∀ x : Field, (x.reg = Reg.TMR_CTRL t ∨ x.reg = Reg.TMR_CTRL (t - 1)) →
      (c.setB (Fld.CAP_STATUS_LEVEL k) v).b x = c.b x := fun x hx =>
    Chip.b_setB_ne _ _ _ _ (.inl (by rcases hx with h | h <;> rw [h] <;> simp only [Reg.TMR_CTRL, Reg.CAP_STATUS] <;> omega))
  have hcount : (c.setB (Fld.CAP_STATUS_LEVEL k) v).reg (Reg.TMR_COUNT t) = c.reg (Reg.TMR_COUNT t) :=
    Chip.reg_setB_ne _ _ _ _ (by simp only [Reg.TMR_COUNT, Reg.CAP_STATUS]; omega)
  have hm : (c.setB (Fld.CAP_STATUS_LEVEL k) v).tmrMirror t = c.tmrMirror t := hctrl _ (.inl rfl)
  have ho : (c.setB (Fld.CAP_STATUS_LEVEL k) v).tmrChainedOdd t = c.tmrChainedOdd t := by
    rw [Chip.tmrChainedOdd, hctrl _ (.inr rfl), Chip.tmrChainedOdd]
  rw [Chip.tmrCount, hm, ho, hcount, Chip.setB_grain, Chip.tmrCount]

end Sys2Proof.Machine
end

section
namespace Sys2Proof

open Machine

/-- Settles O13: a due channel sets its flags, fires and is reloaded or disarmed; a capture writes its registers and fires. -/
theorem comparesAndCaptures : Obligations.ComparesAndCaptures := by
  refine ⟨fun s t hon => ⟨fun i => ?_, fun hw => ?_, fun hw => next_chip ?_⟩, fun s k hon => ⟨?_, fun level he hp hl hh => ?_,
    fun level h => next_chip (captureEdge_idle _ _ _ h)⟩⟩
  · intro ch late
    have hi := i.isLt
    refine ⟨fun h => next_chip (compareFire_idle _ _ _ ?_), fun ha hd hs hw => ⟨fun hr => ?_, fun hr => ?_⟩, fun ha hd hw => ?_⟩
    · rcases h with h | h | ⟨h1, h2⟩
      · simp [h]
      · simp [h]
      · rw [show s.chip.lateDue (channel t.val i.val) = false from h1, show s.chip.fab.onTime.contains (channel t.val i.val) = false from h2]
        simp
    · obtain ⟨h1, h2, h3, h4, h5, h6, -⟩ := compareFire_once hi hon ha hs hd hr
      exact ⟨_, rfl, h1, h2, h3, h4, h5, h6⟩
    · obtain ⟨h1, h2, h3, h4, -, h6⟩ := compareFire_again hi hon ha hs hd hr
      refine ⟨_, rfl, h1, h2, h3, h4, ?_⟩
      rw [← reload_cmp hi hw]
      exact congrArg (fun m => regNat m (Reg.TMR_CMP t.val i.val)) h6
    · have hodd : t.val % 2 = 1 := by simp [Chip.tmrWide, Chip.tmrChainedOdd] at hw; exact hw.1.1
      have hs : s.chip.tmrSilent t.val i.val = false := by simp [Chip.tmrSilent, hodd]
      have htimer : s.chip.cmpTimer t.val i.val = t.val - 1 := by rw [Chip.cmpTimer, if_pos hw]
      cases hr : s.chip.b (Fld.TMR_CCFG_RELOAD t.val i.val)
      · obtain ⟨h1, -, h3, h4, h5, -, h7, h8⟩ := compareFire_once hi hon ha hs hd hr
        refine ⟨_, rfl, h1, h4, h5, htimer ▸ h7, h3, ?_⟩
        rw [if_neg Bool.false_ne_true]
        refine Eq.trans ?_ (compareFired_pairCmp hi)
        have hne : ∀ u, Reg.TMR_CMP u i.val ≠ Reg.TMR_CCFG t.val i.val := fun u => (ccfg_ne_cmp hi t.val hi).symm
        simp only [Chip.pairCmp, Chip.regN_regs]
        rw [show (compareFire t.val i.val s.chip).regs = _ from h8, Chip.setB_regs, regNat_putF_ne _ _ _ _ (hne _),
          regNat_putF_ne _ _ _ _ (hne _)]
      · obtain ⟨h1, h2, h3, h4, h5, h6⟩ := compareFire_again hi hon ha hs hd hr
        refine ⟨_, rfl, h1, h3, h4, htimer ▸ h5, h2, ?_⟩
        rw [if_pos rfl, ← reload_pairCmp hi hw]
        simp only [Chip.pairCmp, Chip.regN_regs]
        rw [show (compareFire t.val i.val s.chip).regs = _ from h6]
  · refine ⟨_, rfl, ?_⟩
    dsimp only
    rw [tmrWrap_eq _ _ hw]
    obtain ⟨l, hl⟩ := fire_fab (s.chip.onFab fun f => { f with wrapped := f.wrapped.filter (· != t.val) }) (0x40 + t.val) (some 0) 0
    exact ⟨fire_hasFired _ _ _ _ (by simpa using hon), by rw [hl]; simp, by simp⟩
  · rw [tmrWrap, if_neg (by rw [hw]; exact Bool.false_ne_true)]
  · obtain ⟨h1, h2, h3, h4, h5, h6, -⟩ := capture_reads s.chip k.isLt false true hon
    refine ⟨_, rfl, ?_⟩
    dsimp only
    rw [evfTask_on _ _ hon]
    exact ⟨h1, h2, h3, by simpa [b2n] using h4, h5, h6⟩
  · have heq := captureEdge_held s.chip k.val level hon he hp hl hh
    refine ⟨fun hsel hpre => ?_, fun hsel hpre => next_chip ?_, fun hsel => next_chip ?_⟩
    · obtain ⟨h1, h2, -, -, h5, -, h7⟩ := capture_reads (s.chip.setB (Fld.CAP_STATUS_LEVEL k.val) level) k.isLt level false
        (by simpa using hon)
      refine ⟨_, rfl, ?_⟩
      dsimp only
      rw [heq, hsel, if_pos rfl, if_pos hpre]
      have htimer : (s.chip.setB (Fld.CAP_STATUS_LEVEL k.val) level).f (Fld.CAP_CTRL_TIMER k.val) = s.chip.f (Fld.CAP_CTRL_TIMER k.val) :=
        Chip.f_setF_reg _ _ _ _ (by simp)
      rw [htimer, setLevel_tmrCount _ k.isLt (s.chip.f_lt _)] at h2
      exact ⟨h1, h7.trans (Chip.b_setB _ _ _ rfl (by simp)), h5, h2⟩
    · rw [heq, hsel, if_pos rfl, if_neg (by omega)]
    · rw [heq, hsel, if_neg Bool.false_ne_true]

end Sys2Proof
end

section
namespace Sys2Proof.Machine

/-- The machine after reset with its chip held in reset, as a brown-out without a backup cell leaves one (R339). -/
def heldReset : State :=
  { State.reset with
    chip := State.reset.chip.onPwr fun p => { p with heldInReset := true } }

/-- A chip held in reset answers a read of a capture value REFUSED (R12, R339; log entry 20). -/
theorem heldReset_capValueRead : ∃ u, exec (.capValueRead 0) heldReset = .next u ∧ u.chip.out.map Word.tag = [.refused] :=
  ⟨_, rfl, by decide +kernel⟩

end Sys2Proof.Machine
end

section
namespace Sys2Proof
open Machine

/-- Refutes O14: a device held in reset serves no register (R339), and its read of a capture value answers REFUSED, where the
statement, which asks only for the EVF island and a power state other than Small Hours, promises the register's word. -/
theorem not_latchingReads : ¬ Obligations.LatchingReads := by
  unfold Obligations.LatchingReads
  intro h
  obtain ⟨-, -, hread⟩ := h heldReset (by decide +kernel)
  obtain ⟨u, hu, htag⟩ := heldReset_capValueRead
  rw [hread 0 (by decide +kernel)] at hu
  cases hu
  exact absurd htag (by decide +kernel)

end Sys2Proof
end

section
/-! SUPPORT. GPIO edges and tasks, software events (R289, R290, R425). -/

namespace Sys2Proof.Machine

variable (c : Chip)

/-- The chip that has seen GPIO `p` change to a level. -/
def edgeSeen (p : Nat) (level : Bool) (c : Chip) : Chip :=
  ((c.setPin p level).setB (gpioIn p) level).onFab fun f => { f with padAt := Store.put 0 f.padAt p (c.now + 1) }

theorem edge_ne_gpioIn (p : Nat) : ∀ q : Fin 40, Reg.EVF_GPIO_EDGE (q.val / 18) ≠ (gpioIn p).reg := by
  intro q
  have hin : (gpioIn p).reg = Reg.PAD_GPIO_IN_LO ∨ (gpioIn p).reg = Reg.PAD_GPIO_IN_HI := by
    unfold gpioIn
    split <;> simp
  rcases hin with h | h <;> rw [h] <;> revert q <;> decide

/-- A GPIO whose level changes fires where EVF_GPIO_EDGE selects the edge. -/
theorem gpioEdge_changed (p : Fin 40) (level : Bool) (h : c.b (gpioIn p.val) = (! level)) : gpioEdge p.val level c =
    if edgeSelected (bitsOf (c.regN (Reg.EVF_GPIO_EDGE (p.val / 18))) (2 * (p.val % 18)) 2) level = true then
      (edgeSeen p.val level c).fire (0x58 + p.val) (some (b2n level))
    else edgeSeen p.val level c := by
  have hseen : (edgeSeen p.val level c).regN (Reg.EVF_GPIO_EDGE (p.val / 18)) = c.regN (Reg.EVF_GPIO_EDGE (p.val / 18)) :=
    regNat_putF_ne c.regs _ _ _ (edge_ne_gpioIn _ p)
  have hpin : ¬ (c.pin p.val = level ∧ c.b (gpioIn p.val) = level) := by rw [h]; cases level <;> simp
  rw [← hseen]
  exact if_neg hpin

theorem gpioTask_ignored (m : Nat) (h : c.gpioNamed (c.f (Fld.EVF_GPIO_TASK_PIN m)) = false) : gpioTask m c = c := by
  simp [gpioTask, h]

theorem gpioTask_waits (m : Nat) (hon : c.isOn .evf = true) (h : c.gpioNamed (c.f (Fld.EVF_GPIO_TASK_PIN m)) = true)
    (hq : c.fab.gpioTasks = []) : gpioTask m c = c.onFab fun f => { f with gpioTasks := [m] } := by
  simp [gpioTask, hon, h, hq, Chip.onFab]

theorem filter_range_one : ∀ m : Fin 32, ((List.range 32).filter fun k => [m.val].contains k) = [m.val] := by decide

/-- The end of the tick of a lone GPIO task: the task acts. -/
theorem gpioEnd_one (m : Fin 32) (h : c.fab.gpioTasks = [m.val]) :
    gpioEnd c = gpioAct m.val (c.onFab fun f => { f with gpioTasks := [] }) := by
  rw [gpioEnd, h, filter_range_one, List.foldl_cons, List.foldl_nil]

/-- What the action of a GPIO task makes of its OUT bit, or nothing where there is no action. -/
def gpioOutNext (act : Nat) (out : Bool) : Option Bool :=
  match act with
  | 1 => some true
  | 2 => some false
  | 3 => some (! out)
  | _ => none

theorem gpioAct_eq (m : Nat) (h : c.gpioNamed (c.f (Fld.EVF_GPIO_TASK_PIN m)) = true) : gpioAct m c =
    match gpioOutNext (c.f (Fld.EVF_GPIO_TASK_ACTION m)) (c.b (gpioOut (c.f (Fld.EVF_GPIO_TASK_PIN m)))) with
    | some v => c.setB (gpioOut (c.f (Fld.EVF_GPIO_TASK_PIN m))) v
    | none => c := by
  unfold gpioAct
  simp only [h, Bool.not_true, Bool.false_eq_true, if_false]
  generalize c.f (Fld.EVF_GPIO_TASK_ACTION m) = act
  match act with
  | 0 | 1 | 2 | 3 => rfl
  | n + 4 => rfl

theorem gpioOut_fits (p : Nat) : (gpioOut p).lo + (gpioOut p).w ≤ 36 := by simp only [gpioOut]; omega

/-- A write of an OUT bit leaves the registers of the pads but OUT alone. -/
theorem putOut_ne (m : Store Word) (p : Nat) (v : Nat) (x : Field) (h1 : x.reg ≠ Reg.PAD_GPIO_OUT_LO) (h2 : x.reg ≠ Reg.PAD_GPIO_OUT_HI) :
    regF (putF m (gpioOut p) v) x = regF m x := by
  refine regF_putF_ne _ _ _ _ (.inl ?_)
  unfold gpioOut
  split <;> assumption

/-- A released pad of the GPIO function that drives shows its OUT bit (R425). -/
theorem padState_driven (p : Nat) (h7 : c.power ≠ 7) (hs : c.scan = false) (hl : c.b Fld.PAD_STATUS_LATCHED = false)
    (hf : c.f (Fld.PAD_CFG_FUNCTION p) = 0) (ho : c.b (gpioOe p) = true) : c.padState p = drivenState (c.b (gpioOut p)) := by
  simp [Chip.padState, Chip.releasedPad, h7, hs, hl, hf, ho]

/-- … and still does after a write of that bit. -/
theorem padState_setOut {p : Nat} (v : Bool) (hp : p < 40) (h7 : c.power ≠ 7) (hs : c.scan = false) (hl : c.b Fld.PAD_STATUS_LATCHED = false)
    (hf : c.f (Fld.PAD_CFG_FUNCTION p) = 0) (ho : c.b (gpioOe p) = true) : (c.setB (gpioOut p) v).padState p = drivenState v := by
  have hput : ∀ x : Field, x.reg ≠ Reg.PAD_GPIO_OUT_LO → x.reg ≠ Reg.PAD_GPIO_OUT_HI → (c.setB (gpioOut p) v).f x = c.f x :=
    putOut_ne c.regs p (b2n v)
  have hcfg : (Fld.PAD_CFG_FUNCTION p).reg = Reg.PAD_CFG p := rfl
  have hfn : (Fld.PAD_CFG_FUNCTION p).reg ≠ Reg.PAD_GPIO_OUT_LO ∧ (Fld.PAD_CFG_FUNCTION p).reg ≠ Reg.PAD_GPIO_OUT_HI := by
    rw [hcfg]
    interval_cases p <;> decide
  have hoe : (gpioOe p).reg ≠ Reg.PAD_GPIO_OUT_LO ∧ (gpioOe p).reg ≠ Reg.PAD_GPIO_OUT_HI := by
    unfold gpioOe
    split <;> exact ⟨by simp, by simp⟩
  rw [padState_driven (c.setB (gpioOut p) v) p (by rwa [show Chip.power _ = _ from hput Fld.PWR_STATUS_STATE (by decide) (by decide)]) hs
    (by rw [Chip.b, hput Fld.PAD_STATUS_LATCHED (by decide) (by decide)]; exact hl) (by rw [hput _ hfn.1 hfn.2]; exact hf)
    (by rw [Chip.b, hput _ hoe.1 hoe.2]; exact ho), Chip.b_setB _ _ _ rfl (gpioOut_fits p)]

/-- What the end of a tick makes of a lone GPIO task. -/
theorem gpioEnd_task (m : Fin 32) (h : c.gpioNamed (c.f (Fld.EVF_GPIO_TASK_PIN m.val)) = true) :
    gpioEnd (c.onFab fun f => { f with gpioTasks := [m.val] }) =
    match gpioOutNext (c.f (Fld.EVF_GPIO_TASK_ACTION m.val)) (c.b (gpioOut (c.f (Fld.EVF_GPIO_TASK_PIN m.val)))) with
    | some v => (c.onFab fun f => { f with gpioTasks := [] }).setB (gpioOut (c.f (Fld.EVF_GPIO_TASK_PIN m.val))) v
    | none => c.onFab fun f => { f with gpioTasks := [] } := by
  rw [gpioEnd_one _ m rfl]
  exact gpioAct_eq (c.onFab fun f => { f with gpioTasks := [] }) m.val h

theorem fire_software (k payload : Nat) (hon : c.isOn .evf = true) : ∃ x ∈ (c.fire (0xF0 + k) (some payload)).fab.fired,
    x.source = 0xF0 + k ∧ x.payload = some payload ∧ x.due = c.now + 1 := by
  rw [Chip.fire, if_pos hon]
  exact ⟨_, List.mem_append_right _ (List.mem_singleton_self _), rfl, rfl, if_pos (Nat.le_add_right _ _)⟩

end Sys2Proof.Machine
end

section
namespace Sys2Proof
open Machine

/-- Settles O15 by the equation of each function: an edge that is selected, a lone task at the end of its tick, a software event. -/
theorem pinsAndSoftwareEvents : Obligations.PinsAndSoftwareEvents := by
  unfold Obligations.PinsAndSoftwareEvents
  intro s hon
  refine ⟨fun p level h => ⟨fun hsel => next_chip ?_, fun hsel => next_chip ?_⟩, fun m => ?_, fun m h => next_chip (gpioTask_ignored _ _ h),
    fun k v => ⟨fun hk => ?_, fun hk => next_chip ?_⟩⟩
  · rw [gpioEdge_changed _ p level h, if_pos hsel]; rfl
  · rw [gpioEdge_changed _ p level h, if_neg (by rw [hsel]; exact Bool.false_ne_true)]; rfl
  · intro p act hn hq
    have hrun : exec (.gpioTask m) s = .next { s with chip := s.chip.onFab fun f => { f with gpioTasks := [m.val] } } :=
      next_chip (gpioTask_waits _ _ hon hn hq)
    have hend := gpioEnd_task s.chip m hn
    refine ⟨hrun, _, hrun, rfl, ?_, fun h => ?_, fun h => ?_, fun h => ?_, fun h => ?_, fun h hp h7 hs hl hf ho => ⟨padState_driven _ p h7 hs hl hf ho, ?_⟩⟩ <;>
      dsimp only <;> rw [hend]
    · split <;> rfl
    · rw [show s.chip.f (Fld.EVF_GPIO_TASK_ACTION m.val) = 1 from h]; rfl
    · rw [show s.chip.f (Fld.EVF_GPIO_TASK_ACTION m.val) = 2 from h]; rfl
    · rw [show s.chip.f (Fld.EVF_GPIO_TASK_ACTION m.val) = 3 from h]; rfl
    · rw [show s.chip.f (Fld.EVF_GPIO_TASK_ACTION m.val) = 0 from h]; rfl
    · rw [show s.chip.f (Fld.EVF_GPIO_TASK_ACTION m.val) = 3 from h]
      exact padState_setOut (s.chip.onFab fun f => { f with gpioTasks := [] }) _ hp h7 hs hl hf ho
  · have hw : swFire k.val v.toNat s.chip = s.chip.fire (0xF0 + k.val) (some v.toNat) := by
      rw [swFire, if_neg (by simp [hon]; omega), Nat.mod_eq_of_lt v.isLt]
    refine ⟨_, rfl, ?_⟩
    dsimp only
    rw [hw]
    exact ⟨fire_software _ _ _ hon, Chip.fire_regs _ _ _ _⟩
  · rw [swFire, if_pos (by simp [hk])]

end Sys2Proof
end

section
/-! SUPPORT. Gang events (R280, R291, R292). -/

namespace Sys2Proof.Machine

variable (c : Chip)

@[simp] theorem sendFrame_regs (t : Nat) (b : Bool) (d o : Nat) (ws : List Word) : (sendFrame t b d o ws c).regs = c.regs := (rfl)
@[simp] theorem sendFrame_fab (t : Nat) (b : Bool) (d o : Nat) (ws : List Word) : (sendFrame t b d o ws c).fab = c.fab := (rfl)
@[simp] theorem sendFrame_now (t : Nat) (b : Bool) (d o : Nat) (ws : List Word) : (sendFrame t b d o ws c).now = c.now := (rfl)

/-- A status bit that is raised changes what has been set and what has fired of the fabric, and no more. -/
theorem raise_fab (b : Block) (k : Nat) : ∃ l l', (c.raise b k).fab = { c.fab with
    justSet := l
    fired := l' } := by
  obtain ⟨l, hl⟩ := setFlag_fab c b.status k
  unfold Chip.raise
  dsimp only
  split
  · obtain ⟨l', hl'⟩ := fire_fab (c.setFlag b.status k) b.source none (2 ^ k)
    exact ⟨l, l', by rw [hl', hl]⟩
  · exact ⟨l, _, hl⟩

theorem raise_fab_gang (b : Block) (k : Nat) : (c.raise b k).fab.gang = c.fab.gang := by
  obtain ⟨l, l', h⟩ := raise_fab c b k
  rw [h]

theorem setFlag_fab_gang (a k : Nat) : (c.setFlag a k).fab.gang = c.fab.gang := by
  obtain ⟨l, h⟩ := setFlag_fab c a k
  rw [h]

theorem fire_fab_gang (n : Nat) (p : Option Nat) (k : Nat) : (c.fire n p k).fab.gang = c.fab.gang := by
  obtain ⟨l, h⟩ := fire_fab c n p k
  rw [h]

/-! GANG_OUT. -/

/-- The chip that has noted and counted an event of a gang line. -/
def gangCounted (k : Nat) (c : Chip) : Chip :=
  (c.onFab fun f => { f with gangLast := Store.put 0 f.gangLast k (c.now + 1) }).bump Fld.EVF_GANG_COUNTS_SENT

/-- … and has sent it. -/
def gangSent (k payload : Nat) (c : Chip) : Chip :=
  sendFrame 3 true 0 k [.grain c.now, .bits (payload % 2 ^ 22)] (gangCounted k c)

/-- A line is free from 16 gr after its last event (R280; log entry 44). -/
theorem gangOut_accepts (k payload : Nat) (hon : c.isOn .evf = true) (hch : c.isOn .chain = true)
    (h : Store.get 0 c.fab.gangLast k = 0 ∨ Store.get 0 c.fab.gangLast k + 16 ≤ c.now + 1) : gangOut k payload c =
    holdGang k ((gangSent k payload c).f Fld.SYS_STATE_CHIP_NUMBER) payload (c.now + (gangSent k payload c).gangDelay c.now)
      (gangSent k payload c) := by
  refine if_neg ?_
  rw [hon, hch]
  rcases h with h | h <;> simp [h]
  omega

theorem gangOut_busy (k payload : Nat) (h0 : Store.get 0 c.fab.gangLast k ≠ 0) (h : c.now + 1 < Store.get 0 c.fab.gangLast k + 16) :
    gangOut k payload c = c.overrun (128 + k) := if_pos (by simp [h0, h])

@[simp] theorem gangCounted_fab (k : Nat) : (gangCounted k c).fab = { c.fab with gangLast := Store.put 0 c.fab.gangLast k (c.now + 1) } := by
  simp [gangCounted]

@[simp] theorem gangCounted_now (k : Nat) : (gangCounted k c).now = c.now := by simp [gangCounted]
@[simp] theorem gangCounted_gang (k : Nat) : (gangCounted k c).gang = c.gang := by simp [gangCounted]

theorem gangCounted_chip (k : Nat) : (gangCounted k c).f Fld.SYS_STATE_CHIP_NUMBER = c.f Fld.SYS_STATE_CHIP_NUMBER := by
  simp (disch := decide) [gangCounted, Chip.f_regs, Chip.bump_regs]
  split <;> simp

theorem gangCounted_delayReg (k : Nat) : (gangCounted k c).regN Reg.EVF_GANG_DELAY = c.regN Reg.EVF_GANG_DELAY := by
  simp (disch := decide) [gangCounted, Chip.regN_regs, Chip.bump_regs]
  split <;> simp

theorem gangCounted_delay (k : Nat) (stamp : Int) : (gangCounted k c).gangDelay stamp = c.gangDelay stamp := by
  unfold Chip.gangDelay
  rw [gangCounted_fab, gangCounted_delayReg]

theorem gangCounted_count (k : Nat) : (gangCounted k c).f Fld.EVF_GANG_COUNTS_SENT =
    min (c.f Fld.EVF_GANG_COUNTS_SENT + 1) (2 ^ Fld.EVF_GANG_COUNTS_SENT.w - 1) := Chip.bump_f _ _ (by decide)

/-- The frame that carries the event. -/
theorem gangSent_gang (k payload : Nat) : (∃ f, (gangSent k payload c).gang.waiting = c.gang.waiting ++ [f] ∧ f.type = 3 ∧ f.bcast = true ∧
      f.op = k ∧ f.src = c.f Fld.SYS_STATE_CHIP_NUMBER ∧ f.seq = c.gang.seq ∧ f.words = [.grain c.now, .bits (payload % 2 ^ 22)]) ∧
    (gangSent k payload c).gang.seq = (c.gang.seq + 1) % 256 := by
  simp only [gangSent, sendFrame, gangCounted_gang, gangCounted_chip]
  exact ⟨⟨_, rfl, rfl, rfl, rfl, rfl, rfl, rfl⟩, trivial⟩

/-- An event whose delivery grain is to come is held for it. -/
theorem holdGang_ahead (line chip payload due : Nat) (h : c.now ≤ due) : holdGang line chip payload due c =
    c.onFab fun f => { f with gang := f.gang ++ [⟨line, chip, payload % 2 ^ 22, due, false⟩] } := by
  simp only [holdGang, decide_eq_false (Nat.not_lt.mpr h)]
  rfl

/-! GANG_IN. -/

theorem gangInLine_none (k : Nat) (h : (c.fab.gang.filter fun e => e.line == k && decide (e.due ≤ c.now)) = []) : gangInLine k c = c := by
  unfold gangInLine
  rw [h]

/-- The chip that has taken the only event it held. -/
def gangTaken (e : GangEvent) (c : Chip) : Chip :=
  let c1 := c.onFab fun f => { f with gang := [] }
  if e.late then ((c1.bump Fld.EVF_GANG_COUNTS_LATE).setFlag Reg.EVF_GANG_STATUS e.line).raise .evf 2 else c1

/-- The one event held fires on its line. -/
theorem gangInLine_one (e : GangEvent) (h : c.fab.gang = [e]) (hd : e.due ≤ c.now) :
    gangInLine e.line c = (gangTaken e c).fire (0xE0 + e.line) (some (e.chip * 2 ^ 22 + e.payload)) := by
  have hdue : (c.fab.gang.filter fun x => x.line == e.line && decide (x.due ≤ c.now)) = [e] := by simp [h, hd]
  have hrest : (c.onFab fun f => { f with gang := f.gang.filter fun x => ! (x.line == e.line && x.due == e.due) }) =
      c.onFab fun f => { f with gang := [] } := by simp [Chip.onFab, h]
  unfold gangInLine gangTaken
  simp only [hdue, List.foldl_cons, List.foldl_nil, min_self, List.filter_cons, List.filter_nil, BEq.rfl, if_true,
    List.headD_cons, List.length_cons, List.length_nil, hrest, List.any_cons, List.any_nil, Bool.or_false]
  simp

theorem foldl_gangInLine_idle (ks : List Nat) (h : ∀ k ∈ ks, (c.fab.gang.filter fun e => e.line == k && decide (e.due ≤ c.now)) = []) :
    ks.foldl (fun c k => gangInLine k c) c = c := by
  induction ks with
  | nil => rfl
  | cons k ks ih =>
    rw [List.foldl_cons, gangInLine_none c k (h k (List.mem_cons_self ..))]
    exact ih fun j hj => h j (List.mem_cons_of_mem _ hj)

theorem gangTaken_gang (e : GangEvent) : (gangTaken e c).fab.gang = [] := by
  unfold gangTaken
  split
  · rw [raise_fab_gang, setFlag_fab_gang, Chip.bump_fab]; rfl
  · rfl

theorem gangTaken_islands (e : GangEvent) : (gangTaken e c).islands = c.islands := by
  unfold gangTaken
  split <;> simp

/-- A late event is counted and raised. -/
theorem gangTaken_late (e : GangEvent) (h : e.late = true) (hl : e.line < 16) :
    (gangTaken e c).f Fld.EVF_GANG_COUNTS_LATE = min (c.f Fld.EVF_GANG_COUNTS_LATE + 1) (2 ^ Fld.EVF_GANG_COUNTS_LATE.w - 1) ∧
    (gangTaken e c).b ⟨Reg.EVF_GANG_STATUS, e.line, 1⟩ = true ∧ (gangTaken e c).b ⟨Reg.EVF_INT_STATUS, 2, 1⟩ = true := by
  unfold gangTaken
  simp only [h, if_true]
  refine ⟨?_, ?_, ?_⟩
  · rw [← Chip.bump_f c Fld.EVF_GANG_COUNTS_LATE (by decide)]
    simp (disch := simp) only [Chip.f_regs, Chip.raise_regs_put, Chip.setFlag_regs_put, Block.evf_status, regF_putF_ne]
    simp [Chip.bump_regs]
  · simp (disch := simp) only [Chip.b_regs, Chip.raise_regs_put, Chip.setFlag_regs_put, Block.evf_status, regF_putF_ne]
    rw [regF_putF _ _ _ (by dsimp only; omega)]
    rfl
  · rw [Chip.b_regs, Chip.raise_regs_put, Block.evf_status, regF_putF _ _ _ (by decide)]
    rfl

/-- GANG_IN_FIRE of one event held. -/
theorem gangInFire_one (e : GangEvent) (hon : c.isOn .evf = true) (h : c.fab.gang = [e]) (hl : e.line < 16) (hd : e.due ≤ c.now) :
    gangInFire c = (gangTaken e c).fire (0xE0 + e.line) (some (e.chip * 2 ^ 22 + e.payload)) := by
  have hsplit : List.range 16 = List.range e.line ++ e.line :: (List.range (15 - e.line)).map (e.line + 1 + ·) := by
    obtain ⟨line, chip, payload, due, late⟩ := e
    dsimp only at hl ⊢
    interval_cases line <;> rfl
  have hgang : ((gangTaken e c).fire (0xE0 + e.line) (some (e.chip * 2 ^ 22 + e.payload))).fab.gang = [] := by
    rw [fire_fab_gang, gangTaken_gang]
  rw [gangInFire, if_pos hon, hsplit, List.foldl_append, List.foldl_cons, foldl_gangInLine_idle c, gangInLine_one c e h hd,
    foldl_gangInLine_idle]
  · intro k _
    rw [hgang]; rfl
  · intro k hk
    have hne : ¬ e.line = k := by have := List.mem_range.mp hk; omega
    simp [h, hne]

theorem gangInFire_none (h : c.fab.gang = []) : gangInFire c = c := by
  unfold gangInFire
  split
  · exact foldl_gangInLine_idle c _ fun k _ => by rw [h]; rfl
  · rfl

end Sys2Proof.Machine
end

section
namespace Sys2Proof
open Machine

/-- Settles O16: an event accepted is counted, sent and held; the one event held fires on its line. -/
theorem gangEvents : Obligations.GangEvents := by
  unfold Obligations.GangEvents
  intro s hon
  refine ⟨fun k v hch h => ?_, fun k v _ h0 h => next_chip (gangOut_busy _ _ _ h0 h), fun e h hl hd => ?_,
    fun h => next_chip (gangInFire_none _ h)⟩
  · have hchip : (gangSent k.val v.toNat s.chip).f Fld.SYS_STATE_CHIP_NUMBER = s.chip.f Fld.SYS_STATE_CHIP_NUMBER :=
      gangCounted_chip s.chip k.val
    have hdelay : (gangSent k.val v.toNat s.chip).gangDelay s.chip.now = s.chip.gangDelay s.chip.now :=
      gangCounted_delay s.chip k.val _
    have hnow : (gangSent k.val v.toNat s.chip).now = s.chip.now := gangCounted_now s.chip k.val
    obtain ⟨hframe, hseq⟩ := gangSent_gang s.chip k.val v.toNat
    have hfab : (gangSent k.val v.toNat s.chip).fab = _ := gangCounted_fab s.chip k.val
    refine ⟨_, rfl, ?_⟩
    dsimp only
    rw [gangOut_accepts _ _ _ hon hch h, hchip, hdelay, holdGang_ahead (gangSent k.val v.toNat s.chip) _ _ _ _ (hnow ▸ Nat.le_add_right _ _)]
    refine ⟨hframe, ⟨⟨k.val, s.chip.f Fld.SYS_STATE_CHIP_NUMBER, v.toNat % 2 ^ 22, s.chip.now + s.chip.gangDelay s.chip.now, false⟩, ?_,
      rfl, rfl, rfl, rfl, fun hd => ?_, rfl⟩, ?_, gangCounted_count s.chip k.val, hseq⟩
    · rw [Chip.onFab_fab, hfab]
    · rw [Chip.gangDelay, hd]; rfl
    · rw [Chip.onFab_fab, hfab]
      exact Store.get_put_same 0 s.chip.fab.gangLast k.val (s.chip.now + 1)
  · have hisl : (gangTaken e s.chip).isOn .evf = true := by rw [Chip.isOn_islands, gangTaken_islands, ← Chip.isOn_islands, hon]
    refine ⟨_, rfl, ?_⟩
    dsimp only
    rw [gangInFire_one _ e hon h hl hd]
    refine ⟨by rw [fire_fab_gang, gangTaken_gang], fire_hasFired _ _ _ _ hisl, fun hlate => ?_, fun hlate => ?_⟩
    · rw [Chip.fire_f, (gangTaken_late _ e hlate hl).1]
    · rw [Chip.fire_b, Chip.fire_b]
      exact (gangTaken_late _ e hlate hl).2

end Sys2Proof
end

section
/-! SUPPORT. The pass of the event fabric in a chip without cells (R276, R281 to R285). -/

namespace Sys2Proof.Machine

variable (c : Chip)

/-- The sources that take part in the pass of a tick (R281). -/
def Chip.firedHere (c : Chip) : List Fired := c.fab.fired.filter fun x => decide (x.due ≤ c.now)

/-- … in the order of their numbers, the masked ones left out (R282, R284). -/
def Chip.passing (c : Chip) : List Fired :=
  (c.firedHere.filter fun x => ! c.srcMasked x.source).foldl (fun l x => insertFired x l) []

/-- The chip whose pass has taken the sources, before it delivers. -/
def passTaken (c : Chip) : Chip :=
  refreshCells [] (c.onFab fun f => { f with
    fired := f.fired.filter fun x => ! decide (x.due ≤ c.now)
    passed := true })

theorem Chip.cellRounds_none (h : c.cellsOn = []) (fired : List Fired) (k : Nat) : c.cellRounds fired k [] = [] := by
  induction k with
  | zero => rfl
  | succ k ih => rw [Chip.cellRounds, Chip.cellRound, h, List.map_nil, ih]

theorem Chip.cellOuts_none (h : c.cellsOn = []) (fired : List Fired) : c.cellOuts fired = [] := by
  rw [Chip.cellOuts, h, List.map_nil]
  exact Chip.cellRounds_none c h _ _

theorem fabricPass_made (h : c.fab.passed = true) : fabricPass c = c := by simp [fabricPass, h]

/-- The delivery of the events of a pass to the task inputs (R282). -/
def passDeliver (events : List (Nat × Word)) (c : Chip) : Chip :=
  if events.isEmpty then c else (List.range 160).foldl (fun c t => deliverTask events t c) c

/-- The pass in a chip without cells. -/
theorem fabricPass_noCells (hon : c.isOn .evf = true) (hp : c.fab.passed = false) (h : c.cellsOn = []) : fabricPass c =
    passDeliver (c.passing.map fun x => (x.source, c.eventWord x)) (passTaken c) := by
  have hgo : ¬ ((! c.isOn .evf || c.fab.passed) = true) := by simp [hon, hp]
  have houts : ∀ g fired, (c.onFab g).cellOuts fired = [] := fun g fired => Chip.cellOuts_none (c.onFab g) h fired
  have hcells : ∀ g, (c.onFab g).cellsOn = [] := fun _ => h
  unfold fabricPass
  rw [if_neg hgo]
  simp only [h, List.foldl_nil, houts, hcells, List.filter_nil, List.map_nil, List.append_nil]
  rfl

@[simp] theorem refreshCells_fab (outs : List (Nat × Bool)) : (refreshCells outs c).fab = c.fab := (rfl)
@[simp] theorem refreshCells_now (outs : List (Nat × Bool)) : (refreshCells outs c).now = c.now := (rfl)
@[simp] theorem refreshCells_recipe (outs : List (Nat × Bool)) : (refreshCells outs c).recipe = c.recipe := (rfl)

theorem refreshCells_reg (outs : List (Nat × Bool)) (a : Nat) (h1 : a ≠ Reg.EVF_CELL_OUT_LO) (h2 : a ≠ Reg.EVF_CELL_OUT_HI) :
    (refreshCells outs c).reg a = c.reg a := by
  simp [refreshCells, Chip.reg_regs, h1, h2]

theorem passTaken_reg (a : Nat) (h1 : a ≠ Reg.EVF_CELL_OUT_LO) (h2 : a ≠ Reg.EVF_CELL_OUT_HI) : (passTaken c).reg a = c.reg a :=
  refreshCells_reg _ _ a h1 h2

theorem passTaken_fab : (passTaken c).fab = { c.fab with
    fired := c.fab.fired.filter fun x => ! decide (x.due ≤ c.now)
    passed := true } := (rfl)

/-- The count of a timer is not touched by the cells' outputs. -/
theorem passTaken_tmrCount (t : Fin 16) : (passTaken c).tmrCount t.val = c.tmrCount t.val := by
  have ha : ∀ t : Fin 16, Reg.TMR_CTRL t.val ≠ Reg.EVF_CELL_OUT_LO ∧ Reg.TMR_CTRL t.val ≠ Reg.EVF_CELL_OUT_HI ∧
      Reg.TMR_COUNT t.val ≠ Reg.EVF_CELL_OUT_LO ∧ Reg.TMR_COUNT t.val ≠ Reg.EVF_CELL_OUT_HI := by decide
  obtain ⟨-, -, h3, h4⟩ := ha t
  have hctrl : ∀ (u : Fin 16) (x : Field), x.reg = Reg.TMR_CTRL u.val → (passTaken c).b x = c.b x := fun u x hx => by
    rw [Chip.b, Chip.f, passTaken_reg c x.reg (hx ▸ (ha u).1) (hx ▸ (ha u).2.1)]
    rfl
  have hchain : (passTaken c).tmrChainedOdd t.val = c.tmrChainedOdd t.val := by
    rw [Chip.tmrChainedOdd, Chip.tmrChainedOdd, hctrl ⟨t.val - 1, by omega⟩ (Fld.TMR_CTRL_CHAIN (t.val - 1)) rfl]
  unfold Chip.tmrCount Chip.tmrMirror
  rw [hctrl t (Fld.TMR_CTRL_MODE t.val) rfl, hchain, passTaken_reg _ _ h3 h4]
  rfl

/-- An event delivered to a task input that no route names changes nothing. -/
theorem deliverTask_unrouted (events : List (Nat × Word)) (task : Nat) (h : ∀ r ∈ c.routes, r.task ≠ task) :
    deliverTask events task c = c := by
  have hnone : c.reaching task events = [] := by
    rw [Chip.reaching, List.map_eq_nil_iff, List.filter_eq_nil_iff]
    intro e _
    simp only [List.any_eq_true, Bool.and_eq_true, beq_iff_eq, not_exists, not_and]
    exact fun r hr ht => absurd ht (h r hr)
  rw [deliverTask, hnone]

theorem foldl_deliverTask_unrouted (events : List (Nat × Word)) (ts : List Nat) (h : ∀ t ∈ ts, ∀ r ∈ c.routes, r.task ≠ t) :
    ts.foldl (fun c t => deliverTask events t c) c = c := by
  induction ts with
  | nil => rfl
  | cons t ts ih =>
    rw [List.foldl_cons, deliverTask_unrouted c events t (h t (List.mem_cons_self ..))]
    exact ih fun u hu => h u (List.mem_cons_of_mem _ hu)

/-- A lone event on the one route of a recipe is delivered to its task input. -/
theorem foldl_deliverTask_one {n task : Nat} (w : Word) (hr : c.routes = [⟨task, n⟩]) (ht : task < 160)
    (hkeep : (deliver task w c).routes = c.routes) :
    (List.range 160).foldl (fun c t => deliverTask [(n, w)] t c) c = deliver task w c := by
  have hsplit : List.range 160 = List.range task ++ (task :: List.range' (task + 1) (159 - task)) := by
    rw [List.range_eq_range', List.range_eq_range', ← List.range'_succ,
      show 160 = task + (159 - task + 1) by omega, ← List.range'_append_1]
    simp
  have hone : deliverTask [(n, w)] task c = deliver task w c := by simp [deliverTask, Chip.reaching, hr]
  rw [hsplit, List.foldl_append, foldl_deliverTask_unrouted c, List.foldl_cons, hone, foldl_deliverTask_unrouted]
  · intro t h r hr'
    rw [hkeep, hr, List.mem_singleton] at hr'
    have := List.left_le_of_mem_range' h
    rw [hr']
    dsimp only
    omega
  · intro t h r hr'
    rw [hr, List.mem_singleton] at hr'
    have := List.mem_range.mp h
    rw [hr']
    dsimp only
    omega

/-- R280: the SNAP task input of a timer. -/
theorem deliver_snap (t : Fin 16) (w : Word) : deliver (32 + 4 * t.val + 3) w c = tmrSnap t.val c := by
  have ht := t.isLt
  have h1 : (32 + 4 * t.val + 3 - 32) / 4 = t.val := by omega
  have h2 : (32 + 4 * t.val + 3 - 32) % 4 = 3 := by omega
  rw [deliver, if_neg (by omega), if_pos (by omega)]
  simp only [h1, h2]

/-- CELL_FILTER_CHANGE of an enabled cell. -/
theorem cellFilterChange_on (i : Nat) (x : CellRec) (hon : c.isOn .evf = true) (h : (c.cellsOn.find? fun e => e.1 == i) = some (i, x)) :
    cellFilterChange i c = filterStep (i, x) c := by
  rw [cellFilterChange, h]
  simp [hon]

end Sys2Proof.Machine
end

section
namespace Sys2Proof
open Machine

/-- Settles O17: the sources that take part are none or the one that fired, delivered on the one route. -/
theorem fabricPass : Obligations.FabricPass := by
  unfold Obligations.FabricPass
  intro s hon
  refine ⟨fun h => next_chip (fabricPass_made _ h), fun r x t hr hcells hp hx hroute => ?_, fun ix x hfind hpos hlen => next_chip ?_,
    fun ix x hfind hlen => next_chip ?_⟩
  · have hpass := fabricPass_noCells s.chip hon hp hcells
    have hsnap : ∀ t : Fin 16, Reg.TMR_SNAPV t.val ≠ Reg.EVF_CELL_OUT_LO ∧ Reg.TMR_SNAPV t.val ≠ Reg.EVF_CELL_OUT_HI := by decide
    have hkept : (passTaken s.chip).reg (Reg.TMR_SNAPV t.val) = s.chip.reg (Reg.TMR_SNAPV t.val) :=
      passTaken_reg _ _ (hsnap t).1 (hsnap t).2
    refine ⟨fun hd => ?_, fun hd hm => ?_, fun hd hm => ?_⟩ <;> refine ⟨_, rfl, ?_⟩ <;> dsimp only <;> rw [hpass]
    · have hnone : s.chip.passing = [] := by simp [Chip.passing, Chip.firedHere, hx, hd]
      rw [hnone]
      exact ⟨by change (passTaken s.chip).fab.fired = _; rw [passTaken_fab]; simp [hx, hd], rfl, hkept⟩
    · have hone : s.chip.passing = [x] := by simp [Chip.passing, Chip.firedHere, hx, hd, hm, insertFired]
      have hroutes : (passTaken s.chip).routes = [⟨32 + 4 * t.val + 3, x.source⟩] := by
        rw [Chip.routes, show (passTaken s.chip).recipe = some r from hr]
        exact hroute
      rw [hone, List.map_singleton, passDeliver, if_neg (by simp), foldl_deliverTask_one _ _ hroutes (by omega) (by rw [deliver_snap]; rfl), deliver_snap]
      refine ⟨?_, rfl, ?_⟩
      · change (passTaken s.chip).fab.fired = []
        rw [passTaken_fab]
        simp [hx, hd]
      · rw [tmrSnap, takeSnap, Chip.reg_setReg, if_pos rfl, onTick_tmrCount, passTaken_tmrCount]
    · have hnone : s.chip.passing = [] := by simp [Chip.passing, Chip.firedHere, hx, hd, hm]
      rw [hnone]
      exact ⟨by change (passTaken s.chip).fab.fired = _; rw [passTaken_fab]; simp [hx, hd], rfl, hkept⟩
  · rw [cellFilterChange_on _ _ x hon hfind, filterStep]
    by_cases h : (s.chip.cellSt ix.val).run = (s.chip.cellSt ix.val).filt
    · rw [if_pos h, if_neg (fun hc => hc.2.2 h)]
    · rw [if_neg h, if_pos ⟨hpos, hlen, h⟩]
  · rw [cellFilterChange_on _ _ x hon hfind, filterStep, if_neg (fun hc => absurd hc.2.1 (Nat.not_le.mpr hlen))]

end Sys2Proof
end

section
/-! SUPPORT. Check units: octets folded, ends and tasks (R305 to R311). -/

namespace Sys2Proof.Machine

variable (c : Chip)

/-! A count that goes up leaves the other fields alone. -/

@[simp] theorem regGet_bump_ne (x : Field) (a : Nat) (h : a ≠ x.reg) : regGet (c.bump x).regs a = regGet c.regs a := by
  rw [Chip.bump_regs]
  split
  · exact regGet_putF_ne _ _ _ _ h
  · rfl

@[simp] theorem regNat_bump_ne (x : Field) (a : Nat) (h : a ≠ x.reg) : regNat (c.bump x).regs a = regNat c.regs a := by
  rw [regNat, regGet_bump_ne c x a h, regNat]

@[simp] theorem regF_bump_ne (x y : Field)
    (h : y.reg ≠ x.reg ∨ (y.lo + y.w ≤ 36 ∧ (y.lo + y.w ≤ x.lo ∨ x.lo + x.w ≤ y.lo))) : regF (c.bump x).regs y = regF c.regs y := by
  rw [Chip.bump_regs]
  split
  · exact regF_putF_ne _ _ _ _ h
  · rfl

@[simp] theorem Chip.setChk_regs (n : Nat) (u : ChkUnit) : (c.setChk n u).regs = c.regs := (rfl)
@[simp] theorem Chip.setChk_islands (n : Nat) (u : ChkUnit) : (c.setChk n u).islands = c.islands := (rfl)

/-! ### Octets -/

/-- An octet folded where no length ends the stream. -/
theorem chkOctet_keeps (n o : Nat) (h : c.f (Fld.CHK_CTRL_END_MODE n) = 0) : (chkOctet n c o).chk = c.chk ∧
    ∀ a, a ≠ Reg.CHK_VALUE n → a ≠ Reg.CHK_COUNT n → a ≠ Reg.CHK_STATUS n → (chkOctet n c o).reg a = c.reg a := by
  rw [Chip.f_regs] at h
  unfold chkOctet
  extract_lets c1 c2
  have h1 : c1.chk = c.chk ∧ ∀ a, a ≠ Reg.CHK_VALUE n → c1.reg a = c.reg a := by
    unfold c1
    split
    · exact ⟨rfl, fun _ _ => rfl⟩
    · exact ⟨rfl, fun a ha => regGet_putN_ne _ _ _ _ ha⟩
  have h2 : c2.chk = c.chk ∧ ∀ a, a ≠ Reg.CHK_VALUE n → a ≠ Reg.CHK_COUNT n → a ≠ Reg.CHK_STATUS n → c2.reg a = c.reg a := by
    refine ⟨h1.1, fun a hv hc hs => ?_⟩
    rw [← h1.2 a hv]
    exact (regGet_putF_ne _ _ _ _ hs).trans (regGet_putN_ne _ _ _ _ hc)
  have hmode : c2.f (Fld.CHK_CTRL_END_MODE n) = 0 := by
    rw [Chip.f, h2.2 (Reg.CHK_CTRL n) (by simp) (by simp) (by simp)]
    exact h
  rw [hmode, if_neg (by simp)]
  exact h2

theorem chkOctets_keep (n : Nat) (xs : List Nat) (h : c.f (Fld.CHK_CTRL_END_MODE n) = 0) :
    (xs.foldl (chkOctet n) c).chk = c.chk ∧
    ∀ a, a ≠ Reg.CHK_VALUE n → a ≠ Reg.CHK_COUNT n → a ≠ Reg.CHK_STATUS n → (xs.foldl (chkOctet n) c).reg a = c.reg a := by
  induction xs generalizing c with
  | nil => exact ⟨rfl, fun _ _ _ _ => rfl⟩
  | cons x xs ih =>
    obtain ⟨h1, h2⟩ := chkOctet_keeps c n x h
    have hmode : (chkOctet n c x).f (Fld.CHK_CTRL_END_MODE n) = 0 := by
      rw [Chip.f, h2 (Reg.CHK_CTRL n) (by simp) (by simp) (by simp)]
      exact h
    obtain ⟨h3, h4⟩ := ih (chkOctet n c x) hmode
    exact ⟨h3.trans h1, fun a hv hc hs => (h4 a hv hc hs).trans (h2 a hv hc hs)⟩

/-! ### Ends -/

/-- The chip whose stream ended with a result (R310). -/
def chkResulted (n : Nat) (c : Chip) : Chip :=
  let r := c.setRegN (Reg.CHK_RESULT n) (c.chkResult n)
  if r.b (Fld.CHK_CTRL_COMPARE n) && r.regN (Reg.CHK_RESULT n) != r.regN (Reg.CHK_EXPECT n) then
    (r.raise (.chk n) 1).bump (Fld.CHK_COUNTS_MISMATCHES n)
  else r

/-- The chip whose stream ended without one. -/
def chkSpoiled (n : Nat) (abandoned : Bool) (c : Chip) : Chip :=
  let a := if abandoned then c.raise (.chk n) 3 else c
  if (c.chkUnit n).dropped then a.raise (.chk n) 2 else a

/-- Every end is flagged and counted. -/
def chkCounted (n : Nat) (c : Chip) : Chip := (c.raise (.chk n) 0).bump (Fld.CHK_COUNTS_ENDS n)

/-- What every end does: it is flagged and counted, and the unit reloads. -/
def chkFinish (n : Nat) (c : Chip) : Chip :=
  let d := chkReload n (chkCounted n c)
  d.setChk n { (d.chkUnit n) with endedAt := some d.now }

theorem chkEnd_result (n : Nat) (h : (c.chkUnit n).dropped = false) : chkEnd n false c = chkFinish n (chkResulted n c) := by
  simp only [chkEnd, h, Bool.or_false, Bool.false_eq_true, if_false]
  rfl

theorem chkEnd_spoiled (n : Nat) (abandoned : Bool) (h : (abandoned || (c.chkUnit n).dropped) = true) :
    chkEnd n abandoned c = chkFinish n (chkSpoiled n abandoned c) := by
  unfold chkEnd
  simp only [h, if_true]
  rfl

theorem chkReload_regs (n : Nat) : (chkReload n c).regs =
    putF (putN (putN c.regs (Reg.CHK_VALUE n) (c.regN (Reg.CHK_INIT n))) (Reg.CHK_COUNT n) 0) (Fld.CHK_STATUS_ACTIVE n) 0 := (rfl)

/-- A unit that has reloaded (R310 step 4). -/
theorem chkReload_reads (n : Nat) : (chkReload n c).regN (Reg.CHK_VALUE n) = c.regN (Reg.CHK_INIT n) ∧
    (chkReload n c).regN (Reg.CHK_COUNT n) = 0 ∧ (chkReload n c).b (Fld.CHK_STATUS_ACTIVE n) = false ∧
    (∀ a, a ≠ Reg.CHK_VALUE n → a ≠ Reg.CHK_COUNT n → a ≠ Reg.CHK_STATUS n → (chkReload n c).reg a = c.reg a) ∧
    ∀ k < 4, (chkReload n c).b ⟨Reg.CHK_STATUS n, k, 1⟩ = c.b ⟨Reg.CHK_STATUS n, k, 1⟩ := by
  simp only [Chip.regN_regs, Chip.b_regs, Chip.reg_regs, chkReload_regs]
  refine ⟨?_, ?_, ?_, fun a hv hc hs => ?_, fun k hk => ?_⟩
  · simp (disch := simp)
    exact regNat_lt _ _
  · simp (disch := simp)
  · rw [regF_putF _ _ _ (by simp)]; rfl
  · rw [regGet_putF_ne _ _ _ _ hs, regGet_putN_ne _ _ _ _ hc, regGet_putN_ne _ _ _ _ hv]
  · rw [regF_putF_ne _ _ _ _ (.inr ⟨by dsimp only; omega, .inl (by dsimp only; omega)⟩)]
    simp (disch := simp)

/-- A unit at the end of a stream, flagged and counted. -/
theorem chkCounted_reads (n : Nat) : let d := chkCounted n c
    d.regN (Reg.CHK_INIT n) = c.regN (Reg.CHK_INIT n) ∧ d.b ⟨Reg.CHK_STATUS n, 0, 1⟩ = true ∧
    d.f (Fld.CHK_COUNTS_ENDS n) = min (c.f (Fld.CHK_COUNTS_ENDS n) + 1) (2 ^ (Fld.CHK_COUNTS_ENDS n).w - 1) ∧
    d.f (Fld.CHK_COUNTS_MISMATCHES n) = c.f (Fld.CHK_COUNTS_MISMATCHES n) ∧
    d.regN (Reg.CHK_RESULT n) = c.regN (Reg.CHK_RESULT n) ∧
    ∀ k, 0 < k → k < 4 → d.b ⟨Reg.CHK_STATUS n, k, 1⟩ = c.b ⟨Reg.CHK_STATUS n, k, 1⟩ := by
  unfold chkCounted
  refine ⟨?_, ?_, ?_, ?_, ?_, fun k h0 h4 => ?_⟩
  · simp (disch := simp) only [Chip.regN_regs, regNat_bump_ne, Chip.raise_regs_put, Block.chk_status, regNat_putF_ne]
  · simp (disch := simp) only [Chip.b_regs, regF_bump_ne, Chip.raise_regs_put, Block.chk_status, regF_putF]
    rfl
  · rw [Chip.bump_f _ _ (by simp)]
    simp (disch := simp) only [Chip.f_regs, Chip.raise_regs_put, Block.chk_status, regF_putF_ne]
  · simp (disch := simp) only [Chip.f_regs, regF_bump_ne, Chip.raise_regs_put, Block.chk_status, regF_putF_ne]
  · simp (disch := simp) only [Chip.regN_regs, regNat_bump_ne, Chip.raise_regs_put, Block.chk_status, regNat_putF_ne]
  · simp (disch := simp) only [Chip.b_regs, regF_bump_ne, Chip.raise_regs_put, Block.chk_status]
    rw [regF_putF_ne _ _ _ _ (.inr ⟨by dsimp only; omega, .inr (by dsimp only; omega)⟩)]

theorem chkFinish_regs (n : Nat) : (chkFinish n c).regs = (chkReload n (chkCounted n c)).regs := by
  unfold chkFinish
  exact Chip.setChk_regs ..

/-- A unit at the end of a stream (R310): flagged, counted and reloaded. -/
theorem chkFinish_reads (n : Nat) : let d := chkFinish n c
    d.regN (Reg.CHK_VALUE n) = c.regN (Reg.CHK_INIT n) ∧ d.regN (Reg.CHK_COUNT n) = 0 ∧ d.b ⟨Reg.CHK_STATUS n, 0, 1⟩ = true ∧
    d.f (Fld.CHK_COUNTS_ENDS n) = min (c.f (Fld.CHK_COUNTS_ENDS n) + 1) (2 ^ (Fld.CHK_COUNTS_ENDS n).w - 1) ∧
    d.f (Fld.CHK_COUNTS_MISMATCHES n) = c.f (Fld.CHK_COUNTS_MISMATCHES n) ∧
    d.regN (Reg.CHK_RESULT n) = c.regN (Reg.CHK_RESULT n) ∧
    ∀ k, 0 < k → k < 4 → d.b ⟨Reg.CHK_STATUS n, k, 1⟩ = c.b ⟨Reg.CHK_STATUS n, k, 1⟩ := by
  obtain ⟨hinit, h0, hends, hmis, hres, hk⟩ := chkCounted_reads c n
  obtain ⟨hv, hcount, -, hreg, hflag⟩ := chkReload_reads (chkCounted n c) n
  have hcounts : ∀ x : Field, x.reg = Reg.CHK_COUNTS n → (chkReload n (chkCounted n c)).f x = (chkCounted n c).f x := fun x hx =>
    congrArg (fun w => w.field x.lo x.w) (hreg x.reg (by rw [hx]; simp) (by rw [hx]; simp) (by rw [hx]; simp))
  have hkeep := hreg (Reg.CHK_RESULT n) (by simp) (by simp) (by simp)
  simp only [Chip.regN_regs, Chip.b_regs, Chip.f_regs, chkFinish_regs] at *
  refine ⟨hv.trans hinit, hcount, (hflag 0 (by omega)).trans h0, (hcounts (Fld.CHK_COUNTS_ENDS n) rfl).trans hends,
    (hcounts (Fld.CHK_COUNTS_MISMATCHES n) rfl).trans hmis, (congrArg Word.nat hkeep).trans hres,
    fun k h0 h4 => (hflag k h4).trans (hk k h0 h4)⟩

/-- A stream that ends with a result. -/
theorem chkResulted_reads (n : Nat) : let d := chkResulted n c
    d.regN (Reg.CHK_RESULT n) = c.chkResult n % 2 ^ 36 ∧ d.regN (Reg.CHK_INIT n) = c.regN (Reg.CHK_INIT n) ∧
    d.f (Fld.CHK_COUNTS_ENDS n) = c.f (Fld.CHK_COUNTS_ENDS n) ∧
    (c.b (Fld.CHK_CTRL_COMPARE n) = true → c.chkResult n % 2 ^ 36 ≠ c.regN (Reg.CHK_EXPECT n) →
      d.b ⟨Reg.CHK_STATUS n, 1, 1⟩ = true ∧
      d.f (Fld.CHK_COUNTS_MISMATCHES n) = min (c.f (Fld.CHK_COUNTS_MISMATCHES n) + 1) (2 ^ (Fld.CHK_COUNTS_MISMATCHES n).w - 1)) := by
  have hcmp : (c.setRegN (Reg.CHK_RESULT n) (c.chkResult n)).b (Fld.CHK_CTRL_COMPARE n) = c.b (Fld.CHK_CTRL_COMPARE n) := by
    simp (disch := simp) only [Chip.b_regs, Chip.setRegN_regs, regF_putN_ne]
  have hres : (c.setRegN (Reg.CHK_RESULT n) (c.chkResult n)).regN (Reg.CHK_RESULT n) = c.chkResult n % 2 ^ 36 := regNat_putN _ _ _
  have hexp : (c.setRegN (Reg.CHK_RESULT n) (c.chkResult n)).regN (Reg.CHK_EXPECT n) = c.regN (Reg.CHK_EXPECT n) :=
    regNat_putN_ne _ _ _ _ (by simp)
  unfold chkResulted
  dsimp only
  rw [hcmp, hres, hexp]
  split
  · refine ⟨?_, ?_, ?_, fun _ _ => ⟨?_, ?_⟩⟩
    · simp (disch := simp) only [Chip.regN_regs, regNat_bump_ne, Chip.raise_regs_put, Block.chk_status, regNat_putF_ne,
        Chip.setRegN_regs, regNat_putN]
    · simp (disch := simp) only [Chip.regN_regs, regNat_bump_ne, Chip.raise_regs_put, Block.chk_status, regNat_putF_ne,
        Chip.setRegN_regs, regNat_putN_ne]
    · simp (disch := simp) only [Chip.f_regs, regF_bump_ne, Chip.raise_regs_put, Block.chk_status, regF_putF_ne,
        Chip.setRegN_regs, regF_putN_ne]
    · simp (disch := simp) only [Chip.b_regs, regF_bump_ne, Chip.raise_regs_put, Block.chk_status, regF_putF]
      rfl
    · rw [Chip.bump_f _ _ (by simp)]
      simp (disch := simp) only [Chip.f_regs, Chip.raise_regs_put, Block.chk_status, regF_putF_ne, Chip.setRegN_regs, regF_putN_ne]
  case isFalse hc =>
    refine ⟨hres, ?_, ?_, fun h1 h2 => absurd ?_ hc⟩
    · exact regNat_putN_ne _ _ _ _ (by simp)
    · simp (disch := simp) only [Chip.f_regs, Chip.setRegN_regs, regF_putN_ne]
    · rw [h1, Bool.true_and, bne_iff_ne]
      exact h2

/-- A stream that ends without one: what spoiled it is flagged, and RESULT stays. -/
theorem chkSpoiled_reads (n : Nat) (abandoned : Bool) : let d := chkSpoiled n abandoned c
    d.regN (Reg.CHK_RESULT n) = c.regN (Reg.CHK_RESULT n) ∧
    (abandoned = true → d.b ⟨Reg.CHK_STATUS n, 3, 1⟩ = true) ∧
    ((c.chkUnit n).dropped = true → d.b ⟨Reg.CHK_STATUS n, 2, 1⟩ = true) := by
  unfold chkSpoiled
  have hput : ∀ (e : Chip) (k : Nat), (e.raise (.chk n) k).regN (Reg.CHK_RESULT n) = e.regN (Reg.CHK_RESULT n) := fun e k => by
    simp (disch := simp) only [Chip.regN_regs, Chip.raise_regs_put, Block.chk_status, regNat_putF_ne]
  have hset : ∀ (e : Chip) (k : Nat), k < 4 → (e.raise (.chk n) k).b ⟨Reg.CHK_STATUS n, k, 1⟩ = true := fun e k hk => by
    rw [Chip.b_regs, Chip.raise_regs_put, Block.chk_status, regF_putF _ _ _ (by dsimp only; omega)]
    rfl
  have hkept : ∀ e : Chip, (e.raise (.chk n) 2).b ⟨Reg.CHK_STATUS n, 3, 1⟩ = e.b ⟨Reg.CHK_STATUS n, 3, 1⟩ := fun e => by
    simp (disch := simp) only [Chip.b_regs, Chip.raise_regs_put, Block.chk_status, regF_putF_ne]
  cases abandoned <;> cases hdrop : (c.chkUnit n).dropped <;>
    simp only [Bool.false_eq_true, if_false, if_true, hput, hset, hkept, false_implies, and_true, Nat.reduceLT, forall_const]

/-! ### Tasks and stream ends -/

theorem chkTaskRow_other (n act : Nat) (h : c.f (Fld.CHK_CTRL_TASK n) ≠ act) : chkTaskRow n act c = c := if_neg h

theorem chkTaskRow_waits (n act : Nat) (h : c.f (Fld.CHK_CTRL_TASK n) = act) (hon : c.isOn .link = true) (hb : c.chkBusy n = false) :
    chkTaskRow n act c = c.onFab fun f => { f with chkTasks := f.chkTasks ++ [(n, act)] } := by
  rw [chkTaskRow, if_pos h, chkTaskInput, if_neg (by simp [hb, hon])]
  rfl

theorem chkTaskRow_busy (n act : Nat) (h : c.f (Fld.CHK_CTRL_TASK n) = act) (hb : c.chkBusy n = true) :
    chkTaskRow n act c = c.overrun (144 + n) := by
  rw [chkTaskRow, if_pos h, chkTaskInput, if_pos (by simp [hb])]

/-- The end of the tick of a lone check-unit task. -/
theorem chkTasksEnd_one (x : Nat × Nat) (h : c.fab.chkTasks = []) :
    chkTasksEnd (c.onFab fun f => { f with chkTasks := f.chkTasks ++ [x] }) = chkAct x c := by
  have hclear : ({ c.fab with chkTasks := [] } : Fabric) = c.fab := by rw [← h]
  have hone : c.fab.chkTasks ++ [x] = [x] := by rw [h]; rfl
  change (c.fab.chkTasks ++ [x]).foldl _ { c with fab := { c.fab with chkTasks := [] } } = _
  rw [hclear, hone]
  rfl

theorem chkAct_snap (n : Nat) (hon : c.isOn .link = true) : chkAct (n, 2) c = chkSnap n c := by simp [chkAct, hon]

theorem chkAct_disabled (n act : Nat) (hon : c.isOn .link = true) (ha : act ≠ 2) (he : c.b (Fld.CHK_CTRL_ENABLE n) = false) :
    chkAct (n, act) c = c := by simp [chkAct, hon, ha, he]

theorem chkAct_restart (n : Nat) (hon : c.isOn .link = true) (he : c.b (Fld.CHK_CTRL_ENABLE n) = true) :
    chkAct (n, 0) c = chkReload n c := by simp [chkAct, hon, he]

theorem chkAct_end (n : Nat) (hon : c.isOn .link = true) (he : c.b (Fld.CHK_CTRL_ENABLE n) = true) :
    chkAct (n, 1) c = chkEnd n false c := by simp [chkAct, hon, he]

theorem chkStreamEnd_disabled (n : Nat) (xs : List Nat) (d a : Bool) (he : c.b (Fld.CHK_CTRL_ENABLE n) = false) :
    chkStreamEnd n xs d a c = c := by simp [chkStreamEnd, he]

/-- The end of a framed stream folds the last octets first (R310). -/
theorem chkStreamEnd_framed (n : Nat) (xs : List Nat) (d a : Bool) (hon : c.isOn .link = true) (he : c.b (Fld.CHK_CTRL_ENABLE n) = true)
    (hw : (c.chkUnit n).waitFrame = false) (hm : (chkArrive n xs d c).f (Fld.CHK_CTRL_END_MODE n) = 0) :
    chkStreamEnd n xs d a c = chkEnd n (a && (chkArrive n xs d c).f (Fld.CHK_CTRL_SRC n) == 1) (chkArrive n xs d c) := by
  simp [chkStreamEnd, hon, he, hw, hm]

theorem chkArrive_whole (n : Nat) (xs : List Nat) (d : Bool) (h : d = false ∨ (xs.foldl (chkOctet n) c).f (Fld.CHK_CTRL_SRC n) < 5) :
    chkArrive n xs d c = xs.foldl (chkOctet n) c := by
  unfold chkArrive
  rcases h with h | h <;> simp [h]

/-- A host, MRAM or chain stream whose buffer overflowed (R309). -/
theorem chkArrive_dropped (n : Nat) (xs : List Nat) (h : 5 ≤ (xs.foldl (chkOctet n) c).f (Fld.CHK_CTRL_SRC n)) :
    chkArrive n xs true c = ((xs.foldl (chkOctet n) c).setChk n
      { ((xs.foldl (chkOctet n) c).chkUnit n) with dropped := true }).raise (.chk n) 2 := by
  simp [chkArrive, h]

section Octets
variable (n : Nat) (xs : List Nat) (hm : c.f (Fld.CHK_CTRL_END_MODE n) = 0)
include hm

theorem chkOctets_ctrl (x : Field) (hx : x.reg = Reg.CHK_CTRL n) : (xs.foldl (chkOctet n) c).f x = c.f x := by
  rw [Chip.f, (chkOctets_keep c n xs hm).2 x.reg (by rw [hx]; simp) (by rw [hx]; simp) (by rw [hx]; simp)]
  rfl

theorem chkOctets_result : (xs.foldl (chkOctet n) c).regN (Reg.CHK_RESULT n) = c.regN (Reg.CHK_RESULT n) := by
  rw [Chip.regN, (chkOctets_keep c n xs hm).2 (Reg.CHK_RESULT n) (by simp) (by simp) (by simp)]
  rfl

theorem chkOctets_unit : (xs.foldl (chkOctet n) c).chkUnit n = c.chkUnit n := by
  rw [Chip.chkUnit, (chkOctets_keep c n xs hm).1]
  rfl

/-- What an overflowed stream has become. -/
theorem chkArrive_dropped_reads (hs : 5 ≤ c.f (Fld.CHK_CTRL_SRC n)) : let d := chkArrive n xs true c
    d.f (Fld.CHK_CTRL_END_MODE n) = 0 ∧ (d.chkUnit n).dropped = true ∧ d.regN (Reg.CHK_RESULT n) = c.regN (Reg.CHK_RESULT n) := by
  have hsrc := chkOctets_ctrl c n xs hm (Fld.CHK_CTRL_SRC n) rfl
  have hmode := (chkOctets_ctrl c n xs hm (Fld.CHK_CTRL_END_MODE n) rfl).trans hm
  have hres := chkOctets_result c n xs hm
  rw [chkArrive_dropped c n xs (hsrc ▸ hs)]
  refine ⟨?_, ?_, ?_⟩
  · rw [← hmode]
    simp (disch := simp) only [Chip.f_regs, Chip.raise_regs_put, Block.chk_status, regF_putF_ne, Chip.setChk_regs]
  · rw [Chip.chkUnit, Chip.raise_chk, Chip.setChk, Store.get_put_same]
  · rw [← hres]
    simp (disch := simp) only [Chip.regN_regs, Chip.raise_regs_put, Block.chk_status, regNat_putF_ne, Chip.setChk_regs]

end Octets

/-- An end with a result (R310). -/
theorem chkEnd_result_reads (n : Nat) (h : (c.chkUnit n).dropped = false) : let d := chkEnd n false c
    d.regN (Reg.CHK_RESULT n) = c.chkResult n % 2 ^ 36 ∧ d.b ⟨Reg.CHK_STATUS n, 0, 1⟩ = true ∧
    d.f (Fld.CHK_COUNTS_ENDS n) = min (c.f (Fld.CHK_COUNTS_ENDS n) + 1) (2 ^ (Fld.CHK_COUNTS_ENDS n).w - 1) ∧
    d.regN (Reg.CHK_VALUE n) = c.regN (Reg.CHK_INIT n) ∧ d.regN (Reg.CHK_COUNT n) = 0 ∧
    (c.b (Fld.CHK_CTRL_COMPARE n) = true → c.chkResult n % 2 ^ 36 ≠ c.regN (Reg.CHK_EXPECT n) →
      d.b ⟨Reg.CHK_STATUS n, 1, 1⟩ = true ∧
      d.f (Fld.CHK_COUNTS_MISMATCHES n) = min (c.f (Fld.CHK_COUNTS_MISMATCHES n) + 1) (2 ^ (Fld.CHK_COUNTS_MISMATCHES n).w - 1)) := by
  obtain ⟨hv, hcount, hflag, hends, hmis, hres, hk⟩ := chkFinish_reads (chkResulted n c) n
  obtain ⟨rres, rinit, rends, rmis⟩ := chkResulted_reads c n
  rw [chkEnd_result c n h]
  exact ⟨hres.trans rres, hflag, by rw [hends, rends], hv.trans rinit, hcount,
    fun h1 h2 => ⟨(hk 1 (by omega) (by omega)).trans (rmis h1 h2).1, hmis.trans (rmis h1 h2).2⟩⟩

/-- An end without a result (R310). -/
theorem chkEnd_spoiled_reads (n : Nat) (a : Bool) (h : (a || (c.chkUnit n).dropped) = true) : let d := chkEnd n a c
    d.regN (Reg.CHK_RESULT n) = c.regN (Reg.CHK_RESULT n) ∧ d.b ⟨Reg.CHK_STATUS n, 0, 1⟩ = true ∧ d.regN (Reg.CHK_COUNT n) = 0 ∧
    (a = true → d.b ⟨Reg.CHK_STATUS n, 3, 1⟩ = true) ∧ ((c.chkUnit n).dropped = true → d.b ⟨Reg.CHK_STATUS n, 2, 1⟩ = true) := by
  obtain ⟨-, hcount, hflag, -, -, hres, hk⟩ := chkFinish_reads (chkSpoiled n a c) n
  obtain ⟨rres, rab, rdrop⟩ := chkSpoiled_reads c n a
  rw [chkEnd_spoiled c n a h]
  exact ⟨hres.trans rres, hflag, hcount, fun ha => (hk 3 (by omega) (by omega)).trans (rab ha),
    fun hd => (hk 2 (by omega) (by omega)).trans (rdrop hd)⟩

end Sys2Proof.Machine
end

section
namespace Sys2Proof
open Machine

/-- Settles O18 task by task and end by end; the check values of the settings are computed. -/
theorem checkUnits : Obligations.CheckUnits := by
  unfold Obligations.CheckUnits
  refine ⟨fun s n hon => ⟨fun act h => ?_, fun hb => ⟨fun h => ?_, fun h => ?_, fun h => ?_, fun hq => ⟨fun h he => ?_, fun h => ?_,
    fun he => ⟨fun h => ?_, fun h => ?_⟩, fun h he hd => ?_⟩⟩, fun hb => ⟨fun h => ?_, fun h => ?_, fun h => ?_⟩,
    fun xs he hw hd hm => ?_, fun xs dropped he hw hm => ⟨fun hs => ?_, fun hs hdr => ?_⟩, fun xs he => ?_⟩, ?_⟩
  · exact ⟨fun ha => next_chip (chkTaskRow_other _ _ _ (ha ▸ h)), fun ha => next_chip (chkTaskRow_other _ _ _ (ha ▸ h)),
      fun ha => next_chip (chkTaskRow_other _ _ _ (ha ▸ h))⟩
  · exact next_chip (chkTaskRow_waits _ _ _ h hon hb)
  · exact next_chip (chkTaskRow_waits _ _ _ h hon hb)
  · exact next_chip (chkTaskRow_waits _ _ _ h hon hb)
  · obtain ⟨hv, hcount, hact, hkeep, -⟩ := chkReload_reads s.chip n.val
    refine ⟨_, rfl, ?_⟩
    dsimp only
    rw [chkTaskRow_waits _ _ _ h hon hb, chkTasksEnd_one _ _ hq, chkAct_restart _ _ hon he]
    exact ⟨hv, hcount, hact, congrArg (fun w => Word.field w _ _) (hkeep (Reg.CHK_COUNTS n.val) (by simp) (by simp) (by simp)),
      congrArg Word.nat (hkeep (Reg.CHK_RESULT n.val) (by simp) (by simp) (by simp))⟩
  · refine ⟨_, rfl, ?_⟩
    dsimp only
    rw [chkTaskRow_waits _ _ _ h hon hb, chkTasksEnd_one _ _ hq, chkAct_snap _ _ hon, chkSnap]
  · refine ⟨_, rfl, ?_⟩
    dsimp only
    rw [chkTaskRow_waits _ _ _ h hon hb, chkTasksEnd_one _ _ hq, chkAct_disabled _ _ _ hon (by simp) he]
  · refine ⟨_, rfl, ?_⟩
    dsimp only
    rw [chkTaskRow_waits _ _ _ h hon hb, chkTasksEnd_one _ _ hq, chkAct_disabled _ _ _ hon (by simp) he]
  · obtain ⟨h1, h2, h3, h4, h5, h6⟩ := chkEnd_result_reads s.chip n.val hd
    refine ⟨_, rfl, ?_⟩
    dsimp only
    rw [chkTaskRow_waits _ _ _ h hon hb, chkTasksEnd_one _ _ hq, chkAct_end _ _ hon he]
    exact ⟨h1, h2, h3, h4, h5, h6, chkEnd_mems ..⟩
  · exact next_chip (chkTaskRow_busy _ _ _ h hb)
  · exact next_chip (chkTaskRow_busy _ _ _ h hb)
  · exact next_chip (chkTaskRow_busy _ _ _ h hb)
  · have hmode := (chkOctets_ctrl s.chip n.val (xs.map BitVec.toNat) hm (Fld.CHK_CTRL_END_MODE n.val) rfl).trans hm
    have hwhole := chkArrive_whole s.chip n.val (xs.map BitVec.toNat) false (.inl rfl)
    obtain ⟨h1, h2, -, -, h5, -⟩ := chkEnd_result_reads ((xs.map BitVec.toNat).foldl (chkOctet n.val) s.chip) n.val
      (by rw [chkOctets_unit s.chip n.val _ hm, hd])
    refine ⟨_, rfl, ?_⟩
    dsimp only
    rw [chkStreamEnd_framed _ _ _ _ _ hon he hw (by rw [hwhole, hmode]), hwhole, Bool.false_and]
    exact ⟨h1, h5, h2⟩
  · have hmode := (chkOctets_ctrl s.chip n.val (xs.map BitVec.toNat) hm (Fld.CHK_CTRL_END_MODE n.val) rfl).trans hm
    have hsrc := (chkOctets_ctrl s.chip n.val (xs.map BitVec.toNat) hm (Fld.CHK_CTRL_SRC n.val) rfl).trans hs
    have hwhole := chkArrive_whole s.chip n.val (xs.map BitVec.toNat) dropped (.inr (by rw [hsrc]; omega))
    obtain ⟨h1, h2, h3, h4, -⟩ := chkEnd_spoiled_reads ((xs.map BitVec.toNat).foldl (chkOctet n.val) s.chip) n.val true rfl
    refine ⟨_, rfl, ?_⟩
    dsimp only
    rw [chkStreamEnd_framed _ _ _ _ _ hon he hw (by rw [hwhole, hmode]), hwhole, hsrc]
    exact ⟨h4 rfl, h2, h1.trans (chkOctets_result _ _ _ hm), h3⟩
  · obtain ⟨hmode, hdrop, hres⟩ := chkArrive_dropped_reads s.chip n.val (xs.map BitVec.toNat) hm hs
    obtain ⟨h1, h2, h3, -, h5⟩ := chkEnd_spoiled_reads (chkArrive n.val (xs.map BitVec.toNat) true s.chip) n.val false
      (by rw [hdrop]; rfl)
    refine ⟨_, rfl, ?_⟩
    dsimp only
    rw [chkStreamEnd_framed _ _ _ _ _ hon he hw hmode, Bool.false_and]
    exact ⟨h5 hdrop, h2, h1.trans hres, h3⟩
  · exact next_chip (chkStreamEnd_disabled _ _ _ _ _ he)
  · decide +kernel

end Sys2Proof
end

section
/-! SUPPORT. The issue of a lone move (R211 to R216): the other three slots are no-ops, which read and write the null port and
nothing else. -/

namespace Sys2Proof.Machine

variable (c : Chip)

/-- The move of a no-op slot. -/
def noopMove (k : Nat) : Move := { slot := k, bits := 0, dst := 0, word := .int 0 }

/-- The moves of a bundle of one move. -/
def loneMoves (bus : Fin 4) (m : Move) : List Move := (List.range 4).map fun k => if k = bus.val then m else noopMove k

/-- The lone move on a bus, with the word it carries. -/
def loneMove (bus : Fin 4) (dst : Nat) (src : MoveSource) (b : Word) : Move :=
  { slot := bus.val, bits := moveBits dst src % 2 ^ 40, dst := dst, word := b }

section Lists
variable (bus : Fin 4) (m : Move)

theorem filterMap_loneMoves {α : Type} (f : Move → Option α) (h : ∀ k, f (noopMove k) = none) :
    (loneMoves bus m).filterMap f = (f m).toList := by
  unfold loneMoves
  cases hf : f m <;> fin_cases bus <;> simp_all [List.range_succ]

theorem filter_loneMoves (p : Move → Bool) (h : ∀ k, p (noopMove k) = false) : (loneMoves bus m).filter p = if p m then [m] else [] := by
  unfold loneMoves
  cases hp : p m <;> fin_cases bus <;> simp_all [List.range_succ]

theorem foldl_filter_loneMoves (p : Move → Bool) (g : Chip → Move → Chip) (hg : ∀ d k, g d (noopMove k) = d) :
    ((loneMoves bus m).filter p).foldl g c = if p m then g c m else c := by
  have hpick : ∀ (xs : List Nat) (d : Chip), ((xs.map noopMove).filter p).foldl g d = d := fun xs d => by
    induction xs generalizing d with
    | nil => rfl
    | cons k xs ih =>
      rw [List.map_cons, List.filter_cons]
      split
      · rw [List.foldl_cons, hg, ih]
      · exact ih d
  have hsplit : ∃ as bs : List Nat, loneMoves bus m = as.map noopMove ++ m :: bs.map noopMove := by
    unfold loneMoves
    fin_cases bus
    · exact ⟨[], [1, 2, 3], rfl⟩
    · exact ⟨[0], [2, 3], rfl⟩
    · exact ⟨[0, 1], [3], rfl⟩
    · exact ⟨[0, 1, 2], [], rfl⟩
  obtain ⟨as, bs, hs⟩ := hsplit
  rw [hs, List.filter_append, List.foldl_append, hpick, List.filter_cons]
  split
  · rw [List.foldl_cons, hpick]
  · exact hpick bs c

end Lists

theorem executes_noopSlot (k : Nat) : c.executes (noopSlot k) = true := (rfl)

theorem executes_moveSlot (bus : Fin 4) (dst : Nat) (src : MoveSource) (h : dst < 2 ^ 12) : c.executes (moveSlot bus dst src) = true := by
  rw [Chip.executes, moveSlot, slotCode_moveBits dst src h]
  rfl

theorem filter_executes (bus : Fin 4) (dst : Nat) (src : MoveSource) (h : dst < 2 ^ 12) :
    (slotsOf (oneMove bus dst src)).filter c.executes = slotsOf (oneMove bus dst src) := by
  rw [List.filter_eq_self, slotsOf_oneMove]
  intro x hx
  obtain ⟨k, -, rfl⟩ := List.mem_map.mp hx
  split
  · exact executes_moveSlot c bus dst src h
  · exact executes_noopSlot c k

theorem immediate_noopSlot (k : Nat) : (noopSlot k).code.immediate = none := (rfl)
theorem readSource_noopSlot (d : Chip) (k : Nat) : c.readSource d (noopSlot k) = (some (.int 0), d) := by
  simp [Chip.readSource, immediate_noopSlot, Chip.portReadable, portWindow, Chip.readsQueue, readPort]

theorem readSources_noops (ks : List Nat) (d : Chip) : readSources c (ks.map noopSlot) d = (ks.map fun _ => some (.int 0), d) := by
  induction ks with
  | nil => rfl
  | cons k ks ih => simp only [List.map_cons, readSources, readSource_noopSlot, ih]

theorem readSources_among {c0 : Chip} {b : Word} (as bs : List Nat) (x : SlotAt) (h : c.readSource c x = (some b, c0)) :
    readSources c (as.map noopSlot ++ x :: bs.map noopSlot) c =
      ((as.map fun _ => some (.int 0)) ++ some b :: bs.map fun _ => some (.int 0), c0) := by
  induction as with
  | nil => simp only [List.map_nil, List.nil_append, readSources, h, readSources_noops]
  | cons k as ih => simp only [List.map_cons, List.cons_append, readSources, readSource_noopSlot, ih]

/-- A lone move stands among no-ops. -/
theorem slots_split (bus : Fin 4) (dst : Nat) (src : MoveSource) (b : Word) : ∃ as bs : List Nat,
    slotsOf (oneMove bus dst src) = as.map noopSlot ++ moveSlot bus dst src :: bs.map noopSlot ∧
    ((List.range 4).map fun k => some (if k = bus.val then b else .int 0)) =
      (as.map fun _ => some (.int 0)) ++ some b :: bs.map fun _ => some (.int 0) := by
  rw [slotsOf_oneMove]
  generalize moveSlot bus dst src = x
  fin_cases bus
  · exact ⟨[], [1, 2, 3], rfl, rfl⟩
  · exact ⟨[0], [2, 3], rfl, rfl⟩
  · exact ⟨[0, 1], [3], rfl, rfl⟩
  · exact ⟨[0, 1, 2], [], rfl, rfl⟩

/-- A slot that gives a word, with its bundle read. -/
theorem readSources_lone {c0 : Chip} {b : Word} (bus : Fin 4) (dst : Nat) (src : MoveSource)
    (h : c.readSource c (moveSlot bus dst src) = (some b, c0)) : readSources c (slotsOf (oneMove bus dst src)) c =
      ((List.range 4).map fun k => some (if k = bus.val then b else .int 0), c0) := by
  obtain ⟨as, bs, hs, hw⟩ := slots_split bus dst src b
  rw [hs, hw, readSources_among c as bs _ h]

/-- The words of the slots make the moves. -/
theorem zip_lone {b : Word} (bus : Fin 4) (dst : Nat) (src : MoveSource) (h : dst < 2 ^ 12) :
    (((slotsOf (oneMove bus dst src)).zip ((List.range 4).map fun k => some (if k = bus.val then b else .int 0))).map fun e =>
      ({ slot := e.1.slot, bits := e.1.bits, dst := e.1.code.dst, word := e.2.getD .absent } : Move)) =
      loneMoves bus (loneMove bus dst src b) := by
  have hdst : (moveSlot bus dst src).code.dst = dst := by rw [moveSlot, slotCode_moveBits dst src h]
  rw [slotsOf_oneMove, loneMoves, List.zip_map', List.map_map]
  refine List.map_congr_left fun k _ => ?_
  by_cases hk : k = bus.val
  · simp [hk, hdst, loneMove]
    exact ⟨rfl, rfl⟩
  · simp [hk]
    rfl

theorem filterMap_singleton {α β : Type} (g : α → Option β) (x : α) : [x].filterMap g = (g x).toList := by
  cases hg : g x <;> simp [hg]

/-- What is read of a lone move's source is all that its bundle reads: no-ops read the null port. -/
theorem filterMap_portsRead {α : Type} (f : Nat → Option α) (h : f 0 = none) (bus : Fin 4) (dst : Nat) (src : MoveSource) :
    (c.portsRead (slotsOf (oneMove bus dst src))).filterMap f = (c.portsRead [moveSlot bus dst src]).filterMap f := by
  have hone (xs : List SlotAt) : (c.portsRead xs).filterMap f = xs.filterMap fun x =>
      if (x.code.immediate.isNone && c.portReadable x.slot x.code.srcPort) = true then f x.code.srcPort else none := by
    rw [Chip.portsRead, List.filterMap_map, List.filterMap_filter]
    rfl
  rw [hone, hone, filterMap_slotsOf_oneMove, filterMap_singleton]
  intro k
  rw [noopSlot_srcPort, h, ite_self]

theorem eventsTaken_lone (bus : Fin 4) (dst : Nat) (src : MoveSource) :
    c.eventsTaken (c.portsRead (slotsOf (oneMove bus dst src))) = c.eventsTaken (c.portsRead [moveSlot bus dst src]) := by
  rw [Chip.eventsTaken, filterMap_portsRead c c.portInput rfl, Chip.eventsTaken]

theorem countsLatched_lone (bus : Fin 4) (dst : Nat) (src : MoveSource) :
    c.countsLatched (c.portsRead (slotsOf (oneMove bus dst src))) = c.countsLatched (c.portsRead [moveSlot bus dst src]) := by
  unfold Chip.countsLatched
  rw [List.filterMap_filter, List.filterMap_filter]
  exact filterMap_portsRead c _ rfl bus dst src

/-- The chip once a lone move has read its source: the event and the count it took are taken. -/
def loneRead (bus : Fin 4) (dst : Nat) (src : MoveSource) (c0 c : Chip) : Chip :=
  (c.countsLatched (c.portsRead [moveSlot bus dst src])).foldl (fun c e => latchShadow 0 e.1 e.2 c)
    (takeEvents (c.eventsTaken (c.portsRead [moveSlot bus dst src])) c0)

theorem loneRead_eq (bus : Fin 4) (dst : Nat) (src : MoveSource) (c0 : Chip) : loneRead bus dst src c0 c =
    (c.countsLatched (c.portsRead [moveSlot bus dst src])).foldl (fun c e => latchShadow 0 e.1 e.2 c)
      (takeEvents (c.eventsTaken (c.portsRead [moveSlot bus dst src])) c0) := (rfl)

/-- The end of a bundle that commits. -/
def bundleEnd (c d : Chip) : Chip :=
  let c5 := advance c (stepInFlight d)
  { c5 with core := { c5.core with stalled := none } }

/-- The moves of a bundle, their sources read: the rest of its issue. -/
def commitMoves (ms : List Move) (st : Stall) (c1 c : Chip) : Issue :=
  let holds := ms.filter fun m => ! portTriggers m.dst && m.dst != 0x811
  let ops := holds.foldl (fun c m => writePort m.dst m.word c)
  match movesTrap c (ops c1) ms with
  | some t => .done (takeTrap t c)
  | none =>
    match runTriggers (ms.filter fun m => portTriggers m.dst) (ops (awaitDivision ms c1)) with
    | none => .stall st
    | some c3 => .done (bundleEnd c ((ms.filter fun m => m.dst == 0x811).foldl (fun c m => c.setPort 0x811 m.word) c3))

theorem runBundle_lone {c0 : Chip} {b : Word} (bus : Fin 4) (dst : Nat) (src : MoveSource) (hd : dst < 2 ^ 12)
    (hst : c.core.stalled = none) (hslot : c.slotTrap (moveSlot bus dst src) = none)
    (hread : c.readSource c (moveSlot bus dst src) = (some b, c0)) : ∃ st, runBundle (oneMove bus dst src) c =
      commitMoves (loneMoves bus (loneMove bus dst src b)) st (loneRead bus dst src c0 c) c := by
  have hcode : c.codeTrap (slotsOf (oneMove bus dst src)) = none := by rw [codeTrap_oneMove, hslot]; rfl
  have hany : (((List.range 4).map fun k => some (if k = bus.val then b else .int 0)).any fun w => w.isNone) = false := by
    simp
  unfold runBundle
  simp only [hcode, filter_executes c bus dst src hd, readSources_lone c bus dst src hread, hst, hany, eventsTaken_lone,
    countsLatched_lone, zip_lone bus dst src hd, Bool.false_eq_true, if_false, ← loneRead_eq]
  generalize loneMoves bus (loneMove bus dst src b) = ms
  generalize loneRead bus dst src c0 c = c1
  exact ⟨_, rfl⟩

end Sys2Proof.Machine
end

section
/-! SUPPORT. What a lone move comes to in a core at rest: a trap, a trigger, or a word held by a port (R211 to R218). -/

namespace Sys2Proof.Machine

variable (c : Chip)

/-- What a core at rest has in hand: nothing. -/
theorem coreAtRest_reads (h : Safety.coreAtRest c = true) : c.core.stalled = none ∧ c.core.rptLeft = 0 ∧ c.core.transfer = false ∧
    c.core.rptGo = none ∧ c.core.inflight = [] ∧ c.core.delayLeft = 0 := by
  simp only [Safety.coreAtRest, Bool.and_eq_true, beq_iff_eq, Bool.not_eq_true', List.isEmpty_iff] at h
  tauto

theorem coreAtRest_stalled (h : Safety.coreAtRest c = true) : c.core.stalled = none := (coreAtRest_reads c h).1

theorem coreAtRest_inflight (h : Safety.coreAtRest c = true) : c.core.inflight = [] := by
  obtain ⟨-, -, -, -, hi, -⟩ := coreAtRest_reads c h
  exact hi

/-! ### Moves -/

@[simp] theorem portTriggers_null : portTriggers 0 = false := (rfl)

@[simp] theorem writePort_null (w : Word) : writePort 0 w c = c := (rfl)

theorem moveTrap_noopMove (k : Nat) : c.moveTrap (noopMove k) = none := by
  have hbr : portBranches 0 = false := by decide
  have hpr : portPrivileged 0 = false := by decide
  have htakes : c.portTakes 0 (Word.int 0).tag = true := by simp [Chip.portTakes, portWindow, inPorts]
  simp [Chip.moveTrap, noopMove, portWindow, hbr, hpr, htakes, Chip.portValueBad, inPorts]

theorem movesTrap_lone (d : Chip) (bus : Fin 4) (m : Move) : movesTrap c d (loneMoves bus m) =
    ((if portTriggers m.dst then d else c).moveTrap m).map fun z =>
      { cause := z, slot := m.slot, bits := m.bits, word := m.word, access := c.isAccess m } := by
  rw [movesTrap, filterMap_loneMoves]
  · cases (if portTriggers m.dst = true then d else c).moveTrap m <;> rfl
  · intro k
    rw [moveTrap_noopMove]
    rfl

theorem awaitDivision_idle (ms : List Move) (h : c.core.inflight = []) : awaitDivision ms c = c := by
  have hnone : ∀ w, c.dividing w = false := fun w => by simp [Chip.dividing, h]
  have hws : (ms.filterMap fun m => match portWindow m.dst with
      | some (w, off) => if triggerAt (c.window w).type off = some (.mul .div) ∧ c.dividing w = true then some w else none
      | none => none) = [] := by
    rw [List.filterMap_eq_nil_iff]
    intro m _
    split
    · rw [if_neg (by simp [hnone])]
    · rfl
  exact congrArg (List.foldl _ c) hws

theorem loneMove_dst (bus : Fin 4) (dst : Nat) (src : MoveSource) (b : Word) : (loneMove bus dst src b).dst = dst := (rfl)

/-- The words that ports hold of a lone move. -/
theorem holds_lone (bus : Fin 4) (m : Move) :
    ((loneMoves bus m).filter fun m => ! portTriggers m.dst && m.dst != 0x811).foldl (fun c m => writePort m.dst m.word c) c =
      if (! portTriggers m.dst && m.dst != 0x811) = true then writePort m.dst m.word c else c :=
  foldl_filter_loneMoves c bus m _ _ fun _ _ => rfl

section Commit
variable (bus : Fin 4) (m : Move) (st : Stall) (c1 : Chip)

/-- A lone move that its port refuses. -/
theorem commitMoves_trap {z : TrapCause} (ht : portTriggers m.dst = true ∨ m.dst = 0x811)
    (hz : (if portTriggers m.dst then c1 else c).moveTrap m = some z) : commitMoves (loneMoves bus m) st c1 c =
      .done (takeTrap { cause := z, slot := m.slot, bits := m.bits, word := m.word, access := c.isAccess m } c) := by
  have hops : ¬ (! portTriggers m.dst && m.dst != 0x811) = true := by rcases ht with h | h <;> simp [h]
  unfold commitMoves
  simp only [holds_lone, movesTrap_lone, if_neg hops, hz, Option.map_some]

/-- A lone move to a port that acts. -/
theorem commitMoves_trigger (ht : portTriggers m.dst = true) (hi : c1.core.inflight = []) (hz : c1.moveTrap m = none)
    (hs : moveStalls m c1 = false) : commitMoves (loneMoves bus m) st c1 c = .done (bundleEnd c (triggerPort m.dst m.word c1)) := by
  have hmode : (m.dst == 0x811) = false := by
    cases h : m.dst == 0x811
    · rfl
    · rw [beq_iff_eq.mp h] at ht
      exact absurd ht (by decide)
  have htrig : (loneMoves bus m).filter (fun m => portTriggers m.dst) = [m] := by
    rw [filter_loneMoves bus m _ fun _ => rfl, ht]; rfl
  have hmodes : (loneMoves bus m).filter (fun m => m.dst == 0x811) = [] := by
    rw [filter_loneMoves bus m _ fun _ => rfl, hmode]; rfl
  unfold commitMoves
  simp only [holds_lone, movesTrap_lone, ht, Bool.not_true, Bool.false_and, Bool.false_eq_true, if_false, if_true, hz, Option.map_none,
    awaitDivision_idle c1 _ hi, htrig, hmodes, runTriggers, hs, List.foldl_nil]

/-- A lone move to a port that holds a word. -/
theorem commitMoves_hold (ht : portTriggers m.dst = false) (hm : m.dst ≠ 0x811) (hi : c1.core.inflight = []) (hz : c.moveTrap m = none) :
    commitMoves (loneMoves bus m) st c1 c = .done (bundleEnd c (writePort m.dst m.word c1)) := by
  have hhold : (m.dst != 0x811) = true := bne_iff_ne.mpr hm
  have htrig : (loneMoves bus m).filter (fun m => portTriggers m.dst) = [] := by
    rw [filter_loneMoves bus m _ fun _ => rfl, ht]; rfl
  have hmodes : (loneMoves bus m).filter (fun m => m.dst == 0x811) = [] := by
    rw [filter_loneMoves bus m _ fun _ => rfl, beq_eq_false_iff_ne.mpr hm]; rfl
  unfold commitMoves
  simp only [holds_lone, movesTrap_lone, ht, Bool.not_false, Bool.true_and, hhold, if_true, Bool.false_eq_true, if_false, hz, Option.map_none,
    awaitDivision_idle c1 _ hi, htrig, hmodes, runTriggers, List.foldl_nil]

/-- A lone move to CORE_MODE. -/
theorem commitMoves_mode (hm : m.dst = 0x811) (hi : c1.core.inflight = []) (hz : c.moveTrap m = none) :
    commitMoves (loneMoves bus m) st c1 c = .done (bundleEnd c (c1.setPort 0x811 m.word)) := by
  have ht : portTriggers m.dst = false := by rw [hm]; decide
  have hhold : (m.dst != 0x811) = false := by rw [hm]; rfl
  have htrig : (loneMoves bus m).filter (fun m => portTriggers m.dst) = [] := by
    rw [filter_loneMoves bus m _ fun _ => rfl, ht]; rfl
  have hmodes : (loneMoves bus m).filter (fun m => m.dst == 0x811) = [m] := by
    rw [filter_loneMoves bus m _ fun _ => rfl, hm]; rfl
  unfold commitMoves
  simp only [holds_lone, movesTrap_lone, ht, Bool.not_false, Bool.true_and, hhold, Bool.false_eq_true, if_false, hz, Option.map_none,
    awaitDivision_idle c1 _ hi, htrig, hmodes, runTriggers, List.foldl_nil, List.foldl_cons]

end Commit

/-! ### Sources -/

/-- A source that gives a word has no reserved bits (R216). -/
theorem slotTrap_operand (bus : Fin 4) {dst : Nat} (src : MoveSource) (hd : dst < 2 ^ 12) (hw : c.portWritable bus.val dst = true)
    (h : ∀ t v, src = .tagged t v → (Tag.ofNum t.toNat).isSome = true) : c.slotTrap (moveSlot bus dst src) = none := by
  have hform : (sourceForm src).1 ≠ 3 := by cases src <;> simp [sourceForm]
  have hbits : SlotCode.reservedBits { inv := 0, guard := 0, form := (sourceForm src).1, dst := dst, src := (sourceForm src).2 } = false := by
    cases src with
    | port p => simp [SlotCode.reservedBits, sourceForm]
    | int v => simp [SlotCode.reservedBits, sourceForm]
    | tagged t v =>
      have hv := v.isLt
      have htag : (t.toNat * 2 ^ 18 + v.toNat * 4) / 2 ^ 18 = t.toNat := by omega
      have hlow : (t.toNat * 2 ^ 18 + v.toNat * 4) % 4 = 0 := by omega
      simp only [SlotCode.reservedBits, sourceForm, htag, hlow]
      simp [h t v rfl]
  rw [Chip.slotTrap, moveSlot, slotCode_moveBits dst src hd]
  simp only [hform, hbits, hw, if_false, Bool.false_eq_true, Bool.not_true]

theorem operandWord_tag {b : Word} {src : MoveSource} (h : Safety.operandWord c src = some b) (t : BitVec 4) (v : BitVec 16)
    (hs : src = .tagged t v) : (Tag.ofNum t.toNat).isSome = true := by
  subst hs
  cases ht : Tag.ofNum t.toNat
  · simp [Safety.operandWord, ht] at h
  · rfl

theorem srcPort_moveSlot (bus : Fin 4) {dst : Nat} (p : BitVec 12) (hd : dst < 2 ^ 12) :
    (moveSlot bus dst (.port p)).code.srcPort = p.toNat ∧ (moveSlot bus dst (.port p)).code.immediate = none := by
  rw [moveSlot, slotCode_moveBits dst _ hd]
  refine ⟨?_, rfl⟩
  simp only [SlotCode.srcPort, sourceForm]
  omega

theorem immediate_moveSlot {b : Word} (bus : Fin 4) {dst : Nat} {src : MoveSource} (hd : dst < 2 ^ 12)
    (h : Safety.operandWord c src = some b) (hp : ∀ p, src ≠ .port p) : (moveSlot bus dst src).code.immediate = some b := by
  rw [moveSlot, slotCode_moveBits dst _ hd]
  cases src with
  | port p => exact absurd rfl (hp p)
  | int v =>
    have hv : v.toNat * 4 / 4 = v.toNat := by omega
    simpa [SlotCode.immediate, sourceForm, hv, Safety.operandWord] using h
  | tagged t v =>
    have hv := v.isLt
    have h1 : (t.toNat * 2 ^ 18 + v.toNat * 4) / 2 ^ 18 = t.toNat := by omega
    have h2 : (t.toNat * 2 ^ 18 + v.toNat * 4) / 4 % 2 ^ 16 = v.toNat := by omega
    simpa only [SlotCode.immediate, sourceForm, h1, h2, Safety.operandWord] using h

/-- A register of the two files reads as it stands (R219). -/
theorem readPort_file {p : Nat} (h1 : 0x20 ≤ p) (h2 : p < 0x60) : readPort p c = some (c.port p, c) := by
  have hw : portWindow p = none := if_neg (by omega)
  rw [readPort, hw]
  dsimp only
  repeat rw [if_neg (by omega)]

theorem readsQueue_file {p : Nat} (h : p < 0x60) : c.readsQueue p = false := by
  rw [Chip.readsQueue, show portWindow p = none from if_neg (by omega)]

theorem portReadable_file (bus : Nat) {p : Nat} (h1 : 0x20 ≤ p) (h2 : p < 0x60) : c.portReadable bus p = true := by
  have hin : inPorts 0x20 0x67 p = true := by simp [inPorts]; omega
  rw [Chip.portReadable, show portWindow p = none from if_neg (by omega)]
  simp [hin]

/-- The source of a lone move that is an immediate or a register. -/
theorem readSource_operand {b : Word} (bus : Fin 4) {dst : Nat} {src : MoveSource} (hd : dst < 2 ^ 12)
    (h : Safety.operandWord c src = some b) : c.readSource c (moveSlot bus dst src) = (some b, c) := by
  by_cases hp : ∃ p, src = .port p
  · obtain ⟨p, rfl⟩ := hp
    obtain ⟨hsrc, himm⟩ := srcPort_moveSlot bus p hd
    simp only [Safety.operandWord, Option.ite_none_right_eq_some, Option.some.injEq] at h
    obtain ⟨⟨h1, h2⟩, rfl⟩ := h
    rw [Chip.readSource, himm, hsrc]
    simp only [portReadable_file c _ h1 h2, readsQueue_file c h2, readPort_file c h1 h2, Bool.not_true, Bool.false_eq_true, if_false]
  · have himm := immediate_moveSlot c bus hd h (fun p hs => hp ⟨p, hs⟩)
    rw [Chip.readSource, himm]

/-- Neither takes an event nor latches a count. -/
theorem loneRead_operand {b : Word} (bus : Fin 4) {dst : Nat} {src : MoveSource} (hd : dst < 2 ^ 12)
    (h : Safety.operandWord c src = some b) (c0 : Chip) : loneRead bus dst src c0 c = c0 := by
  have hps : c.portsRead [moveSlot bus dst src] = [] ∨ ∃ p, c.portsRead [moveSlot bus dst src] = [p] ∧ p < 0x60 := by
    by_cases hp : ∃ p, src = .port p
    · obtain ⟨p, rfl⟩ := hp
      obtain ⟨hsrc, himm⟩ := srcPort_moveSlot bus p hd
      simp only [Safety.operandWord, Option.ite_none_right_eq_some] at h
      refine .inr ⟨p.toNat, ?_, h.1.2⟩
      simp [Chip.portsRead, himm, hsrc, portReadable_file c _ h.1.1 h.1.2]
    · have himm := immediate_moveSlot c bus hd h (fun p hs => hp ⟨p, hs⟩)
      exact .inl (by simp [Chip.portsRead, himm])
  rw [loneRead_eq]
  rcases hps with hps | ⟨p, hps, hlt⟩ <;> rw [hps]
  · rfl
  · have hin : c.portInput p = none := by rw [Chip.portInput, if_neg (by omega), if_neg (by omega)]
    have hcount : ¬ (0xE00 ≤ p) := by omega
    simp [Chip.eventsTaken, Chip.countsLatched, hin, hcount, takeEvents]

/-! ### Lone moves of a word -/

section Issue
variable {b : Word} {bus : Fin 4} {dst : Nat} {src : MoveSource} (hrest : Safety.coreAtRest c = true)
  (hop : Safety.operandWord c src = some b) (hd : dst < 2 ^ 12) (hw : c.portWritable bus.val dst = true)
include hrest hop hd hw

theorem runBundle_operand : ∃ st, runBundle (oneMove bus dst src) c =
    commitMoves (loneMoves bus (loneMove bus dst src b)) st c c := by
  obtain ⟨st, h⟩ := runBundle_lone c bus dst src hd (coreAtRest_stalled c hrest)
    (slotTrap_operand c bus src hd hw (operandWord_tag c hop)) (readSource_operand c bus hd hop)
  exact ⟨st, by rw [h, loneRead_operand c bus hd hop]⟩

theorem issueOne_trap {z : TrapCause} (ht : portTriggers dst = true ∨ dst = 0x811)
    (hz : c.moveTrap (loneMove bus dst src b) = some z) : issueOne bus dst src c =
      takeTrap (Safety.moveTrapOf z bus dst src b (c.isAccess (loneMove bus dst src b))) c := by
  obtain ⟨st, h⟩ := runBundle_operand c hrest hop hd hw
  rw [issueOne, if_pos (coreAtRest_issues c hrest), h, commitMoves_trap c bus _ st c ht (by rw [ite_self]; exact hz)]
  rfl

theorem issueOne_trigger (ht : portTriggers dst = true) (hz : c.moveTrap (loneMove bus dst src b) = none)
    (hs : moveStalls (loneMove bus dst src b) c = false) : issueOne bus dst src c = bundleEnd c (triggerPort dst b c) := by
  obtain ⟨st, h⟩ := runBundle_operand c hrest hop hd hw
  rw [issueOne, if_pos (coreAtRest_issues c hrest), h,
    commitMoves_trigger c bus _ st c ht (coreAtRest_inflight c hrest) hz hs]
  rfl

theorem issueOne_hold (ht : portTriggers dst = false) (hm : dst ≠ 0x811) (hz : c.moveTrap (loneMove bus dst src b) = none) :
    issueOne bus dst src c = bundleEnd c (writePort dst b c) := by
  obtain ⟨st, h⟩ := runBundle_operand c hrest hop hd hw
  rw [issueOne, if_pos (coreAtRest_issues c hrest), h,
    commitMoves_hold c bus _ st c ht hm (coreAtRest_inflight c hrest) hz]
  rfl

theorem issueOne_mode (hm : dst = 0x811) (hz : c.moveTrap (loneMove bus dst src b) = none) :
    issueOne bus dst src c = bundleEnd c (c.setPort 0x811 b) := by
  obtain ⟨st, h⟩ := runBundle_operand c hrest hop hd hw
  rw [issueOne, if_pos (coreAtRest_issues c hrest), h,
    commitMoves_mode c bus _ st c hm (coreAtRest_inflight c hrest) hz]
  rfl

end Issue

/-! ### The end of the bundle -/

theorem advanceOnce_rest (hrest : Safety.coreAtRest c = true) (e : Chip) : advanceOnce c e =
    { e with core := { e.core with
      rptLeft := 0
      pc := e.core.pc + 1 } } := by
  obtain ⟨-, hrpt, htransfer, -, -, -⟩ := coreAtRest_reads c hrest
  simp [advanceOnce, hrpt, htransfer]

/-- After a bundle that asks for no repeat the core moves on to the next. -/
theorem bundleEnd_rest (hrest : Safety.coreAtRest c = true) (d : Chip) (hs : (stepInFlight d).core.stalled = none)
    (hr : (stepInFlight d).core.rptLeft = 0) (hg : (stepInFlight d).core.rptGo = none) :
    bundleEnd c d = Safety.nextBundle (stepInFlight d) := by
  unfold bundleEnd
  generalize stepInFlight d = e at hs hr hg
  have hcore : ({ e.core with
      rptGo := none
      rptLeft := 0
      pc := e.core.pc + 1
      stalled := none } : Machine.Core) = { e.core with pc := e.core.pc + 1 } := by simp [hr, hs, hg]
  simp only [advance, advanceOnce_rest c hrest, hg]
  exact congrArg (fun k => { e with core := k }) hcore

/-- A bundle that asks for a repeat has the next one repeated (R226). -/
theorem bundleEnd_repeat (hrest : Safety.coreAtRest c = true) (d : Chip) (hs : (stepInFlight d).core.stalled = none)
    {n : Nat} {base : Int} (hn : n ≠ 0) (hg : (stepInFlight d).core.rptGo = some (n, base)) :
    bundleEnd c d = Safety.nextBundle { (stepInFlight d) with core := { (stepInFlight d).core with
      rptGo := none
      rptLeft := n
      rptIndex := base } } := by
  unfold bundleEnd
  generalize stepInFlight d = e at hs hg
  have hcore : ({ e.core with
      rptGo := none
      rptLeft := n
      rptIndex := base
      pc := e.core.pc + 1
      stalled := none } : Machine.Core) = { e.core with
      rptGo := none
      rptLeft := n
      rptIndex := base
      pc := e.core.pc + 1 } := by simp [hs]
  simp only [advance, advanceOnce_rest c hrest, hg, if_neg hn]
  exact congrArg (fun k => { e with core := k }) hcore

/-! ### Results in flight (R212) -/

theorem core_inflight_nil (d : Chip) (h : d.core.inflight = []) : ({ d with core := { d.core with inflight := [] } } : Chip) = d := by
  rw [← h]

theorem stepInFlight_idle (d : Chip) (h : d.core.inflight = []) : stepInFlight d = d := by
  unfold stepInFlight
  simp only [h, List.foldl_nil, List.filter_nil, List.map_nil]
  exact core_inflight_nil d h

/-- A result of latency 1 is placed at the end of its bundle. -/
theorem stepInFlight_one (h : c.core.inflight = []) (p : Nat) (x : Word) : stepInFlight (c.inFlight 1 p x) = c.setPort p x := by
  have hone : (c.inFlight 1 p x).core.inflight = [⟨1, p, x⟩] := by simp [Chip.inFlight, h]
  unfold stepInFlight
  simp only [hone]
  exact core_inflight_nil (c.setPort p x) h

/-- Results of a longer latency come one cycle nearer. -/
theorem stepInFlight_later (d : Chip) (xs : List InFlight) (h : d.core.inflight = xs) (hl : ∀ x ∈ xs, 1 < x.left) :
    stepInFlight d = { d with core := { d.core with inflight := xs.map fun x => { x with left := x.left - 1 } } } := by
  have hplace : ∀ (ys : List InFlight) (e : Chip), (∀ x ∈ ys, 1 < x.left) →
      ys.foldl (fun c x => if x.left ≤ 1 then c.setPort x.port x.word else c) e = e := fun ys e hys => by
    induction ys with
    | nil => rfl
    | cons y ys ih =>
      rw [List.foldl_cons, if_neg (by have := hys y (List.mem_cons_self ..); omega)]
      exact ih fun x hx => hys x (List.mem_cons_of_mem _ hx)
  have hkeep : (xs.filter fun x => decide (1 < x.left)) = xs := List.filter_eq_self.mpr fun x hx => decide_eq_true (hl x hx)
  unfold stepInFlight
  simp only [h, hplace xs d hl, hkeep]

end Sys2Proof.Machine
end

section
/-! SUPPORT. The tag algebra of the functional units (R29, R221). -/

namespace Sys2Proof.Machine

/-- Tags that a unit may give its results: those of R221's tables. -/
def plainTag (t : Tag) : Bool := t != .ticket && t != .poison && t != .refused && t != .absent

theorem plainTag_iff (x : Word) : plainTag x.tag = true ↔ x.exceptional = false ∧ x.tag ≠ .ticket := by
  cases h : x.tag <;> simp [plainTag, Word.exceptional, h]

/-- A unit answers with a word of a plain tag, or with a trap. -/
def UnitResult.plain : UnitResult → Bool
  | .ok x => plainTag x.tag
  | .trap _ => true

/-- A word of an exceptional tag. -/
theorem exceptional_tag {a : Word} (h : a.exceptional = true) : a.tag = .poison ∨ a.tag = .refused ∨ a.tag = .absent := by
  simpa [Word.exceptional, or_assoc] using h

theorem isIB_exceptional {a : Word} (h : a.exceptional = true) : isIB a = false := by
  rcases exceptional_tag h with h | h | h <;> simp [isIB, h]

theorem isIB_plain {a : Word} (h : isIB a = true) : plainTag a.tag = true := by
  rcases Bool.or_eq_true _ _ ▸ h with h | h <;> simp [plainTag, beq_iff_eq.mp h]

@[simp] theorem truth_plain (p : Bool) : (truth p).plain = true := (rfl)

section Alu
variable (a b : Word)

theorem addWords_plain : (addWords a b).plain = true := by
  unfold addWords
  split <;> rfl

theorem subWords_plain : (subWords a b).plain = true := by
  unfold subWords
  split <;> (try split) <;> rfl

theorem logicWords_plain (g : Payload → Payload → Payload) : (logicWords g a b).plain = true := by
  unfold logicWords
  split
  · simp only [UnitResult.plain]
    split <;> rfl
  · rfl

theorem shiftWords_plain (g : Payload → Nat → Payload) : (shiftWords g a b).plain = true := by
  unfold shiftWords
  split
  case isTrue h =>
    split
    · exact isIB_plain ((Bool.and_eq_true _ _ ▸ h).1)
    · rfl
  case isFalse => rfl

theorem equalWords_plain (want : Bool) : (equalWords want a b).plain = true := by
  unfold equalWords
  split <;> rfl

theorem pickWords_plain (m : Bool) : (pickWords m a b).plain = true := by
  unfold pickWords
  split
  case isTrue h =>
    simp only [Bool.and_eq_true, decide_eq_true_eq, Bool.or_eq_true, beq_iff_eq] at h
    obtain ⟨hab, ht⟩ := h
    have ha : plainTag a.tag = true := by rcases ht with h | h <;> rw [h] <;> rfl
    split
    · simp only [UnitResult.plain]
      split
      · exact ha
      · rw [← hab]; exact ha
    · rfl
  case isFalse => rfl

/-- No ALU trigger makes a word of an exceptional tag or a TICKET. -/
theorem alu_plain (op : AluOp) : (alu op a b).plain = true := by
  cases op with
  | add => exact addWords_plain a b
  | sub => exact subWords_plain a b
  | and | or | xor => exact logicWords_plain a b _
  | andn => exact logicWords_plain a b fun x y => x &&& ~~~ y
  | shl | shr | sar => exact shiftWords_plain a b _
  | eq | ne => exact equalWords_plain a b _
  | min | max => exact pickWords_plain a b _
  | lt | le => simp only [alu]; split <;> rfl
  | ltu | cat16 => simp only [alu]; split <;> rfl

/-! Operands that are exceptional. -/

section Exceptional
variable (h : a.exceptional = true ∨ b.exceptional = true)
include h

theorem isIB_both : (isIB a && isIB b) = false := by
  rcases h with h | h <;> simp [isIB_exceptional h]

theorem orderWords_exceptional : orderWords a b = none := by
  unfold orderWords
  rcases h with h | h <;> rcases exceptional_tag h with h | h | h <;> split <;> simp_all

theorem addWords_exceptional : addWords a b = .trap .tag := by
  unfold addWords
  rcases h with h | h <;> rcases exceptional_tag h with h | h | h <;> split <;> simp_all

theorem subWords_exceptional : subWords a b = .trap .tag := by
  unfold subWords
  rcases h with h | h <;> rcases exceptional_tag h with h | h | h <;> split <;> simp_all

theorem logicWords_exceptional (g : Payload → Payload → Payload) : logicWords g a b = .trap .tag := by
  rw [logicWords, isIB_both a b h]; rfl

theorem shiftWords_exceptional (g : Payload → Nat → Payload) : shiftWords g a b = .trap .tag := by
  have hbad : (isIB a && b.tag == .int) = false := by
    rcases h with h | h
    · rw [isIB_exceptional h]; rfl
    · rcases exceptional_tag h with h | h | h <;> simp [h]
  rw [shiftWords, hbad]; rfl

theorem equalWords_exceptional (want : Bool) : equalWords want a b = .trap .tag := by
  refine if_neg ?_
  rintro hc
  simp only [Bool.and_eq_true, decide_eq_true_eq, Bool.not_eq_true'] at hc
  obtain ⟨hab, ha⟩ := hc
  have hb : b.exceptional = a.exceptional := by rw [Word.exceptional, Word.exceptional, hab]
  rw [hb, or_self, ha] at h
  exact absurd h Bool.false_ne_true

theorem pickWords_exceptional (m : Bool) : pickWords m a b = .trap .tag := by
  rw [pickWords, orderWords_exceptional a b h]
  split <;> rfl

/-- An exceptional operand raises the TAG trap in every two-operand trigger of the ALU. -/
theorem alu_exceptional (op : AluOp) : alu op a b = .trap .tag := by
  cases op with
  | add => exact addWords_exceptional a b h
  | sub => exact subWords_exceptional a b h
  | and | or | xor => exact logicWords_exceptional a b h _
  | andn => exact logicWords_exceptional a b h fun x y => x &&& ~~~ y
  | shl | shr | sar => exact shiftWords_exceptional a b h _
  | eq | ne => exact equalWords_exceptional a b h _
  | min | max => exact pickWords_exceptional a b h _
  | lt | le => simp only [alu, orderWords_exceptional a b h]
  | ltu | cat16 => simp only [alu, isIB_both a b h, Bool.false_eq_true, if_false]

/-- … and in every trigger of the multiplier that takes two. -/
theorem mulUnit_exceptional (op : MulOp) (hop : op ≠ .mag2) : mulUnit op a b = .trap .tag := by
  have hne : ∀ t u : Tag, plainTag t = true → plainTag u = true → ¬ (a.tag = t ∧ b.tag = u) := by
    rintro t u ht hu ⟨rfl, rfl⟩
    have ha := ((plainTag_iff a).mp ht).1
    have hb := ((plainTag_iff b).mp hu).1
    simp [ha, hb] at h
  cases op with
  | mag2 => exact absurd rfl hop
  | mul | mulh | div => simp [mulUnit, hne .int .int rfl rfl]
  | cmul => simp [mulUnit, hne .sample .sample rfl rfl]
  | scale => simp [mulUnit, hne .sample .int rfl rfl, hne .int .sample rfl rfl]

end Exceptional

theorem mulUnit_plain (op : MulOp) : (mulUnit op a b).plain = true := by
  cases op with
  | mul | mulh | cmul | mag2 => simp only [mulUnit]; split <;> rfl
  | scale => simp only [mulUnit]; split_ifs <;> rfl
  | div => simp only [mulUnit]; split_ifs <;> rfl

theorem bitUnit_plain (op : BitOp) (f : Word) : (bitUnit op a f b).plain = true := by
  cases op with
  | ext => simp only [bitUnit]; split_ifs <;> rfl
  | clz | popc => simp only [bitUnit]; split_ifs <;> rfl
  | ins =>
    simp only [bitUnit]
    split_ifs with h1 h2
    · rfl
    · exact isIB_plain (Bool.and_eq_true _ _ ▸ h1).1
    · rfl

end Alu

theorem UnitResult.plain_ok {r : UnitResult} {x : Word} (h : r.plain = true) (hr : r = .ok x) : x.exceptional = false ∧ x.tag ≠ .ticket :=
  (plainTag_iff x).mp (by rw [hr] at h; exact h)

/-- RETAG keeps the payload and gives a plain tag. -/
theorem retag_ok {sel b x : Word} (h : retag sel b = .ok x) : plainTag x.tag = true ∧ x.payload = b.payload := by
  unfold retag at h
  split at h
  · split at h
    · split at h
      · cases h
      · cases h
        simp_all [plainTag]
    · cases h
  · cases h

end Sys2Proof.Machine
end

section
namespace Sys2Proof
open Machine

/-- Settles O19 unit by unit. -/
theorem tagAlgebra : Obligations.TagAlgebra := by
  unfold Obligations.TagAlgebra
  refine ⟨fun op a b x h => UnitResult.plain_ok (alu_plain a b op) h, fun op a b h => alu_exceptional a b h op,
    fun op a b x h => UnitResult.plain_ok (mulUnit_plain a b op) h, fun op a b hop h => mulUnit_exceptional a b h op hop,
    fun op a f b x h => UnitResult.plain_ok (bitUnit_plain a b op f) h, fun sel b x h => ?_, fun b => rfl⟩
  obtain ⟨htag, hpay⟩ := retag_ok h
  obtain ⟨hex, hticket⟩ := (plainTag_iff x).mp htag
  exact ⟨hex, hticket, hpay⟩

end Sys2Proof
end

section
/-! SUPPORT. Lone moves to the triggers of the functional units (R220, R221). -/

namespace Sys2Proof.Machine

variable (c : Chip)

theorem portWindow_window (w : Fin 28) {off : Nat} (h : off < 64) : portWindow (windowBase w.val + off) = some (w.val, off) := by
  have hw := w.isLt
  have h1 : (windowBase w.val + off - 0x100) / 64 = w.val := by simp only [windowBase]; omega
  have h2 : (windowBase w.val + off - 0x100) % 64 = off := by simp only [windowBase]; omega
  rw [portWindow, if_pos (by simp only [windowBase]; omega), h1, h2]

theorem windowPort_lt (w : Fin 28) {off : Nat} (h : off < 64) : windowBase w.val + off < 2 ^ 12 := by
  have hw := w.isLt
  simp only [windowBase]
  omega

theorem portTriggers_window (w : Fin 28) {off : Nat} (h8 : 8 ≤ off) (h : off < 64) : portTriggers (windowBase w.val + off) = true := by
  rw [portTriggers, portWindow_window w h]
  exact decide_eq_true h8

theorem portWritable_window {bus : Fin 4} {w : Fin 28} {type off : Nat} (h : off < 64) (hu : Safety.unitOn c bus w type)
    (hwr : unitWritable type off = true) : c.portWritable bus.val (windowBase w.val + off) = true := by
  rw [Chip.portWritable, portWindow_window w h]
  simp only [hu.1, hu.2, hwr, Bool.and_self]

theorem isAccess_window {bus : Fin 4} {w : Fin 28} {type off : Nat} (h8 : 8 ≤ off) (h : off < 64) (hu : Safety.unitOn c bus w type)
    (src : MoveSource) (b : Word) : c.isAccess (loneMove bus (windowBase w.val + off) src b) = (type == 3) := by
  rw [Chip.isAccess, loneMove_dst, portWindow_window w h]
  simp [hu.1, h8]

section Unit
variable {bus : Fin 4} {w : Fin 28} {src : MoveSource} {b : Word} {type off : Nat} {t : Trigger}
  (hrest : Safety.coreAtRest c = true) (hu : Safety.unitOn c bus w type) (hop : Safety.operandWord c src = some b)
  (h8 : 8 ≤ off) (hoff : off < 64) (hwr : unitWritable type off = true) (ht : triggerAt type off = some t) (h3 : type ≠ 3)

include hu hoff ht in
theorem moveTrap_unit (hl : ∀ k, t ≠ .lsu k) : c.moveTrap (loneMove bus (windowBase w.val + off) src b) =
    match c.unitResult w.val t b with
    | .ok _ => none
    | .trap z => some z := by
  rw [Chip.moveTrap, loneMove_dst, portWindow_window w hoff]
  simp only [hu.1, ht]
  cases t with
  | lsu k => exact absurd rfl (hl k)
  | alu _ | mul _ | bit _ | retag | untag => rfl

include hrest hu hop h8 hoff hwr ht

include h3 in
/-- Operands that a unit refuses trap at their own move. -/
theorem issueOne_unit_trap (hl : ∀ k, t ≠ .lsu k) {z : TrapCause} (hz : c.unitResult w.val t b = .trap z) :
    issueOne bus (windowBase w.val + off) src c = takeTrap (Safety.moveTrapOf z bus (windowBase w.val + off) src b false) c := by
  have htrap := moveTrap_unit c (src := src) (b := b) hu hoff ht hl
  rw [hz] at htrap
  rw [issueOne_trap c hrest hop (windowPort_lt w hoff) (portWritable_window c hoff hu hwr) (.inl (portTriggers_window w h8 hoff)) htrap,
    isAccess_window c h8 hoff hu, beq_eq_false_iff_ne.mpr h3]

/-- An operation that a unit accepts begins at its move. -/
theorem issueOne_unit (hl : ∀ k, t ≠ .lsu k) {x : Word} (hx : c.unitResult w.val t b = .ok x) :
    issueOne bus (windowBase w.val + off) src c = bundleEnd c (unitTrigger w.val t b c) := by
  have htrap := moveTrap_unit c (src := src) (b := b) hu hoff ht hl
  rw [hx] at htrap
  have hstall : moveStalls (loneMove bus (windowBase w.val + off) src b) c = false := by
    rw [moveStalls, loneMove_dst, portWindow_window w hoff]
    simp only [hu.1, ht]
    cases t with
    | lsu k => exact absurd rfl (hl k)
    | alu _ | mul _ | bit _ | retag | untag => rfl
  rw [issueOne_trigger c hrest hop (windowPort_lt w hoff) (portWritable_window c hoff hu hwr) (portTriggers_window w h8 hoff) htrap hstall,
    triggerPort, portWindow_window w hoff]
  simp only [hu.1, ht]

/-- An operation of latency 1 answers in RES for the next bundle. -/
theorem issueOne_unit_res (hl : ∀ k, t ≠ .lsu k) {x : Word} (hx : c.unitResult w.val t b = .ok x)
    (hone : unitTrigger w.val t b c = c.inFlight 1 (windowBase w.val + 0x38) x) :
    issueOne bus (windowBase w.val + off) src c = Safety.nextBundle (c.setPort (windowBase w.val + 0x38) x) := by
  obtain ⟨hst, hr, -, hg, hi, -⟩ := coreAtRest_reads c hrest
  rw [issueOne_unit c hrest hu hop h8 hoff hwr ht hl hx, hone]
  have hstep := stepInFlight_one c hi (windowBase w.val + 0x38) x
  rw [bundleEnd_rest c hrest _ (by rw [hstep]; exact hst) (by rw [hstep]; exact hr) (by rw [hstep]; exact hg), hstep]

end Unit

/-! ### The ALU -/

theorem triggerAt_alu (op : AluOp) : triggerAt 1 op.offset = some (.alu op) ∧ 8 ≤ op.offset ∧ op.offset < 64 ∧
    unitWritable 1 op.offset = true := by
  cases op <;> decide

end Sys2Proof.Machine
end

section
namespace Sys2Proof
open Machine

/-- Settles O20: every row of the ALU's table is a lone move to a trigger of the ALU. -/
theorem aluTriggers : Obligations.AluTriggers := by
  unfold Obligations.AluTriggers
  intro s bus w src b hrest hu hop e he
  obtain ⟨htrig, h8, hoff, hwr⟩ := triggerAt_alu e.2
  have hl : ∀ k, Trigger.alu e.2 ≠ .lsu k := fun k h => by cases h
  rw [exec_aluRow s bus w src e he]
  refine ⟨fun x hx => next_chip ?_, fun z hz => next_chip ?_⟩
  · refine issueOne_unit_res s.chip hrest hu hop h8 hoff hwr htrig hl hx ?_
    have hres : s.chip.unitResult w.val (.alu e.2) b = .ok x := hx
    rw [unitTrigger, hres]
    exact fun k h => by cases h
    exact fun h => by cases h
    exact fun op h => by cases h
  · exact issueOne_unit_trap s.chip hrest hu hop h8 hoff hwr htrig (by decide) hl hz

end Sys2Proof
end

section
/-! SUPPORT. The multiply, bit and tag units (R212, R220, R221). -/

namespace Sys2Proof.Machine

variable (c : Chip)

theorem triggerAt_mul (op : MulOp) : triggerAt 2 op.offset = some (.mul op) ∧ 8 ≤ op.offset ∧ op.offset < 64 ∧
    unitWritable 2 op.offset = true := by
  cases op <;> decide

theorem triggerAt_bit (op : BitOp) : triggerAt 4 op.offset = some (.bit op) ∧ 8 ≤ op.offset ∧ op.offset < 64 ∧
    unitWritable 4 op.offset = true := by
  cases op <;> decide

theorem exec_mulRow (s : State) (bus : Fin 4) (w : Fin 28) (src : MoveSource) :
    ∀ e ∈ Safety.mulRows, exec (e.1 bus w src) s = issueUnit bus w e.2.offset src s := by
  intro e he
  fin_cases he <;> rfl

theorem exec_bitRow (s : State) (bus : Fin 4) (w : Fin 28) (src : MoveSource) :
    ∀ e ∈ Safety.bitRows, exec (e.1 bus w src) s = issueUnit bus w e.2.offset src s := by
  intro e he
  fin_cases he <;> rfl

theorem mulRows_not_div : ∀ e ∈ Safety.mulRows, e.2 ≠ .div := by
  intro e he
  fin_cases he <;> decide

section Results
variable {c} {w : Nat} {b x : Word}

theorem unitTrigger_mul {op : MulOp} (hop : op ≠ .div) (h : c.unitResult w (.mul op) b = .ok x) :
    unitTrigger w (.mul op) b c = c.inFlight 3 (windowBase w + 0x38) x := by
  cases op with
  | div => exact absurd rfl hop
  | mul | mulh | cmul | scale | mag2 => simp only [unitTrigger, h]

theorem unitTrigger_div (h : c.unitResult w (.mul .div) b = .ok x) : unitTrigger w (.mul .div) b c =
    (c.inFlight 20 (windowBase w + 0x3A) x).inFlight 20 (windowBase w + 0x39) (divRem (c.port (windowBase w)) b) := by
  simp only [unitTrigger, h]

theorem unitTrigger_bit {op : BitOp} (h : c.unitResult w (.bit op) b = .ok x) :
    unitTrigger w (.bit op) b c = c.inFlight 1 (windowBase w + 0x38) x := by
  simp only [unitTrigger, h]

theorem unitTrigger_retag (h : c.unitResult w .retag b = .ok x) : unitTrigger w .retag b c = c.inFlight 1 (windowBase w + 0x38) x := by
  simp only [unitTrigger, h]

theorem unitTrigger_untag (h : c.unitResult w .untag b = .ok x) : unitTrigger w .untag b c = c.inFlight 1 (windowBase w + 0x38) x := by
  simp only [unitTrigger, h]

end Results

/-- Results of a longer latency are in flight for the next bundle. -/
theorem bundleEnd_flying (hrest : Safety.coreAtRest c = true) (xs : List InFlight) (hl : ∀ x ∈ xs, 1 < x.left) :
    bundleEnd c { c with core := { c.core with inflight := xs } } =
      Safety.nextBundle { c with core := { c.core with inflight := xs.map fun x => { x with left := x.left - 1 } } } := by
  obtain ⟨hst, hr, -, hg, -, -⟩ := coreAtRest_reads c hrest
  have hstep := stepInFlight_later { c with core := { c.core with inflight := xs } } xs rfl hl
  rw [bundleEnd_rest c hrest _ (by rw [hstep]; exact hst) (by rw [hstep]; exact hr) (by rw [hstep]; exact hg), hstep]

theorem inFlight_first (h : c.core.inflight = []) (l p : Nat) (x : Word) :
    c.inFlight l p x = { c with core := { c.core with inflight := [⟨l, p, x⟩] } } := by
  simp [Chip.inFlight, h]

theorem inFlight_second (h : c.core.inflight = []) (l p q : Nat) (x y : Word) :
    (c.inFlight l p x).inFlight l q y = { c with core := { c.core with inflight := [⟨l, p, x⟩, ⟨l, q, y⟩] } } := by
  simp [Chip.inFlight, h]

end Sys2Proof.Machine
end

section
namespace Sys2Proof
open Machine

/-- Settles O21 unit by unit: each trigger is a lone move whose result its unit gives. -/
theorem mulBitTagTriggers : Obligations.MulBitTagTriggers := by
  unfold Obligations.MulBitTagTriggers
  intro s bus w src b hrest hop a fly
  have hi := coreAtRest_inflight s.chip hrest
  refine ⟨fun hu e he => ?_, fun hu => ?_, fun hu e he => ?_, fun hu => ?_⟩
  · obtain ⟨htrig, h8, hoff, hwr⟩ := triggerAt_mul e.2
    have hl : ∀ k, Trigger.mul e.2 ≠ .lsu k := fun k h => by cases h
    rw [exec_mulRow s bus w src e he]
    refine ⟨fun x hx => next_chip ?_, fun z hz =>
      next_chip (issueOne_unit_trap s.chip hrest hu hop h8 hoff hwr htrig (by decide) hl hz)⟩
    rw [issueOne_unit s.chip hrest hu hop h8 hoff hwr htrig hl hx, unitTrigger_mul (mulRows_not_div e he) hx,
      inFlight_first s.chip hi, bundleEnd_flying s.chip hrest _ (by simp)]
    rfl
  · obtain ⟨htrig, h8, hoff, hwr⟩ := triggerAt_mul .div
    have hl : ∀ k, Trigger.mul .div ≠ .lsu k := fun k h => by cases h
    refine ⟨fun x hx => next_chip ?_, fun z hz =>
      next_chip (issueOne_unit_trap s.chip hrest hu hop h8 hoff hwr htrig (by decide) hl hz)⟩
    rw [issueOne_unit s.chip hrest hu hop h8 hoff hwr htrig hl hx, unitTrigger_div hx, inFlight_second s.chip hi,
      bundleEnd_flying s.chip hrest _ (by simp)]
    rfl
  · obtain ⟨htrig, h8, hoff, hwr⟩ := triggerAt_bit e.2
    have hl : ∀ k, Trigger.bit e.2 ≠ .lsu k := fun k h => by cases h
    rw [exec_bitRow s bus w src e he]
    exact ⟨fun x hx => next_chip (issueOne_unit_res s.chip hrest hu hop h8 hoff hwr htrig hl hx (unitTrigger_bit hx)),
      fun z hz => next_chip (issueOne_unit_trap s.chip hrest hu hop h8 hoff hwr htrig (by decide) hl hz)⟩
  · have hlr : ∀ k, Trigger.retag ≠ .lsu k := fun k h => by cases h
    have hlu : ∀ k, Trigger.untag ≠ .lsu k := fun k h => by cases h
    exact ⟨fun x hx => next_chip (issueOne_unit_res s.chip hrest hu hop (off := 8) (by decide) (by decide) rfl rfl hlr hx (unitTrigger_retag hx)),
      fun x hx => next_chip (issueOne_unit_res s.chip hrest hu hop (off := 9) (by decide) (by decide) rfl rfl hlu hx (unitTrigger_untag hx)),
      fun z hz => next_chip (issueOne_unit_trap s.chip hrest hu hop (off := 8) (by decide) (by decide) rfl rfl (by decide) hlr hz),
      fun z hz => next_chip (issueOne_unit_trap s.chip hrest hu hop (off := 9) (by decide) (by decide) rfl rfl (by decide) hlu hz)⟩

end Sys2Proof
end

section
/-! SUPPORT. Load-store units (R222, R223): triggers, accesses at their bank, and RES moved to a register. -/

namespace Sys2Proof.Machine

variable (c : Chip)

/-! ### Triggers -/

theorem triggerAt_lsu (k : LsuKind) : triggerAt 3 k.offset = some (.lsu k) ∧ 8 ≤ k.offset ∧ k.offset < 64 ∧
    unitWritable 3 k.offset = true := by
  cases k <;> decide

theorem exec_lsuRow (s : State) (bus : Fin 4) (w : Fin 28) (src : MoveSource) :
    ∀ e ∈ Safety.lsuRows, exec (e.1 bus w src) s = issueUnit bus w e.2.offset src s := by
  intro e he
  fin_cases he <;> rfl

section Unit
variable {bus : Fin 4} {w : Fin 28} {src : MoveSource} {b : Word} (k : LsuKind)

theorem moveTrap_lsu (hu : Safety.unitOn c bus w 3) : c.moveTrap (loneMove bus (windowBase w.val + k.offset) src b) =
    c.lsuTrap k b (c.port (windowBase w.val)) := by
  obtain ⟨htrig, -, hoff, -⟩ := triggerAt_lsu k
  rw [Chip.moveTrap, loneMove_dst, portWindow_window w hoff]
  simp only [hu.1, htrig]
  rfl

variable (hrest : Safety.coreAtRest c = true) (hu : Safety.unitOn c bus w 3) (hop : Safety.operandWord c src = some b)
include hrest hu hop

/-- A trigger that a check refuses traps with nothing issued. -/
theorem issueOne_lsu_trap {z : TrapCause} (hz : c.lsuTrap k b (c.port (windowBase w.val)) = some z) :
    issueOne bus (windowBase w.val + k.offset) src c =
      takeTrap (Safety.moveTrapOf z bus (windowBase w.val + k.offset) src b true) c := by
  obtain ⟨-, h8, hoff, hwr⟩ := triggerAt_lsu k
  rw [issueOne_trap c hrest hop (windowPort_lt w hoff) (portWritable_window c hoff hu hwr) (.inl (portTriggers_window w h8 hoff))
    ((moveTrap_lsu c k hu).trans hz), isAccess_window c h8 hoff hu]
  rfl

/-- A trigger that passes queues the places of its results and issues its access. -/
theorem issueOne_lsu (hz : c.lsuTrap k b (c.port (windowBase w.val)) = none) (hroom : c.lsuRoom w.val k = true) :
    issueOne bus (windowBase w.val + k.offset) src c = Safety.nextBundle (lsuIssue w.val k b.nat c) := by
  obtain ⟨htrig, h8, hoff, hwr⟩ := triggerAt_lsu k
  obtain ⟨hst, hr, -, hg, hi, -⟩ := coreAtRest_reads c hrest
  have hstall : moveStalls (loneMove bus (windowBase w.val + k.offset) src b) c = false := by
    rw [moveStalls, loneMove_dst, portWindow_window w hoff]
    simp only [hu.1, htrig, hroom, Bool.not_true]
  have hact : triggerPort (windowBase w.val + k.offset) b c = lsuIssue w.val k b.nat c := by
    rw [triggerPort, portWindow_window w hoff]
    simp only [hu.1, htrig]
    rfl
  have hstep := stepInFlight_idle (lsuIssue w.val k b.nat c) hi
  rw [issueOne_trigger c hrest hop (windowPort_lt w hoff) (portWritable_window c hoff hu hwr) (portTriggers_window w h8 hoff)
    ((moveTrap_lsu c k hu).trans hz) hstall, hact,
    bundleEnd_rest c hrest _ (by rw [hstep]; exact hst) (by rw [hstep]; exact hr) (by rw [hstep]; exact hg), hstep]

end Unit

/-! ### Check units leave the core alone (R307) -/

@[simp] theorem Chip.setChk_core (n : Nat) (u : ChkUnit) : (c.setChk n u).core = c.core := (rfl)
@[simp] theorem chkReload_core (n : Nat) : (chkReload n c).core = c.core := by simp [chkReload]

@[simp] theorem chkEnd_core (n : Nat) (a : Bool) : (chkEnd n a c).core = c.core := by
  simp only [chkEnd, Chip.setChk_core, chkReload_core, Chip.bump_core, Chip.raise_core]
  split <;> split <;> (try split) <;> simp

@[simp] theorem chkOctet_core (n o : Nat) : (chkOctet n c o).core = c.core := by
  simp only [chkOctet]
  split <;> simp <;> split <;> simp

/-- What folds over a list and leaves the core alone at each member leaves it alone. -/
theorem foldl_core {α : Type} (f : Chip → α → Chip) (hf : ∀ c x, (f c x).core = c.core) (xs : List α) :
    ∀ c : Chip, (xs.foldl f c).core = c.core := by
  induction xs with
  | nil => intro c; rfl
  | cons x xs ih => intro c; rw [List.foldl_cons, ih, hf]

@[simp] theorem chkStream_core (src sel : Nat) (xs : List Nat) (marker : Bool) : (chkStream src sel xs marker c).core = c.core := by
  refine foldl_core _ (fun c n => ?_) _ c
  have hoctets := foldl_core (chkOctet n) (fun d o => chkOctet_core d n o) xs c
  split
  · split
    · split <;> simp
    · dsimp only
      split <;> simp [hoctets]
  · rfl

@[simp] theorem portWatch_core (p : Nat) (ws : List Word) : (portWatch p ws c).core = c.core := by
  unfold portWatch; split <;> simp

/-! ### The data memory -/

section Data
variable {p : Nat} (hsp : spaceOf p = 0) (hon : c.isOn .memD = true)
include hsp

include hon in
theorem spaceAccess_data : c.spaceAccess (spaceOf p) = .served := by
  have hisl : c.island .memD = .on := by simpa [Chip.isOn] using hon
  rw [hsp, Chip.spaceAccess, Chip.islandAccess, hisl]

theorem tableNote_data : tableNote p c = c := by simp [tableNote, hsp]
theorem fillNote_data : fillNote p c = c := by simp [fillNote, hsp]
theorem portRead_data (x : DpPort) (ws : List Word) : portRead x p ws c = (ws, c) := by simp [portRead, hsp]
theorem portAWrite_data (ws olds : List Word) : portAWrite p ws olds c = c := by simp [portAWrite, hsp]

/-- A store of one word of the data memory, at a codeword without flaws. -/
theorem storeWord_data (w : Word) (hon : c.isOn .memD = true) (hf : c.flaw p = []) : storeWord p w c =
    portWatch p [w] (if p % 2 = 0 then storePair p w (c.stored (evenOf p + 1)) c else storePair p (c.stored (evenOf p)) w c) := by
  rw [storeWord, if_neg (by rw [hsp]; decide), writeMem, spaceAccess_data c hsp hon]
  simp only [writeWord, readPair_clean p c hf, mergeWord, fillNote_data c hsp, tableNote_data c hsp]

end Data

theorem stored_mems {d e : Chip} (h : d.mems = e.mems) (q : Nat) : d.stored q = e.stored q := by rw [Chip.stored, h]; rfl

theorem stored_storePair (p : Nat) (w0 w1 : Word) (q : Nat) : (storePair p w0 w1 c).stored q =
    if q = evenOf p + 1 then w1 else if q = evenOf p then w0 else c.stored q := by
  simp only [Chip.stored, storePair, Chip.onMems, Store.get_put]

/-- A store puts its word in its place and leaves every other word as it was. -/
theorem stored_storeWord {p : Nat} (w : Word) (hsp : spaceOf p = 0) (hon : c.isOn .memD = true) (hf : c.flaw p = []) (q : Nat) :
    (storeWord p w c).stored q = if q = p then w else c.stored q := by
  rw [storeWord_data c hsp w hon hf, stored_mems (portWatch_mems ..)]
  by_cases hp : p % 2 = 0
  · have he : evenOf p = p := by simp only [evenOf]; omega
    rw [if_pos hp, stored_storePair, he]
    by_cases h1 : q = p + 1
    · rw [if_pos h1, if_neg (by omega), h1]
    · rw [if_neg h1]
  · have he : evenOf p + 1 = p := by simp only [evenOf]; omega
    rw [if_neg hp, stored_storePair, he]
    by_cases h1 : q = p
    · rw [if_pos h1, if_pos h1]
    · rw [if_neg h1, if_neg h1]
      by_cases h2 : q = evenOf p
      · rw [if_pos h2, h2]
      · rw [if_neg h2]

theorem storeWord_core {p : Nat} (w : Word) (hsp : spaceOf p = 0) (hon : c.isOn .memD = true) (hf : c.flaw p = []) :
    (storeWord p w c).core = c.core := by
  rw [storeWord_data c hsp w hon hf, portWatch_core]
  split <;> rfl

/-! ### Accesses at their bank (R223) -/

section Access
variable {a : LsuAccess} {rest : List LsuAccess} (ha : c.core.accesses = a :: rest) (hon : c.isOn .core = true)

theorem lsuAccessDone_none (o : Store Nat) (h : c.core.accesses = []) : lsuAccessDone o c = c := by rw [lsuAccessDone, h]

include ha hon

theorem lsuAccessDone_oldest (o : Store Nat) : lsuAccessDone o c =
    setQueue a.window (fillQueue ((accessBank o a c).2.queue a.window) (accessBank o a c).1)
      { (accessBank o a c).2 with core := { (accessBank o a c).2.core with accesses := rest } } := by
  rw [lsuAccessDone, ha]
  simp only [hon, Bool.not_true, Bool.false_eq_true, if_false]
  rfl

variable (hsp : spaceOf a.ptr = 0) (hm : c.isOn .memD = true) (hf : c.flaw a.ptr = [])
include hsp hm hf

/-- A load of the data memory. -/
theorem lsuAccessDone_ld (o : Store Nat) (hk : a.kind = .ld) : lsuAccessDone o c =
    setQueue a.window (fillQueue (c.queue a.window) [c.stored a.ptr]) { c with core := { c.core with accesses := rest } } := by
  have hload : loadWord o a.ptr c = (c.stored a.ptr, c) := by
    rw [loadWord, hsp]
    exact readMem_clean a.ptr c (spaceAccess_data c hsp hm) (by rw [hsp]; decide) hf
  have hbank : accessBank o a c = ([c.stored a.ptr], c) := by
    rw [accessBank, hk]
    dsimp only
    rw [hload]
    dsimp only
    rw [if_neg (by rw [hsp]; decide), portRead_data c hsp]
  rw [lsuAccessDone_oldest c ha hon, hbank]

/-- A store of the data memory. -/
theorem lsuAccessDone_st (o : Store Nat) (hk : a.kind = .st) : lsuAccessDone o c =
    setQueue a.window (c.queue a.window) { (storeWord a.ptr a.data c) with core := { c.core with accesses := rest } } := by
  have hbank : accessBank o a c = ([], storeWord a.ptr a.data c) := by
    rw [accessBank, hk]
    dsimp only
    rw [portAWrite_data _ hsp]
  have hfill : ∀ q, fillQueue q [] = q := fun q => by cases q <;> rfl
  have hqueue : (storeWord a.ptr a.data c).queue a.window = c.queue a.window := by
    rw [Chip.queue, storeWord_core c a.data hsp hm hf]; rfl
  rw [lsuAccessDone_oldest c ha hon, hbank]
  dsimp only
  rw [hfill, hqueue, storeWord_core c a.data hsp hm hf]

end Access

@[simp] theorem queue_setQueue (w : Nat) (q : List (Option Word)) : (setQueue w q c).queue w = q := by
  simp [Chip.queue, setQueue]

/-! ### A port moved to a register of the two files (R219) -/

section File
variable {dst : BitVec 12} (hdst : Safety.filePort dst = true)
include hdst

theorem filePort_bounds : 0x20 ≤ dst.toNat ∧ dst.toNat < 0x60 := by
  simpa [Safety.filePort] using hdst

theorem portWindow_file : portWindow dst.toNat = none := by
  obtain ⟨-, h2⟩ := filePort_bounds hdst
  exact if_neg (by omega)

theorem portWritable_file (bus : Nat) : c.portWritable bus dst.toNat = true := by
  obtain ⟨h1, h2⟩ := filePort_bounds hdst
  have hin : inPorts 0x20 0x67 dst.toNat = true := by simp [inPorts]; omega
  rw [Chip.portWritable, portWindow_file hdst]
  simp [hin]

theorem inPorts_file {lo hi : Nat} (h : 0x60 ≤ lo) : inPorts lo hi dst.toNat = false := by
  obtain ⟨-, h2⟩ := filePort_bounds hdst
  simp [inPorts]
  omega

theorem file_ne {p : Nat} (h : 0x60 ≤ p) : (dst.toNat == p) = false := by
  obtain ⟨-, h2⟩ := filePort_bounds hdst
  exact beq_eq_false_iff_ne.mpr (by omega)

theorem portTriggers_file : portTriggers dst.toNat = false := by
  rw [portTriggers, portWindow_file hdst]
  simp (disch := omega) only [inPorts_file hdst, file_ne hdst, Bool.or_self]

theorem writePort_file (w : Word) : writePort dst.toNat w c = c.setPort dst.toNat w := by
  obtain ⟨h1, h2⟩ := filePort_bounds hdst
  unfold writePort
  repeat rw [if_neg (by omega)]

/-- A register takes every word. -/
theorem moveTrap_file (m : Move) (hm : m.dst = dst.toNat) : c.moveTrap m = none := by
  obtain ⟨h1, h2⟩ := filePort_bounds hdst
  have hpriv : portPrivileged dst.toNat = false := by
    simp (disch := omega) only [portPrivileged, inPorts_file hdst, file_ne hdst, Bool.or_self]
  have hbr : portBranches dst.toNat = false := by
    simp (disch := omega) only [portBranches, inPorts_file hdst, file_ne hdst, Bool.or_self]
  have htakes : c.portTakes dst.toNat m.word.tag = true := by
    rw [Chip.portTakes, portWindow_file hdst]
    simp (disch := omega) only [inPorts_file hdst, file_ne hdst, Bool.or_self, Bool.false_eq_true, if_false]
  have hbad : c.portValueBad dst.toNat m.word = false := by
    unfold Chip.portValueBad
    repeat rw [if_neg (by omega)]
  have hin := inPorts_file hdst (lo := 0x800) (hi := 0x803) (by omega)
  rw [Chip.moveTrap, hm, portWindow_file hdst]
  simp only [hpriv, hbr, htakes, hbad, hin, Bool.false_and, Bool.false_eq_true, if_false, Bool.and_false, Bool.false_or,
    Bool.not_true]
  rw [if_neg (by omega), file_ne hdst (p := 0x809) (by omega), Bool.and_false, if_neg Bool.false_ne_true, if_neg (by omega)]

/-- A lone move of a port to a register, its source read. -/
theorem issueOne_file {c0 : Chip} {x : Word} {bus : Fin 4} {p : BitVec 12} (hrest : Safety.coreAtRest c = true)
    (hread : c.readSource c (moveSlot bus dst.toNat (.port p)) = (some x, c0)) {c1 : Chip}
    (hc1 : loneRead bus dst.toNat (.port p) c0 c = c1) (hi : c1.core.inflight = []) (hst : c1.core.stalled = none)
    (hr : c1.core.rptLeft = 0) (hg : c1.core.rptGo = none) :
    issueOne bus dst.toNat (.port p) c = Safety.nextBundle (c1.setPort dst.toNat x) := by
  obtain ⟨h1, h2⟩ := filePort_bounds hdst
  have hslot : c.slotTrap (moveSlot bus dst.toNat (.port p)) = none :=
    slotTrap_operand c bus _ dst.isLt (portWritable_file c hdst _) (fun _ _ h => by cases h)
  obtain ⟨st, h⟩ := runBundle_lone c bus dst.toNat (.port p) dst.isLt (coreAtRest_stalled c hrest) hslot hread
  rw [issueOne, if_pos (coreAtRest_issues c hrest), h, hc1, commitMoves_hold c bus _ st c1 (portTriggers_file hdst)
    (by rw [loneMove_dst]; omega) hi (moveTrap_file c hdst _ rfl)]
  have hstep := stepInFlight_idle (c1.setPort dst.toNat x) hi
  dsimp only
  rw [loneMove_dst, writePort_file c1 hdst]
  change bundleEnd c (c1.setPort dst.toNat x) = _
  rw [bundleEnd_rest c hrest _ (by rw [hstep]; exact hst) (by rw [hstep]; exact hr) (by rw [hstep]; exact hg), hstep]

end File

/-- What a lone move of a port reads. -/
theorem portsRead_lone (bus : Fin 4) {dst : Nat} (hd : dst < 2 ^ 12) (p : BitVec 12) :
    c.portsRead [moveSlot bus dst (.port p)] = if c.portReadable bus.val p.toNat then [p.toNat] else [] := by
  obtain ⟨hsrc, himm⟩ := srcPort_moveSlot bus p hd
  simp only [Chip.portsRead, List.filter_cons, List.filter_nil, himm, hsrc, Option.isNone_none, Bool.true_and]
  change (if c.portReadable bus.val p.toNat = true then [moveSlot bus dst (.port p)] else []).map _ = _
  split
  · rw [List.map_singleton, hsrc]
  · rfl

/-- A port that is no event input and no count takes nothing when it is read. -/
theorem loneRead_quiet (bus : Fin 4) {dst : Nat} (hd : dst < 2 ^ 12) {p : BitVec 12} (hlt : p.toNat < 0xE00)
    (hin : c.portInput p.toNat = none) (c0 : Chip) : loneRead bus dst (.port p) c0 c = c0 := by
  have hcount : ¬ 0xE00 ≤ p.toNat := by omega
  rw [loneRead_eq, portsRead_lone c bus hd]
  split
  · simp [Chip.eventsTaken, Chip.countsLatched, hin, hcount, takeEvents]
  · rfl

/-- The RES port of a window. -/
abbrev resPort (w : Fin 28) : BitVec 12 := BitVec.ofNat 12 (windowBase w.val + 0x38)

theorem resPort_toNat (w : Fin 28) : (resPort w).toNat = windowBase w.val + 0x38 := by
  rw [resPort, BitVec.toNat_ofNat, Nat.mod_eq_of_lt (windowPort_lt w (by decide))]

section Res
variable {bus : Fin 4} {w : Fin 28} {dst : BitVec 12} (hrest : Safety.coreAtRest c = true) (htype : (c.window w.val).type = 3)
  (hbus : (c.window w.val).readBuses.testBit bus.val = true) (hdst : Safety.filePort dst = true)

include htype hbus in
/-- RES is read after the moves of lower slots, of which there are none (R223). -/
theorem readSource_res {x : Word} {c0 : Chip} (h : readRes w.val c = some (x, c0)) :
    c.readSource c (moveSlot bus dst.toNat (.port (resPort w))) = (some x, c0) := by
  obtain ⟨hsrc, himm⟩ := srcPort_moveSlot bus (resPort w) dst.isLt
  have hwin := portWindow_window w (off := 0x38) (by decide)
  have hreadable : c.portReadable (moveSlot bus dst.toNat (.port (resPort w))).slot (windowBase w.val + 0x38) = true := by
    rw [Chip.portReadable, hwin]
    simp only [htype]
    exact Bool.and_eq_true _ _ ▸ ⟨hbus, rfl⟩
  have hqueue : c.readsQueue (windowBase w.val + 0x38) = true := by
    rw [Chip.readsQueue, hwin]
    simp [htype]
  have hread : readPort (windowBase w.val + 0x38) c = some (x, c0) := by
    rw [readPort, hwin]
    simp only [htype, true_and, if_true, h]
  rw [Chip.readSource, himm, hsrc, resPort_toNat]
  simp only [hreadable, hqueue, hread, Bool.not_true, Bool.false_eq_true, if_false, if_true]

theorem loneRead_res (c0 : Chip) : loneRead bus dst.toNat (.port (resPort w)) c0 c = c0 := by
  have hlt : (resPort w).toNat < 0x800 := by
    have := w.isLt
    rw [resPort_toNat]
    simp only [windowBase]
    omega
  exact loneRead_quiet c bus dst.isLt (by omega) (by rw [Chip.portInput, if_neg (by omega), if_neg (by omega)]) c0

include hrest htype hbus hdst

theorem issueOne_res {x : Word} {c0 : Chip} (h : readRes w.val c = some (x, c0)) (hi : c0.core.inflight = []) (hst : c0.core.stalled = none)
    (hr : c0.core.rptLeft = 0) (hg : c0.core.rptGo = none) :
    issueOne bus dst.toNat (.port (resPort w)) c = Safety.nextBundle (c0.setPort dst.toNat x) :=
  issueOne_file c hdst hrest (readSource_res c htype hbus h) (loneRead_res c c0) hi hst hr hg

end Res

end Sys2Proof.Machine
end

section
namespace Sys2Proof
open Machine

/-- Settles O22: triggers as lone moves, the oldest access at its bank, RES moved to a register. -/
theorem loadsAndStores : Obligations.LoadsAndStores := by
  unfold Obligations.LoadsAndStores
  refine fun s => ⟨fun bus w src b hrest hu hop e he => ?_, fun a rest ha hon hsp hm hf => ⟨fun hk hq => ?_, fun hk => ?_⟩,
    fun h => next_chip (lsuAccessDone_none _ _ h), fun bus w dst hrest htype hbus hdst => ⟨fun x q h => next_chip ?_, fun h => next_chip ?_⟩⟩
  · rw [exec_lsuRow s bus w src e he]
    exact ⟨fun hz hroom => next_chip (issueOne_lsu s.chip e.2 hrest hu hop hz hroom),
      fun z hz => next_chip (issueOne_lsu_trap s.chip e.2 hrest hu hop hz)⟩
  · refine ⟨_, rfl, ?_⟩
    dsimp only
    rw [lsuAccessDone_ld s.chip ha hon hsp hm hf _ hk, hq]
    exact ⟨rfl, queue_setQueue .., rfl⟩
  · refine ⟨_, rfl, ?_⟩
    dsimp only
    rw [lsuAccessDone_st s.chip ha hon hsp hm hf _ hk]
    refine ⟨rfl, ?_, fun p hp => ?_, queue_setQueue ..⟩
    · exact (stored_storeWord s.chip a.data hsp hm hf a.ptr).trans (if_pos rfl)
    · exact (stored_storeWord s.chip a.data hsp hm hf p).trans (if_neg hp)
  · obtain ⟨hst, hr, -, hg, hi, -⟩ := coreAtRest_reads s.chip hrest
    exact issueOne_res s.chip hrest htype hbus hdst (by rw [readRes, h]) hi hst hr hg
  · obtain ⟨hst, hr, -, hg, hi, -⟩ := coreAtRest_reads s.chip hrest
    exact issueOne_res s.chip hrest htype hbus hdst (by rw [readRes, h]) hi hst hr hg

end Sys2Proof
end

section
/-! SUPPORT. Lone moves to the ports of the core that act (R224 to R226, R229, R233, R235). -/

namespace Sys2Proof.Machine

variable (c : Chip)

/-- The ports of the core's own that a lone move may write whatever the recipe. -/
def corePorts : List Nat := [0x800, 0x801, 0x802, 0x803, 0x809, 0x811, 0x812, 0x814, 0x824]

theorem corePorts_window : ∀ p ∈ corePorts, portWindow p = none ∧ p < 2 ^ 12 := by decide

theorem corePorts_writable (bus : Nat) : ∀ p ∈ corePorts, c.portWritable bus p = true := by
  intro p hp
  have hnone := (corePorts_window p hp).1
  rw [Chip.portWritable, hnone]
  fin_cases hp <;> rfl

section Core
variable {bus : Fin 4} {src : MoveSource} {b : Word} {p : Nat} (hp : p ∈ corePorts)

include hp in
theorem isAccess_core : c.isAccess (loneMove bus p src b) = false := by
  rw [Chip.isAccess, loneMove_dst, (corePorts_window p hp).1]

variable (hrest : Safety.coreAtRest c = true) (hop : Safety.operandWord c src = some b)
include hp hrest

/-- What refuses a lone move to such a port (R227): repeats and pending transfers do not stand in its way. -/
theorem moveTrap_core : c.moveTrap (loneMove bus p src b) =
    if (portPrivileged p && ! c.priv) = true then some .privilege
    else if (! c.portTakes p b.tag) = true then some .tag
    else if c.portValueBad p b = true then some .value
    else if (inPorts 0x800 0x803 p && (decide (branchTarget c.core.pc p b < 0) || decide (49152 ≤ branchTarget c.core.pc p b))) = true then
      some .address
    else if p = 0x812 then some .soft
    else none := by
  obtain ⟨-, hrpt, htransfer, -, -, -⟩ := coreAtRest_reads c hrest
  have hne : p ≠ 0x908 := by fin_cases hp <;> decide
  rw [Chip.moveTrap, loneMove_dst, (corePorts_window p hp).1]
  simp only [hrpt, htransfer, hne, Nat.lt_irrefl, decide_false, Bool.false_and, Bool.false_eq_true, if_false, false_and]
  rfl

include hop

/-- A lone move to such a port that is refused. -/
theorem issueOne_core_trap {z : TrapCause} (ht : portTriggers p = true ∨ p = 0x811) (hz : c.moveTrap (loneMove bus p src b) = some z) :
    issueOne bus p src c = takeTrap (Safety.moveTrapOf z bus p src b false) c := by
  rw [issueOne_trap c hrest hop (corePorts_window p hp).2 (corePorts_writable c _ p hp) ht hz, isAccess_core c hp]

/-- A lone move to such a port that acts. -/
theorem issueOne_core (ht : portTriggers p = true) (hz : c.moveTrap (loneMove bus p src b) = none) :
    issueOne bus p src c = bundleEnd c (triggerPort p b c) := by
  refine issueOne_trigger c hrest hop (corePorts_window p hp).2 (corePorts_writable c _ p hp) ht hz ?_
  rw [moveStalls, loneMove_dst, (corePorts_window p hp).1]

/-- What such a port does to the core takes hold after the bundle. -/
theorem issueOne_core_next (ht : portTriggers p = true) (hz : c.moveTrap (loneMove bus p src b) = none) {d : Chip}
    (hd : triggerPort p b c = d) (hi : d.core.inflight = []) (hst : d.core.stalled = none) (hr : d.core.rptLeft = 0)
    (hg : d.core.rptGo = none) : issueOne bus p src c = Safety.nextBundle d := by
  have hstep := stepInFlight_idle d hi
  rw [issueOne_core c hp hrest hop ht hz, hd,
    bundleEnd_rest c hrest _ (by rw [hstep]; exact hst) (by rw [hstep]; exact hr) (by rw [hstep]; exact hg), hstep]

end Core

/-! ### Branches -/

/-- The core after a branch's own bundle: two delay bundles to go (R225). -/
def branched (target : Nat) (c : Chip) : Chip :=
  { c with core := { c.core with
      delayLeft := 2
      transfer := true
      delayIsReti := false
      brTarget := target } }

/-- The core of a call: BR_LINK holds the address after the delay bundles (R224). -/
def linked (c : Chip) : Chip := c.setPort 0x804 (.mk' .code (c.core.pc + 3))

theorem branch_eq (p : Nat) (b : Word) : branch p b c =
    branched (branchTarget c.core.pc p b).toNat (if p = 0x802 ∨ p = 0x803 then linked c else c) := (rfl)

/-- The ports of the branches, those of calls, and the tag each takes. -/
theorem branchPorts : ∀ p ∈ [0x800, 0x801, 0x802, 0x803], p ∈ corePorts ∧ portTriggers p = true ∧ portPrivileged p = false ∧
    inPorts 0x800 0x803 p = true := by decide

section Branch
variable {bus : Fin 4} {src : MoveSource} {b : Word} {p : Nat} (hp : p ∈ [0x800, 0x801, 0x802, 0x803])
  (hrest : Safety.coreAtRest c = true) (hop : Safety.operandWord c src = some b) (htakes : c.portTakes p b.tag = true)

include hp hrest htakes in
theorem moveTrap_branch : c.moveTrap (loneMove bus p src b) =
    if (decide (branchTarget c.core.pc p b < 0) || decide (49152 ≤ branchTarget c.core.pc p b)) = true then some .address else none := by
  obtain ⟨hcore, -, hpriv, hin⟩ := branchPorts p hp
  have hbad : c.portValueBad p b = false := by fin_cases hp <;> rfl
  have hne : p ≠ 0x812 := by fin_cases hp <;> decide
  rw [moveTrap_core c hcore hrest]
  simp only [hpriv, htakes, hbad, hin, hne, Bool.false_and, Bool.not_true, Bool.false_eq_true, if_false, Bool.true_and]

include hp hrest hop htakes

/-- A branch within the instruction memory. -/
theorem issueOne_branch {n : Nat} (ht : branchTarget c.core.pc p b = n) (hn : n < 49152) : issueOne bus p src c =
    Safety.nextBundle (branched n (if p = 0x802 ∨ p = 0x803 then linked c else c)) := by
  obtain ⟨hcore, htrig, -, -⟩ := branchPorts p hp
  obtain ⟨hst, hr, -, hg, hi, -⟩ := coreAtRest_reads c hrest
  have hact : triggerPort p b c = branched n (if p = 0x802 ∨ p = 0x803 then linked c else c) := by
    have h1 : 0x800 ≤ p ∧ p ≤ 0x803 := by fin_cases hp <;> decide
    rw [triggerPort, (corePorts_window p hcore).1]
    simp only [h1, and_self, if_true]
    rw [branch_eq, ht, Int.toNat_natCast]
  have htrap : c.moveTrap (loneMove bus p src b) = none := by
    rw [moveTrap_branch c hp hrest htakes, ht, if_neg (by simp; omega)]
  have hcase : (if p = 0x802 ∨ p = 0x803 then linked c else c).core.inflight = [] ∧
      (if p = 0x802 ∨ p = 0x803 then linked c else c).core.stalled = none ∧
      (if p = 0x802 ∨ p = 0x803 then linked c else c).core.rptLeft = 0 ∧
      (if p = 0x802 ∨ p = 0x803 then linked c else c).core.rptGo = none := by
    split <;> exact ⟨hi, hst, hr, hg⟩
  obtain ⟨h1, h2, h3, h4⟩ := hcase
  exact issueOne_core_next c hcore hrest hop htrig htrap hact h1 h2 h3 h4

/-- A target beyond the instruction memory. -/
theorem issueOne_branch_trap (ht : 49152 ≤ branchTarget c.core.pc p b) :
    issueOne bus p src c = takeTrap (Safety.moveTrapOf .address bus p src b false) c := by
  obtain ⟨hcore, htrig, -, -⟩ := branchPorts p hp
  refine issueOne_core_trap c hcore hrest hop (.inl htrig) ?_
  rw [moveTrap_branch c hp hrest htakes, if_pos (by simp [ht])]

end Branch

/-! ### RPT_GO (R226) -/

/-- RPT_GO of a count other than 0 has the next bundle repeated. -/
theorem issueOne_repeat {bus : Fin 4} {src : MoveSource} {b : Word} (hrest : Safety.coreAtRest c = true)
    (hop : Safety.operandWord c src = some b) (htag : b.tag = .int) (hn : (c.port 0x808).nat ≠ 0) : issueOne bus 0x809 src c =
    Safety.nextBundle { c with core := { c.core with
      rptLeft := (c.port 0x808).nat
      rptIndex := b.toInt } } := by
  obtain ⟨hst, hr, -, hg, hi, -⟩ := coreAtRest_reads c hrest
  have hcore : 0x809 ∈ corePorts := by decide
  have htrap : c.moveTrap (loneMove bus 0x809 src b) = none := by
    have htakes : c.portTakes 0x809 b.tag = true := by rw [htag]; rfl
    rw [moveTrap_core c hcore hrest, htakes]
    rfl
  have hact : triggerPort 0x809 b c = { c with core := { c.core with rptGo := some ((c.port 0x808).nat, b.toInt) } } := rfl
  have hstep := stepInFlight_idle { c with core := { c.core with rptGo := some ((c.port 0x808).nat, b.toInt) } } hi
  rw [issueOne_core c hcore hrest hop (by decide) htrap, hact,
    bundleEnd_repeat c hrest _ (by rw [hstep]; exact hst) hn (by rw [hstep]), hstep]
  have hgo : ({ c.core with
      rptGo := none
      rptLeft := (c.port 0x808).nat
      rptIndex := b.toInt } : Machine.Core) = { c.core with
      rptLeft := (c.port 0x808).nat
      rptIndex := b.toInt } := by rw [← hg]
  exact congrArg (fun k => Safety.nextBundle { c with core := k }) hgo

end Sys2Proof.Machine
end

section
namespace Sys2Proof
open Machine

/-- Settles O23: each branch is a lone move to its port. -/
theorem branchesAndRepeat : Obligations.BranchesAndRepeat := by
  unfold Obligations.BranchesAndRepeat
  intro s bus src b hrest hop taken linked
  refine ⟨fun htag hn => ⟨next_chip ?_, next_chip ?_⟩, fun htag hn => next_chip ?_, fun n htag ht hn => ⟨next_chip ?_, next_chip ?_⟩,
    fun htag hn => next_chip (issueOne_repeat s.chip hrest hop htag hn)⟩
  · exact issueOne_branch s.chip (p := 0x800) (by decide) hrest hop (by rw [htag]; rfl) (n := b.nat) rfl hn
  · exact issueOne_branch s.chip (p := 0x802) (by decide) hrest hop (by rw [htag]; rfl) (n := b.nat) rfl hn
  · exact issueOne_branch_trap s.chip (p := 0x800) (by decide) hrest hop (by rw [htag]; rfl) (Int.ofNat_le.mpr hn)
  · exact issueOne_branch s.chip (p := 0x801) (by decide) hrest hop (by rw [htag]; rfl) ht hn
  · exact issueOne_branch s.chip (p := 0x803) (by decide) hrest hop (by rw [htag]; rfl) ht hn

end Sys2Proof
end

section
/-! SUPPORT. Waiting, trapping, returning and CORE_MODE (R219, R229, R230, R233, R235). -/

namespace Sys2Proof.Machine

variable (c : Chip)

theorem port_setPort (p q : Nat) (w : Word) : (c.setPort p w).port q = if q = p then w else c.port q := by
  by_cases h : q = p
  · subst h; simp [Chip.port, Chip.setPort]
  · simp [Chip.port, Chip.setPort, Store.get_put_ne, h]

@[simp] theorem port_setPort_same (p : Nat) (w : Word) : (c.setPort p w).port p = w := by simp [port_setPort]
@[simp] theorem port_setPort_ne (p q : Nat) (w : Word) (h : q ≠ p) : (c.setPort p w).port q = c.port q := by simp [port_setPort, h]

/-! ### Entering a level (R232, R229) -/

/-- The ports of a level's saved state, written at its entry. -/
def levelSaved (l pc : Nat) (c : Chip) : Chip :=
  ((((c.setPort (savePort l 0) (.mk' .code pc)).setPort (savePort l 1) c.saveState).setPort
    (savePort l 2) (.int c.core.rptLeft)).setPort (savePort l 3) (.int c.core.rptIndex)).setPort 0x811 (.bits 1)

theorem enterLevel_eq (l pc : Nat) : enterLevel l pc c =
    { levelSaved l pc c with core := { (levelSaved l pc c).core with
        cur := l
        pc := c.vector l
        delayLeft := 0
        transfer := false
        delayIsReti := false
        rptGo := none
        rptLeft := 0 } } := (rfl)

@[simp] theorem Chip.setPort_regs (p : Nat) (w : Word) : (c.setPort p w).regs = c.regs := (rfl)
@[simp] theorem Chip.setPort_mems (p : Nat) (w : Word) : (c.setPort p w).mems = c.mems := (rfl)

theorem enterLevel_port (l pc q : Nat) : (enterLevel l pc c).port q = (levelSaved l pc c).port q := by
  rw [enterLevel_eq, Chip.port, Chip.port]

/-- What the entry of a level leaves: the level's vector, its saved address and state, PRIV, and every other port but the level's
own. -/
theorem enterLevel_reads {l : Nat} (h1 : 1 ≤ l) (h4 : l ≤ 4) (pc : Nat) : let d := enterLevel l pc c
    d.core.cur = l ∧ d.core.pc = c.vector l ∧ d.priv = true ∧ d.port (savePort l 0) = .mk' .code pc ∧ d.port (savePort l 1) = c.saveState ∧
    d.regs = c.regs ∧ d.mems = c.mems ∧ ∀ q, q ≠ 0x811 → q < 0x838 ∨ 0x847 < q → d.port q = c.port q := by
  refine ⟨by rw [enterLevel_eq], by rw [enterLevel_eq], ?_, ?_, ?_, ?_, ?_, fun q hq hout => ?_⟩
  · rw [Chip.priv, enterLevel_port, levelSaved, port_setPort_same]
    rfl
  · rw [enterLevel_port, levelSaved]
    simp (disch := simp only [savePort]; omega) only [port_setPort_ne, port_setPort_same]
  · rw [enterLevel_port, levelSaved]
    simp (disch := simp only [savePort]; omega) only [port_setPort_ne, port_setPort_same]
  · rw [enterLevel_eq]
    simp only [levelSaved, Chip.setPort_regs]
  · rw [enterLevel_eq]
    simp only [levelSaved, Chip.setPort_mems]
  · have hsave : ∀ k, k < 4 → q ≠ savePort l k := fun k hk => by simp only [savePort]; omega
    rw [enterLevel_port, levelSaved, port_setPort_ne _ _ _ _ hq, port_setPort_ne _ _ _ _ (hsave 3 (by decide)),
      port_setPort_ne _ _ _ _ (hsave 2 (by decide)), port_setPort_ne _ _ _ _ (hsave 1 (by decide)),
      port_setPort_ne _ _ _ _ (hsave 0 (by decide))]

/-- A trap outside level 4 enters it, its cause and word noted (R229). -/
theorem takeTrap_entered (t : Trap) (h : c.core.cur ≠ 4) : takeTrap t c =
    enterLevel 4 c.core.pc ((c.setPort 0x860 (trapCauseWord t (decide (0 < c.core.rptLeft)))).setPort 0x861 (trapWord t)) := by
  rw [takeTrap, if_neg h]
  rfl

theorem trapWord_soft (t : Trap) (h : t.cause = .soft) : trapWord t = t.word := by rw [trapWord, h]

theorem trapCauseWord_once (t : Trap) (h : t.cause ≠ .fetchPoison) :
    trapCauseWord t false = .bits (t.cause.code * 2 ^ 8 + t.slot * 2 ^ 6 + t.bits / 2 ^ 36 % 16) := by
  rw [trapCauseWord, if_neg h, b2n, if_neg Bool.false_ne_true, Nat.zero_mul, Nat.add_zero]

/-- A soft trap (R229, R235): level 4 at its vector, with the cause and the word of the move. -/
theorem takeTrap_soft (t : Trap) (hc : t.cause = .soft) (hcur : c.core.cur ≠ 4) (hr : c.core.rptLeft = 0) : let d := takeTrap t c
    d.core.cur = 4 ∧ d.core.pc = (c.port 0x82B).nat ∧ d.port (savePort 4 0) = .mk' .code c.core.pc ∧ d.port 0x861 = t.word ∧
    d.port 0x860 = .bits (12 * 2 ^ 8 + t.slot * 2 ^ 6 + t.bits / 2 ^ 36 % 16) ∧ d.priv = true ∧ d.mems = c.mems ∧ d.regs = c.regs := by
  have hrpt : decide (0 < c.core.rptLeft) = false := by rw [hr]; rfl
  rw [takeTrap_entered c t hcur, hrpt, trapCauseWord_once t (by rw [hc]; decide), trapWord_soft t hc, hc]
  obtain ⟨h1, h2, h3, h4, -, h6, h7, h8⟩ := enterLevel_reads ((c.setPort 0x860
    (.bits (TrapCause.soft.code * 2 ^ 8 + t.slot * 2 ^ 6 + t.bits / 2 ^ 36 % 16))).setPort 0x861 t.word) (l := 4) (by decide) (by decide)
    c.core.pc
  refine ⟨h1, h2.trans ?_, h4, (h8 0x861 (by decide) (.inr (by decide))).trans ?_, (h8 0x860 (by decide) (.inr (by decide))).trans ?_, h3,
    h7, h6⟩
  · rw [Chip.vector, if_pos rfl, port_setPort_ne _ _ _ _ (by decide), port_setPort_ne _ _ _ _ (by decide)]
  · rw [port_setPort_same]
  · rw [port_setPort_ne _ _ _ _ (by decide), port_setPort_same, TrapCause.code]

/-! ### The rows -/

section Rows
variable {bus : Fin 4} {src : MoveSource} {b : Word} (hrest : Safety.coreAtRest c = true) (hop : Safety.operandWord c src = some b)
include hrest hop

theorem issueOne_wait (htag : b.tag = .int) (hn : 0 ≤ b.toInt) : issueOne bus 0x814 src c = Safety.nextBundle
    { c with core := { c.core with
        waiting := true
        waitUntil := if b.nat = 0 then none else some (c.now + b.nat) } } := by
  obtain ⟨hst, hr, -, hg, hi, -⟩ := coreAtRest_reads c hrest
  have hcore : 0x814 ∈ corePorts := by decide
  have htrap : c.moveTrap (loneMove bus 0x814 src b) = none := by
    have htakes : c.portTakes 0x814 b.tag = true := by rw [htag]; rfl
    have hbad : c.portValueBad 0x814 b = false := decide_eq_false (Int.not_lt.mpr hn)
    rw [moveTrap_core c hcore hrest, htakes, hbad]
    rfl
  exact issueOne_core_next c hcore hrest hop (by decide) htrap rfl hi hst hr hg

theorem issueOne_soft : issueOne bus 0x812 src c = takeTrap (Safety.moveTrapOf .soft bus 0x812 src b false) c := by
  have hcore : 0x812 ∈ corePorts := by decide
  refine issueOne_core_trap c hcore hrest hop (.inl (by decide)) ?_
  rw [moveTrap_core c hcore hrest]
  rfl

theorem issueOne_reti (hpriv : c.priv = true) (hcur : c.core.cur ≠ 0) : issueOne bus 0x824 src c = Safety.nextBundle
    { c with core := { c.core with
        delayLeft := 2
        transfer := true
        delayIsReti := true
        brTarget := 0 } } := by
  obtain ⟨hst, hr, -, hg, hi, -⟩ := coreAtRest_reads c hrest
  have hcore : 0x824 ∈ corePorts := by decide
  have htrap : c.moveTrap (loneMove bus 0x824 src b) = none := by
    have hbad : c.portValueBad 0x824 b = false := beq_eq_false_iff_ne.mpr hcur
    rw [moveTrap_core c hcore hrest, hpriv, hbad]
    rfl
  exact issueOne_core_next c hcore hrest hop (by decide) htrap rfl hi hst hr hg

theorem issueOne_coreMode (hpriv : c.priv = true) (htag : b.tag = .bits) (hn : b.nat ≤ 1) :
    issueOne bus 0x811 src c = Safety.nextBundle (c.setPort 0x811 b) := by
  obtain ⟨hst, hr, -, hg, hi, -⟩ := coreAtRest_reads c hrest
  have hcore : 0x811 ∈ corePorts := by decide
  have htrap : c.moveTrap (loneMove bus 0x811 src b) = none := by
    have htakes : c.portTakes 0x811 b.tag = true := by rw [htag]; rfl
    have hbad : c.portValueBad 0x811 b = false := decide_eq_false (Nat.not_lt.mpr hn)
    rw [moveTrap_core c hcore hrest, hpriv, htakes, hbad]
    rfl
  have hstep := stepInFlight_idle (c.setPort 0x811 b) hi
  rw [issueOne_mode c hrest hop (by decide) (corePorts_writable c _ _ hcore) rfl htrap,
    bundleEnd_rest c hrest _ (by rw [hstep]; exact hst) (by rw [hstep]; exact hr) (by rw [hstep]; exact hg), hstep]

theorem issueOne_coreMode_trap (hpriv : c.priv = false) :
    issueOne bus 0x811 src c = takeTrap (Safety.moveTrapOf .privilege bus 0x811 src b false) c := by
  have hcore : 0x811 ∈ corePorts := by decide
  refine issueOne_core_trap c hcore hrest hop (.inr rfl) ?_
  rw [moveTrap_core c hcore hrest, hpriv]
  rfl

/-- TESTX (R219): the guard tells whether the word is exceptional. -/
theorem issueOne_test (k : Fin 7) : issueOne bus (0x91 + k.val) src c =
    Safety.nextBundle (setGuard c (k.val + 1) b.exceptional) := by
  obtain ⟨hst, hr, htr, hg, hi, -⟩ := coreAtRest_reads c hrest
  have hports : ∀ k : Fin 7, portWindow (0x91 + k.val) = none ∧ portTriggers (0x91 + k.val) = false ∧
      portPrivileged (0x91 + k.val) = false ∧ portBranches (0x91 + k.val) = false ∧ inPorts 0x91 0x97 (0x91 + k.val) = true ∧
      inPorts 0x800 0x803 (0x91 + k.val) = false := by decide
  obtain ⟨hwin, htrig, hpr, hbr, hin, hfar⟩ := hports k
  have hk := k.isLt
  have hw : c.portWritable bus.val (0x91 + k.val) = true := by
    rw [Chip.portWritable, hwin]
    simp [hin]
  have htakes : c.portTakes (0x91 + k.val) b.tag = true := by
    have hall : ∀ k : Fin 7, c.portTakes (0x91 + k.val) b.tag = true := by
      intro k
      fin_cases k <;> rfl
    exact hall k
  have hbad : c.portValueBad (0x91 + k.val) b = false := by
    unfold Chip.portValueBad
    repeat rw [if_neg (by omega)]
  have htrap : c.moveTrap (loneMove bus (0x91 + k.val) src b) = none := by
    rw [Chip.moveTrap, loneMove_dst, hwin]
    have hne : ¬ 0x91 + k.val = 0x908 := by omega
    have hrg : ¬ 0x91 + k.val = 0x809 := by omega
    have hsoft : ¬ 0x91 + k.val = 0x812 := by omega
    have hword : (loneMove bus (0x91 + k.val) src b).word = b := rfl
    simp [hpr, hbr, hr, htr, hword, htakes, hbad, hfar, hne, hsoft]
  have hact : writePort (0x91 + k.val) b c = setGuard c (k.val + 1) b.exceptional := by
    have hg : 0x91 + k.val - 0x90 = k.val + 1 := by omega
    rw [writePort, if_neg (by omega), if_neg (by omega), if_neg (by omega), if_pos (by omega), hg]
  have hstep := stepInFlight_idle (setGuard c (k.val + 1) b.exceptional) hi
  rw [issueOne_hold c hrest hop (by omega) hw htrig (by omega) htrap, hact,
    bundleEnd_rest c hrest _ (by rw [hstep]; exact hst) (by rw [hstep]; exact hr) (by rw [hstep]; exact hg), hstep]

end Rows

end Sys2Proof.Machine
end

section
namespace Sys2Proof
open Machine

/-- Settles O24: each row is a lone move to its port; a soft trap enters level 4. -/
theorem coreControl : Obligations.CoreControl := by
  unfold Obligations.CoreControl
  intro s bus src b hrest hop
  refine ⟨fun htag hn => next_chip (issueOne_wait s.chip hrest hop htag hn), fun hcur => ?_,
    fun hpriv hc => next_chip (issueOne_reti s.chip hrest hop hpriv hc),
    fun hpriv htag hn => next_chip (issueOne_coreMode s.chip hrest hop hpriv htag hn),
    fun hpriv => next_chip (issueOne_coreMode_trap s.chip hrest hop hpriv), fun k => next_chip (issueOne_test s.chip hrest hop k)⟩
  obtain ⟨-, hr, -⟩ := coreAtRest_reads s.chip hrest
  have hsoft := takeTrap_soft s.chip (Safety.moveTrapOf .soft bus 0x812 src b false) rfl hcur hr
  refine ⟨_, rfl, ?_⟩
  dsimp only
  rw [issueOne_soft s.chip hrest hop]
  exact hsoft

end Sys2Proof
end

section
/-! SUPPORT. Core event inputs, interrupts and the end of a wait (R211, R231 to R235). -/

namespace Sys2Proof.Machine

variable (c : Chip)

/-! ### Events at an input (R231) -/

section Input
variable {j : Nat} (w : Word) (hon : c.isOn .core = true)
include hon

theorem coreEvent_first (h : (c.input j).count = 0) : coreEvent j w c = setInput c j ⟨w, 1⟩ := by
  simp [coreEvent, hon, h]

theorem coreEvent_counted (hc : c.evCount j = true) (h : (c.input j).count < 65535) :
    coreEvent j w c = setInput c j ⟨w, (c.input j).count + 1⟩ := by
  simp [coreEvent, hon, hc, h]

theorem coreEvent_dropped (hc : c.evCount j = false) (h : (c.input j).count ≠ 0) (hp : c.core.paused = false) :
    coreEvent j w c = c.overrun j := by
  simp [coreEvent, hon, hc, h, hp]

end Input

/-! ### Interrupts (R232) -/

theorem interruptLevel_le : c.interruptLevel ≤ 3 := by
  unfold Chip.interruptLevel
  split_ifs <;> omega

theorem interruptEntry_due (hi : c.canIssue = true) (hs : c.core.stalled = none) (hl : c.interruptLevel ≠ 0) :
    interruptEntry c = enterLevel c.interruptLevel c.core.pc c := by
  simp [interruptEntry, hi, hs, hl]

theorem interruptEntry_rest (h : Safety.coreAtRest c = true) : interruptEntry c = c := by
  have hlevel : c.interruptLevel = 0 := by
    have := coreAtRest_issues c h
    simp only [Bool.and_eq_true, beq_iff_eq] at this
    exact this.2
  simp [interruptEntry, hlevel]

/-! ### What an input holds, moved to a register (R234) -/

theorem consumeInput_held {j : Nat} (h : (c.input j).count ≠ 0) (hc : c.evCount j = false) :
    (consumeInput c j).1 = (c.input j).word := by
  simp [consumeInput, h, hc]

theorem consumeInput_empty {j : Nat} (h : (c.input j).count = 0) : (consumeInput c j).1 = refused .busy := by
  simp [consumeInput, h]

theorem takeEvents_held {j : Nat} (h : (c.input j).count ≠ 0) : takeEvents [(j, (c.input j).count)] c = setInput c j .none := by
  simp [takeEvents, h]

theorem takeEvents_empty {j : Nat} (h : (c.input j).count = 0) : takeEvents [(j, (c.input j).count)] c = c := by
  simp [takeEvents, h]

section Poll
variable {bus : Fin 4} {dst : BitVec 12} {p : BitVec 12} {j : Nat} (hrest : Safety.coreAtRest c = true)
  (hdst : Safety.filePort dst = true) (hlo : 0x831 ≤ p.toNat) (hhi : p.toNat ≤ 0x8BF) (hwin : ∀ b, c.portReadable b p.toNat = true)
  (hread : readPort p.toNat c = some ((consumeInput c j).1, c)) (hin : c.portInput p.toNat = some j)

include hlo hhi hwin hread in
theorem readSource_event : c.readSource c (moveSlot bus dst.toNat (.port p)) = (some (consumeInput c j).1, c) := by
  obtain ⟨hsrc, himm⟩ := srcPort_moveSlot bus p dst.isLt
  have hqueue : c.readsQueue p.toNat = false := by
    rw [Chip.readsQueue, show portWindow p.toNat = none from if_neg (by omega)]
  rw [Chip.readSource, himm, hsrc]
  simp only [hwin, hqueue, hread, Bool.not_true, Bool.false_eq_true, if_false]

include hhi hwin hin in
theorem loneRead_event : loneRead bus dst.toNat (.port p) c c = takeEvents [(j, (c.input j).count)] c := by
  have hcount : ¬ 0xE00 ≤ p.toNat := by omega
  rw [loneRead_eq, portsRead_lone c bus dst.isLt, hwin, if_pos rfl]
  simp [Chip.eventsTaken, Chip.countsLatched, hin, hcount, eraseDups_of_length_le_one]

include hrest hdst hlo hhi hwin hread hin

/-- An input that holds an event gives its word and empties. -/
theorem issueOne_event (h : (c.input j).count ≠ 0) (hc : c.evCount j = false) : issueOne bus dst.toNat (.port p) c =
    Safety.nextBundle ((setInput c j .none).setPort dst.toNat (c.input j).word) := by
  obtain ⟨hst, hr, -, hg, hi, -⟩ := coreAtRest_reads c hrest
  rw [← consumeInput_held c h hc]
  exact issueOne_file c hdst hrest (readSource_event c hlo hhi hwin hread)
    ((loneRead_event c hhi hwin hin).trans (takeEvents_held c h)) hi hst hr hg

/-- An empty input gives REFUSED with BUSY. -/
theorem issueOne_event_empty (h : (c.input j).count = 0) : issueOne bus dst.toNat (.port p) c =
    Safety.nextBundle (c.setPort dst.toNat (refused .busy)) := by
  obtain ⟨hst, hr, -, hg, hi, -⟩ := coreAtRest_reads c hrest
  rw [← consumeInput_empty c h]
  exact issueOne_file c hdst hrest (readSource_event c hlo hhi hwin hread)
    ((loneRead_event c hhi hwin hin).trans (takeEvents_empty c h)) hi hst hr hg

end Poll

/-! The ports of the inputs. -/

/-- The EV_POLL port of an input. -/
abbrev pollPort (j : Fin 32) : BitVec 12 := BitVec.ofNat 12 (0x8A0 + j.val)

/-- The EV_CAUSE port of a level, one more than the operand. -/
abbrev causePort (l : Fin 3) : BitVec 12 := BitVec.ofNat 12 (0x831 + l.val)

theorem pollPort_toNat : ∀ j : Fin 32, (pollPort j).toNat = 0x8A0 + j.val := by decide
theorem causePort_toNat : ∀ l : Fin 3, (causePort l).toNat = 0x831 + l.val := by decide

theorem pollPort_read (j : Fin 32) : (∀ b, c.portReadable b (pollPort j).toNat = true) ∧
    readPort (pollPort j).toNat c = some ((consumeInput c j.val).1, c) ∧ c.portInput (pollPort j).toNat = some j.val := by
  have hj := j.isLt
  have hnone : portWindow (0x8A0 + j.val) = none := if_neg (by omega)
  have hin : inPorts 0x880 0x8BF (0x8A0 + j.val) = true := by simp [inPorts]; omega
  have hsub : 0x8A0 + j.val - 0x8A0 = j.val := by omega
  rw [pollPort_toNat]
  refine ⟨fun b => ?_, ?_, ?_⟩
  · rw [Chip.portReadable, hnone]
    simp [hin]
  · rw [readPort, hnone]
    dsimp only
    rw [if_neg (by omega), if_pos (by omega), hsub]
  · rw [Chip.portInput, if_neg (by omega), if_pos (by omega), hsub]

theorem causePort_read (l : Fin 3) {j : Nat} (h : (evInputs.find? fun j => c.evReady j && c.evLevel j == l.val + 1) = some j) :
    (∀ b, c.portReadable b (causePort l).toNat = true) ∧ readPort (causePort l).toNat c = some ((consumeInput c j).1, c) ∧
    c.portInput (causePort l).toNat = some j := by
  have hl := l.isLt
  have hnone : portWindow (0x831 + l.val) = none := if_neg (by omega)
  have hin : inPorts 0x831 0x833 (0x831 + l.val) = true := by simp [inPorts]; omega
  have hsub : 0x831 + l.val - 0x830 = l.val + 1 := by omega
  rw [causePort_toNat]
  refine ⟨fun b => ?_, ?_, ?_⟩
  · rw [Chip.portReadable, hnone]
    simp [hin]
  · rw [readPort, hnone]
    dsimp only
    rw [if_pos (by omega), hsub, readCause, h]
  · rw [Chip.portInput, if_pos (by omega), hsub, h]

theorem find_ready {l : Nat} {j : Nat} (h : (evInputs.find? fun j => c.evReady j && c.evLevel j == l) = some j) :
    (c.input j).count ≠ 0 := by
  have := List.find?_some h
  simp only [Bool.and_eq_true, Chip.evReady, decide_eq_true_eq] at this
  omega

/-! ### The end of a wait, and the all-zero bundle -/

theorem coreWaitEnd_due (hw : c.core.waiting = true) (h : (∃ j, j < 32 ∧ c.evReady j = true) ∨ ∃ g, c.core.waitUntil = some g ∧ g ≤ c.now) :
    coreWaitEnd c = { c with core := { c.core with
      waiting := false
      waitUntil := none } } := by
  unfold coreWaitEnd
  rcases h with ⟨j, hj, hready⟩ | ⟨g, hg, hle⟩
  · have hany : c.anyReady = true := List.any_eq_true.mpr ⟨j, List.mem_range.mpr hj, hready⟩
    simp [hw, hany]
  · simp [hw, hg, hle]

/-- The all-zero bundle is one move of the null port to itself. -/
theorem zeroBundle : oneMove 0 0 (.port 0) = [0, 0, 0, 0] ∧ moveSlot 0 0 (.port 0) = noopSlot 0 ∧
    loneMove 0 0 (.port 0) (.int 0) = noopMove 0 := by decide

/-- The all-zero bundle does nothing but move the core on. -/
theorem bundleIssue_zero (hrest : Safety.coreAtRest c = true) (hf : fetchBundle c = ([0, 0, 0, 0], c)) :
    bundleIssue c = Safety.nextBundle c := by
  obtain ⟨hst, hr, -, hg, hi, -⟩ := coreAtRest_reads c hrest
  obtain ⟨hcode, hslot, hmove⟩ := zeroBundle
  have hissue : c.issues = true := by
    have := coreAtRest_issues c hrest
    simp only [Bool.and_eq_true] at this
    simp [Chip.issues, this.1.1]
  have hread : c.readSource c (moveSlot 0 0 (.port 0)) = (some (.int 0), c) := by
    rw [hslot]
    exact readSource_noopSlot c c 0
  obtain ⟨st, hrun⟩ := runBundle_lone c 0 0 (.port 0) (by decide) hst (by rw [hslot]; exact slotTrap_noopSlot c 0) hread
  have hquiet : loneRead 0 0 (.port 0) c c = c := loneRead_quiet c 0 (by decide) (p := 0) (by decide) rfl c
  have hstep := stepInFlight_idle c hi
  have hend : runBundle [0, 0, 0, 0] c = .done (Safety.nextBundle c) := by
    rw [← hcode, hrun, hquiet, hmove, commitMoves_hold c 0 _ st c rfl (by decide) hi (moveTrap_noopMove c 0),
      show (noopMove 0).dst = 0 from rfl, writePort_null,
      bundleEnd_rest c hrest _ (by rw [hstep]; exact hst) (by rw [hstep]; exact hr) (by rw [hstep]; exact hg), hstep]
  have hpoison : [0, 0, 0, 0].contains imPoison = false := by decide
  unfold bundleIssue
  simp only [hissue, hst, interruptEntry_rest c hrest, hf, hpoison, hend, Bool.not_true, Bool.false_eq_true, if_false]
  have hcore : ({ (Safety.nextBundle c).core with stalled := none } : Machine.Core) = (Safety.nextBundle c).core := by
    rw [← hst]; rfl
  exact congrArg (fun k => { Safety.nextBundle c with core := k }) hcore

end Sys2Proof.Machine
end

section
namespace Sys2Proof
open Machine

/-- Settles O25: an input's cases, the entry of a level, an input's port moved to a register, and the all-zero bundle. -/
theorem coreEvents : Obligations.CoreEvents := by
  unfold Obligations.CoreEvents
  refine fun s => ⟨fun j src v hon => ⟨fun h => next_chip (coreEvent_first s.chip _ hon h),
      fun hc h => next_chip (coreEvent_counted s.chip _ hon hc h), fun hc h hp => next_chip (coreEvent_dropped s.chip _ hon hc h hp)⟩,
    fun l hi hs hl h0 => ?_, fun bus dst hrest hdst => ⟨fun j h hc => next_chip ?_, fun j h => next_chip ?_, fun l j h hc => next_chip ?_⟩,
    fun hw h => next_chip (coreWaitEnd_due s.chip hw h), fun hrest hf => next_chip (bundleIssue_zero s.chip hrest hf)⟩
  · have hle := interruptLevel_le s.chip
    obtain ⟨h1, h2, h3, h4, h5, h6, h7, -⟩ := enterLevel_reads s.chip (l := l) (by omega) (by omega) s.chip.core.pc
    refine ⟨_, rfl, ?_⟩
    dsimp only
    rw [interruptEntry_due s.chip hi hs (by rw [hl]; exact h0), hl]
    exact ⟨h1, h2, h3, h4, h5, h6, h7⟩
  · obtain ⟨h1, h2, h3⟩ := pollPort_read s.chip j
    exact issueOne_event s.chip hrest hdst (by rw [pollPort_toNat]; omega) (by rw [pollPort_toNat]; omega) h1 h2 h3 h hc
  · obtain ⟨h1, h2, h3⟩ := pollPort_read s.chip j
    exact issueOne_event_empty s.chip hrest hdst (by rw [pollPort_toNat]; omega) (by rw [pollPort_toNat]; omega) h1 h2 h3 h
  · obtain ⟨h1, h2, h3⟩ := causePort_read s.chip l h
    exact issueOne_event s.chip hrest hdst (by rw [causePort_toNat]; omega) (by rw [causePort_toNat]; omega) h1 h2 h3 (find_ready _ h) hc

end Sys2Proof
end

section
/-! SUPPORT. Operations in engines: what noting a yield leaves, and an operation that its engine runs to its end (R248, R255, R256). -/

namespace Sys2Proof.Machine
open Safety

variable (c : Chip)

/-! ### Taking an operation -/

/-- Only what an engine has yielded is noted as it takes a job. -/
theorem noteYield_eq (e : Nat) (j : Job) : ∃ y, noteYield e j c = c.onTk fun k => { k with yielded := y } := by
  cases j with
  | mbx p => exact ⟨c.tk.yielded, rfl⟩
  | held n => exact ⟨_, rfl⟩
  | orphan k => exact ⟨_, rfl⟩

section
variable (e : Nat) (j : Job)

@[simp] theorem noteYield_work (j' : Job) : (noteYield e j c).work j' = c.work j' := by
  obtain ⟨y, hy⟩ := noteYield_eq c e j
  rw [hy]
  cases j' <;> rfl

/-- What a codeword reads as is a matter of the memories alone. -/
theorem readPair_fst_onTk (p : Nat) (g : Tickets → Tickets) : (readPair p (c.onTk g)).1 = (readPair p c).1 := by
  have hflaw : (c.onTk g).flaw (evenOf p) = c.flaw (evenOf p) := rfl
  simp only [readPair, hflaw]
  cases rsDecode (c.flaw (evenOf p)) <;> rfl

theorem peek_onTk (p : Nat) (g : Tickets → Tickets) : (c.onTk g).peek p = c.peek p :=
  congrArg (fun r => PairRead.word r p) (readPair_fst_onTk c p g)

theorem sweepRange_onTk (w : Work) (g : Tickets → Tickets) : (c.onTk g).sweepRange w = c.sweepRange w := by
  simp only [Chip.sweepRange, peek_onTk]

@[simp] theorem noteYield_worksInDram (w : Work) : (noteYield e j c).worksInDram w = c.worksInDram w := by
  obtain ⟨y, hy⟩ := noteYield_eq c e j
  rw [hy]
  simp only [Chip.worksInDram, sweepRange_onTk, peek_onTk]
  rfl

@[simp] theorem noteYield_ticket (n : Nat) : (noteYield e j c).ticket n = c.ticket n := by
  obtain ⟨y, hy⟩ := noteYield_eq c e j
  rw [hy]
  rfl

@[simp] theorem noteYield_now : (noteYield e j c).now = c.now := by
  obtain ⟨y, hy⟩ := noteYield_eq c e j
  rw [hy]
  rfl

@[simp] theorem noteYield_regs : (noteYield e j c).regs = c.regs := by
  obtain ⟨y, hy⟩ := noteYield_eq c e j
  rw [hy]
  rfl

@[simp] theorem noteYield_mems : (noteYield e j c).mems = c.mems := by
  obtain ⟨y, hy⟩ := noteYield_eq c e j
  rw [hy]
  rfl

end

theorem opTaken_eq (v : Via) : ∃ y, opTaken v c = c.onTk fun k => { k with yielded := y } := noteYield_eq c _ _

@[simp] theorem opTaken_work (v : Via) (j : Job) : (opTaken v c).work j = c.work j := noteYield_work ..
@[simp] theorem opTaken_worksInDram (v : Via) (w : Work) : (opTaken v c).worksInDram w = c.worksInDram w :=
  noteYield_worksInDram ..
@[simp] theorem opTaken_ticket (v : Via) (n : Nat) : (opTaken v c).ticket n = c.ticket n := noteYield_ticket ..
@[simp] theorem opTaken_now (v : Via) : (opTaken v c).now = c.now := noteYield_now ..
@[simp] theorem opTaken_regs (v : Via) : (opTaken v c).regs = c.regs := noteYield_regs ..
@[simp] theorem opTaken_mems (v : Via) : (opTaken v c).mems = c.mems := noteYield_mems ..

/-! ### An operation to its end -/

/-- An operation that is the next work of its engine, with nothing between its steps, runs to its end. -/
theorem opRow_next {code : Nat} {v : Via} {w : Work} (o : Store Nat) (h : opNext c code v w) :
    opRow code v o c = runJob (jobOf v) o (opTaken v c) := by
  obtain ⟨⟨e, he, ha⟩, hw, hc⟩ := h
  simp [opRow, opTaken, he, hw, hc, ha]

/-- An operation with no effect before its last step has all of it then. -/
theorem runJob_whole {j : Job} {w : Work} (o : Store Nat) (hw : c.work j = some w) (hd : c.worksInDram w = false)
    (hs : opStepped w.code = false) (hf : c.opFirst w = none) :
    runJob j o c = match runOp j w o (noteStep j (stepCount w c).1 w.prog w.sweep (stepCount w c).2) with
      | (some x, c2) => finishJobWith j w.code x c2
      | (none, c2) => c2 := by
  simp only [runJob, hw, hd, hs, hf]
  rfl

/-- One on records in DRAM begins its transactions (R248). -/
theorem runJob_dram {j : Job} {w : Work} (o : Store Nat) (hw : c.work j = some w) (hd : c.worksInDram w = true) :
    runJob j o c = dramBegin j w c := by
  simp only [runJob, hw, hd, if_true]

/-- The row of an operation that has its whole effect in its last step and ends with a result. -/
theorem opRow_done {s : State} {code : Nat} {v : Via} {w : Work} {x : Word} {d : Chip} (h : opNext s.chip code v w)
    (hd : s.chip.worksInDram w = false) (hs : opStepped code = false) (hf : (opTaken v s.chip).opFirst w = none)
    (hr : runOp (jobOf v) w s.otp (opBegun v w s.chip) = (some x, d)) :
    onChipBurn (opRow code v) s = .next (opDone s v w x d) := by
  have hrun : opRow code v s.otp s.chip = opEnded v w x d := by
    obtain ⟨_, hw, hc⟩ := id h
    have hw' : (opTaken v s.chip).work (jobOf v) = some w := (opTaken_work ..).trans hw
    rw [opRow_next _ _ h, runJob_whole _ _ hw' (by simpa using hd) (hc ▸ hs) hf]
    rw [opBegun, opNoted] at hr
    simp only [hr]
    rfl
  rw [onChipBurn]
  simp only [hrun]
  rfl

/-- The row of one that has its whole effect in its last step and goes on waiting. -/
theorem opRow_waits {s : State} {code : Nat} {v : Via} {w : Work} {d : Chip} (h : opNext s.chip code v w)
    (hd : s.chip.worksInDram w = false) (hs : opStepped code = false) (hf : (opTaken v s.chip).opFirst w = none)
    (hr : runOp (jobOf v) w s.otp (opBegun v w s.chip) = (none, d)) :
    onChipBurn (opRow code v) s = .next (settled s d) := by
  have hrun : opRow code v s.otp s.chip = d := by
    obtain ⟨_, hw, hc⟩ := id h
    have hw' : (opTaken v s.chip).work (jobOf v) = some w := (opTaken_work ..).trans hw
    rw [opRow_next _ _ h, runJob_whole _ _ hw' (by simpa using hd) (hc ▸ hs) hf]
    rw [opBegun, opNoted] at hr
    simp only [hr]
  rw [onChipBurn]
  simp only [hrun]
  rfl

/-- The codes whose operations need no DRAM, have no stepped effects and nothing that refuses them in their first step. -/
def opPlain (code : Nat) : Bool :=
  ! (decide (0x10 ≤ code) && decide (code ≤ 0x13)) && code != 0x18 && code != 0x52 && code != 0x56 && ! opStepped code

theorem opPlain_worksInDram {w : Work} (h : opPlain w.code = true) : c.worksInDram w = false := by
  simp only [opPlain, Bool.and_eq_true, Bool.not_eq_true', bne_iff_ne, Bool.and_eq_false_iff, decide_eq_false_iff_not] at h
  obtain ⟨⟨⟨⟨hrec, hsweep⟩, _⟩, _⟩, _⟩ := h
  rw [Chip.worksInDram, if_neg (by omega)]
  simp [hsweep]

theorem opPlain_opFirst {w : Work} (h : opPlain w.code = true) : c.opFirst w = none := by
  simp only [opPlain, Bool.and_eq_true, bne_iff_ne] at h
  obtain ⟨⟨⟨_, hverify⟩, hback⟩, _⟩ := h
  simp [Chip.opFirst, hverify, hback]

theorem opPlain_opStepped {code : Nat} (h : opPlain code = true) : opStepped code = false := by
  simp only [opPlain, Bool.and_eq_true, Bool.not_eq_true'] at h
  exact h.2

/-- The row of a plain operation that ends with a result. -/
theorem opRow_plain {s : State} {code : Nat} {v : Via} {w : Work} {x : Word} {d : Chip} (h : opNext s.chip code v w)
    (hp : opPlain code = true) (hr : runOp (jobOf v) w s.otp (opBegun v w s.chip) = (some x, d)) :
    onChipBurn (opRow code v) s = .next (opDone s v w x d) := by
  obtain ⟨_, _, hc⟩ := id h
  subst hc
  exact opRow_done h (opPlain_worksInDram _ hp) (opPlain_opStepped hp) (opPlain_opFirst _ hp) hr

/-- The row of a plain operation that goes on waiting. -/
theorem opRow_plain_waits {s : State} {code : Nat} {v : Via} {w : Work} {d : Chip} (h : opNext s.chip code v w)
    (hp : opPlain code = true) (hr : runOp (jobOf v) w s.otp (opBegun v w s.chip) = (none, d)) :
    onChipBurn (opRow code v) s = .next (settled s d) := by
  obtain ⟨_, _, hc⟩ := id h
  subst hc
  exact opRow_waits h (opPlain_worksInDram _ hp) (opPlain_opStepped hp) (opPlain_opFirst _ hp) hr

end Sys2Proof.Machine
end

section
/-! SUPPORT. Operations on endpoint records (R138, R164, R184). -/

namespace Sys2Proof.Machine
open Safety

variable (c : Chip)

/-! ### The effect of each -/

theorem recRead_done {h b : Word} {i : Nat} {r0 r1 : PairRead} {c1 c2 : Chip} (hi : c.endpointOf h = some i)
    (hp : c.recordStopped (c.recordPtr i) = false) (hb : c.recordBuffer b = true) (hbs : c.recordStopped b.nat = false)
    (hout : ∀ k, k < 4 → c.inPartners (b.nat + k) = false) (h0 : readPair (c.recordPtr i) c = (r0, c1))
    (h1 : readPair (c.recordPtr i + 2) c1 = (r1, c2)) (hr0 : r0.bad = false) (hr1 : r1.bad = false) :
    recRead h b c = (.int 0, writePair (b.nat + 2) r1.even r1.odd (writePair b.nat r0.even r0.odd c2)) := by
  have hany : (List.range 4).any (fun k => c.inPartners (b.nat + k)) = false := by
    simpa [List.any_eq_false] using hout
  simp only [recRead, hi, hb, hany, hp, hbs, h0, h1, hr0, hr1, Bool.not_true, Bool.or_false, Bool.false_eq_true, if_false]

theorem recWrite_done {h b : Word} {i : Nat} {r0 r1 : PairRead} {c1 c2 : Chip} (hi : c.endpointOf h = some i)
    (hp : c.recordStopped (c.recordPtr i) = false) (hb : c.recordBuffer b = true) (hbs : c.recordStopped b.nat = false)
    (h0 : readPair b.nat c = (r0, c1)) (h1 : readPair (b.nat + 2) c1 = (r1, c2)) (hr0 : r0.bad = false)
    (hr1 : r1.bad = false) (ht : [r0.even.tag, r0.odd.tag, r1.even.tag, r1.odd.tag] = recordTags) :
    recWrite h b c = (.int 0, forwardRecord i [(0, r0.even), (1, r0.odd), (2, r1.even), (3, r1.odd)]
      (writePair (c.recordPtr i + 2) r1.even r1.odd (writePair (c.recordPtr i) r0.even r0.odd c2))) := by
  simp only [recWrite, hi, hb, hp, hbs, h0, h1, hr0, hr1, ht, Bool.not_true, Bool.or_false, Bool.false_eq_true, if_false,
    ne_eq, not_true_eq_false]

theorem recTouch_done {h heard w3 : Word} {i : Nat} (hi : c.endpointOf h = some i)
    (hp : c.recordStopped (c.recordPtr i) = false) (ht : heard.tag = .int) (ht3 : w3.tag = .bits) :
    recTouch h heard w3 c = (.int 0, forwardRecord i [(2, heard), (3, w3)] (writePair (c.recordPtr i + 2) heard w3 c)) := by
  simp [recTouch, hi, hp, ht, ht3]

/-- REC_ADVANCE where codeword 1 reads well with a counter of tag BITS. -/
theorem recAdvance_eq {h heard w3 : Word} {i : Nat} {r : PairRead} {c1 : Chip} (hi : c.endpointOf h = some i)
    (hp : c.recordStopped (c.recordPtr i) = false) (ht : heard.tag = .int) (ht3 : w3.tag = .bits)
    (hr : readPair (c.recordPtr i + 2) c = (r, c1)) (hb : r.bad = false) (hodd : r.odd.tag = .bits) :
    recAdvance h heard w3 c =
      if r.odd.field 35 1 = 0 ∨ r.odd.field 0 32 < w3.field 0 32 then
        (.int 1, forwardRecord i [(2, heard), (3, w3)] (writePair (c.recordPtr i + 2) heard w3 c1))
      else (.int 0, c1) := by
  simp [recAdvance, hi, hp, ht, ht3, hr, hb, hodd]

/-! ### The operations in their engine -/

variable {j : Job} {w : Work} {o : Store Nat}

theorem runOp_recRead (hc : w.code = 0x10) (ht : c.takeoverAhead (argOf w.args 0) = false) :
    runOp j w o c = (some (recRead (argOf w.args 0) (argOf w.args 1) c).1, (recRead (argOf w.args 0) (argOf w.args 1) c).2) := by
  simp [runOp, hc, ht]

theorem runOp_recWrite (hc : w.code = 0x11) (ht : c.takeoverAhead (argOf w.args 0) = false) :
    runOp j w o c = (some (recWrite (argOf w.args 0) (argOf w.args 1) c).1, (recWrite (argOf w.args 0) (argOf w.args 1) c).2) := by
  simp [runOp, hc, ht]

theorem runOp_recTouch (hc : w.code = 0x12) (ht : c.takeoverAhead (argOf w.args 0) = false) :
    runOp j w o c = (some (recTouch (argOf w.args 0) (argOf w.args 1) (argOf w.args 2) c).1,
      (recTouch (argOf w.args 0) (argOf w.args 1) (argOf w.args 2) c).2) := by
  simp [runOp, hc, ht]

theorem runOp_recAdvance (hc : w.code = 0x13) (ht : c.takeoverAhead (argOf w.args 0) = false) :
    runOp j w o c = (some (recAdvance (argOf w.args 0) (argOf w.args 1) (argOf w.args 2) c).1,
      (recAdvance (argOf w.args 0) (argOf w.args 1) (argOf w.args 2) c).2) := by
  simp [runOp, hc, ht]

/-- The row of an operation on a record that ends with a result. -/
theorem opRow_record {s : State} {code : Nat} {v : Via} {x : Word} {d : Chip} (h : opNext s.chip code v w)
    (hcode : 0x10 ≤ code ∧ code ≤ 0x13) (hd : s.chip.worksInDram w = false)
    (hr : runOp (jobOf v) w s.otp (opBegun v w s.chip) = (some x, d)) :
    onChipBurn (opRow code v) s = .next (opDone s v w x d) := by
  obtain ⟨_, _, hc⟩ := id h
  refine opRow_done h hd ?_ ?_ hr
  · obtain ⟨h0, h1⟩ := hcode
    interval_cases code <;> decide
  · rw [Chip.opFirst, if_neg (c := w.code = 0x52) (by omega), if_neg (c := w.code = 0x56) (by omega), ite_self]

/-! ### One on a record in DRAM -/

theorem ticket_putTicket {n : Nat} {u u' : Ticket} (h : c.ticket n = some u) (hn : u'.number = u.number) :
    (putTicket u' c).ticket n = some u' := by
  have hun : u.number = n := by simpa using List.find?_some h
  have hfind : ∀ ts : List Ticket, ts.find? (fun t => t.number == n) = some u →
      (ts.map fun x => if x.number = u'.number then u' else x).find? (fun t => t.number == n) = some u' := by
    intro ts
    induction ts with
    | nil => simp
    | cons t ts ih =>
      intro hf
      by_cases ht : t.number = n
      · simp [ht, hn, hun]
      · have hne : ¬ t.number = u'.number := by rw [hn, hun]; exact ht
        simp only [List.find?_cons, beq_eq_false_iff_ne.mpr ht] at hf
        simp [hne, ht, ih hf]
  exact hfind _ h

/-- A transaction of an operation held by ticket, of one record. -/
theorem dramBegin_held {n : Nat} {u : Ticket} (h : c.ticket n = some u) (hc : w.code ≠ 0x18) :
    dramBegin (.held n) w c = putTicket { u with state := 2, steps := w.steps + 1, dram := some (c.now + 1 + (takeFree 1341 c).1, 1) }
      (takeFree 1341 c).2 := by
  have hk : (takeFree 1341 c).2.ticket n = some u := h
  simp only [dramBegin, if_neg hc, onOp, hk, Nat.add_zero]

theorem takeFree_lt (n : Nat) (h : 0 < n) : (takeFree n c).1 < n := by
  rw [takeFree]
  have := Nat.mod_lt (Config.freeNat c.free) (show 0 < max 1 n by omega)
  omega

/-- The row of an operation held by ticket on a record in DRAM: its transaction begins (R248). -/
theorem opRow_dram {s : State} {code : Nat} {n : BitVec 9} {u : Ticket} (h : opNext s.chip code (.ticket n) w)
    (hcode : code ≠ 0x18) (hd : s.chip.worksInDram w = true) (hu : s.chip.ticket n.toNat = some u) :
    ∃ t g, onChipBurn (opRow code (.ticket n)) s = .next t ∧
      t.chip.ticket n.toNat = some { u with state := 2, steps := w.steps + 1, dram := some (g, 1) } ∧
      s.chip.now < g ∧ g ≤ s.chip.now + 1341 ∧ t.chip.regs = s.chip.regs ∧ t.chip.mems = s.chip.mems := by
  obtain ⟨_, hw, hc⟩ := id h
  have hu' : (opTaken (.ticket n) s.chip).ticket n.toNat = some u := (opTaken_ticket ..).trans hu
  have hrun : opRow code (.ticket n) s.otp s.chip = _ :=
    (opRow_next _ _ h).trans ((runJob_dram _ _ ((opTaken_work ..).trans hw) (by simpa using hd)).trans
      (dramBegin_held _ hu' (hc ▸ hcode)))
  have hlt := takeFree_lt (opTaken (.ticket n) s.chip) 1341 (by decide)
  refine ⟨_, (opTaken (.ticket n) s.chip).now + 1 + (takeFree 1341 (opTaken (.ticket n) s.chip)).1, rfl, ?_, ?_, ?_, ?_, ?_⟩
  · dsimp only
    rw [hrun]
    exact ticket_putTicket _ hu' rfl
  · simp only [opTaken_now]; omega
  · simp only [opTaken_now]; omega
  · dsimp only
    rw [hrun]
    exact opTaken_regs ..
  · dsimp only
    rw [hrun]
    exact opTaken_mems ..

/-- The one transaction held ends: its operation takes effect (R184, R248). -/
theorem dramGrain_one {d d1 : Chip} {u : Ticket} {x : Word} (hheld : d.dramHeld = 1) (hend : d.dramEnded = some (j, u))
    (hs : opStepped u.code = false) (hr : runOp j u.work [] (onOp j (fun y => { y with dram := none }) d) = (some x, d1)) :
    dramGrain d = finishJobWith j u.code x d1 := by
  simp only [dramGrain, hheld, dramGrainFuel, hend, hs, hr, Bool.false_eq_true, if_false]

end Sys2Proof.Machine
end

section
namespace Sys2Proof
open Machine Safety

/-- Settles O26: each operation on endpoint records has its effect, and one on a record in DRAM has it as its transaction ends. -/
theorem recordOperations : Obligations.RecordOperations := by
  unfold Obligations.RecordOperations
  intro s v w c a hto i hi p hp
  refine ⟨?_, ?_, ?_, ?_, ?_, ?_⟩
  · intro r0 r1 c1 c2 h hd hb hbs hout h0 h1 hr0 hr1
    refine opRow_record h (by decide) hd ?_
    obtain ⟨_, _, hcode⟩ := h
    rw [runOp_recRead _ hcode hto, recRead_done _ hi hp hb hbs hout h0 h1 hr0 hr1]
  · intro r0 r1 c1 c2 h hd hb hbs h0 h1 hr0 hr1 ht
    refine opRow_record h (by decide) hd ?_
    obtain ⟨_, _, hcode⟩ := h
    rw [runOp_recWrite _ hcode hto, recWrite_done _ hi hp hb hbs h0 h1 hr0 hr1 ht]
  · intro h hd ht ht3
    refine opRow_record h (by decide) hd ?_
    obtain ⟨_, _, hcode⟩ := h
    rw [runOp_recTouch _ hcode hto, recTouch_done _ hi hp ht ht3]
  · intro r c1 h hd ht ht3 hr hb hodd
    obtain ⟨_, _, hcode⟩ := id h
    have heq := recAdvance_eq _ hi hp ht ht3 hr hb hodd
    refine ⟨fun hup => opRow_record h (by decide) hd ?_, fun hset hle => opRow_record h (by decide) hd ?_⟩
    · rw [runOp_recAdvance _ hcode hto, heq, if_pos hup]
    · rw [runOp_recAdvance _ hcode hto, heq, if_neg (by omega)]
  · intro r hr n u hv h hd hu
    subst hv
    fin_cases hr
    · exact opRow_dram h (by decide) hd hu
    · exact opRow_dram h (by decide) hd hu
    · exact opRow_dram h (by decide) hd hu
    · exact opRow_dram h (by decide) hd hu
  · intro d j u x d1 hheld hend h0 h1 hr
    refine dramGrain_one hheld hend ?_ hr
    generalize u.code = code at h0 h1 ⊢
    interval_cases code <;> decide

end Sys2Proof
end

section
/-! SUPPORT. The checks of operands, passed (R35, R138, R200, R206), and digests, codes and signatures (R195, R200, R204). -/

namespace Sys2Proof.Machine
open Safety

variable {c : Chip}

/-! ### Operands that pass -/

theorem withOctets_ok {w : Word} {n : Nat} {spaces xs : List Nat} {c' : Chip} (k : List Nat → Chip → Word × Chip)
    (h : octets c w n spaces xs c') : withOctets w n spaces k c = k xs c' := by
  obtain ⟨hb, hr⟩ := h
  simp [withOctets, hb, hr]

theorem withDest_ready {w : Word} {n : Nat} (k : Chip → Word × Chip) (h : destReady c w n) : withDest w n k c = k c := by
  obtain ⟨hd, hs⟩ := h
  simp [withDest, hd, hs]

theorem withSmall_some {w : Word} {bound n : Nat} (k : Nat → Chip → Word × Chip) (h : smallArg w bound = some n) :
    withSmall w bound k c = k n c := by
  simp only [withSmall, h]

theorem withLength_some {w : Word} {n : Nat} (k : Nat → Chip → Word × Chip) (h : smallArg w (2 ^ 32) = some n) :
    withLength w k c = k n c := withSmall_some k h

theorem withRandom_ready (n : Nat) (k : List Nat → Chip → Word × Chip) (h : c.drbgReady = true) :
    withRandom n k c = k (drbgDraw n c).1 (drbgDraw n c).2 := by
  simp [withRandom, h]

theorem noteAuth_zero : noteAuth (.int 0, c) = (.int 0, c) :=
  if_neg (show ¬ resultStatus (.int 0) = Status.authFail.code by decide)

theorem noteAuth_fail {w : Word} (h : resultStatus w = Status.authFail.code) :
    noteAuth (w, c) = (w, c.raise .sec secAuthFail) := if_pos h

theorem noteAuth_refused : noteAuth (refused .authFail, c) = (refused .authFail, c.raise .sec secAuthFail) :=
  noteAuth_fail (by decide)

/-! ### Digests and codes -/

variable {args : List Word}

theorem opHash_done {mode n len : Nat} {m : List Nat} {c1 : Chip} (hm : smallArg (argOf args 0) 2 = some mode)
    (hn : smallArg (argOf args 2) (2 ^ 32) = some n) (hl : smallArg (argOf args 4) (2 ^ 32) = some len)
    (h64 : mode = 0 → len ≤ 64) (hd : destReady c (argOf args 3) len) (ho : octets c (argOf args 1) n [0, 1, 4] m c1) :
    opHash args c = (.int 0,
      writeOctets (argOf args 3).nat (if mode = 0 then (Config.sha3_512 m).take len else Config.shake256 m len) c1) := by
  rw [opHash, withSmall_some _ hm, withLength_some _ hn, withLength_some _ hl, if_neg (by omega), withDest_ready _ hd,
    withOctets_ok _ ho]

theorem opKmac_done {n bits : Nat} {key x t : List Nat} {c1 c2 c3 : Chip}
    (hn : smallArg (argOf args 2) (2 ^ 32) = some n) (hb : smallArg (argOf args 4) (2 ^ 32) = some bits)
    (hd : destReady (takeFree 2048 (takeFree 49 c).2).2 (argOf args 5) (ceilDiv bits 8))
    (hkey : octets (takeFree 2048 (takeFree 49 c).2).2 (argOf args 0) (16 + (takeFree 49 c).1) [0] key c1)
    (hx : octets c1 (argOf args 1) n [0] x c2)
    (ht : octets c2 (argOf args 3) (takeFree 2048 (takeFree 49 c).2).1 [0] t c3) :
    opKmac args c = (.int 0, writeOctets (argOf args 5).nat (Config.kmacBits key x bits t) c3) := by
  simp only [opKmac]
  rw [withLength_some _ hn, withLength_some _ hb, withDest_ready _ hd, withOctets_ok _ hkey, withOctets_ok _ hx,
    withOctets_ok _ ht]

theorem opRandom_done {n : Nat} (hn : smallArg (argOf args 1) 4097 = some n) (h0 : n ≠ 0)
    (hd : destReady c (argOf args 0) n) (hr : c.drbgReady = true) :
    opRandom args c = (.int 0, writeOctets (argOf args 0).nat (drbgDraw n c).1 (drbgDraw n c).2) := by
  rw [opRandom, withSmall_some _ hn, if_neg h0, withDest_ready _ hd, withRandom_ready _ _ hr]

theorem opMeasExtend_done {i n : Nat} {d : List Nat} {c1 : Chip} (hi : smallArg (argOf args 0) 8 = some i) (h4 : 4 ≤ i)
    (hn : smallArg (argOf args 2) (2 ^ 32) = some n) (ho : octets c (argOf args 1) n [0] d c1) :
    opMeasExtend args c = (.int 0, measExtend i d c1) := by
  rw [opMeasExtend, withSmall_some _ hi, withLength_some _ hn, if_neg (by omega), withOctets_ok _ ho]

/-! ### Signatures -/

/-- IMAGE_VERIFY of a slot while MRAM serves. -/
theorem opImageVerify_eq (o : Store Nat) {i : Nat} (hi : smallArg (argOf args 0) 2 = some i) (hs : c.spaceAccess 4 = .served) :
    opImageVerify o args c = match c.verifyImage o i with
      | .ok _ => (.int 0, imageSeen i (if c.imageSigned o i then hashSeen i c else c))
      | .error w => noteAuth (w, imageSeen i (if c.imageSigned o i then hashSeen i c else c)) := by
  rw [opImageVerify, withSmall_some _ hi, if_neg (by simp [hs])] <;> rfl

theorem opSigVerify_eq {n : Nat} {pub m ctx sig : List Nat} {c1 c2 c3 c4 : Chip}
    (hn : smallArg (argOf args 2) (2 ^ 32) = some n) (hpub : octets (takeFree 256 c).2 (argOf args 0) pubLen [0] pub c1)
    (hm : octets c1 (argOf args 1) n [0] m c2) (hctx : octets c2 (argOf args 3) (takeFree 256 c).1 [0] ctx c3)
    (hsig : octets c3 (argOf args 4) sigLen [0] sig c4) :
    opSigVerify args c = noteAuth (if Config.mldsaVerify pub ctx m sig then .int 0 else refused .authFail, c4) := by
  simp only [opSigVerify]
  rw [withLength_some _ hn, withOctets_ok _ hpub, withOctets_ok _ hm, withOctets_ok _ hctx, withOctets_ok _ hsig]

/-! ### The operations in their engine -/

variable (c) {j : Job} {w : Work} {o : Store Nat}

theorem runOp_hash (hc : w.code = 0x30) : runOp j w o c = (some (opHash w.args c).1, (opHash w.args c).2) := by
  simp [runOp, hc]

theorem runOp_kmac (hc : w.code = 0x31) : runOp j w o c = (some (opKmac w.args c).1, (opKmac w.args c).2) := by
  simp [runOp, hc]

theorem runOp_imageVerify (hc : w.code = 0x32) :
    runOp j w o c = (some (opImageVerify o w.args c).1, (opImageVerify o w.args c).2) := by
  simp [runOp, hc]

theorem runOp_sigVerify (hc : w.code = 0x33) : runOp j w o c = (some (opSigVerify w.args c).1, (opSigVerify w.args c).2) := by
  simp [runOp, hc]

theorem runOp_random (hc : w.code = 0x3F) : runOp j w o c = (some (opRandom w.args c).1, (opRandom w.args c).2) := by
  simp [runOp, hc]

theorem runOp_measExtend (hc : w.code = 0x40) :
    runOp j w o c = (some (opMeasExtend w.args c).1, (opMeasExtend w.args c).2) := by
  simp [runOp, hc]

end Sys2Proof.Machine
end

section
namespace Sys2Proof
open Machine Safety

/-- Settles O27: digests, codes, verification, random data and measurements, where their operands are in range. -/
theorem hashAndVerify : Obligations.HashAndVerify := by
  unfold Obligations.HashAndVerify
  intro s v w c a
  refine ⟨?_, ?_, ?_, ?_, ?_, ?_⟩
  · intro mode n len m c1 h hm hn hl h64 hd ho
    refine opRow_plain h (by decide) ?_
    rw [runOp_hash _ h.2.2, opHash_done hm hn hl h64 hd ho]
  · intro n bits key x t c1 c2 c3 k l h hn hb hd hkey hx ht
    refine opRow_plain h (by decide) ?_
    rw [runOp_kmac _ h.2.2, opKmac_done hn hb hd hkey hx ht]
  · intro i h hi hs c1
    have heq := opImageVerify_eq (c := c) s.otp hi hs
    refine ⟨fun img hok => opRow_plain h (by decide) ?_, fun x herr hx => opRow_plain h (by decide) ?_⟩
    · rw [runOp_imageVerify _ h.2.2, heq, hok]
    · rw [runOp_imageVerify _ h.2.2, heq, herr]
      dsimp only
      rw [noteAuth_fail hx]
  · intro n pub m ctx sig c1 c2 c3 c4 l h hn hpub hm hctx hsig
    have heq := opSigVerify_eq hn hpub hm hctx hsig
    refine ⟨fun hok => opRow_plain h (by decide) ?_, fun hbad => opRow_plain h (by decide) ?_⟩
    · rw [runOp_sigVerify _ h.2.2, heq, hok, if_pos rfl, noteAuth_zero]
    · rw [runOp_sigVerify _ h.2.2, heq, hbad, if_neg Bool.false_ne_true, noteAuth_refused]
  · intro n h hn h0 hd hr
    refine opRow_plain h (by decide) ?_
    rw [runOp_random _ h.2.2, opRandom_done hn h0 hd hr]
  · intro i n d c1 h hi h4 hn ho
    refine opRow_plain h (by decide) ?_
    rw [runOp_measExtend _ h.2.2, opMeasExtend_done hi h4 hn ho]

end Sys2Proof
end

section
/-! SUPPORT. Key cells, wrapping and master keys (R197 to R200). -/

namespace Sys2Proof.Machine
open Safety

variable {c : Chip} {args : List Word}

theorem withCell_some {w : Word} {j : Nat} (k : List Nat → Chip → Word × Chip) (h : smallArg w 16 = some j)
    (hj : c.cell j ≠ []) : withCell w k c = k (c.cell j) c := by
  rw [withCell, withSmall_some _ h, if_neg hj]

theorem withNmk_some {w : Word} {i : Nat} (k : List Nat → Chip → Word × Chip) (h : smallArg w 2 = some i)
    (hi : c.nmk i ≠ []) : withNmk w k c = k (c.nmk i) c := by
  rw [withNmk, withKey, withSmall_some _ h]
  exact if_neg hi

theorem opKeyGen_done {i : Nat} (hi : smallArg (argOf args 0) 16 = some i) (hr : c.drbgReady = true) :
    opKeyGen args c = (.int 0, setCell i (drbgDraw 32 c).1 (drbgDraw 32 c).2) := by
  rw [opKeyGen, withSmall_some _ hi, withRandom_ready _ _ hr]

theorem opKeyWrap_nmk {i j : Nat} (hj : smallArg (argOf args 1) 16 = some j) (hcj : c.cell j ≠ [])
    (hd : destReady c (argOf args 3) 88) (hr : c.drbgReady = true) (ht : smallArg (argOf args 2) 3 = some 1)
    (hi : smallArg (argOf args 0) 2 = some i) (hci : c.nmk i ≠ []) :
    opKeyWrap args c = (.int 0,
      writeOctets (argOf args 3).nat (wrapKey (c.cell j) (c.nmk i) (drbgDraw 16 c).1 1) (drbgDraw 16 c).2) := by
  simp only [opKeyWrap]
  refine (withSmall_some _ ht).trans ((withNmk_some _ hi hci).trans ?_)
  rw [withCell_some _ hj hcj, withDest_ready _ hd, withRandom_ready _ _ hr]

theorem opKeyWrap_cell {i j : Nat} (hj : smallArg (argOf args 1) 16 = some j) (hcj : c.cell j ≠ [])
    (hd : destReady c (argOf args 3) 88) (hr : c.drbgReady = true) (ht : smallArg (argOf args 2) 3 = some 2)
    (hi : smallArg (argOf args 0) 16 = some i) (hci : c.cell i ≠ []) :
    opKeyWrap args c = (.int 0,
      writeOctets (argOf args 3).nat (wrapKey (c.cell j) (c.cell i) (drbgDraw 16 c).1 2) (drbgDraw 16 c).2) := by
  simp only [opKeyWrap]
  refine (withSmall_some _ ht).trans ((withCell_some _ hi hci).trans ?_)
  rw [withCell_some _ hj hcj, withDest_ready _ hd, withRandom_ready _ _ hr]

/-- KEY_UNWRAP of a buffer under a cell. -/
theorem opKeyUnwrap_eq {i j : Nat} {b : List Nat} {c1 : Chip} (hi : smallArg (argOf args 2) 16 = some i)
    (hj : smallArg (argOf args 1) 16 = some j) (hcj : c.cell j ≠ []) (ho : octets c (argOf args 0) 88 [0] b c1) :
    (∀ k, unwrapKey (c.cell j) b = .ok k → opKeyUnwrap args c = (.int 0, setCell i k c1)) ∧
      (unwrapKey (c.cell j) b = .error .authFail →
        opKeyUnwrap args c = (refused .authFail, c1.raise .sec secAuthFail)) := by
  have hcell := withCell_some (c := c) (fun w => withOctets (argOf args 0) 88 [0] fun b c =>
    match unwrapKey w b with
    | .ok k => (.int 0, setCell i k c)
    | .error st => (refused st, c)) hj hcj
  rw [withOctets_ok _ ho] at hcell
  have heq : opKeyUnwrap args c = noteAuth (match unwrapKey (c.cell j) b with
    | .ok k => (.int 0, setCell i k c1)
    | .error st => (refused st, c1)) := by
    rw [opKeyUnwrap, withSmall_some _ hi]
    exact congrArg noteAuth hcell
  refine ⟨fun k hk => ?_, fun hk => ?_⟩
  · rw [heq, hk]
    exact noteAuth_zero
  · rw [heq, hk]
    exact noteAuth_refused

theorem opNmkStore_done (o : Store Nat) {k j : Nat} (hk : smallArg (argOf args 1) 2 = some k)
    (hj : smallArg (argOf args 0) 16 = some j) (hcj : c.cell j ≠ []) (hs : c.spaceAccess 4 = .served)
    (hr : c.drbgReady = true) :
    opNmkStore o args c = (.int 0, (setNmk k (List.replicate 2 (wrapKey (sealKey o) (c.cell j) (drbgDraw 16 c).1 1)) (c.cell j)
      (drbgDraw 16 c).2).raise .sec secNmkChanged) := by
  rw [opNmkStore, withSmall_some _ hk, withCell_some _ hj hcj, if_neg (by simp [hs]), withRandom_ready _ _ hr]
  rfl

theorem opNmkErase_done {k : Nat} (hk : smallArg (argOf args 0) 2 = some k) (hs : c.spaceAccess 4 = .served)
    (he : c.nmkEmpty k = false) : opNmkErase args c = (.int 0, (setNmk k [] [] c).raise .sec secNmkChanged) := by
  rw [opNmkErase, withSmall_some _ hk, if_neg (by simp [hs]), if_neg (by simp [he])]

/-- PARTNER_KEY that nothing refuses: its partner operation stands, and its result is to come. -/
theorem opPartnerKey_waits (n : Nat) {i k x : Nat} (hi : c.partnerOf (argOf args 0) = some i)
    (hk : smallArg (argOf args 1) 2 = some k) (hx : smallArg (argOf args 2) 256 = some x) (hl : c.isOn .link = true)
    (hs : c.spaceAccess 0 = .served) (hb : c.b Fld.LINK_PARTNER_STATUS_BUSY = false) (hn : c.nmk k ≠ [])
    (hv : (c.entry i).valid = true) (he : (c.entry i).ext ≠ 0) :
    ∃ ws, opPartnerKey n args c = (none, ((c.onRadio fun r =>
      { r with op := some { op := 2, handle := i, entry := some ws, ticket := some n } }).setB
        Fld.LINK_PARTNER_STATUS_BUSY true).setF Fld.LINK_PARTNER_STATUS_LAST_HANDLE i) := by
  simp only [opPartnerKey, hi, hk, hx]
  rw [if_neg (by simp [hl, hs]), if_neg (by simp [hb]), if_neg (by simp [hn, hv, he])]
  exact ⟨_, rfl⟩

/-- The fields that show a partner operation begun (R143). -/
theorem partnerBegun_reads (d : Chip) (i : Nat) :
    ((d.setB Fld.LINK_PARTNER_STATUS_BUSY true).setF Fld.LINK_PARTNER_STATUS_LAST_HANDLE i).b Fld.LINK_PARTNER_STATUS_BUSY = true ∧
      ((d.setB Fld.LINK_PARTNER_STATUS_BUSY true).setF Fld.LINK_PARTNER_STATUS_LAST_HANDLE i).f
        Fld.LINK_PARTNER_STATUS_LAST_HANDLE = i % 2 ^ 12 := by
  refine ⟨?_, Chip.f_setF _ _ _ (by decide)⟩
  rw [Chip.b, Chip.f_setF_ne _ _ _ _ (.inr (by decide))]
  exact Chip.b_setB _ _ _ rfl (by decide)

theorem settled_f (s : State) (d : Chip) (x : Field) : (settled s d).chip.f x = d.f x := (rfl)
theorem settled_b (s : State) (d : Chip) (x : Field) : (settled s d).chip.b x = d.b x := (rfl)

/-! ### The operations in their engine -/

variable (c) {j : Job} {w : Work} {o : Store Nat}

theorem runOp_keyGen (hc : w.code = 0x37) : runOp j w o c = (some (opKeyGen w.args c).1, (opKeyGen w.args c).2) := by
  simp [runOp, hc]

theorem runOp_keyWrap (hc : w.code = 0x38) : runOp j w o c = (some (opKeyWrap w.args c).1, (opKeyWrap w.args c).2) := by
  simp [runOp, hc]

theorem runOp_keyUnwrap (hc : w.code = 0x39) : runOp j w o c = (some (opKeyUnwrap w.args c).1, (opKeyUnwrap w.args c).2) := by
  simp [runOp, hc]

theorem runOp_nmkStore (hc : w.code = 0x3A) :
    runOp j w o c = (some (opNmkStore o w.args c).1, (opNmkStore o w.args c).2) := by
  simp [runOp, hc]

theorem runOp_nmkErase (hc : w.code = 0x3B) : runOp j w o c = (some (opNmkErase w.args c).1, (opNmkErase w.args c).2) := by
  simp [runOp, hc]

theorem runOp_partnerKey (n : BitVec 9) (hc : w.code = 0x34) :
    runOp (jobOf (.ticket n)) w o c = opPartnerKey n.toNat w.args c := by
  simp [runOp, jobOf, hc]

end Sys2Proof.Machine
end

section
namespace Sys2Proof
open Machine Safety

/-- Settles O28: the key operations, where their operands are in range. -/
theorem keyOperations : Obligations.KeyOperations := by
  unfold Obligations.KeyOperations
  intro s v w c a
  refine ⟨?_, ?_, ?_, ?_, ?_, ?_⟩
  · intro i h hi hr
    refine opRow_plain h (by decide) ?_
    rw [runOp_keyGen _ h.2.2, opKeyGen_done hi hr]
  · intro i j h hj hcj hd hr d
    refine ⟨fun ht hi hci => opRow_plain h (by decide) ?_, fun ht hi hci => opRow_plain h (by decide) ?_⟩
    · rw [runOp_keyWrap _ h.2.2, opKeyWrap_nmk hj hcj hd hr ht hi hci]
    · rw [runOp_keyWrap _ h.2.2, opKeyWrap_cell hj hcj hd hr ht hi hci]
  · intro i j b c1 h hi hj hcj ho
    obtain ⟨hok, hbad⟩ := opKeyUnwrap_eq hi hj hcj ho
    refine ⟨fun k hk => opRow_plain h (by decide) ?_, fun hk => opRow_plain h (by decide) ?_⟩
    · rw [runOp_keyUnwrap _ h.2.2, hok k hk]
    · rw [runOp_keyUnwrap _ h.2.2, hbad hk]
  · intro k j h hk hj hcj hs hr d blob
    refine opRow_plain h (by decide) ?_
    rw [runOp_nmkStore _ h.2.2, opNmkStore_done s.otp hk hj hcj hs hr]
    rfl
  · intro k h hk hs he
    refine opRow_plain h (by decide) ?_
    rw [runOp_nmkErase _ h.2.2, opNmkErase_done hk hs he]
  · intro n i k x hv h hi hk hx hl hs hb hn hval hext
    subst hv
    obtain ⟨ws, hrun⟩ := opPartnerKey_waits n.toNat hi hk hx hl hs hb hn hval hext
    refine ⟨_, _, opRow_plain_waits h (by decide) ((runOp_partnerKey _ n h.2.2).trans hrun), rfl, rfl, rfl, rfl, ?_, ?_⟩
    · rw [settled_b]
      exact (partnerBegun_reads _ i).1
    · rw [settled_f]
      exact (partnerBegun_reads _ i).2

end Sys2Proof
end

section
/-! SUPPORT. Two tickets of one number (R245): an attestation that its engine takes for the second and that runs as the first's,
which is over, so that no step of it is noted. -/

namespace Sys2Proof.Machine
open Safety

/-- An operation whose steps change nothing and are noted nowhere stands where it is. -/
theorem runSteps_stands {j : Job} {w : Work} {o : Store Nat} {c : Chip} {prog : Nat} {sw : Option Sweep}
    (hw : c.work j = some w) (hd : c.worksInDram w = false) (hr : runStep j w o c = (none, prog, sw, c))
    (hn : noteStep j (w.steps + 1) prog sw c = c) (n : Nat) : runSteps j o n c = c := by
  induction n with
  | zero => rfl
  | succ n ih => simp only [runSteps, hw, hd, hr, hn, ih, Bool.false_eq_true, if_false]

/-- An operation with stepped effects takes its steps one after another. -/
theorem runJob_steps {j : Job} {w : Work} (o : Store Nat) (c : Chip) (hw : c.work j = some w) (hd : c.worksInDram w = false)
    (hs : opStepped w.code = true) : runJob j o c = runSteps j o 65536 c := by
  simp only [runJob, hw, hd, hs, Bool.false_eq_true, if_false, if_true]

/-- A step of ATTEST within an attempt, which nothing refuses, does nothing. -/
theorem runStep_attest_within {j : Job} {w : Work} (o : Store Nat) (c : Chip) (hc : w.code = 0x41)
    (hlen : (w.steps + 1) % c.scaled 60 ≠ 0) (hok : w.steps = 0 → (attestCheck w.args (fun _ c => (.int 0, c)) c).1 = .int 0) :
    runStep j w o c = (none, w.prog, none, c) := by
  have hstep : attestStep o w.args (c.scaled 60) w.steps w.prog c = (none, w.prog, c) := by
    simp only [attestStep, decide_eq_false hlen]
    rw [if_neg]
    rintro ⟨h0, hx⟩
    exact hx (by rw [hok h0]; decide)
  simp only [runStep, hc, hstep]

/-- The end of an operation drops the keys it started with. -/
theorem opEnded_keys (n : BitVec 9) (w : Work) (x : Word) (c : Chip) :
    Store.get [] (opEnded (.ticket n) w x c).tk.keys n.toNat = [] := by
  have hfinish : ∀ d : Chip, (finishTicket n.toNat x d).tk.keys = d.tk.keys := by
    intro d
    unfold finishTicket
    cases d.ticket n.toNat with
    | none => rfl
    | some t => dsimp only; split <;> rfl
  change Store.get [] (finishTicket n.toNat x (keepKeys (.held n.toNat) [] _)).tk.keys n.toNat = []
  rw [hfinish]
  exact Store.get_put_same [] _ _ []

/-- ATTEST with its two buffers. -/
def attestArgs : List Word := [.mk' .ptr 0x1000, .mk' .ptr 0x3000]

/-- A ticket of number 0 for ATTEST, in a state. -/
def attestTicket (state : Nat) : Ticket := {
  number := 0
  cls := 0
  gen := 1
  code := 0x41
  args := attestArgs
  state := state
  steps := 0
  result := .int 0
  doneAt := 0
  priv := true
  prog := 63
  sweep := none
  stalled := false
  dram := none }

/-- A chip that holds two tickets of number 0 for ATTEST, the first DONE and the second launched; its identity is there, the
DRBG is seeded, the RTC keeps time, and 32 octets stand in the data memory. -/
def twinTickets : Chip :=
  let c := (State.reset.chip.setB Fld.SEC_STATUS_DRBG_READY true).setB Fld.RTC_STATUS_OSC_STOP false
  { c with
    mems := { c.mems with words := (List.range 8).map fun k => (0x1000 + k, Word.bits k) }
    sec := { c.sec with idSeed := some [6] }
    tk := { c.tk with
      held := [attestTicket 3, attestTicket 1]
      keys := [(0, [(0, [7])])] } }

/-- The work of its first ticket. -/
def twinWork : Work := (attestTicket 3).work

/-- The machine with that chip. -/
def twinState : State := { State.reset with chip := twinTickets }

theorem twin_opNext : opNext twinState.chip 0x41 (.ticket 0) twinWork := by
  have hfor : twinTickets.engineFor (.held 0) = some 1 ∧ twinTickets.alone 1 (.held 0) = true := by decide +kernel
  exact ⟨⟨1, hfor⟩, rfl, rfl⟩

/-- The chip as its engine takes the operation. -/
def twinTaken : Chip := opTaken (.ticket 0) twinTickets

theorem twin_destReady : destReady twinTaken (argOf twinWork.args 1) 5283 := by
  have h : twinTaken.destOk (argOf twinWork.args 1) 5283 [0] = true ∧ twinTaken.spaceAccess 0 = .served := by decide +kernel
  exact h

theorem twin_octets : ∃ nonce, octets twinTaken (argOf twinWork.args 0) 32 [0] nonce twinTaken := by
  have hb : twinTaken.bufferOk (argOf twinWork.args 0) 32 [0] = true := by decide +kernel
  obtain ⟨xs, hx⟩ := readOctets_clean 0x1000 32 twinTaken (by decide +kernel)
  exact ⟨xs, hb, hx⟩

theorem twin_attestCheck : (attestCheck twinWork.args (fun _ c => (.int 0, c)) twinTaken).1 = .int 0 := by
  obtain ⟨nonce, ho⟩ := twin_octets
  have hready : twinTaken.drbgReady = true ∧ twinTaken.sec.idSeed.isNone = false := by decide +kernel
  rw [attestCheck, withDest_ready _ twin_destReady, withOctets_ok _ ho, if_neg (by simp [hready.1]), if_neg (by simp [hready.2])]

/-- No step of the operation does anything. -/
theorem twin_stands (n : Nat) : runSteps (.held 0) State.reset.otp n twinTaken = twinTaken := by
  have hlen : (0 + 1) % twinTaken.scaled 60 ≠ 0 := by decide +kernel
  refine runSteps_stands (w := twinWork) (prog := 63) (sw := none) rfl ?_ ?_ rfl n
  · decide +kernel
  · exact runStep_attest_within _ _ rfl hlen fun _ => twin_attestCheck

theorem twin_attest : exec (.attest (.ticket 0)) twinState = .next (settled twinState twinTaken) := by
  have hrun : opRow 0x41 (.ticket 0) State.reset.otp twinTickets = twinTaken := by
    refine (opRow_next _ _ twin_opNext).trans ?_
    have hw : twinTaken.work (.held 0) = some twinWork := rfl
    have hd : twinTaken.worksInDram twinWork = false := by decide +kernel
    change runJob (.held 0) State.reset.otp twinTaken = twinTaken
    rw [runJob_steps _ _ hw hd rfl]
    exact twin_stands _
  change onChipBurn (opRow 0x41 (.ticket 0)) twinState = _
  rw [onChipBurn]
  dsimp only [twinState]
  rw [hrun]
  rfl

/-- The operation has not ended: the keys it started with are still kept. -/
theorem twin_not_done (x : Word) (d : Chip) :
    exec (.attest (.ticket 0)) twinState ≠ .next (opDone twinState (.ticket 0) twinWork x d) := by
  intro h
  rw [twin_attest] at h
  have hchip : (settled twinState twinTaken).chip.tk.keys = (opEnded (.ticket 0) twinWork x d).tk.keys :=
    congrArg (fun s => s.chip.tk.keys) (Host.Outcome.next.inj h)
  have hkeys := opEnded_keys 0 twinWork x d
  rw [← hchip] at hkeys
  exact absurd hkeys (by decide +kernel)

end Sys2Proof.Machine
end

section
namespace Sys2Proof
open Machine Safety

/-- Refutes O29: in a chip that holds two tickets of one number, ATTEST of the first never ends, its steps being noted nowhere. -/
theorem not_kemAttestToken : ¬ Obligations.KemAttestToken := by
  unfold Obligations.KemAttestToken
  intro h
  obtain ⟨-, -, -, hattest, -⟩ := h twinState (.ticket 0) twinWork
  obtain ⟨nonce, ho⟩ := twin_octets
  have hnot : twinTaken.drbgReady = true ∧ twinTaken.sec.idSeed = some [6] := by decide +kernel
  have hosc : (drbgDraw 32 twinTaken).2.oscStop = false := by decide +kernel
  obtain ⟨hsigned, hfailed⟩ :=
    hattest nonce twinTaken [6] twin_opNext twin_destReady ho (fun _ => twin_attestCheck) hnot.1 hnot.2 hosc
  cases hsig : Config.mldsaSign [6] (ascii "ZTAT")
      ((drbgDraw 32 twinTaken).2.attestBody State.reset.otp nonce (drbgDraw 32 twinTaken).2.rtcLong) (drbgDraw 32 twinTaken).1 with
  | some sig => exact twin_not_done _ _ (hsigned sig hsig)
  | none => exact twin_not_done _ _ (hfailed hsig (by decide))

end Sys2Proof
end

section
/-! SUPPORT. Frames of endpoints opened and sealed (R196, R198, R200). -/

namespace Sys2Proof.Machine
open Safety

variable {c : Chip} {args : List Word} {keys : Store (List Nat)}

theorem withKey_some {w : Word} {n : Nat} (k : List Nat → Chip → Word × Chip) (h : smallArg w 2 = some n)
    (hn : Store.get [] keys n ≠ []) : withKey keys w k c = k (Store.get [] keys n) c := by
  rw [withKey, withSmall_some _ h, if_neg hn]

/-- The nonce of a frame that EP_OPEN opens (R196). -/
def openNonce (x : OpenDesc) (m : Mhr) (c : Chip) : List Nat :=
  if x.suppressed then asnNonce m.src (c.asnWith x.fc) else ccmNonce m.src x.fc x.level

/-- The octets of a frame without its FCS. -/
def openBody (x : OpenDesc) (all : List Nat) : List Nat :=
  (all.take x.length).take ((all.take x.length).length - fcsLen (! fcsGood false (all.take x.length)))

/-- EP_OPEN of an unverified secured frame with an extended source, whose descriptor and octets read well. -/
theorem opEpOpen_eq {h epoch n : Nat} {ws : List Word} {c1 c2 : Chip} {all : List Nat} {m : Mhr}
    (hh : c.endpointOf (argOf args 1) = some h) (he : smallArg (argOf args 2) 256 = some epoch)
    (hn : smallArg (argOf args 3) 2 = some n) (hk : Store.get [] keys n ≠ []) (hb : c.bufferOk (argOf args 0) 64 [1] = true)
    (hs : c.spaceAccess 1 = .served) (hr : readWords (argOf args 0).nat 16 c = (ws, c1)) (hp : ∀ x ∈ ws, x.tag ≠ .poison)
    (hv : (openDesc ws).verdict = vUnverified) (h0 : (openDesc ws).level ≠ 0) (h4 : (openDesc ws).level ≠ 4)
    (ho : octets c1 (openDesc ws).pay (4 * ceilDiv (openDesc ws).length 4) [1] all c2)
    (hm : parseMhr (openBody (openDesc ws) all) = some m) (hsrc : m.srcMode = 3) :
    (∀ plain, openFrame (endpointKey (Store.get [] keys n) h epoch) (openNonce (openDesc ws) m c2) (openDesc ws).level m.hdrLen
        (openBody (openDesc ws) all) = some plain → plain ≠ [] →
      opEpOpen keys args c = (.int 0, writeOctets ((openDesc ws).pay.nat + m.hdrLen / 4)
        (((all.take m.hdrLen ++ plain ++ all.drop (m.hdrLen + plain.length)).take
          (4 * ceilDiv (m.hdrLen + plain.length) 4)).drop (4 * (m.hdrLen / 4))) c2)) ∧
      (openFrame (endpointKey (Store.get [] keys n) h epoch) (openNonce (openDesc ws) m c2) (openDesc ws).level m.hdrLen
          (openBody (openDesc ws) all) = none →
        opEpOpen keys args c = (refused .authFail, c2.raise .sec secAuthFail)) := by
  have hany : (ws.any fun w => w.tag == .poison) = false := by simpa using hp
  have heq : opEpOpen keys args c = noteAuth (match openFrame (endpointKey (Store.get [] keys n) h epoch)
        (openNonce (openDesc ws) m c2) (openDesc ws).level m.hdrLen (openBody (openDesc ws) all) with
      | none => (refused .authFail, c2)
      | some plain => (.int 0, if plain = [] then c2
          else writeOctets ((openDesc ws).pay.nat + m.hdrLen / 4)
            (((all.take m.hdrLen ++ plain ++ all.drop (m.hdrLen + plain.length)).take
              (4 * ceilDiv (m.hdrLen + plain.length) 4)).drop (4 * (m.hdrLen / 4))) c2)) := by
    simp only [opEpOpen, hh, he]
    rw [withKey_some _ hn hk, if_neg (by simp [hb]), if_neg (by simp [hs])]
    simp only [hr, hany]
    rw [if_neg Bool.false_ne_true, if_neg (by simp [hv, h0, h4]), withOctets_ok _ ho]
    change noteAuth (match parseMhr (openBody (openDesc ws) all) with
      | none => _
      | some m => _) = _
    rw [hm]
    dsimp only
    rw [if_neg (not_not.mpr hsrc)]
    rfl
  refine ⟨fun plain hplain hne => ?_, fun hfail => ?_⟩
  · rw [heq, hplain]
    dsimp only
    rw [if_neg hne, noteAuth_zero]
  · rw [heq, hfail]
    exact noteAuth_refused

/-- EP_SEAL of a secured frame with a counter of its own, in a buffer with room for its MIC. -/
theorem opEpSeal_done {n h epoch k : Nat} {o : List Nat} {c1 : Chip} {m : Mhr} {x : Aux}
    (hn : smallArg (argOf args 1) 2048 = some n) (hh : c.endpointOf (argOf args 2) = some h)
    (he : smallArg (argOf args 3) 256 = some epoch) (hk : smallArg (argOf args 4) 2 = some k)
    (hkey : Store.get [] keys k ≠ []) (ho : octets c (argOf args 0) n [1] o c1) (hm : parseMhrAs false o = some m)
    (hx : m.aux = some x) (hl : c1.isOn .link = true) (h0 : x.level ≠ 0) (h4 : x.level ≠ 4)
    (hb : c1.bufferOk (argOf args 0) (n + micLen x.level) [1] = true) (hfc : x.fc.isSome = true)
    (hlt : c1.regN Reg.LINK_TX_FRAME_COUNTER < 2 ^ 32 - 1) :
    let fc := c1.regN Reg.LINK_TX_FRAME_COUNTER
    let o1 := fillCounter m fc o
    let out := sealFrame (endpointKey (Store.get [] keys k) h epoch) (ccmNonce c1.ownExt fc x.level) x.level
      (o1.take m.hdrLen) (o1.drop m.hdrLen)
    opEpSeal keys args c = (.int out.length,
      writeOctets (argOf args 0).nat out (c1.setRegN Reg.LINK_TX_FRAME_COUNTER (fc + 1))) := by
  obtain ⟨v, hv⟩ := Option.isSome_iff_exists.mp hfc
  simp only [opEpSeal, hn, hh, he]
  rw [withKey_some _ hk hkey, withOctets_ok _ ho, hm]
  simp only [hx, hv]
  rw [if_neg (by simp [hl]), if_neg (by simp [h0, h4, hb]), if_neg (by omega)]

/-! ### The operations in their engine -/

variable (c) {j : Job} {w : Work} {o : Store Nat}

theorem runOp_epOpen (hc : w.code = 0x35) :
    runOp j w o c = (some (opEpOpen (c.keysOf j w) w.args c).1, (opEpOpen (c.keysOf j w) w.args c).2) := by
  simp [runOp, hc]

theorem runOp_epSeal (hc : w.code = 0x36) :
    runOp j w o c = (some (opEpSeal (c.keysOf j w) w.args c).1, (opEpSeal (c.keysOf j w) w.args c).2) := by
  simp [runOp, hc]

end Sys2Proof.Machine
end

section
namespace Sys2Proof
open Machine Safety

/-- Settles O30: EP_OPEN decrypts in place or answers AUTH_FAIL, and EP_SEAL seals under the next counter. -/
theorem endpointFrames : Obligations.EndpointFrames := by
  unfold Obligations.EndpointFrames
  intro s v w c a key
  refine ⟨?_, ?_⟩
  · intro h epoch n ws c1 all c2 m hnext hh he hn hk hb hs hr hp x hv h0 h4 ho o body hm hsrc nonce
    obtain ⟨hopened, hfailed⟩ := opEpOpen_eq hh he hn hk hb hs hr hp hv h0 h4 ho hm hsrc
    refine ⟨fun plain hplain hne => opRow_plain hnext (by decide) ?_, fun hfail => opRow_plain hnext (by decide) ?_⟩
    · rw [runOp_epOpen _ hnext.2.2, hopened plain hplain hne]
    · rw [runOp_epOpen _ hnext.2.2, hfailed hfail]
  · intro n h epoch k o c1 m x hnext hn hh he hk hkey ho hm hx hl h0 h4 hb fc hfc hlt o1 out
    refine opRow_plain hnext (by decide) ?_
    rw [runOp_epSeal _ hnext.2.2, opEpSeal_done hn hh he hk hkey ho hm hx hl h0 h4 hb hfc hlt]

end Sys2Proof
end

section
/-! SUPPORT. Operations whose steps have effects of their own, and one step of an engine (R181, R185, R248, R255, R256, R363). -/

namespace Sys2Proof.Machine
open Safety

variable (c : Chip)

/-! ### One step and the end of a stepped operation -/

/-- A stepped operation that its first step finishes. -/
theorem runSteps_ends {j : Job} {w : Work} {o : Store Nat} {x : Word} {prog : Nat} {sw : Option Sweep} {d : Chip} (n : Nat)
    (hw : c.work j = some w) (hd : c.worksInDram w = false) (hr : runStep j w o c = (some x, prog, sw, d)) :
    runSteps j o (n + 1) c = finishJobWith j w.code x (noteStep j (w.steps + 1) prog sw d) := by
  simp only [runSteps, hw, hd, hr, Bool.false_eq_true, if_false]

/-- The row of a stepped operation that its next step finishes. -/
theorem opRow_step {s : State} {code : Nat} {v : Via} {w : Work} {x : Word} {prog : Nat} {sw : Option Sweep} {d : Chip}
    (h : opNext s.chip code v w) (hd : s.chip.worksInDram w = false) (hs : opStepped code = true)
    (hr : runStep (jobOf v) w s.otp (opTaken v s.chip) = (some x, prog, sw, d)) :
    onChipBurn (opRow code v) s = .next (opDone s v w x (noteStep (jobOf v) (w.steps + 1) prog sw d)) := by
  obtain ⟨_, hw, hc⟩ := id h
  have hw' : (opTaken v s.chip).work (jobOf v) = some w := (opTaken_work ..).trans hw
  have hd' : (opTaken v s.chip).worksInDram w = false := (opTaken_worksInDram ..).trans hd
  have hrun : opRow code v s.otp s.chip = opEnded v w x (noteStep (jobOf v) (w.steps + 1) prog sw d) := by
    rw [opRow_next _ _ h, runJob_steps _ _ hw' hd' (hc ▸ hs)]
    exact runSteps_ends _ 65535 hw' hd' hr
  rw [onChipBurn]
  simp only [hrun]
  rfl

/-! ### Copies of at most 256 octets -/

/-- One step copies at most 256 octets, and ends such a copy. -/
theorem copyStep_once {base off src n : Nat} {xs : List Nat} {c1 : Chip} (h0 : c.spaceAccess 0 = .served)
    (h4 : c.spaceAccess 4 = .served) (hn : n ≤ 256) (hr : readOctets src n c = (.ok xs, c1)) :
    copyStep base off src n 0 c = (some (.int 0), n, writeMramBytes (base + off) xs c1) := by
  have hmin : min 256 (n - 0) = n := by omega
  rw [copyStep, if_neg (by simp [h0, h4])]
  simp only [hmin, Nat.zero_div, Nat.add_zero, Nat.zero_add, hr, Nat.le_refl, if_true]

theorem toInt_nonneg_of_nat_le {w : Word} (h : w.nat ≤ 256) : 0 ≤ w.toInt := by
  have hlt : 2 * w.payload.toNat < 2 ^ 36 := by
    have : w.payload.toNat ≤ 256 := h
    omega
  rw [Word.toInt, BitVec.toInt_eq_toNat_of_lt hlt]
  omega

theorem mramWriteStep_once {src off len : Word} {xs : List Nat} {c1 : Chip} (hot : off.tag = .int) (hlt : len.tag = .int)
    (ho : 0 ≤ off.toInt) (ho4 : off.nat % 4 = 0) (hl4 : len.nat % 4 = 0) (hl : 4 ≤ len.nat) (hl256 : len.nat ≤ 256)
    (hsum : off.nat + len.nat ≤ 0x100000) (h0 : c.spaceAccess 0 = .served) (h4 : c.spaceAccess 4 = .served)
    (hr : octets c src len.nat [0] xs c1) :
    mramWriteStep src off len 0 c = (some (.int 0), len.nat, writeMramBytes (userArea + off.nat) xs c1) := by
  obtain ⟨hb, hread⟩ := hr
  have hmin : min 256 (len.nat - 0) = len.nat := by omega
  rw [mramWriteStep, if_neg (by simp [hot, hlt, ho, toInt_nonneg_of_nat_le hl256, ho4, hl4, hl, hsum, hb]; omega),
    if_neg (by simp [h0, h4])]
  simp only [hmin, Nat.zero_div, Nat.add_zero, Nat.zero_add, hread, Nat.le_refl, if_true]

theorem stepUpdWrite_once {host : Bool} {args : List Word} {xs : List Nat} {c1 : Chip}
    (hn : c.updRefusal 0x51 host args = none)
    (hk : c.copyOk (argOf args 0) (argOf args 1) (argOf args 2) c.slotRec.length = true) (hl : (argOf args 2).nat ≤ 256)
    (hw : c.slotRec.slot c.slotRec.staging = slotWriting) (h0 : c.spaceAccess 0 = .served) (h4 : c.spaceAccess 4 = .served)
    (hr : readOctets (argOf args 1).nat (argOf args 2).nat c = (.ok xs, c1)) :
    stepUpdWrite host args 0 c = (some (.int 0), (argOf args 2).nat,
      writeMramBytes (slotBase c.slotRec.staging + (argOf args 0).nat) xs c1) := by
  have hne : ¬ slotWriting = slotStaged := by decide
  simp only [stepUpdWrite, hn, hk, hw, copyStep_once c h0 h4 hl hr, beq_self_eq_true, Bool.true_or, Bool.not_true,
    Bool.or_false, Bool.false_eq_true, if_false, if_neg hne, ite_self]

theorem stepSetWrite_once {host : Bool} {args : List Word} {xs : List Nat} {c1 : Chip} {k : Nat}
    (hn : c.updRefusal 0x58 host args = none) (ha : smallArg (argOf args 0) 2 = some k)
    (hk : c.copyOk (argOf args 1) (argOf args 2) (argOf args 3) areaLen = true) (hl : (argOf args 3).nat ≤ 256)
    (h0 : c.spaceAccess 0 = .served) (h4 : c.spaceAccess 4 = .served)
    (hr : readOctets (argOf args 2).nat (argOf args 3).nat c = (.ok xs, c1)) :
    stepSetWrite host args 0 c = (some (.int 0), (argOf args 3).nat,
      writeMramBytes (areaBase ((c.slotRec.area + k) % 2) + (argOf args 1).nat) xs c1) := by
  simp only [stepSetWrite, hn, ha, hk, copyStep_once c h0 h4 hl hr, Bool.not_true, Bool.false_eq_true, if_false]

theorem stepRcvData_once {path : Nat} {args : List Word} {xs : List Nat} {c1 : Chip} (hn : c.sessionRefusal path = none)
    (hk : c.copyOk (argOf args 0) (argOf args 1) (argOf args 2) c.slotRec.length = true) (hl : (argOf args 2).nat ≤ 256)
    (h0 : c.spaceAccess 0 = .served) (h4 : c.spaceAccess 4 = .served)
    (hr : readOctets (argOf args 1).nat (argOf args 2).nat c = (.ok xs, c1)) :
    stepRcvData path args 0 c = (some (.int 0), (argOf args 2).nat,
      writeMramBytes (slotBase c.slotRec.staging + (argOf args 0).nat) xs c1) := by
  simp only [stepRcvData, hn, hk, copyStep_once c h0 h4 hl hr, Bool.not_true, Bool.false_eq_true, if_false]

/-! ### One step in its engine -/

section
variable {j : Job} {w : Work} {o : Store Nat} {r : Option Word} {k : Nat} {d : Chip}

theorem runStep_mramWrite (hc : w.code = 0x20)
    (h : mramWriteStep (argOf w.args 0) (argOf w.args 1) (argOf w.args 2) w.prog c = (r, k, d)) :
    runStep j w o c = (r, k, none, d) := by
  simp only [runStep, hc, h]

theorem runStep_updWrite (hc : w.code = 0x51) (h : stepUpdWrite w.host w.args w.prog c = (r, k, d)) :
    runStep j w o c = (r, k, none, d) := by
  simp only [runStep, hc, h]

theorem runStep_setWrite (hc : w.code = 0x58) (h : stepSetWrite w.host w.args w.prog c = (r, k, d)) :
    runStep j w o c = (r, k, none, d) := by
  simp only [runStep, hc, h]

theorem runStep_rcvData {p : Nat} (hc : w.code = 0x61) (h : stepRcvData p w.args w.prog c = (r, k, d)) :
    runStep (.mbx p) w o c = (r, k, none, d) := by
  have hp : c.jobPath (.mbx p) = p := rfl
  simp only [runStep, hc, hp, h]

theorem runStep_sweep_busy (hc : w.code = 0x18) (h : c.takeoverMeets w = true) :
    runStep j w o c = (some (refused .busy), 0, none, c) := by
  simp only [runStep, hc, h, if_true]

theorem runStep_sweep {sw : Option Sweep} (hc : w.code = 0x18) (ht : c.takeoverMeets w = false)
    (h : sweepStep (argOf w.args 0) w.sweep c = (r, sw, d)) : runStep j w o c = (r, 0, sw, d) := by
  simp only [runStep, hc, ht, h, Bool.false_eq_true, if_false]

end

/-! ### A step boundary of an engine -/

section
variable {e : Nat} {j : Job} {w : Work} {o : Store Nat}

theorem engineStep_idle (h : c.pick e = none) : engineStep e o c =
    if e = 4 then releaseStep c else if e = 0 && c.reloads && c.upd.reload.isSome then reloadStep c.digestStep c else c := by
  simp only [engineStep, h]

theorem engineStep_job (h : c.pick e = some j) : engineStep e o c = stepJob j o (noteYield e j c) := by
  simp only [engineStep, h]

theorem stepJob_first {x : Word} (hw : c.work j = some w) (hd : c.worksInDram w = false) (hs : opStepped w.code = false)
    (hf : c.opFirst w = some x) :
    stepJob j o c = finishJobWith j w.code x (noteStep j (w.steps + 1) w.prog w.sweep c) := by
  simp only [stepJob, hw, hd, hs, hf, Bool.false_eq_true, if_false]

/-- A step that is not the last notes its count, and keeps the keys the operation started with (R197). -/
theorem stepJob_counts {p : Nat} {c0 : Chip} (hw : c.work j = some w) (hd : c.worksInDram w = false)
    (hs : opStepped w.code = false) (hf : c.opFirst w = none) (hl : lastStep w o c = (false, p, c0)) :
    stepJob j o c = keepKeys j (c.keysOf j w) (noteStep j (w.steps + 1) p w.sweep c0) := by
  simp only [stepJob, hw, hd, hs, hf, hl, Bool.false_eq_true, if_false, Bool.not_false, if_true]

/-- The last step carries the whole effect. -/
theorem stepJob_last {p : Nat} {c0 : Chip} (hw : c.work j = some w) (hd : c.worksInDram w = false)
    (hs : opStepped w.code = false) (hf : c.opFirst w = none) (hl : lastStep w o c = (true, p, c0)) :
    stepJob j o c = match runOp j w o (noteStep j (w.steps + 1) p w.sweep c0) with
      | (some x, c2) => finishJobWith j w.code x c2
      | (none, c2) => c2 := by
  simp only [stepJob, hw, hd, hs, hf, hl, Bool.false_eq_true, if_false, Bool.not_true] <;> rfl

theorem stepJob_effect (hw : c.work j = some w) (hd : c.worksInDram w = false) (hs : opStepped w.code = true) :
    stepJob j o c = effectStep j w o c := by
  simp only [stepJob, hw, hd, hs, Bool.false_eq_true, if_false, if_true]

theorem effectStep_none {prog : Nat} {sw : Option Sweep} {d : Chip} (h : runStep j w o c = (none, prog, sw, d)) :
    effectStep j w o c = noteStep j (w.steps + 1) prog sw d := by
  simp only [effectStep, h]

theorem effectStep_some {x : Word} {prog : Nat} {sw : Option Sweep} {d : Chip} (h : runStep j w o c = (some x, prog, sw, d)) :
    effectStep j w o c = finishJobWith j w.code x (noteStep j (w.steps + 1) prog sw d) := by
  simp only [effectStep, h]

theorem stepJob_dram (hw : c.work j = some w) (hd : c.worksInDram w = true) : stepJob j o c = dramBegin j w c := by
  simp only [stepJob, hw, hd, if_true]

theorem lastStep_some {n : Nat} (h : c.stepsOf w = some n) : lastStep w o c = (decide (n ≤ w.steps + 1), w.prog, c) := by
  simp only [lastStep, h]

/-- The next step of a fallback that has lost the shadow reloads it (R375). -/
theorem lastStep_reload (hc : w.code = 0x56) (hr : c.reloads = true) :
    lastStep w o c = (false, w.prog, reloadStep c.digestStep c) := by
  have hn : c.stepsOf w = none := by simp only [Chip.stepsOf, hc, hr, if_true]
  simp only [lastStep, hn, hc, if_true]

theorem hashLength_onTk (g : Tickets → Tickets) : (c.onTk g).hashLength w = c.hashLength w := by
  unfold Chip.hashLength
  simp only [peek_onTk]

@[simp] theorem noteYield_stepsOf : (noteYield e j c).stepsOf w = c.stepsOf w := by
  obtain ⟨y, hy⟩ := noteYield_eq c e j
  rw [hy]
  simp only [Chip.stepsOf, hashLength_onTk]
  rfl

end

end Sys2Proof.Machine
end

section
/-! SUPPORT. What noting a step leaves, and DRAM transactions begun by a step (R248, R255). -/

namespace Sys2Proof.Machine
open Safety

variable (c : Chip)

/-! ### Noting a step -/

/-- Noting a step touches tickets and mailboxes alone. -/
theorem noteStep_eq (j : Job) (n p : Nat) (sw : Option Sweep) :
    ∃ tk mbx, noteStep j n p sw c = { c with tk := tk, mbx := mbx } := by
  cases j with
  | held k =>
    cases ht : c.ticket k with
    | none => exact ⟨c.tk, c.mbx, by simp only [noteStep, ht]⟩
    | some t =>
      by_cases hs : t.state < 3
      · exact ⟨_, c.mbx, by simp only [noteStep, ht, if_pos hs]; rfl⟩
      · exact ⟨c.tk, c.mbx, by simp only [noteStep, ht, if_neg hs]⟩
  | mbx q =>
    by_cases hb : (c.mbxOf q).busy = true
    · exact ⟨c.tk, _, by simp only [noteStep, if_pos hb]; rfl⟩
    · exact ⟨c.tk, c.mbx, by simp only [noteStep, if_neg hb]⟩
  | orphan k => exact ⟨_, c.mbx, rfl⟩

/-- An operation under way in its engine differs from the chip before it in tickets, mailboxes and free values alone. -/
theorem opBegun_eq (v : Via) (w : Work) : ∃ tk mbx n, opBegun v w c = { c with tk := tk, mbx := mbx, free := n } := by
  obtain ⟨y, hy⟩ := opTaken_eq c v
  have hcount : ∃ n, (stepCount w (opTaken v c)).2 = { opTaken v c with free := n } := by
    unfold stepCount
    cases (opTaken v c).stepsOf w with
    | some n => exact ⟨(opTaken v c).free, rfl⟩
    | none => exact ⟨_, rfl⟩
  obtain ⟨n, hn⟩ := hcount
  obtain ⟨tk, mbx, hs⟩ := noteStep_eq (stepCount w (opTaken v c)).2 (jobOf v) (stepCount w (opTaken v c)).1 w.prog w.sweep
  refine ⟨tk, mbx, n, ?_⟩
  refine hs.trans ?_
  rw [hn, hy]
  rfl

theorem noteStep_held {k n p : Nat} {sw : Option Sweep} {u : Ticket} (hu : c.ticket k = some u) (hs : u.state < 3) :
    (noteStep (.held k) n p sw c).ticket k = some { u with state := 2, steps := n, prog := p, sweep := sw } := by
  simp only [noteStep, hu, if_pos hs]
  exact ticket_putTicket _ hu rfl

theorem noteStep_mbx {q n p : Nat} {sw : Option Sweep} (hb : (c.mbxOf q).busy = true) :
    (noteStep (.mbx q) n p sw c).mbxOf q = { c.mbxOf q with steps := n, prog := p } := by
  simp only [noteStep, if_pos hb]
  exact Store.get_put_same ..

/-! ### Transactions in DRAM -/

/-- What a step in DRAM of an operation held by ticket begins: one transaction for a record, up to 32 for a sweep. -/
theorem dramBegin_reads {k : Nat} {w : Work} {u : Ticket} (hu : c.ticket k = some u) :
    ∃ g m, (dramBegin (.held k) w c).ticket k = some { u with state := 2, steps := w.steps + 1, dram := some (g, m) } ∧
      1 ≤ m ∧ m ≤ 32 ∧ (w.code ≠ 0x18 → m = 1) ∧ c.now < g ∧ g ≤ c.now + 1341 ∧
      (dramBegin (.held k) w c).regs = c.regs ∧ (dramBegin (.held k) w c).mems = c.mems := by
  have hlt := takeFree_lt c 1341 (by decide)
  by_cases hc : w.code = 0x18
  · have hlt' := takeFree_lt (takeFree 1341 c).2 (max 1 (min 32 (128 - c.dramHeld))) (by omega)
    have heq : dramBegin (.held k) w c = putTicket { u with
        state := 2
        steps := w.steps + 1
        dram := some (c.now + 1 + (takeFree 1341 c).1,
          1 + (takeFree (max 1 (min 32 (128 - c.dramHeld))) (takeFree 1341 c).2).1) }
        (takeFree (max 1 (min 32 (128 - c.dramHeld))) (takeFree 1341 c).2).2 := by
      have hk : (takeFree (max 1 (min 32 (128 - c.dramHeld))) (takeFree 1341 c).2).2.ticket k = some u := hu
      simp only [dramBegin, if_pos hc, onOp, hk]
    rw [heq]
    exact ⟨_, _, ticket_putTicket _ hu rfl, by omega, by omega, fun h => absurd hc h, by omega, by omega, rfl, rfl⟩
  · rw [dramBegin_held c hu hc]
    exact ⟨_, _, ticket_putTicket _ hu rfl, by omega, by omega, fun _ => rfl, by omega, by omega, rfl, rfl⟩

/-! ### A step that is not the last -/

/-- A step noted, with the keys its operation started with kept, changes nothing else but the tickets and mailboxes. -/
theorem countedStep_reads (e : Nat) (j : Job) (w : Work) (ks : Store (List Nat)) :
    let d := keepKeys j ks (noteStep j (w.steps + 1) w.prog w.sweep (noteYield e j c))
    d.regs = c.regs ∧ d.mems = c.mems ∧ d.core = c.core ∧ d.radio = c.radio ∧ d.upd = c.upd ∧ d.sec = c.sec ∧
      (∀ k u, j = .held k → c.ticket k = some u → u.state < 3 →
        d.ticket k = some { u with state := 2, steps := w.steps + 1, prog := w.prog, sweep := w.sweep }) ∧
      (∀ p, j = .mbx p → (c.mbxOf p).busy = true → d.mbxOf p = { c.mbxOf p with steps := w.steps + 1, prog := w.prog }) := by
  obtain ⟨y, hy⟩ := noteYield_eq c e j
  obtain ⟨tk, mbx, hs⟩ := noteStep_eq (noteYield e j c) j (w.steps + 1) w.prog w.sweep
  refine ⟨?_, ?_, ?_, ?_, ?_, ?_, ?_, ?_⟩
  · rw [hs, hy]; rfl
  · rw [hs, hy]; rfl
  · rw [hs, hy]; rfl
  · rw [hs, hy]; rfl
  · rw [hs, hy]; rfl
  · rw [hs, hy]; rfl
  · intro k u hj hu hu3
    subst hj
    exact noteStep_held (noteYield e (.held k) c) hu hu3
  · intro p hj hb
    subst hj
    exact noteStep_mbx c hb

/-! ### Rows -/

/-- A step of an engine, as a row. -/
theorem engineRow_eq {s : State} {e : Fin 6} {d : Chip} (h : engineStep e.val s.otp s.chip = d) :
    exec (.engineStep e) s = .next (settled s d) := by
  change onChipBurn (engineStep e.val) s = _
  rw [onChipBurn, h]
  rfl

/-- Only operations on records and sweeps work in DRAM. -/
theorem opNext_notInDram {code : Nat} {v : Via} {w : Work} (h : opNext c code v w)
    (hc : 0x13 < code ∧ code ≠ 0x18) : c.worksInDram w = false := by
  obtain ⟨_, _, hcode⟩ := h
  rw [Chip.worksInDram, if_neg (by omega)]
  simp [hcode, hc.2]

/-! ### A mailbox command of one step -/

/-- Of a mailbox command that has taken no step and needs one, a step and the whole of it are the same. -/
theorem stepJob_mbx_single {p : Nat} {w : Work} {o : Store Nat} (hw : c.work (.mbx p) = some w)
    (hp : opPlain w.code = true) (h1 : c.stepsOf w = some 1) (h0 : w.steps = 0) :
    stepJob (.mbx p) o c = runJob (.mbx p) o c := by
  have hd := opPlain_worksInDram c hp
  have hs := opPlain_opStepped hp
  have hf := opPlain_opFirst c hp
  have hlast : lastStep w o c = (true, w.prog, c) := by
    rw [lastStep_some c h1, h0]
    rfl
  have hcount : stepCount w c = (w.steps + 1, c) := by simp [stepCount, h1, h0]
  rw [stepJob_last c hw hd hs hf hlast, runJob_whole c o hw hd hs hf, hcount] <;> rfl

end Sys2Proof.Machine
end

section
namespace Sys2Proof
open Machine Safety

/-- Settles O31: operations whose steps have effects, and a step of each engine. -/
theorem steppedOperations : Obligations.SteppedOperations := by
  unfold Obligations.SteppedOperations
  intro s v w c a one
  refine ⟨?_, ?_, ?_, ?_, ?_, ?_, ?_, ?_, ?_, ?_, ?_⟩
  · intro xs c1 h hp hot hlt ho ho4 hl4 hl hl256 hsum h0 h4 hr
    refine opRow_step h (opNext_notInDram _ h (by decide)) (by decide) (runStep_mramWrite _ h.2.2 ?_)
    rw [hp]
    exact mramWriteStep_once _ hot hlt ho ho4 hl4 hl hl256 hsum h0 h4 hr
  · intro h hd ht
    exact opRow_step h hd (by decide) (runStep_sweep_busy _ h.2.2 ht)
  · intro x sw c1 h hd ht hstep
    exact opRow_step h hd (by decide) (runStep_sweep _ h.2.2 ht hstep)
  · intro xs c1 h hp hn hk hl hw h0 h4 hr
    refine opRow_step h (opNext_notInDram _ h (by decide)) (by decide) (runStep_updWrite _ h.2.2 ?_)
    rw [hp]
    exact stepUpdWrite_once _ hn hk hl hw h0 h4 hr
  · intro xs c1 k h hp hn ha hk hl h0 h4 hr
    refine opRow_step h (opNext_notInDram _ h (by decide)) (by decide) (runStep_setWrite _ h.2.2 ?_)
    rw [hp]
    exact stepSetWrite_once _ hn ha hk hl h0 h4 hr
  · intro xs c1 p hv h hp hn hk hl h0 h4 hr
    subst hv
    refine opRow_step h (opNext_notInDram _ h (by decide)) (by decide) (runStep_rcvData _ h.2.2 ?_)
    rw [hp]
    exact stepRcvData_once _ hn hk hl h0 h4 hr
  · intro e he h4 h0
    have hidle : engineStep e.val s.otp s.chip = s.chip := by
      rw [engineStep_idle _ he, if_neg h4, if_neg]
      rintro hr
      simp only [Bool.and_eq_true, decide_eq_true_eq] at hr
      obtain ⟨⟨hz, hrl⟩, hsome⟩ := hr
      rcases h0 hz with hn | hn
      · simp [hn] at hrl
      · simp [hn] at hsome
    refine ⟨_, rfl, ?_⟩
    dsimp only
    rw [hidle]
    exact ⟨rfl, rfl, rfl, rfl⟩
  · intro e he h4
    have hrel : engineStep e.val s.otp s.chip = releaseStep s.chip := by rw [engineStep_idle _ he, if_pos h4]
    exact engineRow_eq hrel
  · intro k he hr hk
    refine engineRow_eq (e := 0) ?_
    refine (engineStep_idle _ he).trans ?_
    simp [hr, hk]
  · intro e j hj hw d
    have hw' : d.work j = some w := (noteYield_work ..).trans hw
    have hstep : engineStep e.val s.otp s.chip = stepJob j s.otp d := engineStep_job _ hj
    refine ⟨?_, ?_, ?_, ?_, ?_⟩
    · intro x hs hd hf
      exact engineRow_eq (hstep.trans (stepJob_first _ hw' ((noteYield_worksInDram ..).trans hd) hs hf))
    · intro hc hr hf
      have hd : d.worksInDram w = false := by rw [Chip.worksInDram, if_neg (by omega), hc]; rfl
      exact engineRow_eq (hstep.trans (stepJob_counts _ hw' hd (by rw [hc]; rfl) hf (lastStep_reload _ hc hr)))
    · intro n hs hd hf hn
      have hlast := lastStep_some (o := s.otp) d ((noteYield_stepsOf (w := w) ..).trans hn)
      have hd' : d.worksInDram w = false := (noteYield_worksInDram ..).trans hd
      refine ⟨fun hlt => ?_, fun hle x d1 hrun => engineRow_eq (hstep.trans ?_)⟩
      · rw [decide_eq_false (by omega)] at hlast
        obtain ⟨hregs, hmems, hcore, hradio, hupd, hsec, htk, hmbx⟩ := countedStep_reads s.chip e.val j w (d.keysOf j w)
        refine ⟨_, engineRow_eq (hstep.trans (stepJob_counts _ hw' hd' hs hf hlast)), hregs, hmems, hcore, hradio, hupd,
          (congrArg Sec.nmk hsec :), htk, hmbx⟩
      · rw [decide_eq_true hle] at hlast
        rw [stepJob_last _ hw' hd' hs hf hlast, hrun]
    · intro hs hd
      have hd' : d.worksInDram w = false := (noteYield_worksInDram ..).trans hd
      have heff := hstep.trans (stepJob_effect _ hw' hd' hs)
      exact ⟨fun prog sw d1 hr => engineRow_eq (heff.trans (effectStep_none _ hr)),
        fun x prog sw d1 hr => engineRow_eq (heff.trans (effectStep_some _ hr))⟩
    · intro hd k u hk hu
      subst hk
      have hdram := hstep.trans (stepJob_dram _ hw' ((noteYield_worksInDram ..).trans hd))
      obtain ⟨g, m, ht, h1, h32, hone, hlt, hle, hregs, hmems⟩ :=
        dramBegin_reads d (w := w) (show d.ticket k = some u from (noteYield_ticket ..).trans hu)
      refine ⟨_, g, m, engineRow_eq hdram, ht, h1, h32, hone, ?_, ?_, ?_, ?_⟩
      · simpa [d] using hlt
      · simpa [d] using hle
      · exact hregs.trans (noteYield_regs ..)
      · exact hmems.trans (noteYield_mems ..)
  · intro e p hv hpick h h1 h0
    subst hv
    obtain ⟨_, hw, hc⟩ := id h
    have hstep : engineStep e.val s.otp s.chip = opRow 0x3B (.mailbox p) s.otp s.chip := by
      rw [engineStep_job _ hpick, opRow_next _ _ h]
      exact stepJob_mbx_single _ hw (by rw [hc]; decide) h1 h0
    exact engineRow_eq hstep

end Sys2Proof
end

section
/-! SUPPORT. Two tickets of one number (R245), one waiting for the MRAM writer and the other for the hash engine: the engine for the
number is then not the one whose step is taken. -/

namespace Sys2Proof.Machine
open Safety

/-- A launched ticket of number 0. -/
def zeroTicket (code : Nat) (args : List Word) : Ticket := {
  number := 0
  cls := 3
  gen := 1
  code := code
  args := args
  state := 1
  steps := 0
  result := .int 0
  doneAt := 0
  priv := true
  prog := 0
  sweep := none
  stalled := false
  dram := none }

/-- A chip in RUN with slot A STAGED that holds an UPD_GERMINATE of mode 1 and a HASH, both of number 0, its hash engine having
yielded its last boundary. -/
def twinEngines : Chip :=
  let c := (setDev devRun State.reset.chip).setF Fld.PWR_MONITOR_VSYS_MV 3300
  { c with
    upd := { c.upd with record := some { SlotRec.empty with a := slotStaged, owner := ownerRadio } }
    tk := { c.tk with
      held := [zeroTicket 0x53 [.int 1], zeroTicket 0x30 []]
      yielded := [(0, true)] } }

/-- The machine with that chip. -/
def twinEnginesState : State := { State.reset with chip := twinEngines }

/-- The work of its UPD_GERMINATE. -/
def germinateWork : Work := (zeroTicket 0x53 [.int 1]).work

/-- The chip as the engine for the number takes it. -/
def twinEnginesTaken : Chip := opTaken (.ticket 0) twinEngines

theorem twinEngines_ready : twinEngines.pick 4 = some (.held 0) ∧ twinEnginesTaken.updRefusal 0x53 false [.int 1] = none ∧
    twinEnginesTaken.spaceAccess 4 = .served ∧
    (twinEnginesTaken.initSection (twinEnginesTaken.slotSection 0 4)).isSome = true ∧
    imageCodeOk (twinEnginesTaken.slotSection 0 1) = true := by
  decide +kernel

/-- The step of the MRAM writer leaves what the hash engine has yielded. -/
theorem twinEngines_step_yielded : (engineStep 4 State.reset.otp twinEngines).tk.yielded = [(0, true)] := by
  decide +kernel

theorem twinEnginesTaken_yielded : twinEnginesTaken.tk.yielded = [] := by
  decide +kernel

/-- Noting a step leaves what the engines have yielded. -/
theorem noteStep_yielded (j : Job) (n p : Nat) (sw : Option Sweep) (c : Chip) :
    (noteStep j n p sw c).tk.yielded = c.tk.yielded := by
  cases j with
  | held k =>
    cases ht : c.ticket k with
    | none => simp only [noteStep, ht]
    | some t =>
      simp only [noteStep, ht]
      split <;> rfl
  | mbx q =>
    simp only [noteStep]
    split <;> rfl
  | orphan k => rfl

theorem settled_tk (s : State) (d : Chip) : (settled s d).chip.tk = d.tk := (rfl)

/-- The step of the MRAM writer does not lead to a chip whose hash engine has yielded nothing. -/
theorem twinEngines_step_ne (d : Chip) (hd : d.tk.yielded = []) :
    exec (.engineStep 4) twinEnginesState ≠ .next (settled twinEnginesState d) := by
  intro h
  have hstep : exec (.engineStep 4) twinEnginesState =
      .next (settled twinEnginesState (engineStep 4 State.reset.otp twinEngines)) := engineRow_eq rfl
  have htk := congrArg (fun s => s.chip.tk.yielded) (Host.Outcome.next.inj (hstep.symm.trans h))
  simp only [settled_tk, twinEngines_step_yielded, hd] at htk
  exact absurd htk (by decide)

end Sys2Proof.Machine
end

section
namespace Sys2Proof
open Machine Safety

/-- Refutes O32: where two tickets bear one number, the MRAM writer's step of UPD_GERMINATE is not noted of the engine that the number
finds first. -/
theorem not_updateOperations : ¬ Obligations.UpdateOperations := by
  unfold Obligations.UpdateOperations
  intro h
  obtain ⟨-, -, ⟨hgerm, -⟩, -⟩ := h twinEnginesState (.ticket 0) germinateWork
  obtain ⟨hpick, href, hserved, hinit, hcode⟩ := twinEngines_ready
  have hclaim := hgerm rfl rfl rfl hpick href rfl rfl hserved hinit hcode rfl (fun h => absurd h (by decide))
  exact twinEngines_step_ne _ (by rw [noteStep_yielded]; exact twinEnginesTaken_yielded) hclaim

end Sys2Proof
end

section
/-! SUPPORT. Recovery sessions and DEAD (R376 to R379). -/

namespace Sys2Proof.Machine
open Safety

variable (c : Chip)

@[simp] theorem writeMramBytes_sec (xs : List Nat) (b : Nat) : (writeMramBytes b xs c).sec = c.sec := by
  induction xs generalizing b c with
  | nil => rfl
  | cons x xs ih => rw [writeMramBytes, ih]; rfl

@[simp] theorem writeCopy_sec (base len : Nat) (magic body : List Nat) : (writeCopy base len magic body c).sec = c.sec := by
  simp [writeCopy]

@[simp] theorem putRec_sec (r : SlotRec) : (putRec r c).sec = c.sec := by simp [putRec]

/-- The state record in force takes the one written, but for its sequence number (R355, R356). -/
theorem putRec_upd (r : SlotRec) : ∃ n, (putRec r c).upd = { c.upd with record := some { r with seq := n } } := by
  rw [putRec, Chip.onUpd_upd, writeCopy_upd]
  exact ⟨_, rfl⟩

@[simp] theorem linkOscFollow_sec : (linkOscFollow c).sec = c.sec := by simp [linkOscFollow]

@[simp] theorem deviceReset_burns (cause : Option Nat) (lost : Bool) : (deviceReset cause lost c).sec.burns = [] := by
  simp only [deviceReset, linkOscFollow_sec, Chip.setRegN_sec, Chip.setReg_sec]
  rfl

theorem burn_upd (bs : List (Nat × Nat)) : (burn bs c).upd = c.upd := (rfl)
theorem burn_burns (bs : List (Nat × Nat)) : (burn bs c).sec.burns = c.sec.burns ++ bs := (rfl)

/-! ### Sessions -/

/-- RCV_BEGIN that nothing refuses (R377). -/
theorem opRcvBegin_done (o : Store Nat) {p : Nat} {n : Int} {args : List Word} (hs : c.upd.session = none)
    (hopen : c.slotRec.recoveryOpen = false) (hl : c.locked_ = false) (hpin : c.pin pinMotion = false)
    (hmov : c.b Fld.UPD_CTRL_MOVING = false) (hv : c.regN Reg.UPD_MIN_SUPPLY ≤ c.f Fld.PWR_MONITOR_VSYS_MV)
    (ha : argOf args 0 = .int n) (h1 : 1 ≤ n) (hn : n ≤ 6291456) (hc : c.slotRec.countPending = false) :
    opRcvBegin o p args c = (.int 0, (putRec { c.slotRec.setSlot c.slotRec.staging slotWriting with
      owner := ownerNone
      recoveryOpen := true
      length := (argOf args 0).nat } c).onUpd fun u => { u with session := some p }) := by
  have hlen : imageLenOk (argOf args 0) = true := by
    have hnat : (Word.int n).nat = n.toNat := by
      change (BitVec.ofInt 36 n).toNat = n.toNat
      rw [BitVec.toNat_ofInt]
      omega
    rw [ha, imageLenOk, hnat]
    simp only [Bool.and_eq_true, decide_eq_true_eq]
    exact ⟨⟨rfl, by omega⟩, by omega⟩
  rw [opRcvBegin, if_neg (by simp [hs]), if_neg (by simp [hopen]), if_neg (by simp [hl]), if_neg (by simp [hpin, hmov]),
    if_neg (by omega), if_neg (by simp [hlen]), if_neg (by simp [hc])]

/-- RCV_END of an image that verifies: the device resets (R377). -/
theorem opRcvEnd_resets (o : Store Nat) {p : Nat} {img : Image} (hs : c.sessionRefusal p = none)
    (hv : c.verifyImage o c.slotRec.staging = .ok img) : ∃ d, opRcvEnd o p c = (none, deviceReset none false d) := by
  simp only [opRcvEnd, hs, hv]
  exact ⟨_, rfl⟩

/-- A session that fails, with bits of the recovery count left to burn (R378). -/
theorem sessionFail_reads (o : Store Nat) (hb : c.mayBurn = true) (hn : recoveryCount o < 15) :
    (sessionFail o c).upd.session = none ∧ (sessionFail o c).slotRec.recoveryOpen = false ∧
      (sessionFail o c).sec.burns = c.sec.burns ++ recoveryBurn o := by
  obtain ⟨n, hr⟩ := putRec_upd (c.onUpd fun u => { u with session := none }) { c.slotRec with recoveryOpen := false }
  have hfail : sessionFail o c = burn (recoveryBurn o)
      (putRec { c.slotRec with recoveryOpen := false } (c.onUpd fun u => { u with session := none })) := by
    simp only [sessionFail, if_pos hb, if_neg (by omega : ¬ 15 ≤ recoveryCount o)]
  refine ⟨?_, ?_, ?_⟩
  · rw [hfail, burn_upd, hr, Chip.onUpd_upd]
  · rw [Chip.slotRec, hfail, burn_upd, hr]
    rfl
  · rw [hfail, burn_burns, putRec_sec, Chip.onUpd_sec]

theorem opRcvAbort_open (o : Store Nat) {p : Nat} (hs : c.upd.session = some p) (ho : c.slotRec.recoveryOpen = true) :
    opRcvAbort o p c = (.int 0, sessionFail o c) := by
  rw [opRcvAbort, if_neg (by simp [hs]), if_pos ho]

/-! ### The operations in their engine -/

section
variable {p : Nat} {w : Work} {o : Store Nat}

theorem runOp_rcvBegin (hc : w.code = 0x60) :
    runOp (.mbx p) w o c = (some (opRcvBegin o p w.args c).1, (opRcvBegin o p w.args c).2) := by
  simp [runOp, hc, Chip.jobPath]

theorem runOp_rcvEnd (hc : w.code = 0x62) : runOp (.mbx p) w o c = opRcvEnd o p c := by
  simp [runOp, hc, Chip.jobPath]

theorem runOp_rcvAbort (hc : w.code = 0x63) :
    runOp (.mbx p) w o c = (some (opRcvAbort o p c).1, (opRcvAbort o p c).2) := by
  simp [runOp, hc, Chip.jobPath]

end

/-- The end of a mailbox command that is no update operation touches mailboxes and kept keys alone. -/
theorem opEnded_mailbox (p : Fin 5) (w : Work) (x : Word) (h : ¬ (0x50 ≤ w.code ∧ w.code ≤ 0x59)) :
    ∃ tk mbx, opEnded (.mailbox p) w x c = { c with tk := tk, mbx := mbx } := by
  have hend : opEnded (.mailbox p) w x c = finishMbx p.val x
      (if w.code = 0x09 ∧ resultStatus x = 0 then [.bits (b2n c.gang.breakSeen)] else []) (keepKeys (.mbx p.val) [] c) := by
    simp only [opEnded, finishJobWith, if_neg h, jobOf]
  rw [hend]
  unfold finishMbx
  dsimp only
  split
  · exact ⟨_, _, rfl⟩
  · exact ⟨_, c.mbx, rfl⟩

/-! ### DEAD -/

theorem settled_dev (s : State) (d : Chip) : (settled s d).chip.dev = d.dev := (rfl)
theorem settled_core (s : State) (d : Chip) : (settled s d).chip.core = d.core := (rfl)
theorem settled_otp (s : State) (d : Chip) : (settled s d).otp = burned s.otp d.sec.burns := (rfl)

/-- A machine with nothing to burn is settled. -/
theorem settled_self (s : State) (h : s.chip.sec.burns = []) : settled s s.chip = s := by
  obtain ⟨chip, otp, queue⟩ := s
  rw [settled, h]
  change State.mk { chip with sec := { chip.sec with burns := [] } } otp queue = _
  rw [← show chip.sec.burns = [] from h]

/-- Burning the fuses of DEAD burns DEAD's own. -/
theorem deadFused_burned (o : Store Nat) : deadFused (burned o deadBurns) = true := by
  have hlow : (Nat.lor (otpRow o 3) 3 % 2 ^ 32).testBit 0 = true := by
    change ((otpRow o 3 ||| 3) % 2 ^ 32).testBit 0 = true
    simp
  simp only [deadFused, burned, otpRow, Store.get_put_same]
  exact hlow

/-- Where the fuses of DEAD need no burning, DEAD's own is burned. -/
theorem deadFused_of_not_new (o : Store Nat) (h : burnsNew o deadBurns = false) : deadFused o = true := by
  have hrow : Nat.lor (otpRow o 3) 3 = otpRow o 3 := by simpa [burnsNew] using h
  rw [deadFused, ← hrow]
  change (otpRow o 3 ||| 3).testBit 0 = true
  simp

end Sys2Proof.Machine
end

section
namespace Sys2Proof
open Machine Safety

/-- Settles O33: recovery sessions and the fuses of DEAD. -/
theorem recoveryAndDead : Obligations.RecoveryAndDead := by
  unfold Obligations.RecoveryAndDead
  intro s p w v c r
  refine ⟨?_, ?_, ?_, ?_, ?_⟩
  · intro n h hs hopen hl hpin hmov hv ha h1 hn hc
    refine opRow_plain h (by decide) ?_
    exact (runOp_rcvBegin (p := p.val) _ h.2.2).trans (by rw [opRcvBegin_done _ _ hs hopen hl hpin hmov hv ha h1 hn hc])
  · intro img h hs hv
    obtain ⟨d, hd⟩ := opRcvEnd_resets _ _ hs hv
    refine ⟨_, opRow_plain_waits h (by decide) ((runOp_rcvEnd (p := p.val) _ h.2.2).trans hd), ?_, ?_, ?_⟩
    · rw [settled_dev, deviceReset_dev]
    · rw [settled_core, deviceReset_core]
      rfl
    · rw [settled_otp, deviceReset_burns]
      rfl
  · intro h hs ho hb hn hburns
    obtain ⟨hses, hopen, hbs⟩ := sessionFail_reads c s.otp hb hn
    have hrun := opRow_plain h (by decide)
      ((runOp_rcvAbort (p := p.val) _ h.2.2).trans (by rw [opRcvAbort_open _ _ hs ho]))
    obtain ⟨tk, mbx, hend⟩ := opEnded_mailbox (sessionFail s.otp c) p w (.int 0) (by have := h.2.2; omega)
    refine ⟨_, hrun, ?_, ?_, ?_⟩
    · rw [opDone, hend]
      exact hses
    · rw [opDone, hend]
      exact hopen
    · rw [opDone, hend, settled_otp]
      dsimp only
      rw [hbs, hburns]
      rfl
  · intro hdev hb hburns
    have hrow : exec .deadFuseBurn s = .next (settled s (burnDead s.otp s.chip)) := rfl
    cases hnew : burnsNew s.otp deadBurns with
    | true =>
      have hburn : burnDead s.otp s.chip = burn deadBurns s.chip := if_pos ⟨hdev, hb, hnew⟩
      refine ⟨_, hrow, ?_, ?_⟩
      · rw [hburn, settled_otp, burn_burns, hburns]
        exact deadFused_burned _
      · rw [hburn]
        rfl
    | false =>
      have hstay : burnDead s.otp s.chip = s.chip := if_neg (by simp [hnew])
      refine ⟨_, hrow, ?_, ?_⟩
      · rw [hstay, settled_otp, hburns]
        exact deadFused_of_not_new _ hnew
      · rw [hstay]
        rfl
  · intro hdev hburns
    have hstay : burnDead s.otp s.chip = s.chip := if_neg (by simp [hdev])
    change Host.Outcome.next (settled s (burnDead s.otp s.chip)) = _
    rw [hstay, settled_self _ hburns]

end Sys2Proof
end

section
/-! SUPPORT. What ends by time or by itself: expiries, entropy tests, activation and fallback (R202, R203, R206, R369 to R375). -/

namespace Sys2Proof.Machine

variable (c : Chip)

/-! ### What the state record and the banks leave of the registers -/

/-- The update state's mirrors are in two registers (R380). -/
theorem onUpd_reg (g : Upd → Upd) (a : Nat) (h : a ≠ Reg.UPD_STATUS) (h' : a ≠ Reg.UPD_BOOT_INFO) :
    (c.onUpd g).reg a = c.reg a := by
  unfold Chip.onUpd refreshUpd
  split
  · rfl
  · simp (disch := assumption) only [Chip.reg_setF_ne, Chip.reg_setB_ne]
    rfl

@[simp] theorem writeMramBytes_regs (xs : List Nat) (b : Nat) : (writeMramBytes b xs c).regs = c.regs := by
  induction xs generalizing b c with
  | nil => rfl
  | cons x xs ih => rw [writeMramBytes, ih]; rfl

@[simp] theorem writeMramBytes_core (xs : List Nat) (b : Nat) : (writeMramBytes b xs c).core = c.core := by
  induction xs generalizing b c with
  | nil => rfl
  | cons x xs ih => rw [writeMramBytes, ih]; rfl

@[simp] theorem writeCopy_regs (base len : Nat) (magic body : List Nat) : (writeCopy base len magic body c).regs = c.regs := by
  simp [writeCopy]

@[simp] theorem writeCopy_core (base len : Nat) (magic body : List Nat) : (writeCopy base len magic body c).core = c.core := by
  simp [writeCopy]

theorem putRec_reg (r : SlotRec) (a : Nat) (h : a ≠ Reg.UPD_STATUS) (h' : a ≠ Reg.UPD_BOOT_INFO) :
    (putRec r c).reg a = c.reg a := by
  simp only [putRec]
  rw [onUpd_reg _ _ _ h h', Chip.reg_regs, writeCopy_regs]
  rfl

@[simp] theorem putRec_core (r : SlotRec) : (putRec r c).core = c.core := by simp [putRec]

theorem settleInputs_eq (old : Chip) : ∃ i, settleInputs old c = { c with core := { c.core with inputs := i } } := by
  unfold settleInputs
  generalize evInputs = js
  induction js generalizing c with
  | nil => exact ⟨_, rfl⟩
  | cons j js ih =>
    rw [List.foldl_cons]
    split
    · exact ih c
    · dsimp only
      split
      · obtain ⟨i, hi⟩ := ih (setInput c j _)
        exact ⟨i, hi⟩
      · exact ih c

/-- The core after a swap of the banks in a chip that is awake (R237). -/
theorem swapBanks_reads (cause : Nat) (h : c.power ≤ 3) :
    (swapBanks cause c).regs = c.regs ∧ (swapBanks cause c).upd = c.upd ∧ (swapBanks cause c).core.bank = 1 - c.core.bank ∧
      (swapBanks cause c).core.pc = 0 ∧ (swapBanks cause c).core.startCause = cause := by
  obtain ⟨i, hi⟩ := settleInputs_eq (handOver cause { c with core := { c.core with bank := 1 - c.core.bank } }) c
  have hpower : ∀ k : Machine.Core, ({ c with core := k } : Chip).power = c.power := fun _ => rfl
  have hswap : swapBanks cause c = { handOver cause { c with core := { c.core with bank := 1 - c.core.bank } } with
      core := { (handOver cause { c with core := { c.core with bank := 1 - c.core.bank } }).core with
        inputs := i
        paused := false } } := by
    simp only [swapBanks, hi]
    exact if_neg (by change ¬ c.power = 4; omega)
  rw [hswap]
  exact ⟨rfl, rfl, rfl, rfl, rfl⟩

/-! ### The end of an activation -/

/-- The end of an armed operation touches tickets and mailboxes alone. -/
theorem finishArmed_eq (a : Activation) (w : Word) : ∃ tk mbx, finishArmed a w c = { c with tk := tk, mbx := mbx } := by
  have hvia : ∃ tk mbx, finishVia a.via w c = { c with tk := tk, mbx := mbx } := by
    cases a.via with
    | ticket n =>
      simp only [finishVia, finishTicket]
      split
      · split
        · exact ⟨c.tk, c.mbx, rfl⟩
        · exact ⟨_, c.mbx, rfl⟩
      · exact ⟨c.tk, c.mbx, rfl⟩
    | mailbox p =>
      simp only [finishVia, finishMbx]
      split
      · split
        · exact ⟨c.tk, _, rfl⟩
        · exact ⟨c.tk, c.mbx, rfl⟩
      · exact ⟨c.tk, c.mbx, rfl⟩
  unfold finishArmed
  split
  · exact hvia
  · exact ⟨c.tk, c.mbx, rfl⟩

/-- What an activation's answer leaves: the grain in its register, and nothing else but UPD_STATUS. -/
theorem activated_reads (a : Activation) {g : Nat} (hg : a.at_ = some g) :
    (activated a c).reg Reg.UPD_ACTIVATE_GRAIN = .grain g ∧ (activated a c).upd = c.upd ∧ (activated a c).core = c.core ∧
      ∀ r, r ≠ Reg.UPD_ACTIVATE_GRAIN → r ≠ Reg.UPD_STATUS → (activated a c).reg r = c.reg r := by
  obtain ⟨tk, mbx, hfin⟩ := finishArmed_eq (c.setReg Reg.UPD_ACTIVATE_GRAIN (.grain g)) a (.grain g)
  have hact : activated a c = lastResult 0 { c.setReg Reg.UPD_ACTIVATE_GRAIN (.grain g) with tk := tk, mbx := mbx } := by
    simp only [activated, hg, Option.getD_some, hfin]
  rw [hact, lastResult]
  refine ⟨?_, rfl, rfl, fun r hr hs => ?_⟩
  · rw [Chip.reg_setF_ne _ _ _ _ (by decide)]
    exact Chip.reg_setReg_same ..
  · rw [Chip.reg_setF_ne _ _ _ _ hs]
    exact Chip.reg_setReg_ne _ _ _ _ hr

/-- A core with nothing in hand stops at once (R237). -/
theorem pauseCore_ready (ha : c.core.accesses = []) (hs : c.core.stalled = none) : pauseCore c = (true, c) := by
  simp [pauseCore, ha, hs]

/-- An activation in restart mode resets the device (R371). -/
theorem activation_restarts {o : Store Nat} {a : Activation} {g : Nat} (ha : c.upd.armed = some a) (hg : a.at_ = some g)
    (hdue : g ≤ c.now) (hdev : c.dev = devGerminate) (hon : c.isOn .core = true) (hger : c.upd.germinating = 0)
    (hmode : c.b Fld.UPD_STATUS_RESTART_MODE = true) (hdead : deadFused o = false) :
    ∃ d, activation o c = deviceReset none false d := by
  simp only [activation, ha, hg, hmode, if_true]
  rw [if_neg (by simp [hdue, hdev, hon, hger]), resetDevice_live _ _ _ _ hdead]
  exact ⟨_, rfl⟩

/-- An activation answered and its record written. -/
def hitlessRecorded (a : Activation) (c : Chip) : Chip :=
  let c2 := activated a (c.onUpd fun u => { u with armed := none })
  putRec (c2.slotRec.setSlot c.slotRec.staging slotTrial) c2

/-- The trial of the image in a slot begins. -/
def trialBegun (s : Nat) (b : Chip) : Chip :=
  let c3 := b.onUpd fun u => { u with slot := s }
  (startTrial (measExtend 1 (c3.slotSignature s) (c3.setB Fld.SYS_STATE_TRIAL true))).raise .upd updActivated

/-- The chip that a hitless activation leaves (R370). -/
def hitless (a : Activation) (c : Chip) : Chip := trialBegun c.slotRec.staging (swapBanks 2 (hitlessRecorded a c))

theorem activation_hitless {o : Store Nat} {a : Activation} {g : Nat} (ha : c.upd.armed = some a) (hg : a.at_ = some g)
    (hdue : g ≤ c.now) (hdev : c.dev = devGerminate) (hon : c.isOn .core = true) (hger : c.upd.germinating = 0)
    (hmode : c.b Fld.UPD_STATUS_RESTART_MODE = false) (hacc : c.core.accesses = []) (hst : c.core.stalled = none) :
    activation o c = hitless a c := by
  simp only [activation, hitless, hitlessRecorded, trialBegun, ha, hg, hmode, pauseCore_ready c hacc hst, Bool.false_eq_true, if_false, Bool.not_true]
  exact if_neg (by simp [hdue, hdev, hon, hger])

theorem hitlessRecorded_reads {a : Activation} {g : Nat} (hg : a.at_ = some g) :
    (hitlessRecorded a c).reg Reg.UPD_ACTIVATE_GRAIN = .grain g ∧ (hitlessRecorded a c).core = c.core ∧
      (hitlessRecorded a c).upd.armed = none ∧
      ∀ r, r ≠ Reg.UPD_ACTIVATE_GRAIN → r ≠ Reg.UPD_STATUS → r ≠ Reg.UPD_BOOT_INFO →
        (hitlessRecorded a c).reg r = c.reg r := by
  obtain ⟨hgrain, hupd, hcore, hregs⟩ := activated_reads (c.onUpd fun u => { u with armed := none }) a hg
  refine ⟨?_, ?_, ?_, fun r h1 h2 h3 => ?_⟩
  · rw [hitlessRecorded, putRec_reg _ _ _ (by decide) (by decide), hgrain]
  · rw [hitlessRecorded, putRec_core, hcore, Chip.onUpd_core]
  · rw [hitlessRecorded]
    obtain ⟨n, hn⟩ := putRec_upd (activated a (c.onUpd fun u => { u with armed := none }))
      ((activated a (c.onUpd fun u => { u with armed := none })).slotRec.setSlot c.slotRec.staging slotTrial)
    rw [hn, hupd, Chip.onUpd_upd]
  · rw [hitlessRecorded, putRec_reg _ _ _ h2 h3, hregs r h1 h2, onUpd_reg _ _ _ h2 h3]

theorem startTrial_reads : (startTrial c).core = c.core ∧ (startTrial c).upd.armed = c.upd.armed ∧
    (startTrial c).upd.slot = c.upd.slot ∧
    ∀ r, r ≠ Reg.UPD_STATUS → r ≠ Reg.UPD_BOOT_INFO → r ≠ Reg.UPD_TRIAL_END_LO → r ≠ Reg.UPD_TRIAL_END_HI →
      (startTrial c).reg r = c.reg r := by
  refine ⟨?_, ?_, ?_, fun r h1 h2 h3 h4 => ?_⟩
  · simp [startTrial]
  · simp [startTrial]
  · simp [startTrial]
  · simp only [startTrial]
    rw [Chip.reg_setReg_ne _ _ _ _ h4, Chip.reg_setReg_ne _ _ _ _ h3, onUpd_reg _ _ _ h1 h2]

theorem trialBegun_reads (s : Nat) :
    (trialBegun s c).core = c.core ∧ (trialBegun s c).upd.armed = c.upd.armed ∧ (trialBegun s c).upd.slot = s ∧
      (trialBegun s c).trial = true ∧ (trialBegun s c).dev = c.dev ∧
      (trialBegun s c).reg Reg.UPD_ACTIVATE_GRAIN = c.reg Reg.UPD_ACTIVATE_GRAIN := by
  obtain ⟨hcore, harmed, hslot, hregs⟩ := startTrial_reads (measExtend 1
    ((c.onUpd fun u => { u with slot := s }).slotSignature s) ((c.onUpd fun u => { u with slot := s }).setB Fld.SYS_STATE_TRIAL true))
  have hreg : ∀ r, r ≠ Reg.UPD_STATUS → r ≠ Reg.UPD_BOOT_INFO → r ≠ Reg.UPD_TRIAL_END_LO → r ≠ Reg.UPD_TRIAL_END_HI →
      r ≠ Reg.UPD_INT_STATUS → (trialBegun s c).reg r = (c.setB Fld.SYS_STATE_TRIAL true).reg r := by
    intro r h1 h2 h3 h4 h5
    rw [trialBegun, Chip.raise_reg_ne _ _ _ _ h5, hregs r h1 h2 h3 h4]
    change ((c.onUpd fun u => { u with slot := s }).setB Fld.SYS_STATE_TRIAL true).reg r = _
    simp only [Chip.setB, Chip.setF, Chip.reg_setReg]
    rw [onUpd_reg _ _ _ h1 h2, onUpd_reg _ _ _ (by decide) (by decide)]
  refine ⟨?_, ?_, ?_, ?_, ?_, ?_⟩
  · rw [trialBegun, Chip.raise_core, hcore]
    exact Chip.onUpd_core ..
  · rw [trialBegun, Chip.raise_upd, harmed]
    exact (congrArg Upd.armed (Chip.onUpd_upd c fun u => { u with slot := s }) :)
  · rw [trialBegun, Chip.raise_upd, hslot]
    exact (congrArg Upd.slot (Chip.onUpd_upd c fun u => { u with slot := s }) :)
  · rw [Chip.trial, Chip.b, Chip.f, hreg _ (by decide) (by decide) (by decide) (by decide) (by decide)]
    exact Chip.b_setB _ _ _ rfl (by decide)
  · rw [Chip.dev, Chip.f, hreg _ (by decide) (by decide) (by decide) (by decide) (by decide)]
    exact Chip.f_setF_ne _ _ _ _ (.inr (by decide))
  · rw [hreg _ (by decide) (by decide) (by decide) (by decide) (by decide)]
    exact Chip.reg_setB_ne _ _ _ _ (by decide)

/-- The core, the update state and the registers after a hitless activation. -/
theorem hitless_reads {a : Activation} {g : Nat} (hg : a.at_ = some g) (hp : c.power ≤ 3) :
    (hitless a c).core.bank = 1 - c.core.bank ∧ (hitless a c).core.pc = 0 ∧ (hitless a c).core.startCause = 2 ∧
      (hitless a c).trial = true ∧ (hitless a c).dev = c.dev ∧ (hitless a c).upd.armed = none ∧
      (hitless a c).upd.slot = c.slotRec.staging ∧ (hitless a c).reg Reg.UPD_ACTIVATE_GRAIN = .grain g := by
  obtain ⟨hgrain, hcore, harmed, hregs⟩ := hitlessRecorded_reads c hg
  have hp' : (hitlessRecorded a c).power ≤ 3 := by
    rw [Chip.power, Chip.f, hregs _ (by decide) (by decide) (by decide)]
    exact hp
  obtain ⟨hsregs, hsupd, hbank, hpc, hcause⟩ := swapBanks_reads (hitlessRecorded a c) 2 hp'
  obtain ⟨htcore, htarmed, htslot, httrial, htdev, htgrain⟩ := trialBegun_reads (swapBanks 2 (hitlessRecorded a c)) c.slotRec.staging
  have hsreg : ∀ r, (swapBanks 2 (hitlessRecorded a c)).reg r = (hitlessRecorded a c).reg r := fun r => by
    rw [Chip.reg_regs, hsregs, ← Chip.reg_regs]
  refine ⟨?_, ?_, ?_, httrial, ?_, ?_, htslot, ?_⟩
  · rw [hitless, htcore, hbank, hcore]
  · rw [hitless, htcore, hpc]
  · rw [hitless, htcore, hcause]
  · rw [hitless, htdev, Chip.dev, Chip.f, hsreg, hregs _ (by decide) (by decide) (by decide)]
    rfl
  · rw [hitless, htarmed, hsupd, harmed]
  · rw [hitless, htgrain, hsreg, hgrain]

end Sys2Proof.Machine
end

section
/-! SUPPORT. Fallback at the end of a trial, entropy tests and the report on settings (R206, R372, R373, R375). -/

namespace Sys2Proof.Machine
open Safety

variable (c : Chip)

/-- A row that may burn fuses, its chip known. -/
theorem onChipBurn_eq {g : Store Nat → Chip → Chip} {s : State} {d : Chip} (h : g s.otp s.chip = d) :
    onChipBurn g s = .next (settled s d) := by
  rw [onChipBurn, h]
  rfl

theorem settled_upd (s : State) (d : Chip) : (settled s d).chip.upd = d.upd := (rfl)
theorem settled_reg (s : State) (d : Chip) (a : Nat) : (settled s d).chip.reg a = d.reg a := (rfl)
theorem settled_trial (s : State) (d : Chip) : (settled s d).chip.trial = d.trial := (rfl)

theorem deviceReset_armed (cause : Option Nat) (lost : Bool) : (deviceReset cause lost c).upd.armed = none := by
  simp only [deviceReset, linkOscFollow_upd, Chip.setRegN_upd, Chip.setReg_upd]
  rfl

/-! ### Fallback -/

/-- What every fallback leaves: the device in RUN, no trial, FELL_BACK raised, the core as it was (R375). -/
theorem fellBack_reads : (fellBack c).dev = devRun ∧ (fellBack c).trial = false ∧
    (fellBack c).b ⟨Reg.UPD_INT_STATUS, updFellBack, 1⟩ = true ∧ (fellBack c).core = c.core ∧
    (fellBack c).power = c.power := by
  refine ⟨?_, ?_, Chip.raise_flag _ _ _ (by decide), ?_, ?_⟩
  · rw [fellBack, Chip.dev_regs]
    simp (disch := decide) only [Chip.raise_regs_put, Chip.setB_regs, Block.upd_status, setDev, Chip.setF_regs,
      regF_putF_ne, regF_putF]
    rfl
  · rw [fellBack, Chip.trial, Chip.b_regs]
    simp (disch := decide) only [Chip.raise_regs_put, Chip.setB_regs, Block.upd_status, setDev, Chip.setF_regs,
      regF_putF_ne, regF_putF]
    rfl
  · simp [fellBack, setDev]
  · rw [fellBack, Chip.power_regs]
    simp (disch := decide) only [Chip.raise_regs_put, Chip.setB_regs, Block.upd_status, setDev, Chip.setF_regs, regF_putF_ne]
    exact congrArg (fun w => Word.field w 32 4) (putRec_reg c _ Reg.PWR_STATUS (by decide) (by decide))

/-- The chip that the fallback of a hitless trial leaves (R375). -/
def trialEnded (c : Chip) : Chip := (swapBanks 3 (fellBack c)).onUpd fun u => { u with slot := 1 - c.slotRec.staging }

theorem trialEnded_reads (hp : c.power ≤ 3) : (trialEnded c).dev = devRun ∧ (trialEnded c).trial = false ∧
    (trialEnded c).core.bank = 1 - c.core.bank ∧ (trialEnded c).core.startCause = 3 ∧
    (trialEnded c).upd.slot = 1 - c.slotRec.staging ∧ (trialEnded c).b ⟨Reg.UPD_INT_STATUS, updFellBack, 1⟩ = true := by
  obtain ⟨hdev, htrial, hflag, hcore, hpower⟩ := fellBack_reads c
  obtain ⟨hregs, hupd, hbank, hpc, hcause⟩ := swapBanks_reads (fellBack c) 3 (by rw [hpower]; exact hp)
  have hreg : ∀ r, r ≠ Reg.UPD_STATUS → r ≠ Reg.UPD_BOOT_INFO → (trialEnded c).reg r = (fellBack c).reg r := fun r h1 h2 => by
    rw [trialEnded, onUpd_reg _ _ _ h1 h2, Chip.reg_regs, hregs, ← Chip.reg_regs]
  refine ⟨?_, ?_, ?_, ?_, ?_, ?_⟩
  · rw [Chip.dev, Chip.f, hreg _ (by decide) (by decide)]; exact hdev
  · rw [Chip.trial, Chip.b, Chip.f, hreg _ (by decide) (by decide)]; exact htrial
  · rw [trialEnded, Chip.onUpd_core, hbank, hcore]
  · rw [trialEnded, Chip.onUpd_core, hcause]
  · rw [trialEnded, Chip.onUpd_upd]
  · rw [Chip.b, Chip.f, hreg _ (by decide) (by decide)]; exact hflag

/-- A hitless trial, its shadow valid and its core with nothing in hand, falls back at once. -/
theorem fallback_hitless {o : Store Nat} (ht : c.trial = true) (hm : c.b Fld.UPD_STATUS_RESTART_MODE = false)
    (hv : c.core.shadowValid = true) (ha : c.core.accesses = []) (hs : c.core.stalled = none) :
    fallback o c = (true, trialEnded c) := by
  have hr : c.reloads = false := by simp [Chip.reloads, hv]
  simp only [fallback, ht, hm, hr, pauseCore_ready c ha hs, Bool.not_true, Bool.false_and, Bool.false_eq_true, if_false]
  rfl

/-- The end of a trial that falls back at once (R372). -/
theorem trialExpiry_falls {o : Store Nat} (hd : c.dev = devGerminate) (ht : c.trial = true) (he : c.upd.trialEnd ≤ c.now)
    (hon : c.isOn .core = true) (hp : c.power ≤ 3) (hm : c.b Fld.UPD_STATUS_RESTART_MODE = false)
    (hv : c.core.shadowValid = true) (ha : c.core.accesses = []) (hs : c.core.stalled = none) :
    ∃ code, trialExpiry o c = lastResult code (trialEnded (takeStatus c).2) := by
  have hr : c.reloads = false := by simp [Chip.reloads, hv]
  have hfall : fallback o (takeStatus c).2 = (true, trialEnded (takeStatus c).2) := fallback_hitless _ ht hm hv ha hs
  rw [trialExpiry, if_pos ⟨hd, ht, he, by omega, hon⟩, if_neg (by simp [hr])]
  simp only [hfall]
  exact ⟨_, rfl⟩

/-- The end of a trial that has lost the shadow reloads it first. -/
theorem trialExpiry_reloads {o : Store Nat} (hd : c.dev = devGerminate) (ht : c.trial = true) (he : c.upd.trialEnd ≤ c.now)
    (hon : c.isOn .core = true) (hp : c.power ≤ 3) (hm : c.b Fld.UPD_STATUS_RESTART_MODE = false)
    (hv : c.core.shadowValid = false) :
    trialExpiry o c = c.onUpd fun u => { u with reload := some (u.reload.getD 0) } := by
  have hr : c.reloads = true := by simp [Chip.reloads, ht, hm, hv]
  rw [trialExpiry, if_pos ⟨hd, ht, he, by omega, hon⟩, if_pos hr]

theorem lastResult_reads (code : Nat) : (lastResult code c).core = c.core ∧ (lastResult code c).upd = c.upd ∧
    ∀ r, r ≠ Reg.UPD_STATUS → (lastResult code c).reg r = c.reg r :=
  ⟨rfl, rfl, fun _ h => Chip.reg_setF_ne _ _ _ _ h⟩

/-! ### Entropy tests -/

theorem trngHealthFail_reads (p : Bool) (h : c.isOn .core = true) :
    (trngHealthFail p c).b Fld.SEC_STATUS_TRNG_FAIL = true ∧ (trngHealthFail p c).drbgReady = false ∧
      (trngHealthFail p c).b ⟨Reg.SEC_INT_STATUS, secTrngFail, 1⟩ = true := by
  have hfail : (trngHealthFail p c).b Fld.SEC_STATUS_TRNG_FAIL = true := by
    rw [trngHealthFail, if_pos h, Chip.b, Chip.raise_f_reg _ _ _ _ (by decide)]
    exact Chip.b_setB _ _ _ rfl (by decide)
  refine ⟨hfail, by simp [Chip.drbgReady, hfail], ?_⟩
  rw [trngHealthFail, if_pos h]
  exact Chip.raise_flag _ _ _ (by decide)

/-! ### Not-after times and the quiet gap -/

theorem lockExpiry_ends {g : Nat} (h : c.sec.lock = some g) (h0 : g ≠ 0) (ho : c.oscStop = false) (hg : g ≤ c.rtcSeconds) :
    lockExpiry c = c.onSec fun x => { x with lock := none } := by
  simp only [lockExpiry, h]
  exact if_pos ⟨h0, ho, hg⟩

theorem debugUnlockExpiry_ends {g : Nat} (h : c.sec.unlock = some g) (h0 : g ≠ 0) (ho : c.oscStop = false)
    (hg : g ≤ c.rtcSeconds) : debugUnlockExpiry c = c.onSec fun x => { x with unlock := none } := by
  simp only [debugUnlockExpiry, h]
  exact if_pos ⟨h0, ho, hg⟩

theorem quietGapTimeout_disarms {a : Activation} (h : c.upd.armed = some a) (hn : a.at_ = none) (hl : a.limit ≤ c.now) :
    quietGapTimeout c = disarm .busy c := by
  simp only [quietGapTimeout, h]
  exact if_pos (by simp [hn, hl])

/-! ### The report on settings -/

theorem settingsReport_ok (hd : c.dev = devGerminate) (ht : c.trial = true) :
    settingsReport 0 c = c.setRegN Reg.UPD_SETTINGS_REPORT 0 := by
  rw [settingsReport, if_pos ⟨hd, ht, .inl rfl⟩]
  exact if_neg (by decide)

theorem settingsReport_unreadable (hd : c.dev = devGerminate) (ht : c.trial = true) :
    settingsReport 16 c = ((c.setRegN Reg.UPD_SETTINGS_REPORT 16).onUpd fun u => { u with unreadable := true }).raise .upd updReported := by
  rw [settingsReport, if_pos ⟨hd, ht, .inr rfl⟩]
  exact if_pos rfl

end Sys2Proof.Machine
end

section
namespace Sys2Proof
open Machine Safety

/-- Settles O34: what ends by time or by itself. -/
theorem expiriesAndActivation : Obligations.ExpiriesAndActivation := by
  unfold Obligations.ExpiriesAndActivation
  intro s
  refine ⟨?_, ?_, ?_, ?_, ?_, ?_, ?_, ?_, ?_, ?_⟩
  · intro g h h0 ho hg
    exact next_chip (lockExpiry_ends _ h h0 ho hg)
  · intro g h h0 ho hg
    exact next_chip (debugUnlockExpiry_ends _ h h0 ho hg)
  · intro p h
    exact ⟨_, rfl, trngHealthFail_reads _ p h⟩
  · intro p
    refine ⟨fun h => next_chip (if_pos h), fun h => next_chip (if_neg (by simp [h])), fun d g hd => ⟨fun hlt => ?_, fun hle => ?_⟩⟩
    · simp only [testsEnd, hd]
      exact if_pos hlt
    · simp only [testsEnd, hd]
      exact if_neg (by omega)
  · intro a g ha hg hdue hdev hon hger
    refine ⟨fun hmode hdead => ?_, fun hmode hacc hst hp => ?_⟩
    · obtain ⟨d, hd⟩ := activation_restarts s.chip ha hg hdue hdev hon hger hmode hdead
      refine ⟨settled s (deviceReset none false d), onChipBurn_eq hd, ?_, ?_, ?_⟩
      · rw [settled_dev, deviceReset_dev]
      · rw [settled_upd, deviceReset_armed]
      · rw [settled_core, deviceReset_core]
        rfl
    · obtain ⟨hbank, hpc, hcause, htrial, htdev, harmed, hslot, hgrain⟩ := hitless_reads s.chip hg hp
      refine ⟨settled s (hitless a s.chip), onChipBurn_eq (activation_hitless s.chip ha hg hdue hdev hon hger hmode hacc hst), ?_⟩
      rw [settled_core, settled_trial, settled_dev, settled_upd, settled_reg]
      exact ⟨hbank, hpc, hcause, htrial, htdev.trans hdev, harmed, hslot, hgrain⟩
  · intro a ha hn hl
    exact next_chip (quietGapTimeout_disarms _ ha hn hl)
  · intro hd ht he hon hm
    refine ⟨fun hv ha hs hp => ?_, fun hv hp => ?_⟩
    · obtain ⟨code, hcode⟩ := trialExpiry_falls (o := s.otp) s.chip hd ht he hon hp hm hv ha hs
      obtain ⟨hdev, htrial, hbank, hcause, hslot, hflag⟩ := trialEnded_reads (takeStatus s.chip).2 hp
      obtain ⟨hcore, hupd, hreg⟩ := lastResult_reads (trialEnded (takeStatus s.chip).2) code
      refine ⟨settled s (lastResult code (trialEnded (takeStatus s.chip).2)), onChipBurn_eq hcode, ?_, ?_, ?_, ?_, ?_, ?_⟩
      · rw [settled_dev, Chip.dev, Chip.f, hreg _ (by decide)]; exact hdev
      · rw [settled_trial, Chip.trial, Chip.b, Chip.f, hreg _ (by decide)]; exact htrial
      · rw [settled_core, hcore, hbank]; rfl
      · rw [settled_core, hcore, hcause]
      · rw [settled_upd, hupd, hslot]; rfl
      · rw [settled_b, Chip.b, Chip.f, hreg _ (by decide)]; exact hflag
    · exact onChipBurn_eq (trialExpiry_reloads s.chip hd ht he hon hp hm hv)
  · intro hp
    have heq : trialExpiry s.otp s.chip = s.chip := if_neg (by omega)
    exact onChipBurn_eq heq
  · intro hd ht
    refine ⟨next_chip (settingsReport_ok _ hd ht), _, next_chip (settingsReport_unreadable _ hd ht), ?_, ?_⟩
    · rw [Chip.raise_upd, Chip.onUpd_upd]
    · exact Chip.raise_flag _ _ _ (by decide)
  · intro hd code
    exact next_chip (if_neg (by simp [hd]))

end Sys2Proof
end

section
/-! SUPPORT. Tickets: a launch, a peek and the ring, moved from a source or posted (R243 to R251). -/

namespace Sys2Proof.Machine

variable (c : Chip)

/-! ### The ticket unit's ports -/

theorem portWritable_ticket (bus : Nat) {p : Nat} (hp : p = 0x908 ∨ p = 0x90A ∨ p = 0x913) (hs : c.sysPort 0 = true) :
    c.portWritable bus p = true := by
  rcases hp with rfl | rfl | rfl <;> simp [Chip.portWritable, portWindow, hs, inPorts]

theorem loneMove_word (bus : Fin 4) (dst : Nat) (src : MoveSource) (b : Word) : (loneMove bus dst src b).word = b := (rfl)

section
variable {bus : Fin 4} {src : MoveSource} {b : Word} (hrest : Safety.coreAtRest c = true) (hpriv : c.priv = true)
include hrest hpriv

/-- What may refuse a lone move to a port of the ticket unit is its tag and its value. -/
theorem moveTrap_ticket {p : Nat} (hp : p = 0x908 ∨ p = 0x90A ∨ p = 0x913) (ht : c.portTakes p b.tag = true)
    (hv : c.portValueBad p b = false) : c.moveTrap (loneMove bus p src b) = none := by
  obtain ⟨-, hrpt, htransfer, -, -, -⟩ := coreAtRest_reads c hrest
  have hwin : portWindow p = none := by rcases hp with rfl | rfl | rfl <;> rfl
  have hin : inPorts 0x800 0x803 p = false := by rcases hp with rfl | rfl | rfl <;> rfl
  have hne : p ≠ 0x812 := by omega
  rw [Chip.moveTrap, loneMove_dst, hwin]
  simp only [hrpt, htransfer, hpriv, loneMove_word, ht, hv, hin, hne]
  simp

variable (hop : Safety.operandWord c src = some b) (hs : c.sysPort 0 = true)
include hop hs

/-- A lone move to a trigger of the ticket unit, whose word is placed for the next bundle. -/
theorem issueOne_ticket {p q : Nat} {r : Word} {d : Chip} (hp : p = 0x908 ∨ p = 0x90A) (ht : c.portTakes p b.tag = true)
    (hact : triggerPort p b c = d.inFlight 1 q r)
    (hcore : ∃ ports, d.core = { c.core with ports := ports }) :
    issueOne bus p src c = Safety.nextBundle (d.setPort q r) := by
  obtain ⟨hst, hr, -, hg, hi, -⟩ := coreAtRest_reads c hrest
  have hv : c.portValueBad p b = false := by rcases hp with rfl | rfl <;> rfl
  have htrig : portTriggers p = true := by rcases hp with rfl | rfl <;> decide
  obtain ⟨ports, hports⟩ := hcore
  have hstep := stepInFlight_one d (by rw [hports]; exact hi) q r
  have hw := portWritable_ticket c bus.val (p := p) (by tauto) hs
  rw [issueOne_trigger c hrest hop (by omega) hw htrig (moveTrap_ticket c hrest hpriv (by tauto) ht hv)
      (by rcases hp with rfl | rfl <;> rfl), hact,
    bundleEnd_rest c hrest _ (by rw [hstep]; change d.core.stalled = none; rw [hports]; exact hst)
      (by rw [hstep]; change d.core.rptLeft = 0; rw [hports]; exact hr)
      (by rw [hstep]; change d.core.rptGo = none; rw [hports]; exact hg), hstep]

/-- A legal write of TK_RING_CONS moves the consumer (R251). -/
theorem issueOne_ringCons {d : Chip} (ht : b.tag = .int) (hd : tkConsWrite b c = some d) :
    issueOne bus 0x913 src c = Safety.nextBundle d := by
  obtain ⟨hst, hr, -, hg, hi, -⟩ := coreAtRest_reads c hrest
  have hdc : d = c.setPort 0x913 b := by
    unfold tkConsWrite at hd
    dsimp only at hd
    split at hd
    · cases hd
    · exact (Option.some.inj hd).symm
  have hwrite : writePort 0x913 b c = d := by
    simp only [writePort, hd]
    simp
  have hbad : c.portValueBad 0x913 b = false := by simp [Chip.portValueBad, hd]
  have hstep := stepInFlight_idle d (by rw [hdc]; exact hi)
  rw [issueOne_hold c hrest hop (by decide) (portWritable_ticket c bus.val (.inr (.inr rfl)) hs) (by decide) (by decide)
      (moveTrap_ticket c hrest hpriv (.inr (.inr rfl)) (by rw [ht]; rfl) hbad), hwrite,
    bundleEnd_rest c hrest _ (by rw [hstep, hdc]; exact hst) (by rw [hstep, hdc]; exact hr) (by rw [hstep, hdc]; exact hg), hstep]

end

/-! ### Launches -/

theorem finishTicket_held_length (n : Nat) (w : Word) : (finishTicket n w c).tk.held.length = c.tk.held.length := by
  unfold finishTicket
  split
  · split
    · rfl
    · exact List.length_map ..
  · rfl

theorem finishTicket_core (n : Nat) (w : Word) : (finishTicket n w c).core = c.core := by
  unfold finishTicket
  split
  · split <;> rfl
  · rfl

/-- A launch touches no more of the core than the count of its refusals. -/
theorem tkLaunch_core (code : Nat) (args : List Word) :
    ∃ ports, (tkLaunch code args c).2.core = { c.core with ports := ports } := by
  unfold tkLaunch
  split
  · exact ⟨c.core.ports, rfl⟩
  · split
    · exact ⟨c.core.ports, rfl⟩
    · split
      · unfold countNoTicket
        dsimp only
        split
        · exact ⟨_, rfl⟩
        · exact ⟨c.core.ports, rfl⟩
      · refine ⟨c.core.ports, ?_⟩
        dsimp only
        split
        · rw [finishTicket_core]
          split
          · exact Chip.raise_core ..
          · rfl
        · rfl

/-- A launch that is granted answers a TICKET word and holds one ticket more (R245, R246). -/
theorem tkLaunch_granted {code : Nat} {args : List Word} (hk : opKnown code = true) (he : c.engineOut code = false)
    (hr : (c.port 0x911).nat ≠ 0) (hg : c.grants (opClass code) = true) (hf : c.freeTickets ≠ []) :
    (tkLaunch code args c).1.tag = .ticket ∧ (tkLaunch code args c).2.tk.held.length = c.tk.held.length + 1 := by
  unfold tkLaunch
  rw [if_neg (by simp [hk]), if_neg (by simp [he, hr]), if_neg (by simp [hg, hf])]
  refine ⟨rfl, ?_⟩
  dsimp only
  split
  · rw [finishTicket_held_length]
    split
    · rw [Chip.raise_tk]
      exact List.length_append ..
    · exact List.length_append ..
  · exact List.length_append ..

theorem tkLaunch_unknown {code : Nat} (args : List Word) (hk : opKnown code = false) :
    tkLaunch code args c = (refused .unknownCommand, c) := by
  unfold tkLaunch
  rw [if_pos (by simp [hk])]

/-! ### Posting -/

theorem spaceAccess_zero {c : Chip} (h : c.isOn .memD = true) : c.spaceAccess 0 = .served :=
  spaceAccess_data c (p := 0) rfl h

theorem stored_writePair (p : Nat) (w0 w1 : Word) (q : Nat) : (writePair p w0 w1 c).stored q =
    if q = evenOf p + 1 then w1 else if q = evenOf p then w0 else c.stored q := by
  have hfill : (fillNote p c).stored q = c.stored q := by
    unfold fillNote
    split <;> rfl
  rw [writePair, stored_mems (portWatch_mems ..), stored_storePair, stored_mems (tableNote_mems ..), hfill]

/-- The ring after an entry of four words at an even address. -/
theorem stored_entry {p : Nat} (hp : p % 2 = 0) (w0 w1 w2 w3 : Word) :
    (writePair p w0 w1 (writePair (p + 2) w2 w3 c)).stored p = w0 ∧
      (writePair p w0 w1 (writePair (p + 2) w2 w3 c)).stored (p + 1) = w1 ∧
      (writePair p w0 w1 (writePair (p + 2) w2 w3 c)).stored (p + 2) = w2 := by
  have h0 : evenOf p = p := by simp only [evenOf]; omega
  have h2 : evenOf (p + 2) = p + 2 := by simp only [evenOf]; omega
  simp only [stored_writePair, h0, h2]
  refine ⟨?_, ?_, ?_⟩
  · rw [if_neg (by omega), if_pos trivial]
  · rw [if_pos trivial]
  · rw [if_neg (by omega), if_neg (by omega), if_neg (by omega), if_pos trivial]

/-- The chip with the entry of a ticket in its ring, or the rejection of one that may not be written (R34, R250). -/
def entryPosted (t : Ticket) (p : Nat) (c : Chip) : Chip :=
  if c.spaceAccess 0 = .served ∧ c.ringEntryOk p then
    writePair p (ticketWord t) t.result (writePair (p + 2) (.grain t.doneAt)
      (.bits (t.code * 2 ^ 28 + min t.steps 65535 * 2 ^ 12 + resultStatus t.result)) c)
  else c.regReject

/-- A ticket is freed as its entry is posted (R250). -/
def ticketFreed (t : Ticket) (next : Nat) (c : Chip) : Chip :=
  ((c.onTk fun k => { k with held := k.held.filter fun x => x.number != t.number }).setPort 0x912 (.int next)).fire 0xC6 (some next)

theorem completionPost_eq {t : Ticket} (hon : c.isOn .core = true) (hn : c.nextPost = some t)
    (hroom : c.ringUsed < (c.port 0x911).nat) : completionPost c =
      ticketFreed t (((c.port 0x912).nat + 1) % 65536)
        (entryPosted t ((c.port 0x910).nat + 4 * ((c.port 0x912).nat % (c.port 0x911).nat)) c) := by
  have hmax : max 1 (c.port 0x911).nat = (c.port 0x911).nat := by omega
  simp only [completionPost, hon, hn, Bool.not_true, Bool.false_eq_true, if_false]
  rw [if_neg (by omega), hmax]
  rfl

theorem ticketFreed_reads (t : Ticket) (next : Nat) : (ticketFreed t next c).port 0x912 = .int next ∧
    (ticketFreed t next c).ticket t.number = none ∧ (ticketFreed t next c).mems = c.mems := by
  refine ⟨?_, ?_, ?_⟩
  · rw [ticketFreed, Chip.port, Chip.fire_core]
    exact port_setPort_same ..
  · rw [ticketFreed, Chip.ticket, Chip.fire_tk]
    change (c.tk.held.filter fun x => x.number != t.number).find? (fun x => x.number == t.number) = none
    rw [List.find?_eq_none]
    intro x hx
    simpa using (List.mem_filter.mp hx).2
  · rw [ticketFreed, Chip.fire_mems]
    rfl

end Sys2Proof.Machine
end

section
namespace Sys2Proof
open Machine Safety

/-- Settles O35: launches, peeks and the ring from the core's ports, and the posting of a finished operation. -/
theorem tickets : Obligations.Tickets := by
  unfold Obligations.Tickets
  intro s
  refine ⟨?_, ?_⟩
  · intro bus src b hrest hs hpriv hop args
    have hlaunch : b.tag = .int → exec (.tkLaunch bus src) s = .next { s with
        chip := nextBundle ((tkLaunch b.nat args s.chip).2.setPort 0x909 (tkLaunch b.nat args s.chip).1) } := fun ht =>
      next_chip (issueOne_ticket s.chip hrest hpriv hop hs (.inl rfl) (by rw [ht]; rfl) rfl (tkLaunch_core ..))
    refine ⟨hlaunch, ?_, ?_, ?_, ?_⟩
    · intro ht hk he hr hg hf
      obtain ⟨htag, hlen⟩ := tkLaunch_granted s.chip (args := args) hk he hr hg hf
      exact ⟨_, hlaunch ht, (congrArg Word.tag (port_setPort_same ..)).trans htag, hlen⟩
    · intro ht hk
      rw [hlaunch ht, tkLaunch_unknown _ _ hk]
    · intro ht
      exact next_chip (issueOne_ticket s.chip hrest hpriv hop hs (.inr rfl) (by rw [ht]; rfl) rfl ⟨s.chip.core.ports, rfl⟩)
    · intro c1 ht hc1
      exact next_chip (issueOne_ringCons s.chip hrest hpriv hop hs ht hc1)
  · intro t hon hpost hroom hmem prod p
    have heq := completionPost_eq s.chip hon hpost hroom
    obtain ⟨hport, hticket, hmems⟩ := ticketFreed_reads (entryPosted t p s.chip) t ((prod + 1) % 65536)
    refine ⟨_, next_chip heq, hport, hticket, fun heven hok => ?_⟩
    have hentry : entryPosted t p s.chip = _ := if_pos ⟨spaceAccess_zero hmem, hok⟩
    obtain ⟨h0, h1, h2⟩ := stored_entry s.chip heven (ticketWord t) t.result (.grain t.doneAt)
      (.bits (t.code * 2 ^ 28 + min t.steps 65535 * 2 ^ 12 + resultStatus t.result))
    rw [stored_mems hmems, stored_mems hmems, stored_mems hmems, hentry]
    exact ⟨h0, h1, h2⟩

end Sys2Proof
end

section
/-! SUPPORT. The mailboxes: MBX_GO past the check units, the commands without an engine, and replies (R382 to R389). -/

namespace Sys2Proof.Machine

/-! ### Steps that write registers -/

/-- A step that writes the registers a test names, and may raise events and move the check units: all else stands. -/
def Touches (P : Nat → Prop) (c d : Chip) : Prop :=
  ∃ regs fab chk, d = { c with regs := regs, fab := fab, chk := chk } ∧ ∀ a, ¬ P a → regGet regs a = regGet c.regs a

namespace Touches
variable {P : Nat → Prop} {c d e : Chip}

theorem refl (P : Nat → Prop) (c : Chip) : Touches P c c := ⟨c.regs, c.fab, c.chk, rfl, fun _ _ => rfl⟩

theorem trans (h : Touches P c d) (h' : Touches P d e) : Touches P c e := by
  obtain ⟨r, f, k, rfl, hr⟩ := h
  obtain ⟨r', f', k', rfl, hr'⟩ := h'
  exact ⟨r', f', k', rfl, fun a ha => (hr' a ha).trans (hr a ha)⟩

theorem mono {Q : Nat → Prop} (hPQ : ∀ a, P a → Q a) (h : Touches P c d) : Touches Q c d := by
  obtain ⟨r, f, k, hd, hr⟩ := h
  exact ⟨r, f, k, hd, fun a ha => hr a (mt (hPQ a) ha)⟩

theorem reg {a : Nat} (h : Touches P c d) (ha : ¬ P a) : d.reg a = c.reg a := by
  obtain ⟨r, f, k, rfl, hr⟩ := h
  exact hr a ha

theorem f {x : Field} (h : Touches P c d) (hx : ¬ P x.reg) : d.f x = c.f x := by
  rw [Chip.f, Chip.f, h.reg hx]

theorem b {x : Field} (h : Touches P c d) (hx : ¬ P x.reg) : d.b x = c.b x := by
  rw [Chip.b, Chip.b, h.f hx]

/-- What such a step leaves alone beside the registers. -/
theorem stands (h : Touches P c d) : d.mbx = c.mbx ∧ d.core = c.core ∧ d.islands = c.islands ∧ d.pwr = c.pwr ∧ d.now = c.now ∧
    d.recipe = c.recipe ∧ d.gang = c.gang ∧ d.mems = c.mems ∧ d.out = c.out ∧ d.msix = c.msix := by
  obtain ⟨r, f, k, rfl, -⟩ := h
  exact ⟨rfl, rfl, rfl, rfl, rfl, rfl, rfl, rfl, rfl, rfl⟩

theorem isOn (h : Touches P c d) (i : Island) : d.isOn i = c.isOn i := by
  obtain ⟨-, -, hi, -⟩ := h.stands
  rw [Chip.isOn_islands, Chip.isOn_islands, hi]

theorem power (h : Touches P c d) (hp : ¬ P Reg.PWR_STATUS) : d.power = c.power := h.f hp

theorem dev (h : Touches P c d) (hs : ¬ P Reg.SYS_STATE) : d.dev = c.dev := h.f hs

/-- An island serves its registers as before (R12). -/
theorem regServed (h : Touches P c d) (hp : ¬ P Reg.PWR_STATUS) (a : Nat) : d.regServed a = c.regServed a := by
  obtain ⟨-, -, -, hpwr, -⟩ := h.stands
  rw [Chip.regServed, Chip.regServed, h.isOn, h.power hp, hpwr]

theorem setF {x : Field} {v : Nat} (h : Touches P c d) (hx : P x.reg) : Touches P c (d.setF x v) :=
  h.trans ⟨_, d.fab, d.chk, rfl, fun a ha => regGet_putF_ne _ x v a fun e => ha (e ▸ hx)⟩

theorem setB {x : Field} {v : Bool} (h : Touches P c d) (hx : P x.reg) : Touches P c (d.setB x v) := h.setF hx

theorem setRegN {a n : Nat} (h : Touches P c d) (hx : P a) : Touches P c (d.setRegN a n) :=
  h.trans ⟨_, d.fab, d.chk, rfl, fun b hb => regGet_putN_ne _ a n b fun e => hb (e ▸ hx)⟩

theorem setReg {a : Nat} {w : Word} (h : Touches P c d) (hx : P a) : Touches P c (d.setReg a w) :=
  h.trans ⟨_, d.fab, d.chk, rfl, fun b hb => regGet_regPut_ne _ a b w fun e => hb (e ▸ hx)⟩

theorem bump {x : Field} (h : Touches P c d) (hx : P x.reg) : Touches P c (d.bump x) := by
  unfold Chip.bump
  split
  · exact h.setF hx
  · exact h

theorem setChk {n : Nat} {u : ChkUnit} (h : Touches P c d) : Touches P c (d.setChk n u) :=
  h.trans ⟨d.regs, d.fab, _, rfl, fun _ _ => rfl⟩

theorem fire {n : Nat} {p : Option Nat} {k : Nat} (h : Touches P c d) : Touches P c (d.fire n p k) := by
  unfold Chip.fire
  split
  · exact h.trans ⟨d.regs, _, d.chk, rfl, fun _ _ => rfl⟩
  · exact h

theorem raise {x : Block} {k : Nat} (h : Touches P c d) (hx : P x.status) : Touches P c (d.raise x k) := by
  have hset : Touches P c (d.setFlag x.status k) := by
    simp only [Chip.setFlag]
    split
    · exact h.trans ⟨_, _, d.chk, rfl, fun a ha => regGet_putF_ne _ ⟨x.status, k, 1⟩ 1 a fun e => ha (e ▸ hx)⟩
    · exact h.setF (x := ⟨x.status, k, 1⟩) hx
  simp only [Chip.raise]
  split
  · exact hset.fire
  · exact hset

theorem ite {t : Prop} [Decidable t] (h : Touches P c d) (h' : Touches P c e) : Touches P c (if t then d else e) := by
  split
  · exact h
  · exact h'

theorem foldl {α : Type} {g : Chip → α → Chip} {xs : List α} (hg : ∀ x ∈ xs, ∀ d, Touches P d (g d x)) :
    Touches P c (xs.foldl g c) := by
  induction xs generalizing c with
  | nil => exact refl P c
  | cons x xs ih =>
    exact (hg x (by simp) c).trans (ih fun y hy => hg y (by simp [hy]))

end Touches

/-! ### A slot that the check units see (R307) -/

/-- A register of the check units. -/
abbrev chkReg (a : Nat) : Prop := 0x5000 ≤ a ∧ a < 0x6000

variable (c : Chip)

theorem chkReg_unit {n : Nat} (hn : n < 8) (k : Nat) (hk : k < 16) : chkReg (0x5000 + k + 0x10 * n) := by
  unfold chkReg
  omega

section Unit
variable {P : Nat → Prop} {c} {n : Nat} {d : Chip} (hP : ∀ k < 16, P (0x5000 + k + 0x10 * n))
include hP

theorem Touches.chkReload (h : Touches P c d) : Touches P c (chkReload n d) :=
  (((h.setRegN (hP 4 (by decide))).setRegN (hP 8 (by decide))).setB (hP 9 (by decide))).setChk

theorem Touches.chkEnd {abandoned : Bool} (h : Touches P c d) : Touches P c (chkEnd n abandoned d) := by
  have hraise : ∀ {e : Chip} k, Touches P c e → Touches P c (e.raise (.chk n) k) := fun k he => he.raise (hP 9 (by decide))
  have hbad : Touches P c (if abandoned then d.raise (.chk n) 3 else d) := (hraise 3 h).ite h
  have hres : Touches P c (d.setRegN (Reg.CHK_RESULT n) (d.chkResult n)) := h.setRegN (hP 5 (by decide))
  have hone : ∀ {e : Chip}, Touches P c e → Touches P c (chkCounted n e) := fun he => (hraise 0 he).bump (hP 11 (by decide))
  unfold Machine.chkEnd
  refine ((hone ?_).chkReload hP).setChk
  refine Touches.ite ((hraise 2 hbad).ite hbad) (Touches.ite ((hraise 1 hres).bump (hP 11 (by decide))) hres)

theorem Touches.chkOctet {o : Nat} (h : Touches P c d) : Touches P c (chkOctet n d o) := by
  have hfold := h.ite (t := (d.chkUnit n).dropped = true) (h.setRegN (n := d.chkFolded n (o % 256)) (hP 4 (by decide)))
  have hcount := fun v w => ((hfold.setRegN (n := v) (hP 8 (by decide))).setB (v := w) (x := Fld.CHK_STATUS_ACTIVE n)
    (hP 9 (by decide)))
  unfold Machine.chkOctet
  exact ((hcount _ _).chkEnd hP).ite (hcount _ _)

end Unit

/-- What a stream does to the units that watch it. -/
theorem chkStream_touches (src sel : Nat) (octets : List Nat) (marker : Bool) : Touches chkReg c (chkStream src sel octets marker c) := by
  refine Touches.foldl fun n hn d => ?_
  have hP := fun k hk => chkReg_unit (List.mem_range.mp hn) k hk
  have hfold : Touches chkReg d (octets.foldl (chkOctet n) d) := Touches.foldl fun o _ e => (Touches.refl chkReg e).chkOctet hP
  have hrefl := Touches.refl chkReg d
  exact (((hrefl.setChk).ite hrefl).ite ((hfold.chkEnd hP).ite hfold)).ite hrefl

theorem dmaSeen_touches (p sel : Nat) (bytes : List Nat) (last : Bool) : Touches chkReg c (dmaSeen p sel bytes last c) := by
  unfold dmaSeen
  split
  · exact chkStream_touches c _ _ _ _
  · exact .refl _ c

/-! ### A writer (R37, R407) -/

/-- An access that rejects nothing leaves REG_REJECT as it was. -/
theorem asWriter_takes {host : Bool} {g : Chip → Chip}
    (h : (g (c.setB Fld.SYS_STATUS_REG_REJECT false)).b Fld.SYS_STATUS_REG_REJECT = false) :
    asWriter host g c = (g (c.setB Fld.SYS_STATUS_REG_REJECT false)).setB Fld.SYS_STATUS_REG_REJECT (c.b Fld.SYS_STATUS_REG_REJECT) := by
  simp [asWriter, h]

/-- One that is rejected tells whose it was. -/
theorem asWriter_rejects {host : Bool} {g : Chip → Chip}
    (h : (g (c.setB Fld.SYS_STATUS_REG_REJECT false)).b Fld.SYS_STATUS_REG_REJECT = true) :
    asWriter host g c = if host then (g (c.setB Fld.SYS_STATUS_REG_REJECT false)).hostReject
      else (g (c.setB Fld.SYS_STATUS_REG_REJECT false)).setB Fld.SYS_STATUS_HOST_REJECT false := by
  simp [asWriter, h]

theorem regReject_rejects : c.regReject.b Fld.SYS_STATUS_REG_REJECT = true := by
  simp only [Chip.regReject, Chip.b_regs, Chip.raise_regs_put, Block.sys_status]
  rw [regF_putF _ ⟨Reg.SYS_STATUS, 0, 1⟩ _ (by decide)]
  rfl

/-- HOST_REJECT tells whose write was rejected last, which stays rejected. -/
theorem rejected_flags (host : Bool) (h : c.b Fld.SYS_STATUS_REG_REJECT = true) :
    let d := if host then c.hostReject else c.setB Fld.SYS_STATUS_HOST_REJECT false
    Touches (· = Reg.SYS_STATUS) c d ∧ d.b Fld.SYS_STATUS_REG_REJECT = true ∧ d.b Fld.SYS_STATUS_HOST_REJECT = host := by
  rw [Chip.b_regs] at h
  cases host
  · refine ⟨(Touches.refl _ c).setB rfl, ?_⟩
    simp (disch := decide) only [Bool.false_eq_true, if_false, Chip.b_regs, Chip.setB_regs, regF_putF_ne, regF_putF, h]
    decide
  · refine ⟨(Touches.refl _ c).raise rfl, ?_⟩
    simp (disch := decide) only [if_true, Chip.hostReject, Chip.b_regs, Chip.raise_regs_put, Block.sys_status, regF_putF_ne, regF_putF, h]
    decide

/-! ### MBX_GO (R383) -/

/-- A mailbox's status stands where a step writes no register of the mailboxes. -/
theorem Touches.mbxStatus {P : Nat → Prop} {c d : Chip} (h : Touches P c d) (hP : ∀ a, 0x18000 ≤ a → ¬ P a) (p : Nat) :
    d.mbxStatus p = c.mbxStatus p := by
  obtain ⟨-, hcore, -⟩ := h.stands
  rw [Chip.mbxStatus, Chip.mbxStatus, h.reg (hP _ (by simp only [Reg.MBX_STATUS]; omega)), Chip.port, Chip.port, hcore]

theorem Touches.mbxOf {P : Nat → Prop} {c d : Chip} (h : Touches P c d) (p : Nat) : d.mbxOf p = c.mbxOf p := by
  obtain ⟨hmbx, -⟩ := h.stands
  rw [Chip.mbxOf, Chip.mbxOf, hmbx]

theorem setMbx_b (p : Nat) (m : Mbx) (x : Field) : (setMbx p m c).b x = c.b x := (rfl)

theorem setMbx_mbxStatus (p q : Nat) (m : Mbx) : (setMbx p m c).mbxStatus q = c.mbxStatus q := (rfl)

theorem setMbxStatus_b (p : Nat) (w : Word) (x : Field) (h : x.reg < 0x18000) : (setMbxStatus p w c).b x = c.b x := by
  unfold setMbxStatus
  split
  · rfl
  · simp only [Chip.b_regs, Chip.setReg_regs]
    rw [regF_regPut_ne _ _ _ _ (by simp only [Reg.MBX_STATUS]; omega)]

theorem setMbxStatus_status (p : Nat) (w : Word) : (setMbxStatus p w c).mbxStatus p = w := by
  unfold setMbxStatus Chip.mbxStatus
  split
  · simp
  · exact regGet_regPut_same _ _ _

@[simp] theorem setMbxStatus_mbx (p : Nat) (w : Word) : (setMbxStatus p w c).mbx = c.mbx := by
  unfold setMbxStatus
  split <;> rfl

@[simp] theorem setMbx_mbxOf (p : Nat) (m : Mbx) : (setMbx p m c).mbxOf p = m := by simp [setMbx, Chip.mbxOf]

/-- What a mailbox holds of a command that begins (R382, R383). -/
def mbxTaken (p code seq : Nat) (c : Chip) : Mbx :=
  { busy := true, code := code, seq := seq, args := (List.range 16).map (c.mbxArg p), at_ := c.now, steps := 0, prog := 0,
    result := (c.mbxRefusal code).map fun w => [w] }

/-- The registers MBX_GO of the host paths are present in every chip (R38). -/
theorem regPresent_mbxGo (k : Fin 4) : c.regPresent (Reg.MBX_GO k.val) = true := by
  match k with
  | 0 | 1 | 2 | 3 => rfl

/-- A word written to a MBX_GO that is served reaches the mailbox. -/
theorem writeReg_mbxGo (k : Fin 4) (n : Nat) (h : c.regServed (Reg.MBX_GO k.val) = true) :
    writeReg true (Reg.MBX_GO k.val) (.bits n) c = mbxGo (k.val + 1) (Word.bits n).nat c := by
  have htakes : regTakes (Reg.MBX_GO k.val) (Word.bits n).tag = true := by
    clear h
    simp only [Word.bits, Word.mk']
    decide +revert
  rw [writeReg, regPresent_mbxGo, h, htakes]
  match k with
  | 0 | 1 | 2 | 3 => rfl

theorem asWriter_congr {host : Bool} {g g' : Chip → Chip}
    (h : g (c.setB Fld.SYS_STATUS_REG_REJECT false) = g' (c.setB Fld.SYS_STATUS_REG_REJECT false)) :
    asWriter host g c = asWriter host g' c := by
  simp only [asWriter, h]

/-- The registers that a write of MBX_GO touches beside its mailbox. -/
abbrev goReg (a : Nat) : Prop := chkReg a ∨ a = Reg.SYS_STATUS

theorem goReg_low : ∀ a, 0x18000 ≤ a → ¬ goReg a := by
  unfold goReg chkReg Reg.SYS_STATUS
  omega

/-- What a mailbox takes is what it would have taken before the check units saw the write. -/
theorem Touches.mbxTaken {c d : Chip} (h : Touches goReg c d) (p code seq : Nat) : mbxTaken p code seq d = mbxTaken p code seq c := by
  obtain ⟨-, hcore, -, -, hnow, -⟩ := h.stands
  have hargs : ∀ k, d.mbxArg p k = c.mbxArg p k := fun k => by
    rw [Chip.mbxArg, Chip.mbxArg, h.reg (goReg_low _ (by simp only [Reg.MBX_ARG]; omega)), Chip.port, Chip.port, hcore]
  have hrefusal : d.mbxRefusal code = c.mbxRefusal code := by
    simp only [Chip.mbxRefusal, Chip.mbxLegal, Chip.stateRefused, h.isOn, h.dev (by decide), h.power (by decide)]
    congr
  rw [Machine.mbxTaken, Machine.mbxTaken, funext hargs, hrefusal, hnow]

section Go
variable {c} (p : Nat) (code seq : BitVec 8)

/-- The fields of a word written to MBX_GO. -/
theorem goWord_fields : (code.toNat + 2 ^ 12 * seq.toNat) % 256 = code.toNat ∧ bitsOf (code.toNat + 2 ^ 12 * seq.toNat) 12 8 = seq.toNat ∧
    ¬ ((code.toNat + 2 ^ 12 * seq.toNat) / 2 ^ 20 ≠ 0 ∨ bitsOf (code.toNat + 2 ^ 12 * seq.toNat) 8 4 ≠ 0) := by
  have h1 := code.isLt
  have h2 := seq.isLt
  simp only [bitsOf]
  omega

theorem mbxGo_begins (h : (c.mbxOf p).busy = false) : mbxGo p (code.toNat + 2 ^ 12 * seq.toNat) c =
    setMbx p (mbxTaken p code.toNat seq.toNat c) (setMbxStatus p ((c.mbxStatus p).withField 0 1 1)
      { c with pwr := { c.pwr with used := true } }) := by
  obtain ⟨hcode, hseq, hlegal⟩ := goWord_fields code seq
  simp only [mbxGo, if_neg hlegal, h, hcode, hseq, Bool.false_eq_true, if_false]
  rfl

theorem mbxGo_collides (h : (c.mbxOf p).busy = true) : mbxGo p (code.toNat + 2 ^ 12 * seq.toNat) c =
    (setMbxStatus p ((c.mbxStatus p).withField 2 1 1) c).regReject := by
  obtain ⟨-, -, hlegal⟩ := goWord_fields code seq
  simp only [mbxGo, if_neg hlegal, h, if_true]

/-- A write of MBX_GO that its path serves reaches the mailbox, whose other state the check units have left alone. -/
theorem mbxGoBy_reaches (p : Fin 5) (h : c.mbxOpen p.val = true) : ∃ d, Touches chkReg c d ∧
    mbxGoBy p.val (code.toNat + 2 ^ 12 * seq.toNat) c = asWriter (p != 0) (mbxGo p.val (code.toNat + 2 ^ 12 * seq.toNat)) d := by
  cases p using Fin.cases with
  | zero => exact ⟨c, .refl _ c, if_pos h⟩
  | succ k =>
    have hne : ¬ k.succ.val = 0 := by simp
    have hopen : c.pathServed k.succ.val = true ∧ c.regServed (Reg.MBX_GO k.val) = true := by
      simpa [Chip.mbxOpen] using h
    set n := code.toNat + 2 ^ 12 * seq.toNat with hn
    have hnat : (Word.bits n).nat = n := by
      have h1 := code.isLt
      have h2 := seq.isLt
      simp only [Word.bits, Word.mk'_nat]
      omega
    have ht := dmaSeen_touches c k.succ.val 0 (slotBytes Tag.bits.num n) true
    have hserved := ((ht.mono fun a => Or.inl).setB (P := goReg) (x := Fld.SYS_STATUS_REG_REJECT) (v := false) (.inr rfl)).regServed
      (by decide) (Reg.MBX_GO k.val)
    have hgo := writeReg_mbxGo _ k n (hserved.trans hopen.2)
    rw [hnat] at hgo
    refine ⟨_, ht, ?_⟩
    have hsys : Reg.MBX_GO k.val ≠ Reg.SYS_STATUS := by simp only [Reg.MBX_GO, Reg.SYS_STATUS]; omega
    rw [mbxGoBy, if_neg hne, if_pos hopen.1, show k.succ.val - 1 = k.val from rfl, writeRegBy, if_neg hsys]
    exact asWriter_congr _ hgo

/-- A command that a path not busy takes (R383). -/
theorem mbxGoBy_begins (p : Fin 5) (h : c.mbxOpen p.val = true) (hb : (c.mbxOf p.val).busy = false) :
    let d := mbxGoBy p.val (code.toNat + 2 ^ 12 * seq.toNat) c
    (d.mbxStatus p.val).field 0 1 = 1 ∧ d.mbxOf p.val = mbxTaken p.val code.toNat seq.toNat c := by
  obtain ⟨e, he, hgo⟩ := mbxGoBy_reaches code seq p h
  have hc := (he.mono fun a => Or.inl).setB (P := goReg) (x := Fld.SYS_STATUS_REG_REJECT) (v := false) (.inr rfl)
  have hclear : (e.setB Fld.SYS_STATUS_REG_REJECT false).b Fld.SYS_STATUS_REG_REJECT = false := Chip.b_setB _ _ _ rfl (by decide)
  have hbegin := mbxGo_begins p.val code seq ((congrArg Mbx.busy (hc.mbxOf p.val)).trans hb)
  have hquiet : (mbxGo p.val (code.toNat + 2 ^ 12 * seq.toNat) (e.setB Fld.SYS_STATUS_REG_REJECT false)).b
      Fld.SYS_STATUS_REG_REJECT = false := by
    rw [hbegin, setMbx_b, setMbxStatus_b _ _ _ _ (by decide)]
    exact hclear
  dsimp only
  rw [hgo, asWriter_takes e hquiet, hbegin]
  refine ⟨?_, ?_⟩
  · have hstatus := fun x => ((Touches.refl _ x).setB (P := goReg) (x := Fld.SYS_STATUS_REG_REJECT)
      (v := e.b Fld.SYS_STATUS_REG_REJECT) (.inr rfl)).mbxStatus goReg_low p.val
    rw [hstatus, setMbx_mbxStatus, setMbxStatus_status]
    exact Word.field_withField _ _ _ _ (by decide)
  · rw [← hc.mbxTaken, Chip.mbxOf, Chip.setB_mbx]
    exact setMbx_mbxOf _ _ _

/-- One that a busy path discards (R383, R407). -/
theorem mbxGoBy_collides (p : Fin 5) (h : c.mbxOpen p.val = true) (hb : (c.mbxOf p.val).busy = true) :
    let d := mbxGoBy p.val (code.toNat + 2 ^ 12 * seq.toNat) c
    (d.mbxStatus p.val).field 2 1 = 1 ∧ d.mbx = c.mbx ∧ d.b Fld.SYS_STATUS_REG_REJECT = true ∧
      d.b Fld.SYS_STATUS_HOST_REJECT = (p != 0) := by
  obtain ⟨e, he, hgo⟩ := mbxGoBy_reaches code seq p h
  have hc := (he.mono fun a => Or.inl).setB (P := goReg) (x := Fld.SYS_STATUS_REG_REJECT) (v := false) (.inr rfl)
  have hcollide := mbxGo_collides p.val code seq ((congrArg Mbx.busy (hc.mbxOf p.val)).trans hb)
  have hrej : (mbxGo p.val (code.toNat + 2 ^ 12 * seq.toNat) (e.setB Fld.SYS_STATUS_REG_REJECT false)).b
      Fld.SYS_STATUS_REG_REJECT = true := by
    rw [hcollide]
    exact regReject_rejects _
  obtain ⟨ht, h1, h2⟩ := rejected_flags _ (p != 0) hrej
  obtain ⟨hmbx, -⟩ := ht.stands
  have hsys : ∀ a, 0x18000 ≤ a → ¬ a = Reg.SYS_STATUS := by unfold Reg.SYS_STATUS; omega
  dsimp only
  rw [hgo, asWriter_rejects e hrej]
  refine ⟨?_, hmbx.trans ?_, h1, h2⟩
  · have hreject := ((Touches.refl (· = Reg.SYS_STATUS) (setMbxStatus p.val ((((e.setB Fld.SYS_STATUS_REG_REJECT false).mbxStatus
      p.val).withField 2 1 1)) (e.setB Fld.SYS_STATUS_REG_REJECT false))).raise (x := .sys) (k := 0) rfl).mbxStatus hsys p.val
    rw [ht.mbxStatus hsys, hcollide, Chip.regReject, hreject, setMbxStatus_status]
    exact Word.field_withField _ _ _ _ (by decide)
  · rw [hcollide, Chip.regReject_mbx, setMbxStatus_mbx]
    exact hc.stands.1

end Go

/-! ### Commands without an engine (R387) -/

/-- A command that waits under its code runs. -/
theorem mbxRow_waits {p code : Nat} {g : Mbx → Chip → Option (Word × List Word) × Chip} (hb : (c.mbxOf p).busy = true)
    (hr : (c.mbxOf p).result = none) (hc : (c.mbxOf p).code = code) : mbxRow p code g c =
    match g (c.mbxOf p) c with
    | (some (w, ws), d) => finishMbx p w ws d
    | (none, d) => d := by
  simp [mbxRow, hb, hr, hc] <;> rfl

/-- … and ends with its result, which waits for the reply. -/
theorem finishMbx_waits {p : Nat} (w : Word) (ws : List Word) (hb : (c.mbxOf p).busy = true) (hr : (c.mbxOf p).result = none) :
    finishMbx p w ws c = setMbx p { (c.mbxOf p) with result := some (w :: ws) } c := by
  simp [finishMbx, hb, hr]

@[simp] theorem pwrAnswer_mbx (seq target : Nat) (st : Status) : (pwrAnswer seq target st c).mbx = c.mbx := by simp [pwrAnswer]

theorem lanesDeaf_mbx : (lanesDeaf c).mbx = c.mbx :=
  foldl_same Chip.mbx _ (fun d n => (laneListen_keeps d n false).2) _ c

theorem startTransition_mbx (seq target : Nat) (forced : Bool) : (startTransition seq target forced c).mbx = c.mbx := by
  simp only [startTransition]
  split
  · simp
  · simp [lanesDeaf_mbx]

theorem supersedePending_mbx : (supersedePending c).mbx = c.mbx := by
  unfold supersedePending
  split
  · simp
  · rfl

/-- A request of a power state leaves the mailboxes alone. -/
theorem powerRequest_mbx (target : Nat) : (powerRequest target c).mbx = c.mbx := by
  unfold powerRequest
  split
  · rfl
  split
  · simp
  extract_lets seq c1
  have hc1 : c1.mbx = c.mbx := rfl
  split
  · rw [pwrAnswer_mbx, hc1]
  split
  · simp [supersedePending_mbx, hc1]
  split
  · rw [pwrAnswer_mbx, hc1]
  · rw [startTransition_mbx, hc1]

theorem powerRequest_mbxOf (target p : Nat) : (powerRequest target c).mbxOf p = c.mbxOf p := by
  rw [Chip.mbxOf, Chip.mbxOf, powerRequest_mbx]

/-- A small number as an INT word. -/
theorem wordInt_small (n : Nat) (h : n < 2 ^ 35) : (Word.int n).nat = n := by
  simp only [Word.int, Word.nat, BitVec.toNat_ofInt]
  omega

/-- POWER answers the sequence number of its request (R334, R387). -/
theorem powerCommand_waits {p n : Nat} (hb : (c.mbxOf p).busy = true) (hr : (c.mbxOf p).result = none) (hc : (c.mbxOf p).code = 0x04)
    (ha : argOf (c.mbxOf p).args 0 = .int n) (h8 : n < 8) (h5 : c.power ≠ 5) : powerCommand p c =
    setMbx p { (c.mbxOf p) with result := some [.int ((powerRequest n c).f Fld.PWR_STATUS_LAST_SEQ)] } (powerRequest n c) := by
  have hn : (Word.int n).nat = n := wordInt_small n (by omega)
  have hlegal : ¬ ((Word.int n).tag ≠ .int ∨ 8 ≤ (Word.int n).nat) := by rw [hn]; simp [Word.int, h8]
  rw [powerCommand, mbxRow_waits c hb hr hc, ha]
  simp only [if_neg hlegal, if_neg h5]
  simp only [hn]
  rw [finishMbx_waits _ _ _ (by rw [powerRequest_mbxOf]; exact hb) (by rw [powerRequest_mbxOf]; exact hr), powerRequest_mbxOf]

/-! ### Replies (R383, R384) -/

/-- The words of a reply, up to one. -/
def fillReply (p : Nat) (rs : List Word) (n : Nat) (c : Chip) : Chip :=
  (List.range n).foldl (fun c k => setReply p k (rs.getD k (.int 0)) c) c

theorem fillReply_succ (p : Nat) (rs : List Word) (n : Nat) :
    fillReply p rs (n + 1) c = setReply p n (rs.getD n (.int 0)) (fillReply p rs n c) := by
  simp [fillReply, List.range_succ]

/-- A register that shows the reply of a host path. -/
abbrev replyReg (a : Nat) : Prop := 0x18040 ≤ a ∧ 24 ≤ a % 64

section Reply
variable {p : Nat} (hp : p ≠ 0) (rs : List Word)
include hp

theorem fillReply_reads (n : Nat) (hn : n ≤ 8) : Touches replyReg c (fillReply p rs n c) ∧
    ∀ k < n, (fillReply p rs n c).reg (Reg.MBX_REPLY (p - 1) k) = rs.getD k (.int 0) := by
  induction n with
  | zero => exact ⟨.refl _ c, by simp⟩
  | succ n ih =>
    obtain ⟨ht, hr⟩ := ih (by omega)
    rw [fillReply_succ, setReply, if_neg hp]
    refine ⟨ht.setReg (by simp only [replyReg, Reg.MBX_REPLY]; omega), fun k hk => ?_⟩
    rw [Chip.reg_setReg]
    split
    · next e => rw [show k = n by simp only [Reg.MBX_REPLY] at e; omega]
    · next e => exact hr k (by have : k ≠ n := fun h => e (h ▸ rfl); omega)

/-- The chip whose mailbox has shown its reply, before the owner of its path is signalled. -/
theorem mbxReply_eq {m : Mbx} (ws : List Word) (hm : c.mbxOf p = m) (hb : m.busy = true) (hr : m.result = some ws) :
    let rs := replyWords m ws
    ∃ d, mbxReply p c = mbxSignal p m rs d ∧ Touches (fun a => replyReg a ∨ a = Reg.MBX_STATUS (p - 1)) (setMbx p .idle c) d ∧
      (∀ k < 8, d.reg (Reg.MBX_REPLY (p - 1) k) = rs.getD k (.int 0)) ∧ (d.mbxStatus p).field 0 1 = 0 ∧
      (d.mbxStatus p).field 1 1 = 1 ∧ (d.mbxStatus p).field 16 8 = m.seq % 2 ^ 8 := by
  subst hm
  intro rs
  obtain ⟨ht, hreads⟩ := fillReply_reads (setMbx p .idle c) hp rs 8 (by omega)
  set c1 := fillReply p rs 8 (setMbx p .idle c) with hc1
  set w := (((c1.mbxStatus p).withField 0 1 0).withField 1 1 1).withField 16 8 (c.mbxOf p).seq with hw
  have heq : mbxReply p c = mbxSignal p (c.mbxOf p) rs (setMbxStatus p w c1) := by
    simp only [mbxReply, hr, hb, Bool.not_true, Bool.false_eq_true, if_false]
    rfl
  refine ⟨_, heq, ?_, fun k hk => ?_, ?_⟩
  · rw [setMbxStatus, if_neg hp]
    exact (ht.mono fun a => Or.inl).setReg (.inr rfl)
  · rw [setMbxStatus, if_neg hp, Chip.reg_setReg_ne _ _ _ _ (by simp only [Reg.MBX_REPLY, Reg.MBX_STATUS]; omega)]
    exact hreads k hk
  · rw [setMbxStatus_status, hw]
    refine ⟨?_, ?_, Word.field_withField _ _ _ _ (by decide)⟩
    · rw [Word.field_withField_ne _ _ _ _ _ _ (by decide) (by decide), Word.field_withField_ne _ _ _ _ _ _ (by decide) (by decide),
        Word.field_withField _ _ _ _ (by decide)]
      rfl
    · rw [Word.field_withField_ne _ _ _ _ _ _ (by decide) (by decide), Word.field_withField _ _ _ _ (by decide)]
      rfl

omit hp in
/-- The signal of path 3 is a frame on UART0 (R395). -/
theorem mbxSignal_uart (m : Mbx) : (mbxSignal 3 m rs c).out = (uartReply 0x81 5 (Reg.MBX_REPLY 2 0) 8 rs).map Word.bits := (rfl)

omit hp in
/-- That of path 1 is MSI-X vector 0 (R391). -/
theorem mbxSignal_msi (m : Mbx) (h : c.isOn .pcie = true) : (mbxSignal 1 m rs c).msix = c.msix ++ [0] :=
  congrArg Chip.msix (if_pos h : c.msi 0 = _)

/-- The signal to the owner of a host path leaves the registers and mailboxes alone. -/
theorem mbxSignal_stands (m : Mbx) : (mbxSignal p m rs c).regs = c.regs ∧ (mbxSignal p m rs c).mbx = c.mbx ∧
    (mbxSignal p m rs c).mbxStatus p = c.mbxStatus p := by
  have hmsi : ∀ v, (c.msi v).regs = c.regs ∧ (c.msi v).mbx = c.mbx ∧ (c.msi v).mbxStatus p = c.mbxStatus p := fun v => by
    unfold Chip.msi
    split <;> exact ⟨rfl, rfl, rfl⟩
  match p with
  | 0 => exact absurd rfl hp
  | 1 => exact hmsi 0
  | 3 => exact ⟨rfl, rfl, rfl⟩
  | 2 | n + 4 => exact ⟨rfl, rfl, rfl⟩

end Reply

end Sys2Proof.Machine
end

section
namespace Sys2Proof
open Machine Safety

/-- Settles O36: a write of MBX_GO begins a command or collides, the commands without an engine end at once, and a reply is
filled word by word before its owner is signalled. -/
theorem mailboxes : Obligations.Mailboxes := by
  intro s p m
  refine ⟨fun code seq hopen hb => ?_, fun code seq hopen hb => ?_, fun hb hr => ⟨fun hc => ?_, fun hc => ?_, fun x hc hx h0 h8 h5 => ?_⟩,
    fun ws hb hr hp => ?_⟩
  · obtain ⟨hstatus, hmbx⟩ := mbxGoBy_begins code seq p hopen hb
    refine ⟨_, rfl, ?_⟩
    dsimp only
    rw [hmbx]
    exact ⟨rfl, hstatus, rfl, rfl, rfl, rfl⟩
  · exact ⟨_, rfl, mbxGoBy_collides code seq p hopen hb⟩
  · exact next_chip ((mbxRow_waits _ hb hr hc).trans (finishMbx_waits _ _ _ hb hr))
  · exact next_chip ((mbxRow_waits _ hb hr hc).trans (finishMbx_waits _ _ _ hb hr))
  · obtain ⟨n, rfl⟩ := Int.eq_ofNat_of_zero_le h0
    refine ⟨_, next_chip (powerCommand_waits s.chip hb hr hc hx (by omega) h5), ?_, rfl⟩
    dsimp only
    rw [setMbx_mbxOf]
    rfl
  · have hm : s.chip.mbxOf p.val = m := rfl
    clear_value m
    obtain ⟨d, heq, ht, hreads, h0, hdone, h16⟩ := mbxReply_eq s.chip hp ws hm hb hr
    obtain ⟨hregs, hmbx, hstatus⟩ := mbxSignal_stands d hp (replyWords m ws) m
    obtain ⟨htmbx, -, hislands, -, -, -, -, -, -, hmsix⟩ := ht.stands
    refine ⟨_, next_chip heq, fun h3 => ?_, fun h1 hon => ?_, fun h2 => ?_, ?_, ?_, ?_, ?_, fun k hk => ?_⟩ <;> dsimp only
    · rw [h3]
      exact mbxSignal_uart d _ m
    · have hd : d.isOn .pcie = true := by
        rw [Chip.isOn_islands, hislands]
        exact hon
      rw [h1]
      exact (mbxSignal_msi d _ m hd).trans (congrArg (· ++ [0]) hmsix)
    · rw [h2] at ht hdone hregs hstatus ⊢
      have hirq : (mbxSignal 2 m (replyWords m ws) d).b Fld.HOST_QSPI_CFG_IRQ = s.chip.b Fld.HOST_QSPI_CFG_IRQ := by
        rw [Chip.b_regs, hregs, ← Chip.b_regs]
        exact ht.b (by decide)
      rw [Chip.hostIrqLow, hstatus, hdone, hirq]
      rfl
    · rw [Chip.mbxOf, hmbx, htmbx]
      exact congrArg Mbx.busy (setMbx_mbxOf s.chip _ _)
    · rw [hstatus]; exact h0
    · rw [hstatus]; exact hdone
    · rw [hstatus]; exact h16
    · rw [Chip.reg_regs, hregs]
      exact hreads k hk

end Sys2Proof
end

section
/-! SUPPORT. Restart of an island or of the device, and the re-mash (R13, R272 to R275, R387). -/

namespace Sys2Proof.Machine
open Safety

variable (c : Chip)

/-! ### An island restarts (R13) -/

theorem setIsland_island (i : Island) (x : IslandState) : (c.setIsland i x).island i = x := Store.get_put_same ..

theorem restartIsland_island (i : Island) : (restartIsland i c).island i = .restarting := by
  cases i <;> exact setIsland_island _ _ _

@[simp] theorem mbxDown_mram (ps : List Nat) : (mbxDown ps c).mems.mram = c.mems.mram := by rw [mbxDown_mems]

/-- A restart keeps MRAM (R12, R180). -/
theorem restartIsland_mram (i : Island) : (restartIsland i c).mems.mram = c.mems.mram := by
  have hother : ((islandDown i c).setIsland i .restarting).mems.mram = c.mems.mram := by simp
  cases i
  case core => rfl
  case pcie => exact (islandDown_mram _ _).trans rfl
  all_goals exact hother

theorem coreRestart_mbx (a b : Nat) : (coreRestart a b c).mbx = Store.put .idle c.mbx 0 .idle := (rfl)

/-- The restart of an island that carries no mailbox of a path leaves that mailbox alone. -/
theorem restartIsland_mbxOf {i : Island} {p : Nat} (hp : i ≠ .pcie) (hc : i = .core → p ≠ 0) :
    (restartIsland i c).mbxOf p = c.mbxOf p := by
  by_cases h : i = .core
  · subst h
    rw [restartIsland, Chip.mbxOf, coreRestart_mbx, Store.get_put_ne _ _ _ _ _ _ (hc rfl), Chip.mbxOf]
  · have hmbx : ((islandDown i c).setIsland i .restarting).mbxOf p = c.mbxOf p := by
      rw [Chip.mbxOf, Chip.setIsland_mbx, islandDown_mbx c i h hp, Chip.mbxOf]
    cases i
    case core => exact absurd rfl h
    case pcie => exact absurd rfl hp
    all_goals exact hmbx

theorem mbxDown_idle (ps : List Nat) (p : Nat) (h : c.mbxOf p = .idle) : (mbxDown ps c).mbxOf p = .idle := by
  unfold mbxDown
  induction ps generalizing c with
  | nil => exact h
  | cons q ps ih =>
    refine ih _ ?_
    change Store.get Mbx.idle (Store.put Mbx.idle c.mbx q Mbx.idle) p = Mbx.idle
    rw [Store.get_put]
    split
    · rfl
    · exact h

/-- A mailbox that is idle stays so through every restart. -/
theorem restartIsland_idle (i : Island) (p : Nat) (h : c.mbxOf p = .idle) : (restartIsland i c).mbxOf p = .idle := by
  by_cases hp : i = .pcie
  · subst hp
    exact mbxDown_idle _ _ p h
  by_cases hc : i = .core → p ≠ 0
  · rw [restartIsland_mbxOf c hp hc, h]
  · have h0 : i = .core ∧ p = 0 := by simpa using hc
    rw [h0.1, h0.2]
    rw [restartIsland, Chip.mbxOf, coreRestart_mbx, Store.get_put_same]

/-! ### ISLAND_RESTART (R387) -/

theorem allIslands_num (i : Island) : allIslands[i.num]? = some i := by cases i <;> rfl

theorem wordInt_island (i : Island) : (Word.int (i.num : Int)).nat = i.num :=
  wordInt_small _ (by cases i <;> decide)

/-- A command that names an island which may restart stops it (R13). -/
theorem opIslandRestart_stops {p : Nat} {m : Mbx} {i : Island} (hs : m.steps = 0) (ha : argOf m.args 0 = .int i.num) (h1 : i ≠ .aon)
    (h2 : i ≠ .rtc) (h3 : i ≠ .evf) (hon : c.isOn i = true) : opIslandRestart p m c = (none, restartIsland i
      (if pathIsland p = some i then setMbx p .idle (setMbxStatus p ((c.mbxStatus p).withField 0 1 0) c)
        else setMbx p { m with steps := 1 } c)) := by
  have htag : (Word.int (i.num : Int)).tag = .int := rfl
  simp only [opIslandRestart, hs, ha, wordInt_island, allIslands_num, htag, h1, h2, h3, hon]
  split_ifs <;> simp_all

/-- What a command that waits for a restart answers as the island returns. -/
def restartRow (i : Island) (p : Nat) (c : Chip) : Chip :=
  mbxRow p 0x02 (fun m c => (if m.steps = 1 ∧ (argOf m.args 0).nat = i.num then some (.int 0, []) else none, c)) c

theorem restartEnds_rows (i : Island) : restartEnds i c = [0, 1, 2, 3, 4].foldl (fun c p => restartRow i p c) c := (rfl)

/-- Such an answer changes at most its own mailbox. -/
theorem restartRow_eq (i : Island) (p : Nat) : restartRow i p c = c ∨ ∃ m, restartRow i p c = setMbx p m c := by
  unfold restartRow mbxRow
  dsimp only
  split
  · next h =>
    simp only [Bool.and_eq_true, Option.isNone_iff_eq_none] at h
    obtain ⟨⟨hb, hr⟩, -⟩ := h
    split
    · next w ws d he =>
      have hd : d = c := (congrArg Prod.snd he).symm
      rw [hd, finishMbx_waits _ _ _ hb hr]
      exact .inr ⟨_, rfl⟩
    · next d he => exact .inl (congrArg Prod.snd he).symm
  · exact .inl rfl

theorem restartRow_islands (i : Island) (p : Nat) : (restartRow i p c).islands = c.islands := by
  rcases restartRow_eq c i p with h | ⟨m, h⟩ <;> rw [h]
  rfl

theorem restartRow_mbxOf_ne (i : Island) {p q : Nat} (h : q ≠ p) : (restartRow i p c).mbxOf q = c.mbxOf q := by
  rcases restartRow_eq c i p with he | ⟨m, he⟩ <;> rw [he]
  exact Store.get_put_ne Mbx.idle Mbx.idle _ _ _ _ h

theorem restartRow_waits {i : Island} {p : Nat} (hb : (c.mbxOf p).busy = true) (hr : (c.mbxOf p).result = none)
    (hc : (c.mbxOf p).code = 0x02) (hs : (c.mbxOf p).steps = 1) (ha : argOf (c.mbxOf p).args 0 = .int i.num) :
    ((restartRow i p c).mbxOf p).result = some [.int 0] := by
  rw [restartRow, mbxRow_waits c hb hr hc]
  simp only [hs, ha, wordInt_island, and_self, if_true]
  rw [finishMbx_waits _ _ _ hb hr, setMbx_mbxOf]

theorem foldl_restartRow_ne (i : Island) (ps : List Nat) {q : Nat} (h : q ∉ ps) :
    (ps.foldl (fun c p => restartRow i p c) c).mbxOf q = c.mbxOf q := by
  induction ps generalizing c with
  | nil => rfl
  | cons p ps ih =>
    rw [List.mem_cons, not_or] at h
    exact (ih _ h.2).trans (restartRow_mbxOf_ne c i h.1)

/-- The commands that wait for an island end with it; nothing but mailboxes changes. -/
theorem restartEnds_waits {i : Island} (p : Fin 5) (hb : (c.mbxOf p.val).busy = true) (hr : (c.mbxOf p.val).result = none)
    (hc : (c.mbxOf p.val).code = 0x02) (hs : (c.mbxOf p.val).steps = 1) (ha : argOf (c.mbxOf p.val).args 0 = .int i.num) :
    ((restartEnds i c).mbxOf p.val).result = some [.int 0] := by
  obtain ⟨ps, qs, hlist, hps, hqs⟩ : ∃ ps qs, [0, 1, 2, 3, 4] = ps ++ p.val :: qs ∧ p.val ∉ ps ∧ p.val ∉ qs := by
    match p with
    | 0 => exact ⟨[], [1, 2, 3, 4], by decide⟩
    | 1 => exact ⟨[0], [2, 3, 4], by decide⟩
    | 2 => exact ⟨[0, 1], [3, 4], by decide⟩
    | 3 => exact ⟨[0, 1, 2], [4], by decide⟩
    | 4 => exact ⟨[0, 1, 2, 3], [], by decide⟩
  have hkeep := foldl_restartRow_ne c i ps hps
  rw [restartEnds_rows, hlist, List.foldl_append, List.foldl_cons, foldl_restartRow_ne _ i qs hqs]
  exact restartRow_waits _ (by rw [hkeep]; exact hb) (by rw [hkeep]; exact hr) (by rw [hkeep]; exact hc) (by rw [hkeep]; exact hs)
    (by rw [hkeep]; exact ha)

theorem restartEnds_islands (i : Island) : (restartEnds i c).islands = c.islands :=
  foldl_same Chip.islands (fun c p => restartRow i p c) (fun d p => restartRow_islands d i p) _ c

/-- The scrub of a memory leaves the mailboxes alone. -/
theorem scrubWhere_mbx (sel : Nat → Bool) : (scrubWhere sel c).mbx = c.mbx := by
  refine foldl_same Chip.mbx _ (fun d e => ?_) _ c
  simp only [scrubPair]
  split
  · exact (readPair_keeps d _).2
  · exact (readPair_keeps d _).2

/-- TABLE SRAM comes back from a restart with its words scrubbed (R13, R169). -/
theorem islandBack_memT (found : Option (Nat × Nat)) (r0 r1 : Nat) (o : Store Nat) (h : c.island .memT = .restarting) :
    (islandBack .memT found r0 r1 o c).isOn .memT = true ∧ (islandBack .memT found r0 r1 o c).mbx = c.mbx := by
  have hup : ∀ d : Chip, islandUp o .memT d = d.setIsland .memT .on := fun d => by
    simp only [islandUp, Chip.setIsland_recipe]
    cases d.recipe <;> rfl
  have hscrub : (memoryScrubDone .memT c).mbx = c.mbx := by
    rw [memoryScrubDone, if_pos h]
    exact scrubWhere_mbx c _
  change (islandUp o .memT (memoryScrubDone .memT c)).isOn .memT = true ∧ (islandUp o .memT (memoryScrubDone .memT c)).mbx = _
  rw [hup]
  exact ⟨setIsland_isOn _ _ _, hscrub⟩

/-! ### The re-mash (R272, R273) -/

/-- A re-mash whose recipe passes its checks begins. -/
theorem opRemash_begins {path n k : Nat} {args : List Word} {old new : Recipe} {x : List Nat} {o : Store Nat} {c1 : Chip}
    (hold : c.recipe = some old) (hnone : c.remash = none) (hn : argOf args 1 = .int n) (h0 : 0 < n) (hmax : n ≤ 262144)
    (hk : argOf args 2 = .int k) (hwait : k ≤ 67108864) (hx : octets c (argOf args 0) n [0, 1, 2, 3] x c1)
    (hcheck : c1.checkRecipe o x = .ok new) (hfits : remashRefusal old new = none) :
    opRemash o path args c = (none, remashBegin path k old new c1) := by
  obtain ⟨hbuf, hread⟩ := hx
  have hnn : (Word.int (n : Int)).nat = n := wordInt_small n (by omega)
  have hkn : (Word.int (k : Int)).nat = k := wordInt_small k (by omega)
  have hlegal : ¬ ((Word.int (n : Int)).tag ≠ .int ∨ 262144 < n ∨ n = 0 ∨ (Word.int (k : Int)).tag ≠ .int ∨ 67108864 < k) := by
    simp only [Word.int, ne_eq, not_true_eq_false, false_or]
    omega
  simp only [opRemash, hold, hnone, Option.isSome_none, Bool.false_eq_true, if_false, hn, hk, hnn, hkn, if_neg hlegal, hbuf,
    Bool.not_true, hread, hcheck, hfits]

theorem runOp_remash {p : Nat} {w : Work} {o : Store Nat} (hc : w.code = 0x05) :
    runOp (.mbx p) w o c = runRemash (.mbx p) p w o c := by
  simp [runOp, hc, Chip.jobPath]

end Sys2Proof.Machine
end

section
namespace Sys2Proof
open Machine Safety

/-- Settles O37: island restarts and their ends by mailbox rows, DEVICE_RESET by the reset it is, and the re-mash through the
engine that verifies its recipe. -/
theorem restartAndRemash : Obligations.RestartAndRemash := by
  intro s p m
  refine ⟨fun hb hr hc hs => ⟨fun i h1 h2 h3 h4 ha hon hp => ?_, fun i h1 h2 h3 ha hon hp => ?_, fun ha => ?_⟩,
    fun found r0 r1 hi hb hr hc hs ha => ?_, fun hb hr hc => ⟨fun ha hd => ?_, fun ha hburn => ?_⟩,
    fun old new w n k x c1 hnext hold hnone hn h0 hmax hk hwait hx hcheck hfits => ?_,
    fun r n g rest hr htodo hon hhold hg => ?_, fun r n g rest hr htodo hq hg hst => ?_⟩
  · have hrow := (mbxRow_waits s.chip (g := opIslandRestart p.val) hb hr hc).trans
      (by rw [opIslandRestart_stops s.chip hs ha h1 h2 h3 hon, if_neg hp])
    refine ⟨_, next_chip hrow, restartIsland_island _ _, ?_, rfl, restartIsland_mram _ _⟩
    dsimp only
    rw [restartIsland_mbxOf _ h4 (fun hcore h => hp (by rw [hcore, h]; rfl)), setMbx_mbxOf]
  · have hrow := (mbxRow_waits s.chip (g := opIslandRestart p.val) hb hr hc).trans
      (by rw [opIslandRestart_stops s.chip hs ha h1 h2 h3 hon, if_pos hp])
    refine ⟨_, next_chip hrow, restartIsland_island _ _, ?_⟩
    dsimp only
    rw [restartIsland_idle _ _ _ (setMbx_mbxOf _ _ _)]
    rfl
  · have hbad : opIslandRestart p.val m s.chip = (some (refused .badArg, []), s.chip) := by
      simp [opIslandRestart, hs, ha, Word.int, allIslands, Word.nat]
    have hrow := mbxRow_waits s.chip (g := opIslandRestart p.val) hb hr hc
    rw [hbad] at hrow
    exact next_chip (hrow.trans (finishMbx_waits _ _ _ hb hr))
  · obtain ⟨hon, hmbx⟩ := islandBack_memT s.chip (found.map fun f => (f.size.val, f.rate.val)) r0.val r1.val s.otp hi
    have hof : (islandBack .memT (found.map fun f => (f.size.val, f.rate.val)) r0.val r1.val s.otp s.chip).mbxOf p.val = m := by
      rw [Chip.mbxOf, hmbx]
      rfl
    have hrow : islandRestartDone .memT (found.map fun f => (f.size.val, f.rate.val)) r0.val r1.val s.otp s.chip =
      restartEnds .memT (islandBack .memT (found.map fun f => (f.size.val, f.rate.val)) r0.val r1.val s.otp s.chip) := if_pos hi
    refine ⟨_, next_chip hrow, ?_, ?_⟩ <;> dsimp only
    · rw [Chip.isOn_islands, restartEnds_islands]
      exact hon
    · exact restartEnds_waits _ p (by rw [hof]; exact hb) (by rw [hof]; exact hr) (by rw [hof]; exact hc) (by rw [hof]; exact hs)
        (by rw [hof]; exact ha)
  · have hrow : deviceResetCommand p.val s.otp s.chip = deviceReset (some causePin) false s.chip := by
      rw [deviceResetCommand, mbxRow_waits s.chip hb hr hc, if_pos ha, resetDevice_live _ _ _ _ hd]
    refine ⟨settled s (deviceReset (some causePin) false s.chip), ?_, ?_⟩
    · rw [← hrow]
      rfl
    · rw [settled_dev, settled_core, deviceReset_core, Chip.regN, settled_reg]
      exact ⟨deviceReset_dev _ _ _, rfl, deviceReset_cause _ _ _ (by decide)⟩
  · have hrow : deviceResetCommand p.val s.otp s.chip = setMbx p.val { m with result := some [refused .badArg] } s.chip := by
      rw [deviceResetCommand, mbxRow_waits s.chip hb hr hc, if_neg ha]
      exact finishMbx_waits _ _ _ hb hr
    have hset := settled_self { s with chip := setMbx p.val { m with result := some [refused .badArg] } s.chip } hburn
    refine Eq.trans ?_ (congrArg Host.Outcome.next hset)
    rw [← hrow]
    rfl
  · obtain ⟨tk, mbx, free, hbegun⟩ := opBegun_eq s.chip (.mailbox p) w
    have hrun := opRemash_begins (opBegun (.mailbox p) w s.chip) (path := p.val) (by rw [hbegun]; exact hold) (by rw [hbegun]; exact hnone) hn h0 hmax hk hwait hx hcheck
      hfits
    refine opRow_plain_waits hnext (by decide) ?_
    refine (runOp_remash _ hnext.2.2).trans ?_
    simp only [runRemash, hrun]
  · refine next_chip ?_
    simp only [remashLane, hr, htodo, hon, hhold, if_pos hg, Bool.not_true, Bool.false_eq_true, if_false]
  · refine next_chip ?_
    simp only [quiesceExpiry, hr, htodo, hq, hst, hg, true_and, or_true, if_true]

end Sys2Proof
end

section
/-! SUPPORT. The PCIe doorbell of a chip held in reset (R12, R339, R393). -/

namespace Sys2Proof.Machine

/-- A chip held in reset discards a write of HOST_DOORBELL_IN (R12, R339; log entry 20). -/
theorem heldReset_doorbell : ∃ u, exec (.hostDoorbellIn 1#36) heldReset = .next u ∧ u.chip.regN Reg.HOST_DOORBELL_IN = 0 :=
  ⟨_, rfl, by decide +kernel⟩

end Sys2Proof.Machine
end

section
namespace Sys2Proof
open Machine

/-- Refutes O39: a device held in reset serves no register (R339) and discards a host's write of its doorbell, where the statement,
which asks only for the PCIe island and a power state other than Small Hours, promises that the register keeps it. -/
theorem not_pcieHost : ¬ Obligations.PcieHost := by
  unfold Obligations.PcieHost
  intro h
  obtain ⟨-, -, -, -, hbell, -⟩ := h heldReset
  obtain ⟨u, hu, hzero⟩ := heldReset_doorbell
  obtain ⟨t, ht, hkept, -⟩ := hbell 1#36 (by decide +kernel) (by decide +kernel)
  rw [hu] at ht
  cases ht
  rw [hzero] at hkept
  exact absurd hkept (by decide)

end Sys2Proof
end

section
/-! SUPPORT. The quad SPI target and UART0 (R394, R395), and what a word read may change. -/

namespace Sys2Proof.Machine

/-! ### What a read may change -/

/-- A step that changes at most registers and their shadows, events, check units, memories and free values. -/
def Reads (c d : Chip) : Prop :=
  ∃ free regs shadows fab chk mems, d = { c with free := free, regs := regs, shadows := shadows, fab := fab, chk := chk, mems := mems }

namespace Reads
variable {c d e : Chip}

theorem refl (c : Chip) : Reads c c := ⟨_, _, _, _, _, _, rfl⟩

theorem trans (h : Reads c d) (h' : Reads d e) : Reads c e := by
  obtain ⟨n, r, s, f, k, m, rfl⟩ := h
  obtain ⟨n', r', s', f', k', m', rfl⟩ := h'
  exact ⟨n', r', s', f', k', m', rfl⟩

theorem uart (h : Reads c d) : d.uart = c.uart := by
  obtain ⟨n, r, s, f, k, m, rfl⟩ := h
  rfl

theorem gang (h : Reads c d) : d.gang = c.gang := by
  obtain ⟨n, r, s, f, k, m, rfl⟩ := h
  rfl

/-- A step that writes registers. -/
theorem touched {P : Nat → Prop} (h : Reads c d) (ht : Touches P d e) : Reads c e := by
  obtain ⟨r, f, k, rfl, -⟩ := ht
  exact h.trans ⟨_, _, _, _, _, _, rfl⟩

theorem bump {x : Field} (h : Reads c d) : Reads c (d.bump x) := h.touched ((Touches.refl (fun _ => True) d).bump trivial)

theorem raise {b : Block} {k : Nat} (h : Reads c d) : Reads c (d.raise b k) :=
  h.touched ((Touches.refl (fun _ => True) d).raise trivial)

theorem onMems {g : Mems → Mems} (h : Reads c d) : Reads c (d.onMems g) := h.trans ⟨_, _, _, _, _, _, rfl⟩

/-- A read that takes one of two ways. -/
theorem either {α : Type} {t : Prop} [Decidable t] {x y : α × Chip} (hx : Reads c x.2) (hy : Reads c y.2) :
    Reads c (if t then x else y).2 := by
  split
  · exact hx
  · exact hy

end Reads

section Words
variable (c : Chip)

theorem reportPoison_touches (p : Nat) : Touches (fun _ => True) c (reportPoison p c) :=
  ((((Touches.refl _ c).bump trivial).setRegN trivial).setReg trivial).raise trivial

theorem readPair_reads (p : Nat) : Reads c (readPair p c).2 := by
  simp only [readPair]
  split
  · exact .refl c
  · exact (Reads.refl c).bump
  · have hstore : Reads c (storePair (evenOf p) .poisoned .poisoned c) := ⟨_, _, _, _, _, _, rfl⟩
    exact hstore.touched (reportPoison_touches _ _)

theorem readMem_reads (p : Nat) : Reads c (readMem p c).2 := by
  unfold readMem
  split
  · exact .refl c
  · exact .refl c
  · split
    · unfold readMram
      split
      · exact .refl c
      · split
        · exact .refl c
        · exact (Reads.refl c).bump
        · exact (Reads.refl c).bump
        · exact (Reads.refl c).bump
    · exact readPair_reads c p

theorem portNote_reads (x : DpPort) (rs : List Nat) (ws : List (Nat × Word × Word)) : Reads c (portNote x rs ws c) := by
  cases x <;> exact ⟨_, _, _, _, _, _, rfl⟩

theorem sameCycle_reads (u : PortUse) (k : Nat) (x : Field) : Reads c (sameCycle u k x c).2 := by
  have hfree : Reads c (takeFree 4 c).2 := ⟨_, _, _, _, _, _, rfl⟩
  unfold sameCycle
  split
  · exact .refl c
  · dsimp only
    split
    · exact hfree
    · split
      · exact hfree.bump
      · exact hfree

theorem portsMeet_reads (a b : List (Nat × Word)) : Reads c (portsMeet a b c) := by
  unfold portsMeet
  split
  · exact (Reads.trans ⟨_, _, _, _, _, _, rfl⟩ (Reads.refl _).bump).raise
  · split
    · exact .refl c
    · exact (Reads.refl c).bump.bump

theorem portRead_reads (x : DpPort) (p : Nat) (ws : List Word) : Reads c (portRead x p ws c).2 := by
  unfold portRead
  split
  · exact .refl c
  · have hcycle := (portNote_reads c x [evenOf p] []).trans (sameCycle_reads _ (c.portUse x.other) (evenOf p) x.waits)
    dsimp only
    split
    · exact hcycle.trans (portsMeet_reads _ _ _)
    · exact hcycle

theorem readWordBy_reads (x : DpPort) (p : Nat) : Reads c (readWordBy x p c).2 :=
  (readMem_reads c p).trans (portRead_reads _ _ _ _)

theorem latchShadow_reads (who a : Nat) (w : Word) : Reads c (latchShadow who a w c) := ⟨_, _, _, _, _, _, rfl⟩

theorem readShadow_reads (who a : Nat) (live : Word) : Reads c (readShadow who a live c).2 := by
  unfold readShadow
  dsimp only
  split
  · exact .refl c
  · exact latchShadow_reads c _ _ _

theorem readCount_reads (who t : Nat) : Reads c (readCount who t c).2 := by
  unfold readCount
  dsimp only
  split
  · exact readShadow_reads c _ _ _
  · split
    · exact latchShadow_reads c _ _ _
    · exact .refl c

theorem readConflict_reads (m : Nat) : Reads c (readConflict m c).2 := by
  have hwaits : ∀ (d : Chip) space x, Reads d (bankWaits m space x d) := fun d space x => by
    unfold bankWaits
    split
    · exact .refl d
    · exact ⟨_, _, _, _, _, _, rfl⟩
  exact (hwaits c _ _).trans (hwaits _ _ _)

theorem readServed_reads (who : Nat) (o : Store Nat) (a : Nat) : Reads c (readServed who o a c).2 := by
  unfold readServed
  split
  · exact .refl c
  · exact .refl c
  · have hsame : Reads c c := .refl c
    refine .either hsame (.either hsame (.either (latchShadow_reads c _ _ _) (.either (readShadow_reads c _ _ _) ?_)))
    refine .either ?_ (.either (readShadow_reads c _ _ _) (.either (readCount_reads c _ _) (.either hsame ?_)))
    · exact ((latchShadow_reads c _ _ _).trans (latchShadow_reads _ _ _ _)).trans (latchShadow_reads _ _ _ _)
    refine .either ?_ (.either hsame (.either (readConflict_reads c _) (.either hsame (.either hsame (.either hsame ?_)))))
    · exact hsame.touched ((Touches.refl (fun _ => True) c).setB trivial)
    exact .either hsame (.either hsame (.either hsame (.either hsame (.either hsame hsame))))

theorem readReg_reads (who : Nat) (o : Store Nat) (a : Nat) : Reads c (readReg who o a c).2 :=
  .either (.refl c) (.either (.refl c) (readServed_reads c who o a))

/-- A host's read of a word changes no more than that. -/
theorem hostRead_reads (p : Nat) (o : Store Nat) (sp a : Nat) : Reads c (hostRead p o sp a c).2 := by
  unfold hostRead
  split
  · exact .refl c
  · exact .either (readReg_reads c p o a) (readWordBy_reads c .a _)

theorem readSeen_reads (p sp : Nat) (w : Word) (last : Bool) : Reads c (readSeen p sp w last c) := by
  unfold readSeen
  split
  · exact ((Reads.refl c).touched (chkStream_touches c _ _ _ _)).touched (dmaSeen_touches _ _ _ _ _)
  · exact (Reads.refl c).touched (dmaSeen_touches _ _ _ _ _)

end Words

/-! ### Quad SPI (R394) -/

section Slots
variable (c : Chip)

theorem qspiReads_one (o : Store Nat) (sp a : Nat) (late : Bool) : qspiReads o sp a [late] c =
    let r := if late then (refused .busy, c) else hostRead 2 o sp (a % 2 ^ 32) c
    ([r.1], readSeen 2 sp r.1 true r.2) := (rfl)

theorem qspiRead_one {op sp a : Nat} {late : Bool} {o : Store Nat} (h : c.pathServed 2 = true) (hop : op = 0x0B ∨ op = 0xEB) :
    qspiRead op sp a [late] o c =
    let r := if late then (refused .busy, c) else hostRead 2 o sp (a % 2 ^ 32) c
    (readSeen 2 sp r.1 true r.2).reply [r.1] := by
  have hserved : (c.pathServed 2 && (op == 0x0B || op == 0xEB)) = true := by simp [h, hop]
  rw [qspiRead, if_pos hserved, qspiReads_one]

theorem qspiWrite_one {op sp a : Nat} {x : SlotWrite} (h : c.pathServed 2 = true) (hop : op = 0x02 ∨ op = 0x38) :
    qspiWrite op sp a [x] c = { (hostWrite sp a x (writeSeen 2 x true c)).2 with qspiReject := (hostWrite sp a x (writeSeen 2 x true c)).1 } := by
  have hserved : (c.pathServed 2 && (op == 0x02 || op == 0x38) && ! [x].isEmpty) = true := by simp [h, hop]
  rw [qspiWrite, if_pos hserved]
  rfl

/-! ### UART0 (R395) -/

/-- A receiver that hunts takes a whole frame. -/
theorem uartTake_frame {xs : List Nat} {n : Nat} (hidle : c.uart.bytes = none) (hl : uartLength (xs.headD 0) xs = some n)
    (hn : xs.length = n) : uartTake (0x7E :: xs) c = (some xs, { c with uart := { bytes := none, at_ := c.now } }) := by
  have hhunt : uartHunt (0x7E :: xs) = some xs := rfl
  have hdrop : uartHunt (xs.drop n) = none := by rw [← hn, List.drop_length]; rfl
  simp only [uartTake, hidle, hhunt, hl, hn, le_refl, if_true, hdrop]
  rw [← hn, List.take_length]

theorem replyOctets_uart (bs : List Nat) : (c.replyOctets bs).uart = c.uart := (rfl)

/-- It holds a frame that has been opened. -/
theorem uartTake_opened (hidle : c.uart.bytes = none) :
    uartTake [0x7E, 1] c = (none, { c with uart := { bytes := some [1], at_ := c.now } }) := by
  simp only [uartTake, hidle]
  rfl

theorem uartLength_read {xs : List Nat} (h : xs.length = 9) (h1 : xs.headD 0 = 1) : uartLength (xs.headD 0) xs = some 9 := by
  have hcount : xs[6]? = some xs[6] := List.getElem?_eq_getElem (by omega)
  rw [h1, uartLength, hcount]
  rfl

theorem uartLength_write {xs : List Nat} (h : xs.length = 17) (h2 : xs.headD 0 = 2) (h1 : xs.getD 6 0 = 1) :
    uartLength (xs.headD 0) xs = some 17 := by
  have hcount : xs[6]? = some xs[6] := List.getElem?_eq_getElem (by omega)
  rw [List.getD, hcount] at h1
  have hone : xs[6] = 1 := h1
  rw [h2, uartLength, hcount, hone]
  rfl

/-- Bytes that end no frame are held. -/
theorem uartRead_held {bs : List Nat} {c1 : Chip} {o : Store Nat} (h : c.pathServed 3 = true) (ht : uartTake bs c = (none, c1)) :
    uartRead bs o c = c1 := by
  simp [uartRead, h, ht]

/-- A read request of one word is answered by a reply frame. -/
theorem uartRead_one {bs xs : List Nat} {sp a : Nat} {d : List Nat} {c1 : Chip} {o : Store Nat} (h : c.pathServed 3 = true)
    (ht : uartTake bs c = (some xs, c1)) (hf : uartFrame xs = some (sp, a, 1, d)) (hop : xs.headD 0 = 1) : uartRead bs o c =
    (readSeen 3 sp (hostRead 3 o sp a c1).1 true (hostRead 3 o sp a c1).2).replyOctets
      (uartReply 0x81 sp a 1 [(hostRead 3 o sp a c1).1]) := by
  simp only [uartRead, h, ht, hf, hop, Bool.not_true, Bool.false_eq_true, if_false, if_true]
  rfl

/-- A write request of one slot is applied and answered. -/
theorem uartWrite_one {bs xs : List Nat} {sp a : Nat} {d : List Nat} {c1 : Chip} (h : c.pathServed 3 = true)
    (ht : uartTake bs c = (some xs, c1)) (hf : uartFrame xs = some (sp, a, 1, d)) (hop : xs.headD 0 = 2) : uartWrite bs c =
    ((hostWrite sp a (slotOfBytes d) c1).2).replyOctets (uartReply 0x82 sp a 1 []) := by
  simp only [uartWrite, h, ht, hf, hop, Bool.not_true, Bool.false_eq_true, if_false, if_true]
  rfl

end Slots

end Sys2Proof.Machine
end

section
namespace Sys2Proof
open Machine Safety

/-- Settles O40: one slot of the quad SPI and one whole frame of UART0 are one word access each, and the rest is what the
receiver holds. -/
theorem serialHosts : Obligations.SerialHosts := by
  intro s
  refine ⟨fun op sp a h2 => ⟨fun hop => ⟨?_, ?_⟩, fun x hop => ?_⟩, fun h2 => ?_, fun body sp a h3 hidle => ?_,
    fun body sp a d h3 hidle => ?_, fun h3 hidle => ?_, fun bs hb hdue => ?_⟩
  · have hop' : op.toNat = 0x0B ∨ op.toNat = 0xEB := hop.imp (congrArg BitVec.toNat) (congrArg BitVec.toNat)
    have hone := qspiRead_one s.chip (sp := sp.toNat) (a := a.toNat) (late := false) (o := s.otp) h2 hop'
    rw [if_neg Bool.false_ne_true, Nat.mod_eq_of_lt a.isLt] at hone
    exact next_chip hone
  · have hop' : op.toNat = 0x0B ∨ op.toNat = 0xEB := hop.imp (congrArg BitVec.toNat) (congrArg BitVec.toNat)
    exact next_chip (qspiRead_one s.chip (sp := sp.toNat) (a := a.toNat) (late := true) (o := s.otp) h2 hop')
  · have hop' : op.toNat = 0x02 ∨ op.toNat = 0x38 := hop.imp (congrArg BitVec.toNat) (congrArg BitVec.toNat)
    exact next_chip (qspiWrite_one s.chip h2 hop')
  · exact next_chip (if_pos h2)
  · intro bs hlen hop hframe
    have htake := uartTake_frame s.chip hidle (uartLength_read hlen hop) hlen
    refine ⟨_, next_chip (uartRead_one s.chip h3 htake hframe hop), ?_, rfl⟩
    dsimp only
    rw [replyOctets_uart, (readSeen_reads _ _ _ _ _).uart, (hostRead_reads _ _ _ _ _).uart]
  · intro bs hlen hop hcount hframe
    have htake := uartTake_frame s.chip hidle (uartLength_write hlen hop hcount) hlen
    exact next_chip (uartWrite_one s.chip h3 htake hframe hop)
  · refine next_chip ?_
    exact uartRead_held s.chip h3 (uartTake_opened s.chip hidle)
  · refine next_chip (if_pos ?_)
    simp [hb, hdue]

end Sys2Proof
end

section
/-! SUPPORT. Frames of the chain: what becomes of one that arrives, and the registers that the ring and its members write (R398 to
R405). -/

namespace Sys2Proof.Machine

/-! ### A frame arrives (R398, R400) -/

namespace Touches
variable {P : Nat → Prop} {c d : Chip}

theorem pins (h : Touches P c d) : d.pins = c.pins := by
  obtain ⟨r, f, k, rfl, -⟩ := h
  rfl

theorem gang (h : Touches P c d) : d.gang = c.gang := by
  obtain ⟨r, f, k, rfl, -⟩ := h
  rfl

theorem isHead (h : Touches P c d) : d.isHead = c.isHead := by
  rw [Chip.isHead, Chip.isHead, Chip.pin, Chip.pin, h.pins]

theorem isChip (h : Touches P c d) (hP : ¬ P Reg.SYS_STATE) (n : Nat) : d.isChip n = c.isChip n := by
  rw [Chip.isChip, Chip.isChip, Chip.chipNumber, Chip.chipNumber, h.f hP, h.isHead, h.gang]

theorem frameSeen (h : Touches P c d) (x : FrameHead) : d.frameSeen x = c.frameSeen x := by
  rw [Chip.frameSeen, Chip.frameSeen, h.gang]

end Touches

variable (c : Chip)

theorem arrivesAt_touches (h : FrameHead) (type op : Nat) (ws : List Word) : Touches chkReg c (arrivesAt h type op ws c) := by
  unfold arrivesAt
  split
  · exact .refl _ c
  · exact chkStream_touches c _ _ _ _

section Arrive
variable {c} {h : FrameHead} (type op : Nat) (ws : List Word) (act : Chip → Chip) (hon : c.isOn .chain = true)
  (hh : h.hops.toNat ≠ 127)
include hon hh

/-- A broadcast of another chip that has not been seen is acted on and passes on. -/
theorem arrive_acts (hb : h.bcast = true) (hsrc : c.isChip h.src.toNat = false) (hseen : c.frameSeen h = false) :
    arrive h type op ws act c = forwardFrame h type op ws (act (noteSeen h (arrivesAt h type op ws c))) := by
  have ht := arrivesAt_touches c h type op ws
  have hround : (arrivesAt h type op ws c).comeRound h = false := by
    rw [Chip.comeRound, ht.isChip (by decide), hsrc, Bool.false_and]
  simp [arrive, consume, ht.isOn, hon, hh, hb, hround, ht.frameSeen, hseen, ht.isChip (show ¬ chkReg Reg.SYS_STATE by decide), hsrc]

/-- One of this chip is removed when it would go out forward once more. -/
theorem arrive_removed (hb : h.bcast = true) (hsrc : c.isChip h.src.toNat = true) (hfwd : h.back = false) :
    arrive h type op ws act c = arrivesAt h type op ws c := by
  have ht := arrivesAt_touches c h type op ws
  have hround : (arrivesAt h type op ws c).comeRound h = true := by
    rw [Chip.comeRound, ht.isChip (by decide), hsrc, hfwd]
    rfl
  simp [arrive, consume, ht.isOn, hon, hh, hb, hround]

/-- On its way back through a fold it passes its source. -/
theorem arrive_returns (hb : h.bcast = true) (hsrc : c.isChip h.src.toNat = true) (hback : h.back = true)
    (hrate : c.f Fld.HOST_CHAIN_STATUS_RATE_0 ≠ 0) :
    arrive h type op ws act c = forwardFrame h type op ws (arrivesAt h type op ws c) := by
  have ht := arrivesAt_touches c h type op ws
  have hround : (arrivesAt h type op ws c).comeRound h = false := by
    rw [Chip.comeRound, ht.isChip (by decide), hsrc, hback, ht.f (by decide)]
    simpa using hrate
  simp [arrive, consume, ht.isOn, hon, hh, hb, hround, ht.isChip (show ¬ chkReg Reg.SYS_STATE by decide), hsrc]

/-- A unicast is consumed by its destination. -/
theorem arrive_consumed (hb : h.bcast = false) (hdst : c.isChip h.dst.toNat = true) :
    arrive h type op ws act c = act (arrivesAt h type op ws c) := by
  have ht := arrivesAt_touches c h type op ws
  simp [arrive, consume, ht.isOn, hon, hh, hb, ht.isChip (show ¬ chkReg Reg.SYS_STATE by decide), hdst]

/-- Another passes on. -/
theorem arrive_passes (hb : h.bcast = false) (hdst : c.isChip h.dst.toNat = false) :
    arrive h type op ws act c = forwardFrame h type op ws (arrivesAt h type op ws c) := by
  have ht := arrivesAt_touches c h type op ws
  simp [arrive, consume, ht.isOn, hon, hh, hb, ht.isChip (show ¬ chkReg Reg.SYS_STATE by decide), hdst]

end Arrive

/-- A frame of this chip (R398). -/
def ownFrame (type : Nat) (bcast : Bool) (dst op : Nat) (ws : List Word) (c : Chip) : ChainFrame :=
  { type := type, bcast := bcast, dst := dst, src := c.chipNumber, hops := 1, seq := c.gang.seq, op := op, words := ws, back := false, own := true }

theorem sendFrame_gang (type : Nat) (bcast : Bool) (dst op : Nat) (ws : List Word) : (sendFrame type bcast dst op ws c).gang =
    { c.gang with seq := (c.gang.seq + 1) % 256, waiting := c.gang.waiting ++ [ownFrame type bcast dst op ws c] } := (rfl)

theorem sendFrame_isHead (type : Nat) (bcast : Bool) (dst op : Nat) (ws : List Word) :
    (sendFrame type bcast dst op ws c).isHead = c.isHead := (rfl)

/-- A frame that passes on, with one more hop. -/
def passedOn (h : FrameHead) (type op : Nat) (ws : List Word) : ChainFrame := { headFrame h type op ws with hops := h.hops.toNat + 1 }

theorem forwardFrame_gang (h : FrameHead) (type op : Nat) (ws : List Word) :
    (forwardFrame h type op ws c).gang = { c.gang with waiting := c.gang.waiting ++ [passedOn h type op ws] } := (rfl)

theorem noteSeen_gang (h : FrameHead) : ∃ seen, (noteSeen h c).gang = { c.gang with seen := seen } := ⟨_, rfl⟩

@[simp] theorem forwardFrame_regs (h : FrameHead) (type op : Nat) (ws : List Word) : (forwardFrame h type op ws c).regs = c.regs := (rfl)

@[simp] theorem noteSeen_regs (h : FrameHead) : (noteSeen h c).regs = c.regs := (rfl)

/-- A broadcast that has been acted on is known. -/
theorem noteSeen_seen (h : FrameHead) : (noteSeen h c).frameSeen h = true := by
  simp [noteSeen, Chip.frameSeen, Chip.onGang]

/-! ### Breaks and folds (R402, R403) -/

/-- The known breaks, after one more or one less. -/
def breaksWith (n : Nat) (port broken : Bool) (c : Chip) : List (Nat × Bool) :=
  let rest := c.gang.breaks.filter (· != (n, port))
  if broken then rest ++ [(n, port)] else rest

theorem mem_breaksWith (n : Nat) (port : Bool) : (n, port) ∈ breaksWith n port true c := by simp [breaksWith]

theorem not_mem_breaksWith (n : Nat) (port : Bool) : (n, port) ∉ breaksWith n port false c := by simp [breaksWith]

theorem cutOff_congr {c d : Chip} (h : d.gang.breaks = c.gang.breaks) (k : Nat) : d.cutOff k = c.cutOff k := by
  rw [Chip.cutOff, Chip.cutOff, h]

theorem noteBreak_eq (n : Nat) (port broken : Bool) : noteBreak n port broken c =
    (c.onGang fun g => { g with breaks := breaksWith n port broken c }).setB Fld.HOST_CHAIN_STATUS_ISOLATED
      ((c.onGang fun g => { g with breaks := breaksWith n port broken c }).cutOff c.chipNumber) := (rfl)

theorem noteBreak_gang (n : Nat) (port broken : Bool) : (noteBreak n port broken c).gang =
    { c.gang with breaks := breaksWith n port broken c } := (rfl)

/-- ISOLATED follows the breaks that a chip knows of. -/
theorem noteBreak_isolated (n : Nat) (port broken : Bool) : (noteBreak n port broken c).b Fld.HOST_CHAIN_STATUS_ISOLATED =
    (noteBreak n port broken c).cutOff c.chipNumber := by
  rw [noteBreak_eq, Chip.b_setB _ _ _ rfl (by decide)]
  exact cutOff_congr rfl _

theorem noteBreak_f (n : Nat) (port broken : Bool) (x : Field) (h : x.reg ≠ Reg.HOST_CHAIN_STATUS ∨
    (x.lo + x.w ≤ 36 ∧ (x.lo + x.w ≤ Fld.HOST_CHAIN_STATUS_ISOLATED.lo ∨ Fld.HOST_CHAIN_STATUS_ISOLATED.lo + 1 ≤ x.lo))) :
    (noteBreak n port broken c).f x = c.f x := by
  rw [noteBreak_eq, Chip.f_regs, Chip.setB_regs, regF_putF_ne _ _ _ _ h]
  rfl

/-- What raising RING_BREAK writes beside the members. -/
theorem ringBroken_gang : (ringBroken c).gang = { c.gang with breakSeen := true } := by
  unfold ringBroken
  dsimp only
  split <;> simp [Chip.onGang]

theorem ringBroken_regs (x : Field) (h : x.reg ≠ Reg.HOST_INT_STATUS) (h' : x.reg ≠ Reg.MEM_MIRROR_STATUS) :
    (ringBroken c).f x = c.f x := by
  have hraise : regF (c.raise .host 3).regs x = regF c.regs x := by
    rw [Chip.raise_regs_put, regF_putF_ne _ _ _ _ (.inl h)]
  unfold ringBroken
  dsimp only
  split
  · rw [Chip.f_regs, Chip.setB_regs, regF_putF_ne _ _ _ _ (.inl h')]
    exact hraise
  · exact hraise

theorem ringBroken_flag : (ringBroken c).b ⟨Reg.HOST_INT_STATUS, 3, 1⟩ = true := by
  have hraise : regF (c.raise .host 3).regs ⟨Reg.HOST_INT_STATUS, 3, 1⟩ = 1 := by
    rw [Chip.raise_regs_put]
    exact regF_putF _ ⟨Reg.HOST_INT_STATUS, 3, 1⟩ 1 (by decide)
  unfold ringBroken
  dsimp only
  split
  · rw [Chip.b_regs, Chip.setB_regs, regF_putF_ne _ _ _ _ (.inl (by decide))]
    exact beq_iff_eq.mpr hraise
  · rw [Chip.b_regs]
    exact beq_iff_eq.mpr hraise

theorem ringMended_regs : (ringMended c).regs = putF c.regs ⟨Reg.HOST_INT_STATUS, 4, 1⟩ 1 := by
  unfold ringMended
  dsimp only
  split
  · rw [Chip.onGang_regs, Chip.raise_regs_put, Block.host_status]
  · rw [Chip.raise_regs_put, Block.host_status]

theorem ringMended_gang : (ringMended c).gang = if c.isHead then { c.gang with enumAt := some c.now } else c.gang := by
  have hhead : (c.raise .host 4).isHead = c.isHead := by simp [Chip.isHead, Chip.pin]
  simp only [ringMended, hhead]
  split <;> simp [Chip.onGang]

theorem ringMended_flag : (ringMended c).b ⟨Reg.HOST_INT_STATUS, 4, 1⟩ = true := by
  rw [Chip.b_regs, ringMended_regs, regF_putF _ _ _ (by decide)]
  rfl

theorem ringMended_f (x : Field) (h : x.reg ≠ Reg.HOST_INT_STATUS) : (ringMended c).f x = c.f x := by
  rw [Chip.f_regs, ringMended_regs, regF_putF_ne _ _ _ _ (.inl h), Chip.f_regs]

end Sys2Proof.Machine
end

section
/-! SUPPORT. The ring: numbering, breaks and the frames that leave (R400 to R403). -/

namespace Sys2Proof.Machine

variable (c : Chip)

/-! ### ENUM (R401) -/

theorem hostFeature_gang (r : Recipe) : (hostFeature r c).gang = c.gang := (rfl)

theorem hostFeature_regs (r : Recipe) : ∃ v, (hostFeature r c).regs = putN c.regs Reg.HOST_FEATURE v := ⟨_, rfl⟩

/-- A chip that has taken its number. -/
theorem takeNumber_reads (n : Nat) : (takeNumber n c).gang = { c.gang with numbered := true } ∧
    (takeNumber n c).f Fld.SYS_STATE_CHIP_NUMBER = n % 64 := by
  have hset : (c.setF Fld.SYS_STATE_CHIP_NUMBER n).f Fld.SYS_STATE_CHIP_NUMBER = n % 64 := Chip.f_setF _ _ _ (by decide)
  unfold takeNumber
  dsimp only
  split
  · next r _ =>
    split
    · refine ⟨hostFeature_gang _ r, ?_⟩
      obtain ⟨v, hv⟩ := hostFeature_regs ((c.setF Fld.SYS_STATE_CHIP_NUMBER n).onGang fun g => { g with numbered := true }) r
      rw [Chip.f_regs, hv, regF_putN_ne _ _ _ _ (by decide)]
      exact hset
    · exact ⟨rfl, hset⟩
  · exact ⟨rfl, hset⟩

section Enum
variable {c} {h : FrameHead} {w : Word} {own re : Bool} {d0 d1 : Nat} (hon : c.isOn .chain = true) (hh : h.hops.toNat ≠ 127)
include hon hh

/-- An ENUM on the backward lane passes on. -/
theorem enumArrives_back (hb : h.back = true) : enumArrives h w own re d0 d1 c = forwardFrame h 1 0 [w] (arrivesAt h 1 0 [w] c) := by
  simp [enumArrives, hon, hh, hb]

/-- One gives its number to a chip that has none, and passes on with the next. -/
theorem enumArrives_numbers {n : Nat} (hb : h.back = false) (hn : n < 64) (hhead : c.isHead = false) (hnone : c.gang.numbered = false) :
    enumArrives h (.int n) own re d0 d1 c = forwardFrame h 1 0 [.int (n + 1)]
      (takeNumber n ((arrivesAt h 1 0 [.int n] c).onGang fun g => { g with delay0 := d0, delay1 := d1 })) := by
  have hnat : (Word.int (n : Int)).nat = n := wordInt_small n (by omega)
  simp [enumArrives, hon, hh, hb, hhead, hnone, hnat, Nat.not_le.mpr hn]

/-- That of chip 0 comes back with the gang size. -/
theorem enumArrives_returned {n : Nat} (hb : h.back = false) (hn : n ≤ 64) (hhead : c.isHead = true) :
    enumArrives h (.int n) true re d0 d1 c =
      enumReturned n ((arrivesAt h 1 0 [.int n] c).onGang fun g => { g with delay0 := d0, delay1 := d1 }) := by
  have hnat : (Word.int (n : Int)).nat % 128 = n := by rw [wordInt_small n (by omega)]; omega
  simp [enumArrives, hon, hh, hb, hhead, hnat]

end Enum

/-- A GANG_ENUMERATE that waits ends with the gang size. -/
def endEnumerate (n : Nat) (p : Nat) (c : Chip) : Chip := if (c.mbxOf p).code = 0x08 then finishMbx p (.int n) [] c else c

theorem endEnumerate_eq (n p : Nat) : endEnumerate n p c = c ∨
    ((c.mbxOf p).result = none ∧ ∃ m, endEnumerate n p c = setMbx p m c) := by
  unfold endEnumerate finishMbx
  dsimp only
  split
  · split
    · next h =>
      simp only [Bool.and_eq_true, Option.isNone_iff_eq_none] at h
      exact .inr ⟨h.2, _, rfl⟩
    · exact .inl rfl
  · exact .inl rfl

theorem endEnumerate_keeps (n p : Nat) : (endEnumerate n p c).regs = c.regs ∧ (endEnumerate n p c).gang = c.gang := by
  rcases endEnumerate_eq c n p with h | ⟨-, m, h⟩ <;> rw [h] <;> exact ⟨rfl, rfl⟩

/-- A mailbox with a result keeps it, as does one of another path. -/
theorem endEnumerate_mbxOf {n p q : Nat} (h : q ≠ p ∨ (c.mbxOf q).result ≠ none) : (endEnumerate n p c).mbxOf q = c.mbxOf q := by
  rcases endEnumerate_eq c n p with he | ⟨hr, m, he⟩ <;> rw [he]
  by_cases hq : q = p
  · exact absurd (hq ▸ hr) (h.resolve_left (not_not_intro hq))
  · rw [setMbx, Chip.mbxOf, Store.get_put_ne _ _ _ _ _ _ hq, Chip.mbxOf]

theorem endEnumerates_done {n q : Nat} (ps : List Nat) (h : (c.mbxOf q).result ≠ none) :
    (ps.foldl (fun c p => endEnumerate n p c) c).mbxOf q = c.mbxOf q := by
  induction ps generalizing c with
  | nil => rfl
  | cons p ps ih =>
    have hkeep := endEnumerate_mbxOf c (n := n) (p := p) (.inr h)
    exact (ih _ (by rw [hkeep]; exact h)).trans hkeep

theorem endEnumerates_ends {n q : Nat} (ps : List Nat) (hq : q ∈ ps) (hb : (c.mbxOf q).busy = true) (hr : (c.mbxOf q).result = none)
    (hc : (c.mbxOf q).code = 0x08) : ((ps.foldl (fun c p => endEnumerate n p c) c).mbxOf q).result = some [.int n] := by
  induction ps generalizing c with
  | nil => simp at hq
  | cons p ps ih =>
    by_cases h : q = p
    · subst h
      have hend : endEnumerate n q c = setMbx q { (c.mbxOf q) with result := some [.int n] } c := by
        rw [endEnumerate, if_pos hc, finishMbx_waits _ _ _ hb hr]
      rw [List.foldl_cons, hend, endEnumerates_done _ _ (by simp), setMbx_mbxOf]
    · have hkeep := endEnumerate_mbxOf c (n := n) (p := p) (q := q) (.inl h)
      exact ih _ ((List.mem_cons.mp hq).resolve_left h) (by rw [hkeep]; exact hb) (by rw [hkeep]; exact hr) (by rw [hkeep]; exact hc)

/-- Chip 0 with the gang size, before the commands that asked for it end. -/
def enumSized (n size : Nat) (c : Chip) : Chip :=
  (((c.setF Fld.HOST_CHAIN_STATUS_GANG_SIZE n).setB Fld.HOST_CHAIN_STATUS_SIZE_MISMATCH (n != size)).setB
    Fld.HOST_CHAIN_STATUS_SYNCED true).onGang fun g => { g with enumAt := none, numbered := true, enumPaths := [] }

theorem enumReturned_eq (n : Nat) : enumReturned n c =
    c.gang.enumPaths.foldl (fun c p => endEnumerate n p c) (enumSized n ((c.recipe.map fun r => r.gangSize).getD 0) c) := (rfl)

theorem enumSized_mbxOf (n size q : Nat) : (enumSized n size c).mbxOf q = c.mbxOf q := by
  rw [Chip.mbxOf, enumSized, Chip.onGang_mbx, Chip.setB_mbx, Chip.setB_mbx, Chip.setF_mbx, Chip.mbxOf]

theorem enumSized_reads {n : Nat} (size : Nat) (hn : n < 128) :
    (enumSized n size c).f Fld.HOST_CHAIN_STATUS_GANG_SIZE = n ∧
    (enumSized n size c).b Fld.HOST_CHAIN_STATUS_SIZE_MISMATCH = (n != size) := by
  simp (disch := decide) only [enumSized, Chip.f_regs, Chip.b_regs, Chip.onGang_regs, Chip.setB_regs, Chip.setF_regs, regF_putF_ne,
    regF_putF]
  refine ⟨Nat.mod_eq_of_lt hn, ?_⟩
  cases n != size <;> rfl

theorem enumSized_gang (n size : Nat) :
    (enumSized n size c).gang = { c.gang with enumAt := none, numbered := true, enumPaths := [] } := (rfl)

/-- What chip 0 knows once its ENUM has come back. -/
theorem enumReturned_reads {n : Nat} (hn : n < 128) {r : Recipe} (hr : c.recipe = some r) : let d := enumReturned n c
    d.f Fld.HOST_CHAIN_STATUS_GANG_SIZE = n ∧ d.b Fld.HOST_CHAIN_STATUS_SIZE_MISMATCH = (n != r.gangSize) ∧
    d.gang = { c.gang with enumAt := none, numbered := true, enumPaths := [] } ∧
    ∀ q, q ∈ c.gang.enumPaths → (c.mbxOf q).busy = true → (c.mbxOf q).result = none → (c.mbxOf q).code = 0x08 →
      (d.mbxOf q).result = some [.int n] := by
  have heq : enumReturned n c = c.gang.enumPaths.foldl (fun c p => endEnumerate n p c) (enumSized n r.gangSize c) := by
    rw [enumReturned_eq, hr]
    rfl
  have hregs : (enumReturned n c).regs = (enumSized n r.gangSize c).regs := by
    rw [heq]
    exact foldl_same Chip.regs (fun c p => endEnumerate n p c) (fun d p => (endEnumerate_keeps d n p).1) _ _
  have hgang : (enumReturned n c).gang = (enumSized n r.gangSize c).gang := by
    rw [heq]
    exact foldl_same Chip.gang (fun c p => endEnumerate n p c) (fun d p => (endEnumerate_keeps d n p).2) _ _
  obtain ⟨hsize, hmis⟩ := enumSized_reads c r.gangSize hn
  refine ⟨?_, ?_, hgang.trans (enumSized_gang c _ _), fun q hq hb hres hc => ?_⟩
  · rw [Chip.f_regs, hregs, ← Chip.f_regs, hsize]
  · rw [Chip.b_regs, hregs, ← Chip.b_regs, hmis]
  · rw [heq]
    have hmbx := enumSized_mbxOf c n r.gangSize q
    exact endEnumerates_ends _ _ hq (by rw [hmbx]; exact hb) (by rw [hmbx]; exact hres) (by rw [hmbx]; exact hc)

/-! ### Breaks (R402, R403) -/

theorem ringBroken_b (x : Field) (h : x.reg ≠ Reg.HOST_INT_STATUS) (h' : x.reg ≠ Reg.MEM_MIRROR_STATUS) :
    (ringBroken c).b x = c.b x := by
  rw [Chip.b, ringBroken_regs c x h h', Chip.b]

theorem noteBreak_isHead (n : Nat) (port broken : Bool) : (noteBreak n port broken c).isHead = c.isHead := (rfl)
theorem noteBreak_now (n : Nat) (port broken : Bool) : (noteBreak n port broken c).now = c.now := (rfl)
theorem noteSeen_isHead (h : FrameHead) : (noteSeen h c).isHead = c.isHead := (rfl)
theorem noteSeen_now (h : FrameHead) : (noteSeen h c).now = c.now := (rfl)

/-- A port that went silent, before the others hear of it (R402). -/
def folded (port : Bool) (lost : Nat) (c : Chip) : Chip :=
  retrainLater port (((c.setF (portRate port) 0).setB Fld.HOST_CHAIN_STATUS_FOLDED true).bumpBy Fld.HOST_CHAIN_COUNTS_LOST_FRAMES lost)

theorem folded_reads (port : Bool) (lost : Nat) : let d := folded port lost c
    d.f (portRate port) = 0 ∧ d.b Fld.HOST_CHAIN_STATUS_FOLDED = true ∧ d.chipNumber = c.chipNumber := by
  cases port <;>
    simp (disch := decide) only [folded, retrainLater, Chip.bumpBy, portRate, Chip.chipNumber, Chip.f_regs, Chip.b_regs, Chip.onGang_regs,
      Chip.setF_regs, Chip.setB_regs, regF_putF_ne, regF_putF] <;> decide

theorem portRate_reg (port : Bool) : (portRate port).reg = Reg.HOST_CHAIN_STATUS := by cases port <;> rfl

/-- What a break writes beside its frame: the other fields of HOST_CHAIN_STATUS stand. -/
theorem toldBroken_reads (dst op : Nat) (ws : List Word) (n : Nat) (port : Bool) :
    let t := ringBroken (sendFrame 8 true dst op ws (noteBreak n port true c))
    (∀ x : Field, x.reg = Reg.HOST_CHAIN_STATUS → x.lo + x.w ≤ 15 → t.f x = c.f x) ∧
    t.gang = { c.gang with
      breaks := breaksWith n port true c
      seq := (c.gang.seq + 1) % 256
      waiting := c.gang.waiting ++ [ownFrame 8 true dst op ws (noteBreak n port true c)]
      breakSeen := true } ∧
    t.b Fld.HOST_CHAIN_STATUS_ISOLATED = t.cutOff c.chipNumber := by
  intro t
  have hgang : t.gang = { c.gang with
      breaks := breaksWith n port true c
      seq := (c.gang.seq + 1) % 256
      waiting := c.gang.waiting ++ [ownFrame 8 true dst op ws (noteBreak n port true c)]
      breakSeen := true } := by
    rw [ringBroken_gang, sendFrame_gang, noteBreak_gang]
  refine ⟨fun x hx hlo => ?_, hgang, ?_⟩
  · rw [ringBroken_regs _ _ (by rw [hx]; decide) (by rw [hx]; decide), Chip.f_regs, sendFrame_regs, ← Chip.f_regs,
      noteBreak_f _ _ _ _ _ (.inr ⟨by omega, .inl hlo⟩)]
  · rw [ringBroken_b _ _ (by decide) (by decide), Chip.b_regs, sendFrame_regs, ← Chip.b_regs, noteBreak_isolated]
    exact cutOff_congr (by rw [hgang, noteBreak_gang]) _

/-- What a restoration writes beside its frame. -/
theorem toldMended_reads (dst op : Nat) (ws : List Word) (n : Nat) (port : Bool) :
    let t := ringMended (sendFrame 8 true dst op ws (noteBreak n port false c))
    (∀ x : Field, x.reg = Reg.HOST_CHAIN_STATUS → x.lo + x.w ≤ 15 → t.f x = c.f x) ∧
    t.gang.waiting = c.gang.waiting ++ [ownFrame 8 true dst op ws (noteBreak n port false c)] ∧
    (c.isHead = true → t.gang.enumAt = some c.now) ∧ t.gang.retrainAt = c.gang.retrainAt := by
  intro t
  have hgang := ringMended_gang (sendFrame 8 true dst op ws (noteBreak n port false c))
  refine ⟨fun x hx hlo => ?_, ?_, fun hhead => ?_, ?_⟩
  · rw [ringMended_f _ _ (by rw [hx]; decide), Chip.f_regs, sendFrame_regs, ← Chip.f_regs,
      noteBreak_f _ _ _ _ _ (.inr ⟨by omega, .inl hlo⟩)]
  · rw [hgang]
    split <;> rfl
  · rw [hgang, if_pos]
    · rfl
    · exact hhead
  · rw [hgang]
    split <;> rfl

/-- What a break that is heard of writes. -/
theorem heardBroken_reads (n : Nat) (port : Bool) : let t := ringBroken (noteBreak n port true c)
    t.gang = { c.gang with breaks := breaksWith n port true c, breakSeen := true } ∧
    t.b Fld.HOST_CHAIN_STATUS_ISOLATED = t.cutOff c.chipNumber := by
  intro t
  have hgang : t.gang = { c.gang with breaks := breaksWith n port true c, breakSeen := true } := by
    rw [ringBroken_gang, noteBreak_gang]
  refine ⟨hgang, ?_⟩
  rw [ringBroken_b _ _ (by decide) (by decide), noteBreak_isolated]
  exact cutOff_congr (by rw [hgang, noteBreak_gang]) _

theorem folded_waiting (port : Bool) (lost : Nat) : (folded port lost c).gang.waiting = c.gang.waiting := by
  simp only [folded, retrainLater, Chip.onGang, Chip.bumpBy, Chip.setF_gang, Chip.setB_gang]

theorem chainPortDown_eq {port : Bool} (lost : Nat) (hon : c.isOn .chain = true) (hrate : c.f (portRate port) ≠ 0) :
    chainPortDown port lost c = ringBroken (sendFrame 8 true 0 0 [.bits (c.chipNumber * 2 + b2n port)]
      (noteBreak c.chipNumber port true (folded port lost c))) := by
  simp only [chainPortDown, hon, Bool.not_true, Bool.false_or, beq_iff_eq, if_neg hrate]
  rfl

theorem retrainLater_chainSlow (port : Bool) : (retrainLater port c).chainSlow = c.chainSlow := by
  simp only [retrainLater, Chip.chainSlow, Chip.stepCode, Chip.onGang_upd]

theorem retrainLater_f (port : Bool) (x : Field) : (retrainLater port c).f x = c.f x := by
  simp only [retrainLater, Chip.onGang_f]

theorem retrainLater_isOn (port : Bool) (i : Island) : (retrainLater port c).isOn i = c.isOn i := by
  simp only [retrainLater, Chip.onGang_isOn]

theorem retrainLater_retrainAt (port : Bool) : (retrainLater port c).retrainAt port = c.now + 671089 := by
  simp only [Chip.retrainAt, retrainLater, Chip.onGang, Store.get_put_same]

/-- A port that locked again, before the others hear of it (R402). -/
def unfolded (port : Bool) (rate : Nat) (c : Chip) : Chip :=
  let c1 := c.setF (portRate port) (c.chainRate rate)
  if c1.f (portRate (! port)) = 0 then c1 else c1.setB Fld.HOST_CHAIN_STATUS_FOLDED false

theorem unfolded_gang (port : Bool) (rate : Nat) : (unfolded port rate c).gang = c.gang := by
  unfold unfolded
  dsimp only
  split <;> rfl

theorem unfolded_now (port : Bool) (rate : Nat) : (unfolded port rate c).now = c.now := by
  unfold unfolded
  dsimp only
  split <;> rfl

theorem unfolded_pins (port : Bool) (rate : Nat) : (unfolded port rate c).pins = c.pins := by
  unfold unfolded
  dsimp only
  split <;> rfl

theorem unfolded_reads {port : Bool} {rate : Nat} (hrate : rate < 3) (hslow : c.chainSlow = false) (ho : c.f (portRate (! port)) ≠ 0) :
    let d := unfolded port rate c
    d.f (portRate port) = rate ∧ d.b Fld.HOST_CHAIN_STATUS_FOLDED = false ∧ d.chipNumber = c.chipNumber := by
  have hlock : c.chainRate rate = rate := by rw [Chip.chainRate, hslow, if_neg Bool.false_ne_true, Nat.mod_eq_of_lt hrate]
  have hkeep : (c.setF (portRate port) (c.chainRate rate)).f (portRate (! port)) = c.f (portRate (! port)) := by
    cases port <;> exact Chip.f_setF_ne _ _ _ _ (.inr (by decide))
  have heq : unfolded port rate c = (c.setF (portRate port) rate).setB Fld.HOST_CHAIN_STATUS_FOLDED false := by
    rw [hlock] at hkeep
    simp only [unfolded, hlock, hkeep, if_neg ho]
  rw [heq]
  have hmod : rate % 2 ^ 2 = rate := Nat.mod_eq_of_lt (by omega)
  cases port <;>
    simp (disch := decide) only [portRate, Bool.false_eq_true, if_true, if_false, Chip.chipNumber, Chip.f_regs, Chip.b_regs,
      Chip.setF_regs, Chip.setB_regs, regF_putF_ne, regF_putF, hmod] <;> exact ⟨trivial, rfl, trivial⟩

theorem ringRestored_eq {port : Bool} {rate : Nat} (hon : c.isOn .chain = true) (hdown : c.f (portRate port) = 0) (hr : rate ≠ 0) :
    ringRestored port rate c = ringMended (sendFrame 8 true 0 1 [.bits (c.chipNumber * 2 + b2n port)]
      (noteBreak c.chipNumber port false (unfolded port rate c))) := by
  simp [ringRestored, hon, hdown, hr] <;> rfl

/-! ### Frames that leave (R400) -/

/-- A TIME is stamped as it leaves (R405). -/
def stampedAt (now : Nat) (f : ChainFrame) : ChainFrame :=
  if f.type = 2 then { f with words := [.grain now, .grain (now / 2 ^ 36)] } else f

theorem Touches.portOut {P : Nat → Prop} {c d : Chip} (h : Touches P c d) (hP : ¬ P Reg.HOST_CHAIN_STATUS) (back : Bool) :
    d.portOut back = c.portOut back := by
  simp only [Chip.portOut, h.f (x := Fld.HOST_CHAIN_STATUS_RATE_0) hP, h.f (x := Fld.HOST_CHAIN_STATUS_RATE_1) hP]

/-- Traffic leaves by the port of its direction, turned back where that is DOWN. -/
theorem portOut_rates (back : Bool) : c.portOut back =
    if c.f (portRate (! back)) ≠ 0 then some (b2n (! back)) else if c.f (portRate back) ≠ 0 then some (b2n back) else none := by
  cases back <;> simp [Chip.portOut, portRate, b2n]

/-- A frame leaves by the port of its direction where that has a credit. -/
theorem chainLeave_leaves {f : ChainFrame} {p : Nat} (hp : c.portOut f.back = some p)
    (hroom : (c.gang.sent.filter fun x => x.port == p).length < chainCredits) : chainLeave f c =
    chainSeen 4 p (stampedAt c.now f) (c.onGang fun g => { g with sent := g.sent ++ [⟨p, (stampedAt c.now f).linked⟩] }) := by
  simp only [chainLeave, hp, if_pos hroom]
  rfl

theorem chainLeave_waits {f : ChainFrame} (hp : c.portOut f.back = none) :
    chainLeave f c = c.onGang fun g => { g with waiting := g.waiting ++ [f] } := by
  simp only [chainLeave, hp]
  rfl

theorem chainLeave_gang {f : ChainFrame} {p : Nat} (hp : c.portOut f.back = some p)
    (hroom : (c.gang.sent.filter fun x => x.port == p).length < chainCredits) :
    (chainLeave f c).gang = { c.gang with sent := c.gang.sent ++ [⟨p, (stampedAt c.now f).linked⟩] } := by
  rw [chainLeave_leaves c hp hroom]
  exact (chkStream_touches _ _ _ _ _).gang

/-- Frames that each have a port leave one after another, as long as there are credits. -/
theorem chainLeaves_gang (fs : List ChainFrame) (hp : ∀ f ∈ fs, (c.portOut f.back).isSome = true)
    (hroom : c.gang.sent.length + fs.length ≤ chainCredits) :
    (fs.foldl (fun c f => chainLeave f c) c).gang.waiting = c.gang.waiting ∧
    (fs.foldl (fun c f => chainLeave f c) c).gang.sent.map LinkFrame.octets =
      c.gang.sent.map LinkFrame.octets ++ fs.map fun f => (stampedAt c.now f).linked := by
  induction fs generalizing c with
  | nil => simp
  | cons f fs ih =>
    obtain ⟨p, hport⟩ := Option.isSome_iff_exists.mp (hp f (by simp))
    rw [List.length_cons] at hroom
    have hfilter : (c.gang.sent.filter fun x => x.port == p).length < chainCredits :=
      Nat.lt_of_le_of_lt (List.length_filter_le _ _) (by omega)
    have hgang := chainLeave_gang c hport hfilter
    have hsame : (chainLeave f c).now = c.now ∧ ∀ back, (chainLeave f c).portOut back = c.portOut back := by
      rw [chainLeave_leaves c hport hfilter]
      have ht := chkStream_touches (c.onGang fun g => { g with sent := g.sent ++ [⟨p, (stampedAt c.now f).linked⟩] }) 4 p
        (stampedAt c.now f).octets true
      obtain ⟨-, -, -, -, hnow, -⟩ := ht.stands
      exact ⟨hnow, fun back => ht.portOut (by decide) back⟩
    obtain ⟨hwait, hsent⟩ := ih (chainLeave f c) (fun g hg => by rw [hsame.2]; exact hp g (by simp [hg]))
      (by rw [hgang]; simp only [List.length_append, List.length_singleton]; omega)
    rw [List.foldl_cons, hwait, hsent, hgang, hsame.1]
    simp

/-- No frame leaves twice. -/
theorem length_ranked {α : Type} (g : α → Nat) (l : List α) (n : Nat) :
    ((List.range n).flatMap fun k => l.filter fun x => g x == k).length ≤ l.length := by
  have hcount : ((List.range n).flatMap fun k => l.filter fun x => g x == k).length = (l.filter fun x => decide (g x < n)).length := by
    induction n with
    | zero => simp
    | succ n ih =>
      rw [List.range_succ, List.flatMap_append, List.length_append, ih]
      simp only [List.flatMap_cons, List.flatMap_nil, List.append_nil]
      clear ih
      simp only [← List.countP_eq_length_filter]
      induction l with
      | nil => rfl
      | cons x l ih =>
        simp only [List.countP_cons, beq_iff_eq, decide_eq_true_eq]
        split_ifs <;> omega
  rw [hcount]
  exact List.length_filter_le _ _

theorem mem_waitingFrames {f : ChainFrame} (h : f ∈ c.waitingFrames) : f ∈ c.gang.waiting := by
  obtain ⟨k, -, hf⟩ := List.mem_flatMap.mp h
  exact List.mem_of_mem_filter hf

/-- All frames that wait leave where there are ports and credits for them. -/
theorem chainOut_all (hon : c.isOn .chain = true) (hlen : c.gang.waiting.length ≤ chainCredits) (hsent : c.gang.sent = [])
    (hp : ∀ f ∈ c.gang.waiting, (c.portOut f.back).isSome = true) : (chainOut c).gang.waiting = [] ∧
    (chainOut c).gang.sent.map LinkFrame.octets = c.waitingFrames.map fun f => (stampedAt c.now f).linked := by
  by_cases hempty : c.gang.waiting = []
  · have heq : chainOut c = c := by simp [chainOut, hempty]
    have hnone : c.waitingFrames = [] := by simp [Chip.waitingFrames, hempty]
    rw [heq, hnone, hempty, hsent]
    exact ⟨rfl, rfl⟩
  · have heq : chainOut c = c.waitingFrames.foldl (fun c f => chainLeave f c) (c.onGang fun g => { g with waiting := [] }) := by
      have hne : c.gang.waiting.isEmpty = false := by simpa using hempty
      simp only [chainOut, hon, hne]
      rfl
    have hmany : c.waitingFrames.length ≤ c.gang.waiting.length := length_ranked _ _ _
    have hroom : c.gang.sent.length + c.waitingFrames.length ≤ chainCredits := by
      rw [hsent, List.length_nil]
      omega
    obtain ⟨h1, h2⟩ := chainLeaves_gang (c.onGang fun g => { g with waiting := [] }) c.waitingFrames
      (fun f hf => hp f (mem_waitingFrames c hf)) hroom
    refine ⟨heq ▸ h1, ?_⟩
    rw [heq, h2, show (c.onGang fun g => { g with waiting := [] }).gang.sent = [] from hsent]
    rfl

end Sys2Proof.Machine
end

section
namespace Sys2Proof
open Machine Safety

/-- Settles O41: what arrives by the rules of consumption, breaks and folds by what they write of the ring's state, and the frames
that wait by the credits that they find. -/
theorem chainRing : Obligations.ChainRing := by
  intro s hon
  refine ⟨?_, fun g hg hdue hhead => ?_, fun h n d0 d1 hh hb hn hhead hnum => ?_, fun h w own re d0 d1 hh hb => ?_,
    fun h n d0 d1 r hh hb hn hhead hr => ?_, fun p => ?_, fun port lost hrate => ?_,
    fun port rate hdown hrate hslow hother => ⟨?_, fun hdue => ?_⟩, fun h w hh hb hsrc hseen => ⟨?_, ?_⟩,
    fun h w hh hb hsrc => ⟨fun hfwd => ?_, fun hback hrate => ?_⟩, fun hlen hsent hp => ?_, fun f hsent => ?_⟩
  · exact next_chip (if_pos hon)
  · have heq : enumSend s.chip = sendFrame 1 false 0 0 [.int 1] (s.chip.onGang fun x => { x with enumAt := some (s.chip.now + 671089) }) := by
      simp [enumSend, hg, hhead, hon, hdue]
    exact ⟨_, _, next_chip heq, rfl, rfl, rfl, rfl⟩
  · have ht := arrivesAt_touches s.chip h 1 0 [.int n]
    obtain ⟨hgang, hnumber⟩ := takeNumber_reads ((arrivesAt h 1 0 [.int n] s.chip).onGang fun g =>
      { g with delay0 := d0.toNat, delay1 := d1.toNat }) n
    refine ⟨_, passedOn h 1 0 [.int (n + 1)], next_chip (enumArrives_numbers hon hh hb hn hhead hnum), ?_, ?_, ?_, ?_, rfl, rfl⟩ <;>
      dsimp only
    · rw [Chip.f_regs, forwardFrame_regs, ← Chip.f_regs, hnumber, Nat.mod_eq_of_lt hn]
    · exact congrArg Gang.numbered hgang
    · exact congrArg Gang.delay0 hgang
    · rw [forwardFrame_gang, hgang, ← ht.gang]
      rfl
  · have ht := arrivesAt_touches s.chip h 1 0 [w]
    refine ⟨_, passedOn h 1 0 [w], next_chip (enumArrives_back hon hh hb), ?_, rfl, hb, ?_⟩ <;> dsimp only
    · rw [forwardFrame_gang, ht.gang]
    · rw [Chip.f_regs, forwardFrame_regs, ← Chip.f_regs, ht.f (by decide)]
  · have ht := arrivesAt_touches s.chip h 1 0 [.int n]
    obtain ⟨hmbx, -, -, -, -, hrecipe, hgang, -⟩ := ht.stands
    obtain ⟨hsize, hmis, hafter, hends⟩ := enumReturned_reads ((arrivesAt h 1 0 [.int n] s.chip).onGang fun g =>
      { g with delay0 := d0.toNat, delay1 := d1.toNat }) (n := n) (by omega) (r := r) (hrecipe.trans hr)
    refine ⟨_, next_chip (enumArrives_returned hon hh hb hn hhead), hsize, hmis, ?_, ?_, fun p hp hbusy hres hc => ?_⟩
    · exact congrArg Gang.enumAt hafter
    · exact (congrArg Gang.waiting hafter).trans (congrArg Gang.waiting hgang :)
    · have hof : ((arrivesAt h 1 0 [.int n] s.chip).onGang fun g => { g with delay0 := d0.toNat, delay1 := d1.toNat }).mbxOf p.val =
          s.chip.mbxOf p.val := ht.mbxOf p.val
      exact hends p.val ((congrArg (p.val ∈ ·) (congrArg Gang.enumPaths hgang)).mpr hp) (by rw [hof]; exact hbusy) (by rw [hof]; exact hres)
        (by rw [hof]; exact hc)
  · intro m hb hr hc hs
    have hfirst : ¬ (s.chip.mbxOf p.val).steps ≠ 0 := not_not_intro hs
    refine ⟨fun hhead => ?_, fun hhead => ?_⟩
    · have heq : gangEnumerate p.val s.chip = (setMbx p.val { m with steps := 1 } s.chip).onGang fun g =>
          { g with enumAt := some s.chip.now, enumPaths := g.enumPaths ++ [p.val] } := by
        rw [gangEnumerate, mbxRow_waits s.chip hb hr hc]
        simp only [if_neg hfirst, hhead]
        rfl
      refine ⟨_, next_chip heq, rfl, rfl, ?_⟩
      exact (congrArg Mbx.result (setMbx_mbxOf s.chip p.val { m with steps := 1 })).trans hr
    · have heq : gangEnumerate p.val s.chip = setMbx p.val { m with result := some [s.chip.stateRefused] } s.chip := by
        rw [gangEnumerate, mbxRow_waits s.chip hb hr hc]
        simp only [if_neg hfirst, hhead]
        exact finishMbx_waits _ _ _ hb hr
      exact next_chip heq
  · obtain ⟨hzero, hfold, hnumber⟩ := folded_reads s.chip port lost.toNat
    obtain ⟨e, he⟩ : ∃ e, folded port lost.toNat s.chip = e := ⟨_, rfl⟩
    have heq := chainPortDown_eq s.chip lost.toNat hon hrate
    rw [he] at hzero hfold hnumber heq
    have hwaiting : e.gang.waiting = s.chip.gang.waiting := by rw [← he, folded_waiting]
    obtain ⟨hkeep, hgang, hiso⟩ := toldBroken_reads e 0 0 [.bits (s.chip.chipNumber * 2 + b2n port)] s.chip.chipNumber port
    refine ⟨_, ownFrame 8 true 0 0 [.bits (s.chip.chipNumber * 2 + b2n port)] (noteBreak s.chip.chipNumber port true e),
      next_chip heq, ?_, ?_, ringBroken_flag _, ?_, rfl, rfl, rfl, rfl, ?_, ?_⟩ <;>
      dsimp only
    · exact (hkeep _ (portRate_reg port) (by cases port <;> decide)).trans hzero
    · rw [Chip.b, hkeep _ rfl (by decide)]
      exact hfold
    · rw [hgang]
      exact congrArg (· ++ [_]) hwaiting
    · rw [hgang]
      exact mem_breaksWith _ _ _
    · rw [hiso, hnumber]
  · obtain ⟨hset, hfold, hnumber⟩ := unfolded_reads s.chip (port := port) rate.isLt hslow hother
    set e := unfolded port rate.val s.chip with he
    obtain ⟨hkeep, hwait, henum, -⟩ := toldMended_reads e 0 1 [.bits (s.chip.chipNumber * 2 + b2n port)] s.chip.chipNumber port
    refine ⟨_, ownFrame 8 true 0 1 [.bits (s.chip.chipNumber * 2 + b2n port)] (noteBreak s.chip.chipNumber port false e),
      next_chip (ringRestored_eq s.chip hon hdown hrate), ?_, ?_, ringMended_flag _, ?_, rfl, rfl, fun hhead => ?_⟩ <;> dsimp only
    · exact (hkeep _ (portRate_reg port) (by cases port <;> decide)).trans hset
    · rw [Chip.b, hkeep _ rfl (by decide)]
      exact hfold
    · rw [hwait, he, unfolded_gang]
    · rw [henum (by rw [Chip.isHead, Chip.pin, he, unfolded_pins]; exact hhead), he, unfolded_now]
  · have hready : (s.chip.isOn .chain && s.chip.f (portRate port) == 0 && decide (s.chip.retrainAt port ≤ s.chip.now)) = true := by
      simp [hon, hdown, hdue]
    obtain ⟨d, hd⟩ : ∃ d, retrainLater port s.chip = d := ⟨_, rfl⟩
    obtain ⟨hset, -, -⟩ := unfolded_reads d (port := port) rate.isLt (by rw [← hd, retrainLater_chainSlow, hslow]) (by rwa [← hd, retrainLater_f])
    have heq := ringRestored_eq d (port := port) (rate := rate.val) (by rw [← hd, retrainLater_isOn, hon])
      (by rw [← hd, retrainLater_f, hdown]) hrate
    obtain ⟨hkeep, -, -, hretrain⟩ := toldMended_reads (unfolded port rate.val d) 0 1 [.bits (d.chipNumber * 2 + b2n port)] d.chipNumber port
    have hrow : chainRetrain port rate.val s.chip = ringRestored port rate.val d := by rw [chainRetrain, if_pos hready, hd]
    refine ⟨_, next_chip (hrow.trans heq), ?_, ?_⟩ <;> dsimp only
    · exact (hkeep _ (portRate_reg port) (by cases port <;> decide)).trans hset
    · rw [Chip.retrainAt, hretrain, unfolded_gang, ← hd]
      exact retrainLater_retrainAt s.chip port
  · have ht := arrivesAt_touches s.chip h 8 0 [w]
    set e := noteSeen h (arrivesAt h 8 0 [w] s.chip) with he
    obtain ⟨hgang, hiso⟩ := heardBroken_reads e (w.field 1 6) (bitOf w.nat 0)
    set t := ringBroken (noteBreak (w.field 1 6) (bitOf w.nat 0) true e) with htdef
    have heq : ringFrame h false w s.chip = forwardFrame h 8 0 [w] t := arrive_acts 8 0 [w] _ hon hh hb hsrc hseen
    refine ⟨_, passedOn h 8 0 [w], next_chip heq, ringBroken_flag _, ?_, rfl, rfl, rfl, rfl, ?_, ?_, ?_⟩ <;> dsimp only
    · rw [forwardFrame_gang, hgang, ← ht.gang]
      rfl
    · rw [Chip.frameSeen, forwardFrame_gang, hgang]
      exact noteSeen_seen _ h
    · rw [forwardFrame_gang, hgang]
      exact mem_breaksWith _ _ _
    · have hnumber : e.chipNumber = s.chip.chipNumber := ht.f (x := Fld.SYS_STATE_CHIP_NUMBER) (by decide)
      rw [Chip.b_regs, forwardFrame_regs, ← Chip.b_regs, hiso, hnumber]
      exact cutOff_congr rfl _
  · have ht := arrivesAt_touches s.chip h 8 1 [w]
    set e := noteSeen h (arrivesAt h 8 1 [w] s.chip) with he
    have hgang := ringMended_gang (noteBreak (w.field 1 6) (bitOf w.nat 0) false e)
    set t := ringMended (noteBreak (w.field 1 6) (bitOf w.nat 0) false e) with htdef
    have heq : ringFrame h true w s.chip = forwardFrame h 8 1 [w] t := arrive_acts 8 1 [w] _ hon hh hb hsrc hseen
    obtain ⟨-, -, -, -, hnow, -⟩ := ht.stands
    refine ⟨_, next_chip heq, ringMended_flag _, ?_, fun hhead => ?_⟩ <;> dsimp only
    · have hbreaks : t.gang.breaks = breaksWith (w.field 1 6) (bitOf w.nat 0) false e := by
        rw [hgang]
        split <;> rfl
      rw [forwardFrame_gang, hbreaks]
      exact not_mem_breaksWith _ _ _
    · rw [noteBreak_isHead, he, noteSeen_isHead, ht.isHead, if_pos hhead, noteBreak_now, noteSeen_now, hnow] at hgang
      rw [forwardFrame_gang, hgang]
  · have ht := arrivesAt_touches s.chip h 8 0 [w]
    exact ⟨_, next_chip (arrive_removed 8 0 [w] _ hon hh hb hsrc hfwd), ht.gang⟩
  · have ht := arrivesAt_touches s.chip h 8 0 [w]
    refine ⟨_, passedOn h 8 0 [w], next_chip (arrive_returns 8 0 [w] _ hon hh hb hsrc hback hrate), ?_, hback, ?_⟩ <;> dsimp only <;>
      rw [forwardFrame_gang, ht.gang]
  · exact chainOut_all s.chip hon hlen hsent hp
  · have hroom : ∀ p, (s.chip.gang.sent.filter fun x => x.port == p).length < chainCredits := fun p => by
      rw [hsent]
      exact Nat.zero_lt_succ 15
    have hleave : ∀ p, s.chip.portOut f.back = some p → ∃ x, (chainLeave f s.chip).gang.sent = [x] ∧ x.port = p := fun p hp =>
      ⟨_, by rw [chainLeave_gang s.chip hp (hroom p), hsent]; rfl, rfl⟩
    refine ⟨fun h1 hb => hleave 1 ?_, fun h1 h0 hb => hleave 0 ?_, fun h0 hb => hleave 0 ?_, fun h0 h1 hb => hleave 1 ?_, fun h0 h1 => ?_⟩
    · simp [portOut_rates, hb, h1, b2n]
    · simp [portOut_rates, hb, h1, h0, b2n]
    · simp [portOut_rates, hb, h0, b2n]
    · simp [portOut_rates, hb, h0, h1, b2n]
    · have hnone : s.chip.portOut f.back = none := by
        cases hb : f.back <;> simp [portOut_rates, h0, h1]
      rw [chainLeave_waits s.chip hnone]
      exact ⟨rfl, hsent⟩

end Sys2Proof
end

section
/-! SUPPORT. Members, gang time and gang events on the chain (R291, R404, R405). -/

namespace Sys2Proof.Machine
open Safety

variable (c : Chip)

/-! ### The check units leave the gang events alone -/

theorem setChk_fab_gang (n : Nat) (u : ChkUnit) : (c.setChk n u).fab.gang = c.fab.gang := (rfl)

theorem chkReload_fab_gang (n : Nat) : (chkReload n c).fab.gang = c.fab.gang := by
  simp only [chkReload, setChk_fab_gang, Chip.setB_fab, Chip.setRegN_fab]

theorem chkEnd_fab_gang (n : Nat) (a : Bool) : (chkEnd n a c).fab.gang = c.fab.gang := by
  simp only [chkEnd, setChk_fab_gang, chkReload_fab_gang, Chip.bump_fab, raise_fab_gang]
  split
  · split <;> split <;> simp only [raise_fab_gang]
  · split <;> simp only [Chip.bump_fab, raise_fab_gang, Chip.setRegN_fab]

theorem chkOctet_fab_gang (n o : Nat) : (chkOctet n c o).fab.gang = c.fab.gang := by
  simp only [chkOctet]
  split <;> split <;> simp only [chkEnd_fab_gang, Chip.setB_fab, Chip.setRegN_fab]

theorem chkOctets_fab_gang (n : Nat) (os : List Nat) : (os.foldl (chkOctet n) c).fab.gang = c.fab.gang :=
  foldl_same (fun d => d.fab.gang) (chkOctet n) (fun d o => chkOctet_fab_gang d n o) os c

theorem chkStream_fab_gang (src sel : Nat) (os : List Nat) (marker : Bool) :
    (chkStream src sel os marker c).fab.gang = c.fab.gang := by
  unfold chkStream
  refine foldl_same (fun d : Chip => d.fab.gang) _ (fun d n => ?_) _ c
  split
  · split
    · split <;> simp only [setChk_fab_gang]
    · dsimp only
      split <;> simp only [chkEnd_fab_gang, chkOctets_fab_gang]
  · rfl

theorem arrivesAt_fab_gang (h : FrameHead) (type op : Nat) (ws : List Word) : (arrivesAt h type op ws c).fab.gang = c.fab.gang := by
  unfold arrivesAt
  split
  · rfl
  · rw [chainSeen, chkStream_fab_gang]

/-! ### Members (R404) -/

/-- The field of a chip in the words of those alive. -/
def aliveField (n : Nat) : Field := ⟨if n < 32 then Reg.HOST_GANG_ALIVE_LO else Reg.HOST_GANG_ALIVE_HI, n % 32, 1⟩

theorem bitOf_regN (a k : Nat) : bitOf (c.regN a) k = c.b ⟨a, k, 1⟩ := by
  rw [bitOf, Nat.testBit_eq_decide_div_mod_eq]
  rfl

theorem alive_b {n : Nat} (hn : n < 64) : c.alive n = c.b (aliveField n) := by
  unfold Chip.alive aliveField
  split
  · rw [Nat.mod_eq_of_lt ‹_›, bitOf_regN]
  · rw [show n % 32 = n - 32 by omega, bitOf_regN]

theorem setAlive_eq (n : Nat) (v : Bool) : setAlive n v c = c.setB (aliveField n) v := (rfl)

theorem setAlive_alive {n : Nat} (hn : n < 64) (v : Bool) : (setAlive n v c).alive n = v := by
  rw [alive_b _ hn, setAlive_eq]
  exact Chip.b_setB _ _ _ rfl (by unfold aliveField; dsimp only; omega)

/-- A chip that is put down stays down while others are. -/
theorem setAlive_dead {n m : Nat} (hn : n < 64) (hm : m < 64) (h : c.alive n = false) : (setAlive m false c).alive n = false := by
  by_cases hnm : n = m
  · subst hnm
    exact setAlive_alive c hn false
  · have hfld : (aliveField n).reg ≠ (aliveField m).reg ∨ ((aliveField n).lo + (aliveField n).w ≤ 36 ∧
        ((aliveField n).lo + (aliveField n).w ≤ (aliveField m).lo ∨ (aliveField m).lo + 1 ≤ (aliveField n).lo)) := by
      by_cases hhalf : n < 32 ↔ m < 32
      · refine .inr ⟨?_, ?_⟩
        · change n % 32 + 1 ≤ 36
          omega
        · change n % 32 + 1 ≤ m % 32 ∨ m % 32 + 1 ≤ n % 32
          omega
      · refine .inl ?_
        unfold aliveField
        by_cases hlow : n < 32
        · rw [if_pos hlow, if_neg (by omega)]
          exact show Reg.HOST_GANG_ALIVE_LO ≠ Reg.HOST_GANG_ALIVE_HI by decide
        · rw [if_neg hlow, if_pos (by omega)]
          exact show Reg.HOST_GANG_ALIVE_HI ≠ Reg.HOST_GANG_ALIVE_LO by decide
    rw [alive_b _ hn, setAlive_eq, Chip.b_regs, Chip.setB_regs, regF_putF_ne _ _ _ _ hfld, ← Chip.b_regs, ← alive_b _ hn, h]

theorem setAlives_dead {n : Nat} (hn : n < 64) (ms : List Nat) (hms : ∀ m ∈ ms, m < 64) (h : n ∈ ms ∨ c.alive n = false) :
    (ms.foldl (fun c m => setAlive m false c) c).alive n = false := by
  induction ms generalizing c with
  | nil => exact h.resolve_left (by simp)
  | cons m ms ih =>
    obtain ⟨hm, hrest⟩ := List.forall_mem_cons.mp hms
    refine ih _ hrest ?_
    by_cases hnm : n = m
    · subst hnm
      exact .inr (setAlive_alive c hn false)
    · exact (h.imp (fun h => (List.mem_cons.mp h).resolve_left hnm) (setAlive_dead c hn hm))

/-- A chip not heard for 2^22 gr is lost. -/
theorem memberLost_reads {n : Nat} (hon : c.isOn .chain = true) (hn : n < 64) (halive : c.alive n = true)
    (hold : Store.get 0 c.gang.heard n + 2 ^ 22 ≤ c.now + 1) :
    (memberLost c).alive n = false ∧ (memberLost c).b ⟨Reg.HOST_INT_STATUS, 2, 1⟩ = true := by
  set lost := (List.range 64).filter fun n => c.alive n && decide (Store.get 0 c.gang.heard n + 2 ^ 22 ≤ c.now + 1) with hlost
  have hmem : n ∈ lost := by simp only [hlost, List.mem_filter, List.mem_range, hn, halive, decide_eq_true hold, Bool.and_self, and_self]
  have heq : memberLost c = (lost.foldl (fun c n => setAlive n false c) c).raise .host 2 := by
    have hsome : lost.isEmpty = false := List.isEmpty_eq_false_iff_exists_mem.mpr ⟨n, hmem⟩
    simp only [memberLost, hon, ← hlost, hsome, Bool.not_true, if_neg Bool.false_ne_true]
  have hdead := setAlives_dead c hn lost (fun m hm => List.mem_range.mp (List.mem_filter.mp hm).1) (.inl hmem)
  have hne : (aliveField n).reg ≠ Reg.HOST_INT_STATUS := by unfold aliveField; dsimp only; split <;> decide
  rw [heq, alive_b _ hn, Chip.b_regs, Chip.b_regs, Chip.raise_regs_put, regF_putF_ne _ _ _ _ (.inl hne), ← Chip.b_regs, ← alive_b _ hn]
  refine ⟨hdead, ?_⟩
  rw [Block.host_status, regF_putF _ ⟨Reg.HOST_INT_STATUS, 2, 1⟩ 1 (by decide)]
  rfl

/-! ### Gang time (R405) -/

/-- Before the correction: the offset is shown, and SYNC_LOST raised beyond 64 gr. -/
def offsetNoted (z : Int) (c : Chip) : Chip :=
  let c1 := c.setRegI Reg.HOST_GANG_OFFSET z
  if 1024 < z.natAbs then c1.raise .host 5 else c1

theorem offsetNoted_gang (z : Int) : (offsetNoted z c).gang = c.gang := by
  unfold offsetNoted
  dsimp only
  split <;> simp only [Chip.raise_gang, Chip.setRegI, Chip.setRegN_gang]

theorem offsetNoted_now (z : Int) : (offsetNoted z c).now = c.now := by
  unfold offsetNoted
  dsimp only
  split <;> simp only [Chip.raise_now, Chip.setRegI, Chip.setRegN_now]

/-- Within 2 gr time stands, and the chip is in step. -/
theorem gangCorrect_near {z : Int} (hz : z.natAbs ≤ 32) : let d := gangCorrect z c
    d.now = c.now ∧ d.b Fld.HOST_CHAIN_STATUS_SYNCED = true ∧ d.gang.waiting = c.gang.waiting := by
  have heq : gangCorrect z c = ((offsetNoted z c).onGang fun g =>
      { g with slew := if g.slew = 0 || decide (z.natAbs < 8) then 0 else z }).setB Fld.HOST_CHAIN_STATUS_SYNCED true := by
    simp only [gangCorrect, if_pos hz, offsetNoted]
  intro d
  simp only [d, heq]
  refine ⟨?_, Chip.b_setB _ _ _ rfl (by decide), ?_⟩
  · rw [Chip.setB_now, Chip.onGang_now, offsetNoted_now]
  · rw [Chip.setB_gang, Chip.onGang_gang, offsetNoted_gang]

/-- Beyond that it is stepped while the link controller is off. -/
theorem gangCorrect_steps {z : Int} (hz : 32 < z.natAbs) (hoff : c.b Fld.LINK_CTRL_ENABLE = false) :
    (gangCorrect z c).now = ((c.now : Int) + Config.roundHalf 3 z 16).toNat % 2 ^ 72 := by
  simp only [gangCorrect, if_neg (Nat.not_le.mpr hz), hoff, if_neg Bool.false_ne_true]

/-- And slewed while it is on. -/
theorem gangCorrect_slews {z : Int} (hz : 32 < z.natAbs) (hlink : c.b Fld.LINK_CTRL_ENABLE = true) : let d := gangCorrect z c
    d.now = c.now ∧ d.gang.slew = z ∧ d.b Fld.HOST_CHAIN_STATUS_SYNCED = false := by
  have heq : gangCorrect z c = ((offsetNoted z c).onGang fun g => { g with slew := z }).setB Fld.HOST_CHAIN_STATUS_SYNCED false := by
    simp only [gangCorrect, if_neg (Nat.not_le.mpr hz), hlink, if_pos, offsetNoted]
  intro d
  simp only [d, heq]
  refine ⟨?_, by rw [Chip.setB_gang, Chip.onGang_gang], Chip.b_setB _ _ _ rfl (by decide)⟩
  rw [Chip.setB_now, Chip.onGang_now, offsetNoted_now]

theorem forwardFrame_now (h : FrameHead) (type op : Nat) (ws : List Word) : (forwardFrame h type op ws c).now = c.now := (rfl)

theorem forwardFrame_fab (h : FrameHead) (type op : Nat) (ws : List Word) : (forwardFrame h type op ws c).fab = c.fab := (rfl)

theorem forwardFrame_alive (h : FrameHead) (type op : Nat) (ws : List Word) (n : Nat) :
    (forwardFrame h type op ws c).alive n = c.alive n := (rfl)

theorem holdGang_fab (line chip payload due : Nat) : ∃ e, (holdGang line chip payload due c).fab.gang = c.fab.gang ++ [e] ∧
    e.line = line ∧ e.chip = chip ∧ e.payload = payload % 2 ^ 22 := ⟨_, rfl, rfl, rfl, rfl⟩

/-! ### Frames for the members -/

section Broadcast
variable {c} {h : FrameHead} (hon : c.isOn .chain = true) (hh : h.hops.toNat ≠ 127) (hb : h.bcast = true)
  (hsrc : c.isChip h.src.toNat = false) (hseen : c.frameSeen h = false)
include hon hh hb hsrc hseen

/-- A STATUS marks its source alive and passes on. -/
theorem statusFrame_reads (w0 w1 : Word) : let d := statusFrame h w0 w1 c
    d.alive h.src.toNat = true ∧ d.gang.waiting = c.gang.waiting ++ [passedOn h 7 0 [w0, w1]] := by
  have ht := arrivesAt_touches c h 7 0 [w0, w1]
  intro d
  simp only [d, statusFrame, arrive_acts 7 0 [w0, w1] _ hon hh hb hsrc hseen]
  refine ⟨?_, ?_⟩
  · rw [forwardFrame_alive, setAlive_alive _ h.src.isLt]
  · obtain ⟨seen, hnoted⟩ := noteSeen_gang (arrivesAt h 7 0 [w0, w1] c) h
    rw [forwardFrame_gang, setAlive_eq, Chip.setB_gang, Chip.onGang_gang, hnoted, ht.gang]

/-- A TIME corrects local time by its offset and passes on. -/
theorem timeFrame_eq (lo hi : Payload) (port : Bool) : ∃ d, Touches chkReg c d ∧
    timeFrame h lo hi port c = forwardFrame { h with back := port } 2 0 [⟨.grain, lo⟩, ⟨.grain, hi⟩]
      (gangCorrect (16 * ((lo.toNat + hi.toNat * 2 ^ 36 : Nat) : Int) + (if port then c.gang.delay1 else c.gang.delay0) - 16 * c.now)
        (noteSeen { h with back := port } d)) := by
  refine ⟨_, arrivesAt_touches c { h with back := port } 2 0 [⟨.grain, lo⟩, ⟨.grain, hi⟩], ?_⟩
  have ht := arrivesAt_touches c { h with back := port } 2 0 [⟨.grain, lo⟩, ⟨.grain, hi⟩]
  obtain ⟨-, -, -, -, hnow, -⟩ := ht.stands
  obtain ⟨seen, hnoted⟩ := noteSeen_gang (arrivesAt { h with back := port } 2 0 [⟨.grain, lo⟩, ⟨.grain, hi⟩] c) { h with back := port }
  simp only [timeFrame, arrive_acts (h := { h with back := port }) 2 0 [⟨.grain, lo⟩, ⟨.grain, hi⟩] _ hon hh hb hsrc hseen,
    noteSeen_now, hnow, hnoted, ht.gang]

/-- An EVENT is held for its delivery grain. -/
theorem eventFrame_reads (line : Nat) (stamp w : Payload) (hevf : c.isOn .evf = true) :
    ∃ e, (eventFrame h line stamp w c).fab.gang = c.fab.gang ++ [e] ∧ e.line = line ∧ e.chip = h.src.toNat ∧
      e.payload = w.toNat % 2 ^ 22 := by
  have ht := arrivesAt_touches c h 3 line [⟨.grain, stamp⟩, ⟨.bits, w⟩]
  have hisl : (noteSeen h (arrivesAt h 3 line [⟨.grain, stamp⟩, ⟨.bits, w⟩] c)).isOn .evf = true := (ht.isOn .evf).trans hevf
  have hfab := arrivesAt_fab_gang c h 3 line [⟨.grain, stamp⟩, ⟨.bits, w⟩]
  simp only [eventFrame, arrive_acts 3 line [⟨.grain, stamp⟩, ⟨.bits, w⟩] _ hon hh hb hsrc hseen, hisl, if_true, forwardFrame_fab]
  obtain ⟨e, he, hline, hchip, hpay⟩ := holdGang_fab (noteSeen h (arrivesAt h 3 line [⟨.grain, stamp⟩, ⟨.bits, w⟩] c)) line h.src.toNat
    (w.toNat % 2 ^ 22) (((noteSeen h (arrivesAt h 3 line [⟨.grain, stamp⟩, ⟨.bits, w⟩] c)).longOf stamp +
      (noteSeen h (arrivesAt h 3 line [⟨.grain, stamp⟩, ⟨.bits, w⟩] c)).gangDelay
        ((noteSeen h (arrivesAt h 3 line [⟨.grain, stamp⟩, ⟨.bits, w⟩] c)).longOf stamp)).toNat)
  refine ⟨e, he.trans ?_, hline, hchip, hpay.trans (Nat.mod_mod _ _)⟩
  exact congrArg (· ++ [e]) hfab

end Broadcast

end Sys2Proof.Machine
end

section
namespace Sys2Proof
open Machine Safety

/-- Settles O42: a STATUS, a TIME or an EVENT that arrives is acted on and passes on; what is due is sent. -/
theorem gangTimeAndMembers : Obligations.GangTimeAndMembers := by
  intro s hon
  refine ⟨fun hnum hdue => ?_, fun hdue => ?_, fun hhead hnum hdue => ?_, fun h hh hb hsrc hseen => ⟨fun w0 w1 => ?_, fun lo hi port => ?_,
    fun line stamp w hevf => ?_⟩, fun n hn halive hold => ?_⟩
  · have heq : statusSend s.chip = sendFrame 7 true 0 0 [s.chip.reg Reg.SYS_STATE, .grain s.chip.now]
        (s.chip.onGang fun g => { g with statusAt := s.chip.now + 2 ^ 20 }) := by
      simp only [statusSend, hon, hnum, hdue, decide_true, Bool.and_self, if_true]
    exact ⟨_, _, next_chip heq, rfl, rfl, rfl, rfl, rfl⟩
  · have heq : statusSend s.chip = s.chip := by
      simp only [statusSend, decide_eq_false (Nat.not_le.mpr hdue), Bool.and_false, if_neg Bool.false_ne_true]
    exact next_chip heq
  · have heq : timeSend s.chip = sendFrame 2 true 0 0 [.grain s.chip.now, .grain (s.chip.now / 2 ^ 36)]
        (s.chip.onGang fun g => { g with timeAt := s.chip.now + 2 ^ 16 }) := by
      simp only [timeSend, hon, hhead, hnum, hdue, decide_true, Bool.and_self, if_true]
    exact ⟨_, _, next_chip heq, rfl, rfl, rfl, rfl⟩
  · obtain ⟨halive, hwait⟩ := statusFrame_reads hon hh hb hsrc hseen w0 w1
    exact ⟨_, passedOn h 7 0 [w0, w1], rfl, halive, hwait, rfl, rfl, rfl⟩
  · obtain ⟨d, ht, heq⟩ := timeFrame_eq hon hh hb hsrc hseen lo hi port
    obtain ⟨-, -, -, -, hnow, -⟩ := ht.stands
    have hlink : (noteSeen { h with back := port } d).b Fld.LINK_CTRL_ENABLE = s.chip.b Fld.LINK_CTRL_ENABLE := ht.b (by decide)
    have htime : (noteSeen { h with back := port } d).now = s.chip.now := hnow
    obtain ⟨seen, hnoted⟩ := noteSeen_gang d { h with back := port }
    intro dl z
    refine ⟨fun hz => ?_, fun hz hoff => ?_, fun hz hlk => ?_⟩
    · obtain ⟨h1, h2, h3⟩ := gangCorrect_near (noteSeen { h with back := port } d) hz
      refine ⟨_, passedOn { h with back := port } 2 0 [⟨.grain, lo⟩, ⟨.grain, hi⟩], next_chip heq, ?_, ?_, ?_, rfl, rfl, rfl⟩
      · rw [forwardFrame_now]
        exact h1.trans htime
      · rw [Chip.b_regs, forwardFrame_regs, ← Chip.b_regs]
        exact h2
      · rw [forwardFrame_gang]
        refine congrArg (· ++ [_]) (h3.trans ?_)
        rw [hnoted, ht.gang]
    · have hstep := gangCorrect_steps (noteSeen { h with back := port } d) hz (hlink.trans hoff)
      rw [htime] at hstep
      exact ⟨_, next_chip heq, hstep⟩
    · obtain ⟨h1, h2, h3⟩ := gangCorrect_slews (noteSeen { h with back := port } d) hz (hlink.trans hlk)
      refine ⟨_, next_chip heq, ?_, ?_, ?_⟩
      · rw [forwardFrame_now]
        exact h1.trans htime
      · rw [forwardFrame_gang]
        exact h2
      · rw [Chip.b_regs, forwardFrame_regs, ← Chip.b_regs]
        exact h3
  · obtain ⟨e, he, hline, hchip, hpay⟩ := eventFrame_reads hon hh hb hsrc hseen line.val stamp w hevf
    exact ⟨_, e, rfl, he, hline, hchip, hpay⟩
  · obtain ⟨h1, h2⟩ := memberLost_reads s.chip hon hn halive hold
    exact ⟨_, rfl, h1, h2⟩

end Sys2Proof
end

section
/-! SUPPORT. Access, mirror and takeover over the chain (R186, R392, R399, R406). -/

namespace Sys2Proof.Machine
open Safety

variable (c : Chip)

/-! ### What a frame that arrives leaves of the memories -/

namespace Touches
variable {P : Nat → Prop} {c d : Chip}

theorem ptrValid (h : Touches P c d) (p : Nat) : d.ptrValid p = c.ptrValid p := by
  obtain ⟨-, -, -, -, -, -, -, hmems, -⟩ := h.stands
  have hwords : d.ddrWords = c.ddrWords := by rw [Chip.ddrWords, Chip.ddrWords, hmems]
  rw [Chip.ptrValid, Chip.ptrValid, hwords]

theorem islandAccess (h : Touches P c d) (i : Island) : d.islandAccess i = c.islandAccess i := by
  obtain ⟨-, -, hisl, -⟩ := h.stands
  simp only [Chip.islandAccess, Chip.island, hisl]

theorem spaceAccess (h : Touches P c d) (hP : ¬ P Reg.MEM_DDR_STATUS) (sp : Nat) : d.spaceAccess sp = c.spaceAccess sp := by
  simp only [Chip.spaceAccess, h.islandAccess, h.b (x := Fld.MEM_DDR_STATUS_TRAINED) hP, h.b (x := Fld.MEM_DDR_STATUS_TRAIN_FAILED) hP]

theorem hostRefusal (h : Touches P c d) (hP : ¬ P Reg.SYS_STATE) (hQ : ¬ P Reg.PWR_STATUS) (sp a : Nat) :
    d.hostRefusal sp a = c.hostRefusal sp a := by
  simp only [Chip.hostRefusal, Chip.stateRefused, h.dev hP, h.power hQ, h.ptrValid]

end Touches

/-! ### Access frames (R399) -/

/-- The check units do not watch the chain's accesses as those of a host. -/
theorem readSeen_chain {sp : Nat} (h : sp ≠ 4) (w : Word) (last : Bool) : readSeen 4 sp w last c = c := by
  simp only [readSeen, if_neg h, dmaSeen]
  exact if_neg (by decide)

theorem writeSeen_chain (x : SlotWrite) (last : Bool) : writeSeen 4 x last c = c := by
  simp only [writeSeen, dmaSeen]
  exact if_neg (by decide)

theorem hostRead_word {p sp a : Nat} (o : Store Nat) (h : c.hostRefusal sp a = none) (hsp : sp < 4) :
    hostRead p o sp a c = readWordBy .a (ptrOf sp a) c := by
  rw [hostRead, h]
  exact if_neg (by omega)

theorem hostReads_one (p : Nat) (o : Store Nat) (sp a : Nat) : hostReads p o sp a 1 c =
    ([(hostRead p o sp a c).1], readSeen p sp (hostRead p o sp a c).1 true (hostRead p o sp a c).2) := by
  simp only [hostReads, BEq.rfl]

theorem serveAccess_read {src sp a : Nat} {o : Store Nat} {ws : List Word} {d : Chip} (h : c.hostRefusal sp a = none)
    (hread : hostReads 4 o sp a 1 c = (ws, d)) : serveAccess src sp a false 1 [] o c = sendFrame 5 false src 0 ws d := by
  simp only [serveAccess, if_neg Bool.false_ne_true, h, hread, if_pos (show 1 ≤ 1 ∧ 1 ≤ 64 by decide)]

/-- A read of one word of a memory is answered with it. -/
theorem serveAccess_reads {src sp a : Nat} (o : Store Nat) (h : c.hostRefusal sp a = none) (hsp : sp < 4) :
    ∃ d, Reads c d ∧ serveAccess src sp a false 1 [] o c = sendFrame 5 false src 0 [(readWordBy .a (ptrOf sp a) c).1] d := by
  have hread : hostReads 4 o sp a 1 c = ([(readWordBy .a (ptrOf sp a) c).1], (readWordBy .a (ptrOf sp a) c).2) := by
    rw [hostReads_one, hostRead_word c o h hsp, readSeen_chain _ (by omega)]
  exact ⟨(readWordBy .a (ptrOf sp a) c).2, readWordBy_reads c .a _, serveAccess_read c h hread⟩

theorem serveAccess_writes (src sp a count : Nat) (w : Word) (o : Store Nat) : serveAccess src sp a true count [w] o c =
    (hostWrite sp a { tag := BitVec.ofNat 4 w.tag.num, payload := w.payload, full := true } c).2 := by
  simp only [serveAccess, if_true, List.map_cons, List.map_nil, hostWrites, writeSeen_chain]

/-! ### Mirroring (R186) -/

/-- A forward from another chip is counted and refused. -/
theorem mirrorIn_refused {src : Nat} (n : Nat) (ws : List (Nat × Word)) (hacc : c.b Fld.MEM_MIRROR_CTRL_ACCEPT = true)
    (hsrc : c.f Fld.MEM_MIRROR_CTRL_SOURCE ≠ src) :
    mirrorIn src n ws c = (c.bump Fld.MEM_MIRROR_COUNTS_REJECTED).raise .mem 8 := by
  simp only [mirrorIn, hacc, Bool.not_true, if_neg Bool.false_ne_true, if_pos hsrc]

/-- The first codeword of one from the source is written. -/
theorem mirrorIn_first {src : Nat} (n : Nat) (w0 w1 : Word) (hacc : c.b Fld.MEM_MIRROR_CTRL_ACCEPT = true)
    (hsrc : c.f Fld.MEM_MIRROR_CTRL_SOURCE = src) (hserved : c.spaceAccess 3 = .served)
    (hvalid : c.ptrValid (ptrOf 3 (0x8000000 + 4 * n) + 3) = true) :
    mirrorIn src n [(0, w0), (1, w1)] c = writePair (ptrOf 3 (0x8000000 + 4 * n)) w0 w1 c := by
  have hgood : ¬ (c.spaceAccess 3 ≠ .served ∨ ¬ c.ptrValid (ptrOf 3 (0x8000000 + 4 * n + 3)) = true) :=
    not_or.mpr ⟨not_not_intro hserved, not_not_intro hvalid⟩
  simp only [mirrorIn, hacc, Bool.not_true, if_neg Bool.false_ne_true, if_neg (not_not_intro hsrc), if_neg hgood]
  rfl

/-! ### Takeover (R406) -/

theorem keepKeys_mbxOf (j : Job) (ks : Store (List Nat)) (p : Nat) : (keepKeys j ks c).mbxOf p = c.mbxOf p := (rfl)

theorem settled_mbxOf (s : State) (d : Chip) (p : Nat) : (settled s d).chip.mbxOf p = d.mbxOf p := (rfl)

/-- A takeover of no record completes in its first step. -/
theorem opTakeover_none {args : List Word} (href : takeoverRefusal (argOf args 0) (argOf args 1) (.int 0) c = none)
    (hcount : argOf args 2 = .int 0) (hidle : c.gang.takeover = none) :
    opTakeover args 0 c = (some (.int 0), 0, (c.setB Fld.MEM_MIRROR_CTRL_ACCEPT false).raise .host 6) := by
  have hidle' : (c.setB Fld.MEM_MIRROR_CTRL_ACCEPT false).gang.takeover = none := hidle
  have hstep : takeoverStep (c.setB Fld.MEM_MIRROR_CTRL_ACCEPT false) = c.setB Fld.MEM_MIRROR_CTRL_ACCEPT false := by
    simp only [takeoverStep, hidle']
  have hzero : (Word.int 0).nat = 0 := by decide
  have hint : (Word.int 0).toInt = 0 := by decide
  simp only [opTakeover, hcount, href, hidle, ne_eq, not_true_eq_false, if_false, Option.isSome_none, Bool.false_eq_true, hzero, hint,
    if_true, hstep, hidle', Option.isNone_none]

/-- The engine's step of such a takeover. -/
theorem takeoverRow_none {p : Nat} (o : Store Nat) (hpick : c.pick 3 = some (.mbx p)) (hc : (c.mbxOf p).code = 0x09)
    (h0 : (c.mbxOf p).steps = 0) (hidle : c.gang.takeover = none)
    (href : takeoverRefusal (argOf (c.mbxOf p).args 0) (argOf (c.mbxOf p).args 1) (.int 0) c = none)
    (hcount : argOf (c.mbxOf p).args 2 = .int 0) :
    takeoverRow p o c = finishJobWith (.mbx p) 0x09 (.int 0)
      (noteStep (.mbx p) 1 0 none ((c.setB Fld.MEM_MIRROR_CTRL_ACCEPT false).raise .host 6)) := by
  have hwork : c.work (.mbx p) = some (mbxWork (c.mbxOf p)) := rfl
  have hcode : (mbxWork (c.mbxOf p)).code = 0x09 := hc
  have hsteps : (mbxWork (c.mbxOf p)).steps = 0 := h0
  have hdram : c.worksInDram (mbxWork (c.mbxOf p)) = false := by
    simp only [Chip.worksInDram, hcode]
    rfl
  have hrun : runStep (.mbx p) (mbxWork (c.mbxOf p)) o c =
      (some (.int 0), 0, none, (c.setB Fld.MEM_MIRROR_CTRL_ACCEPT false).raise .host 6) := by
    have htake : opTakeover (mbxWork (c.mbxOf p)).args (mbxWork (c.mbxOf p)).steps c =
        (some (.int 0), 0, (c.setB Fld.MEM_MIRROR_CTRL_ACCEPT false).raise .host 6) := by
      rw [hsteps]
      exact opTakeover_none c href hcount hidle
    simp only [runStep, hcode, htake]
  rw [takeoverRow, if_pos (by simp [hpick, hc]), engineStep_job _ hpick]
  rw [show noteYield 3 (.mbx p) c = c from rfl, stepJob_effect _ hwork hdram (by rw [hcode]; rfl), effectStep_some _ hrun, hcode, hsteps]

/-- Its reply, and what stands after it. -/
theorem takeoverEnds_reads {p : Nat} {m : Mbx} (hm : c.mbxOf p = m) (hb : m.busy = true) (hr : m.result = none) :
    let d := finishJobWith (.mbx p) 0x09 (.int 0) (noteStep (.mbx p) 1 0 none c)
    d.regs = c.regs ∧ (d.mbxOf p).result = some [.int 0, .bits (b2n c.gang.breakSeen)] := by
  have hnote : noteStep (.mbx p) 1 0 none c = setMbx p { m with steps := 1, prog := 0 } c := by
    simp only [noteStep, hm, hb, if_true]
  have hok : ((0x09 : Nat) = 0x09 ∧ resultStatus (.int 0) = 0) := ⟨rfl, by decide⟩
  have hof : (keepKeys (.mbx p) [] (setMbx p { m with steps := 1, prog := 0 } c)).mbxOf p = { m with steps := 1, prog := 0 } :=
    (keepKeys_mbxOf _ _ _ _).trans (setMbx_mbxOf _ _ _)
  have hend : finishJobWith (.mbx p) 0x09 (.int 0) (noteStep (.mbx p) 1 0 none c) =
      setMbx p { m with steps := 1, prog := 0, result := some [.int 0, .bits (b2n c.gang.breakSeen)] }
        (keepKeys (.mbx p) [] (setMbx p { m with steps := 1, prog := 0 } c)) := by
    rw [hnote]
    simp only [finishJobWith, hok, and_self, if_true, if_neg (show ¬ (0x50 ≤ 0x09 ∧ 0x09 ≤ 0x59) by decide)]
    rw [finishMbx_waits _ _ _ (by rw [hof]; exact hb) (by rw [hof]; exact hr), hof]
    rfl
  intro d
  simp only [d, hend]
  exact ⟨rfl, congrArg Mbx.result (setMbx_mbxOf _ _ _)⟩

end Sys2Proof.Machine
end

section
namespace Sys2Proof
open Machine Safety

/-- Settles O43: a unicast is consumed by its destination, the request, response or forward it carries served there. -/
theorem chainAccess : Obligations.ChainAccess := by
  intro s h hon hh hb
  refine ⟨fun hdst ws => ?_, fun hdst => ⟨fun sp a href hsp => ?_, fun sp a w => ?_, fun ws r hr => ?_, fun op handle ws hacc =>
    ⟨fun hsrc => ?_, fun w0 w1 hsrc hserved hop hws => ?_⟩⟩, fun p => ?_⟩
  · have ht := arrivesAt_touches s.chip h 5 0 ws
    refine ⟨_, passedOn h 5 0 ws, next_chip (arrive_passes 5 0 ws _ hon hh hb hdst), ?_, rfl, rfl, rfl, rfl, rfl⟩
    dsimp only
    rw [forwardFrame_gang, ht.gang]
  · intro c
    have ht := arrivesAt_touches s.chip h 4 0 [.mk' .ptr (ptrOf sp.toNat a.toNat), .int 1]
    obtain ⟨d, hd, heq⟩ := serveAccess_reads c (src := h.src.toNat) s.otp
      (((ht.hostRefusal (by decide) (by decide) _ _).trans href) : c.hostRefusal sp.toNat a.toNat = none) hsp
    refine ⟨_, ownFrame 5 false h.src.toNat 0 [(readWordBy .a (ptrOf sp.toNat a.toNat) c).1] d,
      next_chip ((arrive_consumed 4 0 [.mk' .ptr (ptrOf sp.toNat a.toNat), .int 1] _ hon hh hb hdst).trans heq), ?_, rfl, rfl, rfl⟩
    dsimp only
    rw [sendFrame_gang, hd.gang, ht.gang]
  · intro c
    exact next_chip ((arrive_consumed 4 1 [.mk' .ptr (ptrOf sp.toNat a.toNat), w] _ hon hh hb hdst).trans
      (serveAccess_writes c h.src.toNat sp.toNat a.toNat 1 w s.otp))
  · intro c
    have ht := arrivesAt_touches s.chip h 5 0 ws
    refine next_chip ((arrive_consumed 5 0 ws _ hon hh hb hdst).trans ?_)
    have hr' : ((arrivesAt h 5 0 ws s.chip).gang.remote.find? fun r => r.chip == h.src.toNat) = some r := by
      rw [ht.gang]
      exact hr
    simp only [hr', c]
  · have ht := arrivesAt_touches s.chip h 6 op.val (handle :: ws)
    refine next_chip ((arrive_consumed 6 op.val (handle :: ws) _ hon hh hb hdst).trans ?_)
    exact mirrorIn_refused _ _ _ ((ht.b (by decide)).trans hacc) (by rw [ht.f (by decide)]; exact hsrc)
  · intro k hvalid _ _
    subst hop hws
    have ht := arrivesAt_touches s.chip h 6 1 [handle, w0, w1]
    have heq : mirrorFrame h 1 handle [w0, w1] s.chip = writePair k w0 w1 (arrivesAt h 6 1 [handle, w0, w1] s.chip) :=
      (arrive_consumed 6 1 [handle, w0, w1] _ hon hh hb hdst).trans (mirrorIn_first _ _ w0 w1 ((ht.b (by decide)).trans hacc)
        ((ht.f (by decide)).trans hsrc) ((ht.spaceAccess (by decide) 3).trans hserved) ((ht.ptrValid _).trans hvalid))
    have heven : evenOf k = k := by simp only [evenOf, k, ptrOf]; omega
    refine ⟨_, next_chip heq, ?_, ?_⟩ <;> dsimp only <;> rw [stored_writePair, heven]
    · rw [if_neg (by omega), if_pos rfl]
    · rw [if_pos rfl]
  · intro m hpick hbusy hres hcode h0 hidle href hcount
    have heq := takeoverRow_none s.chip s.otp hpick hcode h0 hidle href hcount
    obtain ⟨hregs, hreply⟩ := takeoverEnds_reads ((s.chip.setB Fld.MEM_MIRROR_CTRL_ACCEPT false).raise .host 6) (p := p.val) (m := m)
      (by rw [Chip.mbxOf, Chip.raise_mbx, Chip.setB_mbx, ← Chip.mbxOf]) hbusy hres
    refine ⟨settled s _, by change onChipBurn (takeoverRow p.val) s = _; rw [onChipBurn, heq]; rfl, ?_, ?_, ?_⟩
    · rw [settled_b, Chip.b_regs, hregs, Chip.raise_regs_put, regF_putF_ne _ _ _ _ (.inl (by decide)), ← Chip.b_regs]
      exact Chip.b_setB _ _ _ rfl (by decide)
    · rw [settled_mbxOf, hreply, Chip.raise_gang, Chip.setB_gang]
    · rw [settled_b, Chip.b_regs, hregs, Chip.raise_regs_put, Block.host_status, regF_putF _ ⟨Reg.HOST_INT_STATUS, 6, 1⟩ 1 (by decide)]
      rfl

end Sys2Proof
end

section
/-! SUPPORT. Retunes and gain (R48 to R55): what chain B's FOLLOW leaves behind. -/

namespace Sys2Proof.Machine
open Safety

variable (c : Chip)

/-- The receive chains' settings and synthesizers, which no placement of a lane changes. -/
def chainView (c : Chip) : Store Synth × Bool × Bool := (c.radio.synths, c.radio.followDue, c.follows)

theorem laneGeo_radio (n : Nat) : ∃ l, (laneGeo n c).radio = { c.radio with lanes := l } := by
  simp only [laneGeo, apply_ite Chip.radio, Chip.raise_radio, Chip.setB_radio, Chip.setF_radio, setLaneSt, Chip.onRadio_radio, ite_self]
  exact ⟨_, rfl⟩

/-- A lane's placement writes its own registers alone. -/
theorem laneGeo_f (n : Nat) (x : Field) (h : x.reg ≠ Reg.LANE_STATUS n) (h' : x.reg ≠ Reg.LANE_INT_STATUS n) :
    (laneGeo n c).f x = c.f x := by
  have hset : ∀ (d : Chip) y v, y.reg = Reg.LANE_STATUS n → (d.setF y v).f x = d.f x := fun d y v hy =>
    Chip.f_setF_ne _ _ _ _ (.inl (by rw [hy]; exact h))
  have hflag : ∀ (d : Chip) y v k, y.reg = Reg.LANE_STATUS n → ((d.setB y v).raise (.lane n) k).f x = d.f x := fun d y v k hy => by
    rw [Chip.f_regs, Chip.raise_regs_put, regF_putF_ne _ _ _ _ (.inl h'), ← Chip.f_regs]
    exact hset d y _ hy
  simp only [laneGeo]
  split
  · rw [hflag _ _ _ _ rfl]
    refine (hset _ _ _ rfl).trans ?_
    split
    · exact (hset _ _ _ rfl).trans (hset _ _ _ rfl)
    · exact hset _ _ _ rfl
  · refine (hset _ _ _ rfl).trans ?_
    split
    · exact (hset _ _ _ rfl).trans (hset _ _ _ rfl)
    · exact hset _ _ _ rfl

theorem laneGeo_chainView (n : Nat) : chainView (laneGeo n c) = chainView c := by
  obtain ⟨l, hl⟩ := laneGeo_radio c n
  have hfollow : (laneGeo n c).follows = c.follows := by
    rw [Chip.follows, Chip.follows, Chip.b, Chip.b, laneGeo_f c n _ (show 0x8010 + 0x10 * 1 ≠ 0xa005 + 0x40 * n by omega)
      (show 0x8010 + 0x10 * 1 ≠ 0xa009 + 0x40 * n by omega)]
  rw [chainView, chainView, hfollow, hl]

theorem lanesCombine_chainView : chainView (lanesCombine c) = chainView c := by
  refine foldl_same chainView (fun d n => if d.laneChain n = 2 then laneGeo n d else d) (fun d n => ?_) c.laneNumbers c
  split
  · exact laneGeo_chainView d n
  · rfl

/-- Chain B starts to follow: its armed retune is dropped, and the retune to chain A's centre is due. -/
theorem followWrite_true (hon : c.isOn .rfRxB = true) (hfol : c.follows = false) :
    followWrite true c = lanesCombine ((refreshChain 1 (setSynth 1 { (c.synth 1) with armed := none }
      (c.setB (Fld.RF_CHAIN_CTRL_FOLLOW 1) true))).onRadio fun r => { r with
        followDue := (refreshChain 1 (setSynth 1 { (c.synth 1) with armed := none }
          (c.setB (Fld.RF_CHAIN_CTRL_FOLLOW 1) true))).b (synthEnable 1) &&
          (match (c.synth 0).lockAt with | some _ => (c.synth 0).target | none => c.regN (synthNow 0)) != 0 }) := by
  simp [followWrite, hon, hfol] <;> rfl

theorem refreshChain_b {x : Nat} (y : Field) (h : y.reg ≠ Reg.RF_CHAIN_STATUS x) : (refreshChain x c).b y = c.b y := by
  unfold refreshChain
  split
  · rfl
  · simp (disch := exact .inl h) only [Chip.b_regs, Chip.setB_regs, regF_putF_ne]

theorem refreshChain_radio (x : Nat) : (refreshChain x c).radio = c.radio := by
  unfold refreshChain
  split
  · rfl
  · rfl

theorem followWrite_reads (hon : c.isOn .rfRxB = true) (hfol : c.follows = false) (hen : c.b (synthEnable 1) = true)
    (hf : (match (c.synth 0).lockAt with | some _ => (c.synth 0).target | none => c.regN (synthNow 0)) ≠ 0) :
    chainView (followWrite true c) = (Store.put .idle c.radio.synths 1 { (c.synth 1) with armed := none }, true, true) := by
  have hset : (c.setB (Fld.RF_CHAIN_CTRL_FOLLOW 1) true).b (synthEnable 1) = true := by
    rw [Chip.b_regs, Chip.setB_regs, regF_putF_ne _ _ _ _ (.inr (by decide)), ← Chip.b_regs, hen]
  have hkeep : (refreshChain 1 (setSynth 1 { (c.synth 1) with armed := none } (c.setB (Fld.RF_CHAIN_CTRL_FOLLOW 1) true))).b
      (synthEnable 1) = true := (refreshChain_b _ _ (by decide)).trans hset
  have hfollow : (refreshChain 1 (setSynth 1 { (c.synth 1) with armed := none } (c.setB (Fld.RF_CHAIN_CTRL_FOLLOW 1) true))).follows =
      true := (refreshChain_b _ _ (by decide)).trans (Chip.b_setB _ _ _ rfl (by decide))
  have hcentre := bne_iff_ne.mpr hf
  rw [followWrite_true c hon hfol, lanesCombine_chainView, chainView, Chip.follows, Chip.onRadio_b, ← Chip.follows, hfollow]
  simp only [Chip.onRadio_radio, hkeep, hcentre, Bool.and_self, refreshChain_radio]
  rfl

end Sys2Proof.Machine
end
section
namespace Sys2Proof
open Machine Safety

/-- Settles O44: each command of a synthesizer and of the gain control by its definition; FOLLOW by what the lanes leave alone. -/
theorem retunesAndGain : Obligations.RetunesAndGain := by
  intro s x hon
  refine ⟨fun g => ⟨fun hfol => ?_, fun hfol hidle => ?_⟩, fun g harm hdue hidle => ⟨fun hen => ?_, fun hen => ?_⟩, fun g hlock hdue => ?_,
    fun hen hstep hdead => ?_, fun hen => ?_, fun hx hfol => ?_, ⟨fun hx hfol hf hen => ?_, fun hx hdue hfol hen => ⟨fun hlock => ?_, fun hlock => ?_⟩⟩,
    fun y hy hlive => ⟨fun hman hsince => ⟨?_, ?_⟩, fun hman hgain hsince => ?_, fun i => ?_, fun hman => ?_⟩⟩
  · have heq : retuneAtWrite x.val g s.chip = s.chip.regReject := by simp only [retuneAtWrite, hfol, Bool.or_true, if_true]
    exact next_chip heq
  · have hgate : (! s.chip.isOn (synthIsland x) || s.chip.followed x) = false := by rw [hon, hfol]; rfl
    have heq : retuneAtWrite x.val g s.chip =
        refreshChain x (setSynth x { s.chip.synth x with armed := some (s.chip.dueAt g) }
          ((if x.val = 2 then s.chip.onRadio fun r => { r with autoFor := none } else s.chip).setRegN (synthAt x) g.toNat)) := by
      simp only [retuneAtWrite, hgate, if_neg Bool.false_ne_true, hidle]
    exact next_chip heq
  · have hgate : (decide (s.chip.now < g) || (s.chip.synth x).lockAt.isSome || ! s.chip.isOn (synthIsland x)) = false := by
      simp [hdue, hidle, hon]
    have heq : retuneStart x.val s.chip = refreshChain x (setSynth x { s.chip.synth x with armed := none } s.chip) := by
      simp only [retuneStart, harm, hgate, hen, if_neg Bool.false_ne_true, Bool.not_false, if_true]
    exact next_chip heq
  · intro f c d
    have hgate : (decide (s.chip.now < g) || (s.chip.synth x).lockAt.isSome || ! s.chip.isOn (synthIsland x)) = false := by
      simp [hdue, hidle, hon]
    have heq : retuneStart x.val s.chip = if x.val = 0 ∧ s.chip.follows = true ∧ d.isOn .rfRxB = true ∧ d.b (synthEnable 1) = true then
        beginRetune 1 f (settling (s.chip.regN (synthNow 1)) f) d else d := by
      have hbegin : retuneStart x.val s.chip = if x.val == 0 && s.chip.follows && d.isOn .rfRxB && d.b (synthEnable 1) then
          beginRetune 1 f (settling (s.chip.regN (synthNow 1)) f) d else d := by
        simp only [retuneStart, harm, hgate, hen, if_neg Bool.false_ne_true, Bool.not_true]
        rfl
      simp only [hbegin, Bool.and_eq_true, beq_iff_eq, and_assoc]
    exact next_chip heq
  · intro c
    have hgate : (decide (s.chip.now < g) || ! s.chip.isOn (synthIsland x)) = false := by simp [hdue, hon]
    have heq : chainRelocked x.val s.chip = remashLocked (if x.val = 2 then activeChanged s.chip.allowed c
        else lanesCombine (lanesAwaited x (chainLocked x c))) := by
      simp only [chainRelocked, retuneLocked, hlock, hgate, if_neg Bool.false_ne_true, c]
    exact next_chip heq
  · intro c d
    have hgate : (! s.chip.isOn (synthIsland x) || (true && s.chip.stepCode 2 == 2) || (x.val == 2 && true && s.chip.dev == devDead)) =
        false := by simp [hon, hstep, hdead]
    have heq : chainEnableWrite x.val true s.chip = if x.val = 0 then followChain d else d := by
      simp only [chainEnableWrite, hgate, hen, if_neg Bool.false_ne_true, if_true, d, c]
      rfl
    exact next_chip heq
  · intro c
    have hgate : (! s.chip.isOn (synthIsland x) || (false && s.chip.stepCode 2 == 2) || (x.val == 2 && false && s.chip.dev == devDead)) =
        false := by simp [hon]
    have heq : chainEnableWrite x.val false s.chip = if x.val = 2 then cutCarriers (c.onRadio fun r => { r with autoFor := none })
        else lanesCombine (chainStops x 1 c) := by
      simp only [chainEnableWrite, hgate, hen, if_neg Bool.false_ne_true, c]
      rfl
    exact next_chip heq
  · have honB : s.chip.isOn .rfRxB = true := by rw [hx] at hon; exact hon
    have heq : followWrite false s.chip = lanesCombine ((s.chip.setB (Fld.RF_CHAIN_CTRL_FOLLOW 1) false).onRadio fun r =>
        { r with followDue := false }) := by
      simp [followWrite, honB, hfol]
    exact next_chip heq
  · have honB : s.chip.isOn .rfRxB = true := by rw [hx] at hon; exact hon
    have hview := followWrite_reads s.chip honB hfol hen hf
    rw [chainView, Prod.mk.injEq, Prod.mk.injEq] at hview
    obtain ⟨hsynths, hdue, hfollows⟩ := hview
    refine ⟨_, rfl, hfollows, hdue, ?_, ?_⟩ <;> dsimp only <;> rw [Chip.synth, hsynths, Store.get_put_same]
  · have hsome : (! s.chip.radio.followDue || (s.chip.synth 1).lockAt.isSome) = true := by
      rw [Option.isSome_iff_ne_none.mpr hlock, Bool.or_true]
    rw [followTick, if_pos hsome]
  · have honB : s.chip.isOn .rfRxB = true := by rw [hx] at hon; exact hon
    have hready : (! s.chip.radio.followDue || (s.chip.synth 1).lockAt.isSome) = false := by rw [hdue, hlock]; rfl
    have hgo : (s.chip.follows && s.chip.isOn .rfRxB && s.chip.b (synthEnable 1)) = true := by rw [hfol, honB, hen]; rfl
    cases hlockA : (s.chip.synth 0).lockAt with
    | none => simp only [followTick, hready, if_neg Bool.false_ne_true, hgo, if_true, hlockA]
    | some g => simp only [followTick, hready, if_neg Bool.false_ne_true, hgo, if_true, hlockA]
  · have heq : gainStepDown y.val false s.chip = gainStep y (min 7 (s.chip.gainIndex y + 1)) s.chip := by
      simp only [gainStepDown, hlive, hman, hsince, Bool.not_true, Bool.or_self, if_neg Bool.false_ne_true]
    exact next_chip heq
  · have heq : gainStepDown y.val true s.chip = gainStep y (min 7 (s.chip.gainIndex y + 3))
        (markFrames y true none ((s.chip.setB (Fld.RF_CHAIN_STATUS_OVERLOAD y) true).raise .rf y)) := by
      simp only [gainStepDown, hlive, hman, hsince, Bool.not_true, Bool.or_self, if_neg Bool.false_ne_true, if_true]
    exact next_chip heq
  · have heq : gainStepUp y.val s.chip = gainStep y (s.chip.gainIndex y - 1) s.chip := by
      rw [gainStepUp, if_pos (by simp [hlive, hman, hgain, hsince])]
    exact next_chip heq
  · have hony : s.chip.isOn (synthIsland y.val) = true := hy ▸ hon
    have heq : manualIndexWrite y.val i.val s.chip = s.chip.setF (Fld.RF_CHAIN_CTRL_MANUAL_INDEX y) i := by
      rw [manualIndexWrite, hony]
      exact if_neg Bool.false_ne_true
    exact next_chip heq
  · simp only [Chip.gainLive, Bool.and_eq_true] at hlive
    obtain ⟨⟨hony, -⟩, hclear⟩ := hlive
    rw [applyManual, if_pos (by rw [hman, hony, hclear]; rfl)]

end Sys2Proof
end

section
/-! SUPPORT. Transmit settings and calibration (R61 to R72). -/

namespace Sys2Proof.Machine
open Safety

variable (c : Chip)

theorem setB_onRadio (g : Radio → Radio) (x : Field) (v : Bool) : (c.onRadio g).setB x v = (c.setB x v).onRadio g := (rfl)

theorem onRadio_onRadio (g h : Radio → Radio) : (c.onRadio g).onRadio h = c.onRadio fun r => h (g r) := (rfl)

/-- A result in RF_CAL_STATUS, with its flag raised. -/
theorem calResult_raised (st : Status) (hst : st.code < 2 ^ 12) :
    ((calResult st c).raise .rf 9).f Fld.RF_CAL_STATUS_RESULT = st.code := by
  rw [Chip.raise_f_reg _ _ _ _ (by decide), calResult, Chip.f_setF _ _ _ (by decide)]
  exact Nat.mod_eq_of_lt hst

theorem calResult_b (st : Status) (x : Field) (h : x.reg ≠ Reg.RF_INT_STATUS)
    (h' : x.lo + x.w ≤ 12) : ((calResult st c).raise .rf 9).b x = c.b x := by
  rw [Chip.b, Chip.raise_f_reg _ _ _ _ h, calResult, Chip.f_setF_ne _ _ _ _ (.inr ⟨by omega, .inl h'⟩), Chip.b]

theorem writeMramBytes_free (xs : List Nat) (b : Nat) : (writeMramBytes b xs c).free = c.free := by
  induction xs generalizing c b with
  | nil => rfl
  | cons x xs ih => rw [writeMramBytes, ih]; rfl

theorem calTaken_cal : (calTaken c).radio.cal = c.radio.cal := (rfl)

theorem calTaken_synth (x : Nat) : (calTaken c).synth x = c.synth x := (rfl)

/-- A calibration that has ended. -/
theorem calDone_eq {t e : Nat} (hcal : c.radio.cal = some (t, e)) (hdue : e ≤ c.now) (hon : c.isOn .rfTx = true) :
    calDone c = (calResult .ok ((calTaken ([0, 1].foldl (fun d x => setSynth x { (d.synth x) with calUntil := none } d)
      (c.onRadio fun r => { r with cal := none }))).setB Fld.RF_CAL_STATUS_BUSY false)).raise .rf 9 := by
  have hgate : (decide (c.now < e) || ! c.isOn .rfTx) = false := by simp [hdue, hon]
  simp only [calDone, hcal, hgate, if_neg Bool.false_ne_true]

/-- Both receive chains are out of calibration. -/
theorem calCleared_synth (x : Nat) (hx : x < 2) :
    (([0, 1].foldl (fun d x => setSynth x { (d.synth x) with calUntil := none } d) c).synth x).calUntil = none := by
  simp only [List.foldl_cons, List.foldl_nil]
  by_cases h : x = 1
  · subst h
    rw [setSynth, Chip.synth, Chip.onRadio_radio, Store.get_put_same]
  · have h0 : x = 0 := by omega
    subst h0
    rw [setSynth, Chip.synth, Chip.onRadio_radio, Store.get_put_ne _ _ _ _ _ _ h, setSynth, Chip.onRadio_radio, Store.get_put_same]

theorem calCleared_cal (h : c.radio.cal = none) :
    ([0, 1].foldl (fun d x => setSynth x { (d.synth x) with calUntil := none } d) c).radio.cal = none := h

end Sys2Proof.Machine
end

section
namespace Sys2Proof
open Machine Safety

/-- Settles O45: each command of the transmitter by its definition, what training and calibration find left free. -/
theorem transmitSettingsAndCalibration : Obligations.TransmitSettingsAndCalibration := by
  intro s hon
  refine ⟨fun hc hpa => ?_, fun t => ?_, fun imd papr steady hair himd hno => ?_, fun set better hset => ⟨fun hbetter => ?_, fun hcur hbetter => ?_⟩,
    fun set hset => ⟨fun hclear => ?_, fun hclear => ?_⟩, fun hpa hbusy hcar hfree hbin => ?_, fun set e hburst hdue => ?_, fun k w => ?_,
    fun t hbusy => ?_, fun hbusy => ⟨?_, fun hcar => ?_⟩, fun t e hcal hdue => ?_, fun hmram => ?_, fun hmram => ⟨fun hnow => ?_, fun hnow => ?_⟩⟩
  · have heq : txConfigApply s.chip = activeChanged 0 (s.chip.onRadio fun r => { r with
        effMax := s.chip.f Fld.RF_TX_CTRL_CARRIER_MAX
        effTotal := s.chip.fI Fld.RF_TX_POWER_TOTAL_QDBM }) := by
      simp only [txConfigApply, hc, hon, Bool.not_true, Bool.or_self, if_neg Bool.false_ne_true, if_pos hpa]
      rw [Chip.onRadio, Chip.onRadio, hpa]
    exact next_chip heq
  · have heq : dieTempMeasure t.toInt s.chip = activeChanged s.chip.allowed ((s.chip.setF Fld.RF_DPD_STATUS_DIE_TEMP
        (unsigned 8 t.toInt)).onRadio fun r => { r with tempBin := some (s.chip.binAfter t.toInt) }) := by
      simp only [dieTempMeasure, hon, Bool.not_true, if_neg Bool.false_ne_true]
    exact next_chip heq
  · have hgate : (! s.chip.isOn .rfTx || ! s.chip.onAir) = false := by rw [hon, hair]; rfl
    have hps : (papr && steady) = false := by rcases hno with h | h <;> rw [h] <;> simp
    have heq : dpdCapture imd papr steady s.chip =
        activeChanged s.chip.allowed (setDpd (24 * s.chip.activeSet + 22) (.int imd) s.chip) := by
      simp only [dpdCapture, hgate, hps, if_neg Bool.false_ne_true, Bool.false_and, Nat.not_lt.mpr himd, decide_false]
    exact next_chip heq
  · have hgo : (s.chip.dpdState set != dpdCurrent || better) = true := by
      rcases hbetter with h | h
      · rw [bne_iff_ne.mpr h, Bool.true_or]
      · rw [h, Bool.or_true]
    have heq : dpdSolveDone better s.chip = ((s.chip.setB Fld.RF_DPD_STATUS_SOLVING false).setB Fld.RF_DPD_STATUS_SWAP_PENDING
        true).onRadio fun r => { r with
          solveSet := none
          swapSet := some set
          solveTemp := s.chip.fI Fld.RF_DPD_STATUS_DIE_TEMP } := by
      simp only [dpdSolveDone, hset, hgo, if_true, setB_onRadio, onRadio_onRadio]
    exact next_chip heq
  · have hstay : (s.chip.dpdState set != dpdCurrent || better) = false := by rw [hcur, hbetter]; rfl
    have heq : dpdSolveDone better s.chip = (s.chip.setB Fld.RF_DPD_STATUS_SOLVING false).onRadio fun r => { r with solveSet := none } := by
      simp only [dpdSolveDone, hset, hstay, if_neg Bool.false_ne_true]
    exact next_chip heq
  · have heq : dpdSwap s.chip = s.chip := by
      simp only [dpdSwap, hset, hclear, Bool.not_false, Bool.true_or, if_true]
    exact next_chip heq
  · have heq : dpdSwap s.chip = activeChanged 0 ((trainSet set s.chip.radio.solveTemp
        ((s.chip.setB Fld.RF_DPD_STATUS_SWAP_PENDING false).onRadio fun r => { r with swapSet := none })).raise .rf 8) := by
      simp only [dpdSwap, hset, hclear, hon, Bool.not_true, Bool.or_self, if_neg Bool.false_ne_true]
    exact next_chip heq
  · have hext : (s.chip.radio.effPa == 1) = false := by rw [hpa]; rfl
    have hbins : (some (s.chip.f Fld.RF_DPD_CTRL_TRAIN_SET % 4) != s.chip.radio.tempBin) = false := by rw [hbin]; exact bne_self_eq_false _
    have heq : trainNow s.chip = (s.chip.setB Fld.RF_CAL_STATUS_BUSY true).onRadio fun r => { r with
        burst := some (s.chip.f Fld.RF_DPD_CTRL_TRAIN_SET, s.chip.now + 134218) } := by
      simp only [trainNow, hon, hext, hbusy, hcar, hfree, hbins, List.any_nil, Bool.not_true, Bool.or_self, if_neg Bool.false_ne_true,
        Bool.false_and]
    exact next_chip heq
  · have hgate : (decide (s.chip.now < e) || ! s.chip.isOn .rfTx) = false := by simp [hdue, hon]
    have heq : trainingBurstDone s.chip = activeChanged 0 ((calResult .ok ((trainSet set (s.chip.fI Fld.RF_DPD_STATUS_DIE_TEMP)
        (s.chip.onRadio fun r => { r with burst := none })).setB Fld.RF_CAL_STATUS_BUSY false)).raise .rf 9) := by
      simp only [trainingBurstDone, hburst, hgate, if_neg Bool.false_ne_true]
    exact next_chip heq
  · have heq : dpdStoreWrite k.val w s.chip = if k.val / 24 = s.chip.activeSet ∨ dpdLegal k w = false then s.chip.regReject
        else refreshTx (staleSets (setDpd k w s.chip)) := by
      simp only [dpdStoreWrite, hon, Bool.not_true, Bool.false_or, Bool.or_eq_true, beq_iff_eq, Bool.not_eq_true']
    exact next_chip heq
  · have hgate : (! s.chip.isOn .rfTx || s.chip.b Fld.RF_CAL_STATUS_BUSY) = true := by rw [hbusy, Bool.or_true]
    exact next_chip (if_pos hgate)
  · have hgate : (! s.chip.isOn .rfTx || s.chip.b Fld.RF_CAL_STATUS_BUSY) = false := by rw [hon, hbusy]; rfl
    have heq : startCal 0 s.chip = calChain 0 (s.chip.now + 67109) (((s.chip.setF Fld.RF_CAL_CTRL_TARGET 0).setB Fld.RF_CAL_STATUS_BUSY
        true).onRadio fun r => { r with cal := some (0, s.chip.now + 67109) }) := by
      simp only [startCal, hgate, if_neg Bool.false_ne_true, if_neg (show ¬ (2 ≤ 0 ∧ _) from fun h => absurd h.1 (by decide)), calDuration]
    exact next_chip heq
  · have hgate : (! s.chip.isOn .rfTx || s.chip.b Fld.RF_CAL_STATUS_BUSY) = false := by rw [hon, hbusy]; rfl
    have heq : startCal 2 s.chip = ((s.chip.setF Fld.RF_CAL_CTRL_TARGET 2).setB Fld.RF_CAL_STATUS_BUSY true).onRadio fun r => { r with
        cal := some (2, s.chip.now + 33554) } := by
      simp only [startCal, hgate, hcar, List.any_nil, if_neg Bool.false_ne_true, calDuration, if_neg (show ¬ (2 ≤ 2 ∧ false = true) by decide)]
    exact next_chip heq
  · refine ⟨_, next_chip (calDone_eq s.chip hcal hdue hon), ?_, ?_, ?_, fun x hx => ?_⟩ <;> dsimp only
    · rw [Chip.raise_radio, calResult, Chip.setF_radio, Chip.setB_radio, calTaken_cal]
      exact calCleared_cal _ rfl
    · rw [calResult_b _ _ _ (by decide) (by decide)]
      exact Chip.b_setB _ _ _ rfl (by decide)
    · exact calResult_raised _ .ok (by decide)
    · rw [Chip.synth, Chip.raise_radio, calResult, Chip.setF_radio, Chip.setB_radio, ← Chip.synth, calTaken_synth]
      exact calCleared_synth _ x hx
  · have heq : calSave s.chip = (calResult .stateRefused s.chip).raise .rf 9 := by
      simp only [calSave, hon, hmram, Bool.not_true, Bool.not_false, if_neg Bool.false_ne_true, if_true]
    exact next_chip heq
  · intro n
    have heq : calSave s.chip = (calResult .ok ((writeMramBytes (calLine n) s.chip.radio.calNow s.chip).onMems fun m => { m with
        calRecords := n + 1 })).raise .rf 9 := by
      simp only [calSave, hon, hmram, Bool.not_true, if_neg Bool.false_ne_true, if_neg hnow]
      rfl
    exact next_chip heq
  · have heq : calSave s.chip = (calResult .ok ((writeMramBytes (calLine s.chip.mems.calRecords) (calTaken s.chip).radio.calNow
        (calTaken s.chip)).onMems fun m => { m with calRecords := s.chip.mems.calRecords + 1 })).raise .rf 9 := by
      simp only [calSave, hon, hmram, Bool.not_true, if_neg Bool.false_ne_true, if_pos hnow]
    refine ⟨_, next_chip heq, ?_, ?_, ?_⟩ <;> dsimp only
    · rw [Chip.raise_mems, calResult, Chip.setF_mems, Chip.onMems_mems]
    · rw [Chip.raise_free, calResult, Chip.setF_free, Chip.onMems_free, writeMramBytes_free]
      rfl
    · exact calResult_raised _ .ok (by decide)

end Sys2Proof
end

section
/-! SUPPORT. The commands of a lane (R77 to R88): when each is taken. -/

namespace Sys2Proof.Machine
open Safety

variable {c : Chip} {n : Nat}

/-- A lane that is not held for a re-mash takes a write of its registers. -/
theorem laneWrite_takes {g : Chip → Chip} (h : c.laneState n ≠ laneQuiesced) : laneWrite n g c = g c := if_neg h

/-- A frame beyond 40 ppm is not tracked. -/
theorem frameEnd_far {f : Frame} (hf : c.laneFrame n = some f) (m : LaneMeasure) (hfar : within40ppm f.freq m.offset = false) :
    frameEnd n m c = c := by
  simp only [frameEnd, hf, hfar, Bool.and_false, if_neg Bool.false_ne_true]

section Up
variable (hup : c.laneUp n = true)
include hup

theorem laneEnable_eq (hoff : c.b (Fld.LANE_CTRL_ENABLE n) = false) : laneEnable n c =
    if c.laneClash n (c.regN (Reg.LANE_FREQ n)) (c.regN (Reg.LANE_PHY n)) then laneRefuse n c
    else laneSwitching_ n 64 false ((laneTake n (c.setB (Fld.LANE_CTRL_ENABLE n) true)).setF (Fld.LANE_STATUS_LAST_ABANDON n) 0) := by
  simp only [laneEnable, hup, hoff, Bool.not_true, if_neg Bool.false_ne_true]

/-- ENABLE falls: the frame is dropped and the lane is OFF. -/
theorem laneDisable_eq (hen : c.b (Fld.LANE_CTRL_ENABLE n) = true) : laneDisable n c =
    let d := dropWithMark n 6 (c.setB (Fld.LANE_CTRL_ENABLE n) false)
    setLaneState n laneOff (setLaneSt n { d.laneSt n with
      until_ := none
      done_ := false
      late := false } d) := by
  simp only [laneDisable, hup, hen, Bool.not_true, if_neg Bool.false_ne_true]

theorem laneSwitchAtWrite_arms (g : Payload) (hfree : c.b (Fld.LANE_STATUS_SCHEDULED n) = false) (hrest : (c.laneSt n).until_ = none) :
    laneSwitchAtWrite n g c = (setLaneSt n { c.laneSt n with
      switchAt := some (c.dueAt g)
      late := false } (c.setRegN (Reg.LANE_SWITCH_AT n) g.toNat)).setB (Fld.LANE_STATUS_SWITCH_ARMED n) true := by
  have hst : (c.setRegN (Reg.LANE_SWITCH_AT n) g.toNat).laneSt n = c.laneSt n := rfl
  simp only [laneSwitchAtWrite, hup, hfree, Bool.not_true, Bool.or_self, if_neg Bool.false_ne_true, laneArm, hst, hrest]

/-- At its grain a switch is made. -/
theorem laneSwitchDue_makes {g : Nat} (hq : c.laneState n ≠ laneQuiesced) (harm : (c.laneSt n).switchAt = some g) (hdue : g ≤ c.now)
    (hrest : (c.laneSt n).until_ = none) (hlate : (c.laneSt n).late = false) : laneSwitchDue n c = laneDoSwitch n c := by
  have hgate : (c.laneUp n && decide (g ≤ c.now) && (c.laneSt n).until_.isNone && ! (c.laneSt n).late &&
      c.laneState n != laneQuiesced) = true := by
    rw [hup, decide_eq_true hdue, hrest, hlate, bne_iff_ne.mpr hq]
    rfl
  simp only [laneSwitchDue, harm, hgate, if_true]

theorem laneSwitchDone_ends {g : Nat} (harm : (c.laneSt n).until_ = some g) (hdue : g ≤ c.now) (hst : c.laneState n = laneSwitching) :
    laneSwitchDone n c =
      let d := laneRest n (setLaneSt n { c.laneSt n with
        until_ := none
        done_ := false } c)
      if (c.laneSt n).done_ then d.raise (.lane n) 2 else d := by
  have hgate : (c.laneUp n && decide (g ≤ c.now) && c.laneState n == laneSwitching) = true := by
    rw [hup, decide_eq_true hdue, beq_iff_eq.mpr hst]
    rfl
  simp only [laneSwitchDone, harm, hgate, if_true]

theorem preambleDetect_eq (v : Preamble) (hst : c.laneState n = laneIdle) (hstop : c.laneStopped n = false)
    (hhears : c.laneHears n = true) : preambleDetect n v c = if c.preambleTaken n v then laneDetect_ n v c else c := by
  simp only [preambleDetect, hup, beq_iff_eq.mpr hst, hstop, hhears, Bool.not_false, Bool.and_self, Bool.true_and]

theorem laneCapture_eq (v : Preamble) (rssi : Int) (hcap : c.b (Fld.LANE_CTRL_CAPTURE n) = true)
    (hst : c.laneState n = laneDetect ∨ c.laneState n = laneReceive) (hhears : c.laneHears n = true) (htaken : c.preambleTaken n v = true) :
    laneCapture n v rssi c =
      let power := if c.laneCombines n then max v.powerA v.powerB else if c.placeChain n = 1 then v.powerB else v.powerA
      if rssi + 4 * c.f (Fld.LANE_CTRL_CAPTURE_DB n) ≤ power then
        let d := laneAbandon n 4 c
        if d.laneState n = laneIdle ∨ d.laneState n = laneHeld then laneDetect_ n v d else d
      else c := by
  have hbusy : (c.laneState n == laneDetect || c.laneState n == laneReceive) = true := by
    rw [Bool.or_eq_true, beq_iff_eq, beq_iff_eq]
    exact hst
  simp only [laneCapture, hup, hcap, hbusy, hhears, htaken, Bool.and_self, Bool.true_and, decide_eq_true_eq]

theorem laneSaturation_eq (power : Int)
    (hst : c.laneState n = laneDetect ∨ c.laneState n = laneReceive ∨ c.laneState n = laneFlush) :
    laneSaturation n power c = if c.laneClips n power then laneAbandon n 3 c else c := by
  have hbusy : (c.laneState n == laneDetect || c.laneState n == laneReceive || c.laneState n == laneFlush) = true := by
    rw [Bool.or_eq_true, Bool.or_eq_true, beq_iff_eq, beq_iff_eq, beq_iff_eq, or_assoc]
    exact hst
  simp only [laneSaturation, hup, hbusy, Bool.true_and]

section InFrame
variable {f : Frame} (hf : c.laneFrame n = some f)
include hf

theorem sfdTimeout_drops (hst : c.laneState n = laneDetect)
    (hdue : f.detectAt + symbolSpan f.phy (c.f (Fld.LANE_DETECT_SFD_TIMEOUT n)) ≤ c.now) :
    sfdTimeout n c = laneFree n ((dropFrame f.id c).bump (Fld.LANE_COUNTS_A_FALSE_DETECTS n)) := by
  simp only [sfdTimeout, hf, hup, beq_iff_eq.mpr hst, decide_eq_true hdue, Bool.and_self, if_true]

section Delimiter
variable {sfd : Nat} {soft : List Int} (hst : c.laneState n = laneDetect) (hhears : c.frameHears f = true) (hblind : f.blind = false)
include hst hhears hblind

/-- What is no delimiter of the lane's changes nothing. -/
theorem delimiterFound_none (hh : phyHeader f.phy sfd soft = none) : delimiterFound n sfd soft c = c := by
  simp only [delimiterFound, hf, hup, beq_iff_eq.mpr hst, hhears, hblind, hh, Bool.not_false, Bool.and_self, if_true]

theorem delimiterFound_good {h : PhyHeader} (hh : phyHeader f.phy sfd soft = some h) (hgood : headerGood f.phy h = true) :
    delimiterFound n sfd soft c = setLaneState n laneReceive (putFrame (f.begin_ h c.now) c) := by
  simp only [delimiterFound, hf, hup, beq_iff_eq.mpr hst, hhears, hblind, hh, hgood, Bool.not_false, Bool.and_self, if_true]

theorem delimiterFound_bad {h : PhyHeader} (hh : phyHeader f.phy sfd soft = some h) (hbad : headerGood f.phy h = false) :
    delimiterFound n sfd soft c = laneFree n (((dropFrame f.id c).bump (Fld.LANE_COUNTS_B_HEADER_ERRORS n)).raise (.lane n) 1) := by
  simp only [delimiterFound, hf, hup, beq_iff_eq.mpr hst, hhears, hblind, hh, hbad, Bool.not_false, Bool.and_self, if_true,
    if_neg Bool.false_ne_true]

end Delimiter

theorem frameEnd_delivers (m : LaneMeasure) (hst : c.laneState n = laneReceive ∨ c.laneState n = laneFlush) (hstart : f.started = true)
    (hclean : f.faulted = false) (hnear : within40ppm f.freq m.offset = true) (hgain : (c.laneReport f m).gainEvent = false) :
    frameEnd n m c =
      let stamp := if c.laneState n = laneFlush then f.lastSymbol.getD c.now else c.now
      let d := chkLaneClose n f.psdu false (c.bump (Fld.LANE_COUNTS_B_DELIVERED n))
      laneFree n (if f.taken then putFrame { f with
        endAt := some stamp
        report := some (c.laneReport f m) } d else dropFrame f.id d) := by
  have hbusy : (c.laneState n == laneReceive || c.laneState n == laneFlush) = true := by
    rw [Bool.or_eq_true, beq_iff_eq, beq_iff_eq]
    exact hst
  simp only [frameEnd, hf, hup, hbusy, hstart, hnear, hgain, hclean, Bool.and_self, if_true, if_neg Bool.false_ne_true]

end InFrame
end Up

/-! ### A switch (R77, R78) -/

theorem laneDoSwitch_off (h : c.laneState n = laneOff) : laneDoSwitch n c = (laneTake n (laneDisarm n c)).raise (.lane n) 2 := if_pos h

theorem laneDoSwitch_refused (h : c.laneState n ≠ laneOff)
    (hc : c.laneClash n (c.regN (Reg.LANE_FREQ n)) (c.regN (Reg.LANE_PHY n)) = true) :
    laneDoSwitch n c = laneRefuse n (laneDisarm n c) := (if_neg h).trans (if_pos hc)

section Admitted
variable (hc : c.laneClash n (c.regN (Reg.LANE_FREQ n)) (c.regN (Reg.LANE_PHY n)) = false)
include hc

/-- A frame in reception delays a switch. -/
theorem laneDoSwitch_waits (h : c.laneState n = laneReceive ∨ c.laneState n = laneFlush)
    (hforce : c.b (Fld.LANE_CTRL_FORCE_SWITCH n) = false) :
    laneDoSwitch n c = (setLaneSt n { c.laneSt n with late := true } c).setB (Fld.LANE_STATUS_SWITCH_LATE n) true := by
  have hon : c.laneState n ≠ laneOff := by rcases h with h | h <;> rw [h] <;> decide
  simp only [laneDoSwitch, if_neg hon, hc, if_neg Bool.false_ne_true, if_pos (show _ ∧ ¬ c.b (Fld.LANE_CTRL_FORCE_SWITCH n) = true from
    ⟨h, by rw [hforce]; exact Bool.false_ne_true⟩)]

theorem laneDoSwitch_idle (h : c.laneState n = laneIdle) :
    laneDoSwitch n c = laneSwitching_ n 32 true (laneTake n (laneDisarm n (dropWithMark n 2 c))) := by
  have hon : c.laneState n ≠ laneOff := by rw [h]; decide
  have hfree : ¬ ((c.laneState n = laneReceive ∨ c.laneState n = laneFlush) ∧ ¬ c.b (Fld.LANE_CTRL_FORCE_SWITCH n) = true) := by
    rw [h]
    exact fun h => absurd h.1 (by decide)
  simp only [laneDoSwitch, if_neg hon, hc, if_neg Bool.false_ne_true, if_neg hfree]

end Admitted

end Sys2Proof.Machine
end

section
namespace Sys2Proof
open Machine Safety

/-- Settles O46: each command of a lane by the state it finds the lane in. -/
theorem lanes : Obligations.Lanes := by
  intro s n hup hq c clash
  refine ⟨fun hoff => ?_, fun hen => ?_, fun v => ?_, fun g hsched hrest => ?_, fun g harm hdue hrest hlate => ?_, fun g harm hdue hst => ?_,
    fun v hst hstop hhears => ?_, fun f hf => ⟨fun hst hdue => ?_, fun sfd soft hst hhears hblind => ?_, fun m hst hstart hclean =>
    ⟨fun hfar => ?_, fun hnear hgain => ?_⟩⟩, fun v rssi hcap hst hhears htaken => ?_, fun power hst => ?_⟩
  · exact next_chip ((laneWrite_takes hq).trans (laneEnable_eq hup hoff))
  · exact next_chip ((laneWrite_takes hq).trans (laneDisable_eq hup hen))
  · have heq : listenWrite n.val v c = if c.b (Fld.LANE_STATUS_SCHEDULED n) then c.regReject else laneListen n v c := by
      simp only [listenWrite, c, hup, Bool.not_true, Bool.false_or]
    exact next_chip ((laneWrite_takes hq).trans heq)
  · exact next_chip ((laneWrite_takes hq).trans (laneSwitchAtWrite_arms hup g hsched hrest))
  · have hmake := laneSwitchDue_makes hup hq harm hdue hrest hlate
    exact ⟨fun hst => next_chip (hmake.trans (laneDoSwitch_off hst)), fun hst hc => next_chip (hmake.trans (laneDoSwitch_refused hst hc)),
      fun hst hc hforce => next_chip (hmake.trans (laneDoSwitch_waits hc hst hforce)),
      fun hst hc => next_chip (hmake.trans (laneDoSwitch_idle hc hst))⟩
  · exact next_chip (laneSwitchDone_ends hup harm hdue hst)
  · exact next_chip (preambleDetect_eq hup v hst hstop hhears)
  · exact next_chip (sfdTimeout_drops hup hf hst hdue)
  · intro header
    exact ⟨fun h => next_chip (delimiterFound_none hup hf hst hhears hblind h),
      fun h hh hgood => next_chip (delimiterFound_good hup hf hst hhears hblind hh hgood),
      fun h hh hbad => next_chip (delimiterFound_bad hup hf hst hhears hblind hh hbad)⟩
  · exact next_chip (frameEnd_far hf m hfar)
  · exact next_chip (frameEnd_delivers hup hf m hst hstart hclean hnear hgain)
  · intro power d
    have heq := laneCapture_eq hup v rssi hcap hst hhears htaken
    exact ⟨fun hlow => next_chip (heq.trans (if_neg (not_le.mpr hlow))), fun hhigh => next_chip (heq.trans (if_pos hhigh))⟩
  · exact next_chip (laneSaturation_eq hup power hst)

end Sys2Proof
end

section
/-! SUPPORT. Frames in the link controller (R107 to R132). -/

namespace Sys2Proof.Machine
open Safety

variable (c : Chip)

/-! ### The first byte (R131) -/

theorem chkFrameStart_touches (n : Nat) : Touches chkReg c (chkFrameStart n c) := by
  refine Touches.foldl fun k _ d => ?_
  exact ((Touches.refl chkReg d).setChk).ite (.refl _ d)

theorem chkLaneFold_touches (n : Nat) (octets : List Nat) (upto : Nat) : Touches chkReg c (chkLaneFold n octets upto c) := by
  refine Touches.foldl fun k hk d => ?_
  have hP := fun i hi => chkReg_unit (List.mem_range.mp hk) i hi
  have hfold : Touches chkReg d (((octets.take upto).drop (d.chkUnit k).seen).foldl (chkOctet k) d) :=
    Touches.foldl fun o _ e => (Touches.refl chkReg e).chkOctet hP
  exact (hfold.setChk).ite (.refl _ d)

theorem frameOctets_b (f : Frame) (soft : List Int) (x : Field) : (frameOctets f soft c).2.b x = c.b x := by
  unfold frameOctets
  split <;> rfl

theorem ringOf_congr {c d : Chip} (h : d.b Fld.LINK_CTRL_PROMISCUOUS = c.b Fld.LINK_CTRL_PROMISCUOUS)
    (h' : d.b Fld.LINK_CTRL_DELIVER_REJECTS = c.b Fld.LINK_CTRL_DELIVER_REJECTS) (v : Nat) : d.ringOf v = c.ringOf v := by
  rw [Chip.ringOf, Chip.ringOf, h, h']

/-- The check units do not change to which ring a frame goes. -/
theorem psduSeen_ringOf (n : Nat) (f : Frame) (soft : List Int) (v : Nat) :
    (chkLaneFold n (frameOctets f soft c).1 1 (chkFrameStart n (frameOctets f soft c).2)).ringOf v = c.ringOf v := by
  have ht := (chkFrameStart_touches (frameOctets f soft c).2 n).trans (chkLaneFold_touches _ n (frameOctets f soft c).1 1)
  exact ringOf_congr ((ht.b (by decide)).trans (frameOctets_b c f soft _)) ((ht.b (by decide)).trans (frameOctets_b c f soft _)) v

section Psdu
variable {c} {n : Nat} {f : Frame} (soft : List Int) (hup : c.laneUp n = true) (hst : c.laneState n = laneReceive)
  (hf : c.laneFrame n = some f) (hstart : f.startAt.isSome = true) (hfirst : f.started = false) (hrx : c.radio.tschRx = none)
include hup hst hf hstart hfirst hrx

theorem psduStart_apart (hlink : (c.isOn .link && c.b Fld.LINK_CTRL_ENABLE) = false) : psduStart n soft c =
    putFrame { f with
      started := true
      psdu := (frameOctets f soft c).1
      tsch := none } (chkLaneFold n (frameOctets f soft c).1 1 (chkFrameStart n (frameOctets f soft c).2)) := by
  simp only [psduStart, hf, hup, beq_iff_eq.mpr hst, hstart, hfirst, hrx, hlink, Bool.not_false, Bool.and_self, if_true,
    if_neg Bool.false_ne_true]

/-- The frame reserves room in the ring of the verdict expected. -/
theorem psduStart_taken (hlink : (c.isOn .link && c.b Fld.LINK_CTRL_ENABLE) = true) (hprom : c.b Fld.LINK_CTRL_PROMISCUOUS = false) :
    psduStart n soft c =
      let c1 := chkLaneFold n (frameOctets f soft c).1 1 (chkFrameStart n (frameOctets f soft c).2)
      let f2 := { f with
        started := true
        psdu := (frameOctets f soft c).1
        tsch := none
        taken := true }
      match c1.ringOf ((c1.screen (lookupFrame f2 c1).1).getD vAccept) with
      | none => putFrame f2 c1
      | some r => putFrame { f2 with
        slot := (reserveSlot r f.length c1).1
        triedRing := some r } (reserveSlot r f.length c1).2 := by
  simp only [psduStart, hf, hup, beq_iff_eq.mpr hst, hstart, hfirst, hrx, hlink, hprom, psduSeen_ringOf, Bool.not_false, Bool.and_self,
    if_true, if_neg Bool.false_ne_true] <;> rfl

end Psdu

/-! ### Verdicts (R107, R108) -/

theorem lookupFrame_endAt (f : Frame) : (lookupFrame f c).1.endAt = f.endAt := by
  unfold lookupFrame
  split
  · rfl
  · dsimp only
    split
    · rfl
    · split <;> rfl

theorem judgeFrame_frame (f : Frame) (e : Nat) :
    (judgeFrame f e c).1.frame = (if f.looked then (f, c) else lookupFrame f c).1 := by
  unfold judgeFrame
  generalize (if f.looked then (f, c) else lookupFrame f c) = p
  obtain ⟨f', d⟩ := p
  dsimp only
  cases f'.mhr with
  | none => rfl
  | some h => simp only [apply_ite Prod.fst, apply_ite Judged.frame, ite_self]

theorem judgeFrame_endAt (f : Frame) (e : Nat) : (judgeFrame f e c).1.frame.endAt = f.endAt := by
  rw [judgeFrame_frame]
  split
  · rfl
  · exact lookupFrame_endAt c f

/-- The effect of an acknowledgement that is awaited: a frame that is none, or not a good one, has none (R107). -/
def eatenBy (f : Frame) (d : Chip) : Option Chip :=
  if f.abandoned || f.faulted || ! fcsGood f.fcs2 f.psdu then none
  else match f.mhr with
    | some h => if h.type = 2 then consumeAck f h d else none
    | none => none

theorem eatenBy_bad {f : Frame} (h : f.abandoned = true ∨ f.faulted = true ∨ fcsGood f.fcs2 f.psdu = false) : eatenBy f c = none := by
  have hbad : (f.abandoned || f.faulted || ! fcsGood f.fcs2 f.psdu) = true := by
    rcases h with h | h | h <;> simp [h]
  rw [eatenBy, if_pos hbad]

theorem eatenBy_good {f : Frame} {h : Mhr} (ha : f.abandoned = false) (hf : f.faulted = false) (hg : fcsGood f.fcs2 f.psdu = true)
    (hm : f.mhr = some h) : eatenBy f c = if h.type = 2 then consumeAck f h c else none := by
  simp only [eatenBy, ha, hf, hg, hm, Bool.not_true, Bool.or_self, if_neg Bool.false_ne_true]

/-- In lane order, a lone frame comes once. -/
theorem flatMap_lane {α : Type} (x : α) (i : Nat) : ∀ k, (List.range k).flatMap (fun n => if i = n then [x] else []) =
    if i < k then [x] else []
  | 0 => rfl
  | k + 1 => by
    rw [List.range_succ, List.flatMap_append, flatMap_lane x i k, List.flatMap_singleton]
    by_cases h : i = k
    · simp [h]
    · simp [h, show i < k + 1 ↔ i < k by omega]

/-- Whether a frame's verdict is due. -/
def verdictDue (now : Nat) (f : Frame) : Bool := f.taken && (match f.endAt with
  | some e => decide (e + 67 ≤ now)
  | none => false)

/-- One frame of those whose verdicts are due, after those before it. -/
def judgeNext (p : List Judged × Chip) (f : Frame) : List Judged × Chip :=
  match eatenBy f p.2 with
  | some d => (p.1, match f.slot with
    | some s => releaseSlot s d
    | none => d)
  | none => (p.1 ++ [(judgeFrame f (f.endAt.getD 0) p.2).1], (judgeFrame f (f.endAt.getD 0) p.2).2)

/-- The contest of a verdict and what it publishes. -/
def verdictsEnd (p : List Judged × Chip) : Chip :=
  releaseWindows (settleLost (p.1.foldl (fun d j => publish j (j.frame.endAt.getD 0) d) (contest lostCarrier p.2)))

theorem frameVerdict_eq (hon : c.isOn .link = true) {due : List Frame}
    (hdue : ((List.range 64).flatMap fun n => c.radio.frames.filter fun f => f.lane == n && verdictDue c.now f) = due)
    (hsome : due.isEmpty = false) : frameVerdict c = verdictsEnd (due.foldl judgeNext
      ([], c.onRadio fun x => { x with frames := x.frames.filter fun f => ! verdictDue c.now f })) := by
  subst hdue
  have hgate : (! c.isOn .link || ((List.range 64).flatMap fun n => c.radio.frames.filter fun f =>
      f.lane == n && verdictDue c.now f).isEmpty) = false := by rw [hon, hsome]; rfl
  exact if_neg fun h => Bool.false_ne_true (hgate.symm.trans h)

section One
variable {c} {f : Frame} {e : Nat} (hon : c.isOn .link = true) (hframes : c.radio.frames = [f]) (hlane : f.lane < 64)
  (htaken : f.taken = true) (hend : f.endAt = some e) (hdue : e + 67 ≤ c.now)
include hon hframes hlane htaken hend hdue

theorem frameVerdict_one : frameVerdict c = verdictsEnd (judgeNext ([], c.onRadio fun r => { r with frames := [] }) f) := by
  have hready : verdictDue c.now f = true := by
    simp only [verdictDue, htaken, hend, hdue, decide_true, Bool.and_self]
  have hone : ∀ n, (c.radio.frames.filter fun g => g.lane == n && verdictDue c.now g) = if f.lane = n then [f] else [] := fun n => by
    simp only [hframes, List.filter_cons, List.filter_nil, hready, Bool.and_true, beq_iff_eq]
  have hlist : ((List.range 64).flatMap fun n => c.radio.frames.filter fun g => g.lane == n && verdictDue c.now g) = [f] := by
    simp only [hone, flatMap_lane, if_pos hlane]
  have hleft : (c.radio.frames.filter fun g => ! verdictDue c.now g) = [] := by
    simp only [hframes, List.filter_cons, List.filter_nil, hready, Bool.not_true, if_neg Bool.false_ne_true]
  rw [frameVerdict_eq c hon hlist rfl, Chip.onRadio, hleft]
  rfl

/-- A frame that is judged: its ACK is contested and its descriptor published. -/
theorem frameVerdict_judged (hnone : eatenBy f (c.onRadio fun r => { r with frames := [] }) = none) :
    let c0 := c.onRadio fun r => { r with frames := [] }
    frameVerdict c = releaseWindows (settleLost (publish (judgeFrame f e c0).1 e (contest lostCarrier (judgeFrame f e c0).2))) := by
  have hfin := judgeFrame_endAt (c.onRadio fun r => { r with frames := [] }) f e
  intro c0
  simp only [frameVerdict_one hon hframes hlane htaken hend hdue, judgeNext, hnone, verdictsEnd, hend, Option.getD_some, List.nil_append,
    List.foldl_cons, List.foldl_nil, hfin, c0]

/-- One that is consumed. -/
theorem frameVerdict_eaten {d : Chip} (heat : eatenBy f (c.onRadio fun r => { r with frames := [] }) = some d) (hslot : f.slot = none) :
    frameVerdict c = releaseWindows (settleLost (contest lostCarrier d)) := by
  simp only [frameVerdict_one hon hframes hlane htaken hend hdue, judgeNext, heat, hslot, verdictsEnd, List.foldl_nil]

end One

/-! ### Rings and acknowledgements (R131, R132) -/

theorem onRadio_self {g : Radio → Radio} (h : g c.radio = c.radio) : c.onRadio g = c := by rw [Chip.onRadio, h]

/-- An ACK whose first symbol has gone out is sent. -/
theorem ackSent_one {a : AckRec} {k : Carrier} (ha : c.radio.acks = [a]) (hlost : a.lost = none)
    (hk : (c.radio.carriers.find? fun k => k.id == a.carrier) = some k) (hair : k.onAir = true) (hfirst : k.first ≤ c.now) :
    ackSent c = ackFinish a 2 0 k.last (c.bump Fld.LINK_COUNTS_4_ACK_SENT) := by
  simp only [ackSent, ha, List.filter_cons, List.filter_nil, hlost, Option.isNone_none, if_true, List.foldl_cons, List.foldl_nil, hk, hair,
    decide_eq_true hfirst, Bool.and_self]

/-- A consumer that has caught up returns what is left. -/
theorem ringConsWrite_caught {r v : Nat} (hon : c.isOn .link = true) (hv : v < 65536) (hprod : c.regN (Reg.LINK_RING_PROD r) = v)
    (hslots : c.radio.slots = []) : ringConsWrite r v c = refreshRing r (c.setRegN (Reg.LINK_RING_CONS r) v) := by
  have hout : (c.regN (Reg.LINK_RING_PROD r) + 65536 - v % 65536) % 65536 = 0 := by rw [hprod]; omega
  have hgate : (! c.isOn .link || decide (65536 ≤ v) || decide
      ((c.regN (Reg.LINK_RING_PROD r) + 65536 - c.regN (Reg.LINK_RING_CONS r)) % 65536 < 0) || decide (c.regN (Reg.LINK_RING_SIZE r) < 0)) =
      false := by
    simp [hon, hv]
  simp only [ringConsWrite, hout, hgate, if_neg Bool.false_ne_true]
  rw [onRadio_self]
  rw [hslots]
  simp only [List.map_nil, List.filter_nil]
  rw [← hslots]

end Sys2Proof.Machine
end

section
namespace Sys2Proof
open Machine Safety

/-- Settles O47: a frame is followed from its first byte to its verdict. -/
theorem linkReception : Obligations.LinkReception := by
  intro s c
  refine ⟨fun n soft f hup hst hf hstart hfirst hrx => ?_, fun n f hf => ?_, fun f e hon hframes hlane htaken hend hdue => ?_, fun f =>
    ⟨fun hab => ?_, fun hab hbad => ?_, fun hab hfault hgood => ⟨fun hprom => ?_, fun v hprom hscreen => ?_, fun h hprom hscreen hm haux => ?_⟩⟩,
    fun f v htried hslot => ?_, fun h hmode hdst => ?_, fun f i a h hh ha hvalid => ?_, fun a k hacks hlost hk hair hfirst => ?_,
    fun hon hen => ?_, fun r v hon hcons => ⟨fun hbig => ?_, fun hv hprod hslots => ?_⟩⟩
  · intro octets c1
    refine ⟨fun hclean => ?_, fun hlink => next_chip (psduStart_apart _ hup hst hf hstart hfirst hrx hlink), fun hon hen hprom => ?_⟩
    · exact if_neg (by rw [hclean]; exact Bool.false_ne_true)
    · intro f2
      have hlink : (c.isOn .link && c.b Fld.LINK_CTRL_ENABLE) = true := by rw [hon, hen]; rfl
      exact next_chip (psduStart_taken _ hup hst hf hstart hfirst hrx hlink hprom)
  · have heq : partnerLookup n.val c = putFrame (lookupFrame f c).1 (lookupFrame f c).2 := by simp only [partnerLookup, hf]
    exact next_chip heq
  · intro c0
    refine ⟨fun hbad => next_chip (frameVerdict_judged hon hframes hlane htaken hend hdue (eatenBy_bad _ hbad)), fun h hab hfault hgood hm =>
      ⟨fun htype => next_chip (frameVerdict_judged hon hframes hlane htaken hend hdue
        ((eatenBy_good _ hab hfault hgood hm).trans (if_neg htype))), fun d htype heat hslot =>
        next_chip (frameVerdict_eaten hon hframes hlane htaken hend hdue
          ((eatenBy_good _ hab hfault hgood hm).trans ((if_pos htype).trans heat)) hslot)⟩⟩
  · rw [Chip.judge, if_pos hab]
  · rw [Chip.judge, if_neg (by rw [hab]; exact Bool.false_ne_true), if_pos (by rw [hbad, Bool.not_false, Bool.or_true])]
  · simp only [Chip.judge, hab, hfault, hgood, hprom, Bool.not_true, Bool.or_self, if_neg Bool.false_ne_true, if_true]
  · simp only [Chip.judge, hab, hfault, hgood, hprom, hscreen, Bool.not_true, Bool.or_self, if_neg Bool.false_ne_true]
  · simp only [Chip.judge, hab, hfault, hgood, hprom, hscreen, hm, haux, Bool.not_true, Bool.or_self, if_neg Bool.false_ne_true]
  · simp only [claimSlot, hslot, htried, if_true]
    split <;> rfl
  · have hown : c.isOwn 2 0xFFFF = false := by simp [Chip.isOwn]
    simp only [Chip.ackAsked, hmode, hdst, hown, Bool.and_false]
  · have hcheck : c.counterCheck f h = if rxCounter c.asn a f.tsch = (c.entry i).lastFc then vDuplicate
        else if rxCounter c.asn a f.tsch < (c.entry i).lastFc then vReplay else vAccept := by
      simp only [Chip.counterCheck, hh, ha, hvalid, Bool.not_true, if_neg Bool.false_ne_true]
    refine ⟨fun he => ?_, fun hlt => ?_, fun hgt => ?_⟩
    · rw [hcheck, if_pos he]
    · rw [hcheck, if_neg (by omega), if_pos hlt]
    · rw [hcheck, if_neg (by omega), if_neg (by omega)]
  · exact next_chip (ackSent_one _ hacks hlost hk hair hfirst)
  · have heq : linkDisable c = refreshRing 0 (refreshRing 1 ((c.onRadio fun x => { x with
        frames := (x.frames.filter fun f => f.endAt.isNone).map fun f =>
          { f with taken := false, looked := false, handle := none, entry := [], slot := none, triedRing := none }
        slots := x.slots.filter fun k => k.published }).setB Fld.LINK_CTRL_ENABLE false)) := by
      simp only [linkDisable, c, hon, hen, Bool.not_true, if_neg Bool.false_ne_true]
    exact next_chip heq
  · have hgate : ringConsWrite r.val v.toNat c = c.regReject := by
      rw [ringConsWrite]
      exact if_pos (by simp [hbig])
    exact next_chip hgate
  · exact next_chip (ringConsWrite_caught _ hon hv hprod hslots)

end Sys2Proof
end

section
/-! SUPPORT. Requests and carriers (R121 to R128): what each command does to the one that is due. -/

namespace Sys2Proof.Machine
open Safety

variable {c : Chip}

theorem putTicket_spaceAccess (t : Ticket) (sp : Nat) : (putTicket t c).spaceAccess sp = c.spaceAccess sp := (rfl)

/-! ### TX (R124) -/

/-- Where a request's block lies well. -/
def txPlaced (p : Word) (c : Chip) : Bool := p.tag == .ptr && spaceOf p.nat == 1 && c.ptrValid p.nat && c.ptrValid (p.nat + 7)

/-- A request is refused before it is known. -/
def txRefusedBlank (t p : Nat) (st : Status) (c : Chip) : Chip :=
  txRefused (blankJob t p) st (c.onRadio fun x => { x with jobs := x.jobs ++ [blankJob t p] })

theorem txLaunch_eq {t : Nat} {k : Ticket} (hk : c.ticket t = some k) (hcode : k.code = 1) (hstate : k.state = 1) : txLaunch t c =
    let p := k.args.getD 0 .absent
    let c1 := putTicket { k with state := 2 } c
    if ! c.isOn .link then finishTicket t c.stateRefused c1
    else if ! c.b Fld.LINK_CTRL_ENABLE then
      (if txPlaced p c then txRefusedBlank t p.nat .stateRefused c1 else finishTicket t c.stateRefused c1)
    else if ! txPlaced p c then finishTicket t (refused .badArg) c1
    else if c.spaceAccess 1 ≠ .served then finishTicket t c.stateRefused c1
    else
      match parseRequest t p.nat c1 with
      | (.error st, c2) => txRefusedBlank t p.nat st c2
      | (.ok j, c2) => queueRequest j (match j.handle with
        | some i => readPartner i c2
        | none => c2) := by
  have hgate : (k.code != 1 || k.state != 1) = false := by rw [hcode, hstate]; rfl
  simp only [txLaunch, hk, hgate, if_neg Bool.false_ne_true, putTicket_spaceAccess] <;> rfl

section Parsed
variable {t : Nat} {k : Ticket} (hk : c.ticket t = some k) (hcode : k.code = 1) (hstate : k.state = 1) (hon : c.isOn .link = true)
  (hen : c.b Fld.LINK_CTRL_ENABLE = true) (hp : txPlaced (k.args.getD 0 .absent) c = true) (hsp : c.spaceAccess 1 = .served)
include hk hcode hstate hon hen hp hsp

/-- A block that is read is refused with its status, or queued. -/
theorem txLaunch_refused {st : Status} {d : Chip}
    (hparse : parseRequest t (k.args.getD 0 .absent).nat (putTicket { k with state := 2 } c) = (.error st, d)) :
    txLaunch t c = txRefusedBlank t (k.args.getD 0 .absent).nat st d := by
  simp only [txLaunch_eq hk hcode hstate, hon, hen, hp, hsp, hparse, Bool.not_true, if_neg Bool.false_ne_true, ne_eq, not_true_eq_false,
    if_false]

theorem txLaunch_queued {j : TxJob} {d : Chip}
    (hparse : parseRequest t (k.args.getD 0 .absent).nat (putTicket { k with state := 2 } c) = (.ok j, d)) :
    txLaunch t c = queueRequest j (match j.handle with
      | some i => readPartner i d
      | none => d) := by
  simp only [txLaunch_eq hk hcode hstate, hon, hen, hp, hsp, hparse, Bool.not_true, if_neg Bool.false_ne_true, ne_eq, not_true_eq_false,
    if_false]

end Parsed

section Queue
variable {j : TxJob}

theorem queueRequest_csma (hk : j.kind = 1) : queueRequest j c = startBackoff j (c.onRadio fun x => { x with jobs := x.jobs ++ [j] }) := by
  simp only [queueRequest, hk]

theorem queueRequest_at (hk : j.kind = 0) : queueRequest j c = if (j.plan.getD 0 : Int) - c.now < 4160 then
    txRefused j .timeout (c.onRadio fun x => { x with jobs := x.jobs ++ [j] })
    else c.onRadio fun x => { x with jobs := x.jobs ++ [j] } := by
  simp only [queueRequest, hk]

end Queue

/-! ### Commit, ramp and end -/

section Commit
variable {j : TxJob} (hon : c.isOn .link = true) (hent : c.entering = false) (hjobs : c.radio.jobs = [j]) (hq : j.phase = .queued)
include hon hent hjobs hq

/-- The one request that waits at its commit grain. -/
theorem txCommit_one : txCommit c =
    if j.kind = 16 && c.linkOsc && (c.jobPlan j).isSome then beaconSkip (dropJob j.ticket c)
    else match c.jobPlan j with
      | some (first, freq, phy, rdv) =>
        match rdv, (commitJob j first freq phy rdv c).radio.carriers.find? fun k => k.ticket == j.ticket with
        | some _, some k => ackLane { j with rdv := rdv } freq phy first (k.last - 64) (commitJob j first freq phy rdv c)
        | _, _ => commitJob j first freq phy rdv c
      | none => c := by
  have hgate : (! c.isOn .link || c.entering) = false := by rw [hon, hent]; rfl
  have hfilter : (c.radio.jobs.filter fun j => j.phase == .queued) = [j] := by
    rw [hjobs, List.filter_cons, hq]
    rfl
  have hmem : c.radio.jobs.contains j = true := by simp [hjobs]
  simp only [txCommit, hgate, if_neg Bool.false_ne_true, hfilter, List.foldl_cons, List.foldl_nil, hmem, Bool.not_true] <;> rfl

theorem txCommit_waits (hp : c.jobPlan j = none) : txCommit c = c := by
  simp only [txCommit_one hon hent hjobs hq, hp, Option.isSome_none, Bool.and_false, if_neg Bool.false_ne_true]

theorem txCommit_commits {first freq phy : Nat} (hp : c.jobPlan j = some (first, freq, phy, none))
    (hb : j.kind ≠ 16 ∨ c.linkOsc = false) : txCommit c = commitJob j first freq phy none c := by
  have hno : (decide (j.kind = 16) && c.linkOsc && (c.jobPlan j).isSome) = false := by
    rcases hb with h | h <;> simp [h]
  rw [txCommit_one hon hent hjobs hq, if_neg (by rw [hno]; exact Bool.false_ne_true)]
  simp only [hp]

theorem txCommit_skips {plan : Nat × Nat × Nat × Option Nat} (hp : c.jobPlan j = some plan) (hk : j.kind = 16) (ho : c.linkOsc = true) :
    txCommit c = beaconSkip (dropJob j.ticket c) := by
  rw [txCommit_one hon hent hjobs hq, if_pos (by simp [hk, ho, hp])]

end Commit

section Carrier
variable {k : Carrier} (hcar : c.radio.carriers = [k])
include hcar

/-- The one carrier whose ramp is due. -/
theorem carrierRampStart_one (hair : k.onAir = false) (hramp : k.ramp ≤ c.now) : carrierRampStart c =
    if k.kind = .beacon && c.linkOsc then beaconSkip (withdraw k.id (match c.jobOf k.id with
      | some j => dropJob j.ticket c
      | none => c))
    else rampStart k c := by
  have hfilter : (c.radio.carriers.filter fun k => ! k.onAir && decide (k.ramp ≤ c.now)) = [k] := by
    simp only [hcar, List.filter_cons, List.filter_nil, hair, decide_eq_true hramp, Bool.not_false, Bool.and_self, if_true]
  simp only [carrierRampStart, hfilter, List.foldl_cons, List.foldl_nil] <;> rfl

theorem carrierEnd_one (hair : k.onAir = true) (hlast : k.last ≤ c.now) : carrierEnd c = releaseWindows (carrierEnd1 k c) := by
  have hfilter : (c.radio.carriers.filter fun k => k.onAir && decide (k.last ≤ c.now)) = [k] := by
    simp only [hcar, List.filter_cons, List.filter_nil, hair, decide_eq_true hlast, Bool.and_self, if_true]
  simp only [carrierEnd, hfilter, List.foldl_cons, List.foldl_nil]

end Carrier

/-- The carrier of a request for a grain ends with its request. -/
theorem carrierEnd1_at {k : Carrier} {j : TxJob} (hkind : k.kind = .at) (hj : c.jobOf k.id = some j) :
    carrierEnd1 k c = jobEnd k j (chkTxEnd k (dropCarrier k.id c)) := by
  simp only [carrierEnd1, hkind, hj]

theorem jobEnd_at {k : Carrier} {j : TxJob} (hkind : k.kind = .at) (hcut : k.cut = false) : jobEnd k j c =
    if ! j.ar then txDone j false none c
    else if c.carrierHeard k then putJob { j with
      phase := .awaiting
      due := k.last - 64 + c.regN Reg.LINK_ACK_WAIT } c
    else unacked j c := by
  have hno : k.kind ≠ .beacon := by rw [hkind]; decide
  simp only [jobEnd, if_neg hno, hcut, if_neg Bool.false_ne_true]

/-- A wait that has passed ends a request for a grain. -/
theorem ackWaitExpiry_one {j : TxJob} (hjobs : c.radio.jobs = [j]) (hwait : j.phase = .awaiting) (hdue : j.due ≤ c.now)
    (hcome : c.ackComing j.freq j.phy j.due = false) (hk : j.kind = 0) (hres : (txRefused j .timeout c).radio.resyncs = []) :
    ackWaitExpiry c = releaseWindows (txRefused j .timeout c) := by
  have hfilter : (c.radio.jobs.filter fun j => j.phase == .awaiting && decide (j.due ≤ c.now) && ! c.ackComing j.freq j.phy j.due) = [j] := by
    simp [hjobs, hwait, hdue, hcome]
  have hun : unacked j c = txRefused j .timeout c := by
    simp only [unacked, hk]
    rfl
  simp only [ackWaitExpiry, hfilter, List.foldl_cons, List.foldl_nil, hun]
  rw [onRadio_self]
  rw [hres]
  simp only [List.filter_nil]
  rw [← hres]

/-- A CCA whose time has come is judged (R127). -/
theorem csmaCca_eq {t : Nat} {j : TxJob} (energy : Int)
    (hj : (c.radio.jobs.find? fun j => j.ticket == t && j.phase == .backoff) = some j) (hdue : j.due ≤ c.now) (hon : c.isOn .link = true)
    (hent : c.entering = false) : csmaCca t energy c =
      if ! c.chainHolds j.freq (planBandwidth j.phy) then txRefused j .badArg c
      else if c.ccaBusy j.freq energy then
        (if c.f Fld.LINK_CSMA_MAX_BACKOFFS < j.nb + 1 then txRefused j .busy c
         else startBackoff { j with
          nb := j.nb + 1
          be := min (c.f Fld.LINK_CSMA_MAX_BE) (j.be + 1) } c)
      else commitJob j (c.now + 2112) j.freq j.phy none c := by
  have hgate : (decide (c.now < j.due) || ! c.isOn .link || c.entering) = false := by simp [hdue, hon, hent]
  simp only [csmaCca, hj, hgate, if_neg Bool.false_ne_true]

/-- A write of a budget's window clears that budget's charges (R122). -/
theorem budgetWindowWrite_eq {w : Nat} (b : Nat) (hon : c.isOn .link = true) (hgood : windowLegal w = true) : budgetWindowWrite b w c =
    if b = 8 then
      (if c.f Fld.LINK_DWELL_WINDOW_WINDOW_MS = w then c
       else clearCharges (fun k => decide (k < 256)) (c.setF Fld.LINK_DWELL_WINDOW_WINDOW_MS w))
    else if c.regN (Reg.LINK_DUTY_WINDOW b) = w then c
    else clearCharges (fun k => k == 256 + b) (c.setRegN (Reg.LINK_DUTY_WINDOW b) w) := by
  simp only [budgetWindowWrite, hon, hgood, Bool.not_true, Bool.or_self, if_neg Bool.false_ne_true]

end Sys2Proof.Machine
end

section
namespace Sys2Proof
open Machine Safety

/-- Settles O48: a request is followed from its ticket to its end. -/
theorem sending : Obligations.Sending := by
  intro s c
  refine ⟨fun t k hk hcode hstate => ?_, fun j hon hent hjobs hq => ⟨fun hp => ?_, fun first freq phy hp => ⟨fun hb => ?_, fun hkind ho => ?_⟩⟩,
    fun k hcar hair hramp => ⟨fun hb => ?_, fun j hkind ho hj => ?_⟩, fun k j hcar hair hlast hkind hj hcut => ?_,
    fun j hjobs hwait hdue hcome hkind hres => ?_, fun t energy j hj => ⟨fun hearly => ?_, fun hdue hon hent => ⟨fun hno => ?_, fun hheld =>
    ⟨fun hfree => ?_, fun hbusy => ?_⟩⟩⟩, ?_, fun b w hon => ⟨fun hbad => ?_, fun hgood hb hnew => ?_, fun hgood hb hnew => ?_⟩⟩
  · have heq := txLaunch_eq hk hcode hstate
    intro p c1 placed refuse
    refine ⟨fun hoff => ?_, fun hon hen => ?_, fun hon hen => ⟨fun hp => ?_, fun hp hsp => ?_, fun hp hsp => ⟨fun st d hparse => ?_,
      fun j e hparse => ?_⟩⟩⟩
    · exact next_chip (heq.trans (if_pos (by rw [hoff]; rfl)))
    · exact next_chip (heq.trans ((if_neg (by rw [hon]; exact Bool.false_ne_true)).trans (if_pos (by rw [hen]; rfl))))
    all_goals
      have heq := heq.trans ((if_neg (by rw [hon]; exact Bool.false_ne_true)).trans (if_neg (by rw [hen]; exact Bool.false_ne_true)))
    · exact next_chip (heq.trans (if_pos (by rw [show txPlaced p c = false from hp]; rfl)))
    all_goals
      have heq := heq.trans (if_neg (by rw [show txPlaced p c = true from hp]; exact Bool.false_ne_true))
    · exact next_chip (heq.trans (if_pos hsp))
    · exact next_chip (txLaunch_refused hk hcode hstate hon hen hp hsp hparse)
    · have heq := txLaunch_queued hk hcode hstate hon hen hp hsp hparse
      intro d
      refine ⟨fun hkind => next_chip (heq.trans (queueRequest_csma hkind)), fun hkind hlater =>
        next_chip (heq.trans ((queueRequest_at hkind).trans (if_neg ?_))), fun hkind hlate =>
        next_chip (heq.trans ((queueRequest_at hkind).trans (if_pos ?_)))⟩
      · have hlater : d.now + 4160 ≤ j.plan.getD 0 := hlater
        change ¬ ((j.plan.getD 0 : Int) - d.now < 4160)
        omega
      · have hlate : j.plan.getD 0 < d.now + 4160 := hlate
        change (j.plan.getD 0 : Int) - d.now < 4160
        omega
  · exact next_chip (txCommit_waits hon hent hjobs hq hp)
  · exact next_chip (txCommit_commits hon hent hjobs hq hp hb)
  · exact next_chip (txCommit_skips hon hent hjobs hq hp hkind ho)
  · refine next_chip ((carrierRampStart_one hcar hair hramp).trans (if_neg ?_))
    rcases hb with h | h <;> simp [c, h]
  · refine next_chip ((carrierRampStart_one hcar hair hramp).trans ((if_pos ?_).trans ?_))
    · simp [c, hkind, ho]
    · simp only [hj]
  · have heq := (carrierEnd_one hcar hair hlast).trans (congrArg releaseWindows ((carrierEnd1_at hkind hj).trans (jobEnd_at hkind hcut)))
    intro d
    refine ⟨fun har => next_chip (heq.trans (congrArg releaseWindows (if_pos (by rw [har]; rfl)))), fun har =>
      next_chip (heq.trans (congrArg releaseWindows (if_neg (by rw [har]; exact Bool.false_ne_true))))⟩
  · exact next_chip (ackWaitExpiry_one hjobs hwait hdue hcome hkind hres)
  · have heq : csmaCca t.toNat energy c = c := by simp only [csmaCca, hj, decide_eq_true hearly, Bool.true_or, if_true]
    exact next_chip heq
  · exact next_chip ((csmaCca_eq energy hj hdue hon hent).trans (if_pos (by rw [hno]; rfl)))
  · refine next_chip ((csmaCca_eq energy hj hdue hon hent).trans ((if_neg ?_).trans (if_neg ?_)))
    · rw [hheld]
      exact Bool.false_ne_true
    · rw [hfree]
      exact Bool.false_ne_true
  · refine next_chip ((csmaCca_eq energy hj hdue hon hent).trans ((if_neg ?_).trans (if_pos hbusy)))
    rw [hheld]
    exact Bool.false_ne_true
  · rfl
  · have heq : budgetWindowWrite b.val w.toNat c = c.regReject := by
      rw [budgetWindowWrite]
      exact if_pos (by rw [hbad, Bool.not_false, Bool.or_true])
    exact next_chip heq
  · exact next_chip ((budgetWindowWrite_eq b.val hon hgood).trans ((if_pos hb).trans (if_neg hnew)))
  · exact next_chip ((budgetWindowWrite_eq b.val hon hgood).trans ((if_neg (by omega)).trans (if_neg hnew)))

end Sys2Proof
end

section
/-! SUPPORT. Schedules (R125, R129, R142 to R155): what each command does to the one that is due. -/

namespace Sys2Proof.Machine
open Safety

variable {c : Chip}

/-! ### TSCH (R129) -/

theorem asnNext_radio : (asnNext c).radio = c.radio := (rfl)

theorem tschAdvance_radio : (tschAdvance c).radio = { c.radio with tschIn := true } := by
  unfold tschAdvance
  split <;> rfl

theorem tschAdvance_entering : (tschAdvance c).entering = c.entering := by
  have hnext : (asnNext c).entering = c.entering := by
    simp (disch := decide) only [Chip.entering, asnNext, Chip.b_regs, Chip.f_regs, Chip.setRegN_regs, regF_putN_ne]
  unfold tschAdvance
  split
  · rw [← hnext]
    simp only [Chip.entering, Chip.onRadio_b, Chip.onRadio_f]
  · simp only [Chip.entering, Chip.onRadio_b, Chip.onRadio_f]

theorem tschStopRx_idle (hrx : c.radio.tschRx = none) (hack : c.radio.tschAck = none) : tschStopRx c = c := by
  simp only [tschStopRx, hack, hrx]

section Timeslot
variable {start : Nat} (hnext : c.radio.tschNext = some start) (hdue : start ≤ c.now) (hon : c.isOn .link = true)
  (hmode : c.f Fld.LINK_CTRL_SCHED_MODE = 1) (hrun : c.b Fld.LINK_TSCH_CTRL_RUN = true) (hrx : c.radio.tschRx = none)
  (hack : c.radio.tschAck = none) (hent : c.entering = false)
include hnext hdue hon hmode hrun hrx hack hent

/-- A timeslot starts: the link it picks is served. -/
theorem tschTimeslot_eq : tschTimeslot c =
    let d := tschAdvance c
    (match d.tschPick d.asn with
      | none => d
      | some l => match d.tschRequest l with
        | some j => tschSend l j start d.asn d
        | none =>
          if l.advertising && d.b Fld.LINK_TSCH_CTRL_EB_ENABLE then
            beaconMake (start + d.regN (Reg.LINK_TS 2)) (d.tschFreq d.asn l.offset) d
          else match d.tschLane (d.tschFreq d.asn l.offset) with
            | some n =>
              (laneSchedule n (d.tschFreq d.asn l.offset) (d.regN (Reg.LANE_PHY n))
                (max (d.now + 1) (start + d.regN (Reg.LINK_TS 3) - 32)) true d).onRadio fun x => { x with
                  tschRx := some (n, d.asn, start + d.regN (Reg.LINK_TS 2) + headGrains (d.regN (Reg.LANE_PHY n)), l.keep,
                    start + d.regN (Reg.LINK_TS 3) + d.regN (Reg.LINK_TS 6)) }
            | none => d).onRadio fun x => { x with tschNext := some (start + max 1 (c.regN (Reg.LINK_TS 11))) } := by
  have hgate : (decide (c.now < start) || ! c.isOn .link || c.f Fld.LINK_CTRL_SCHED_MODE != 1 || ! c.b Fld.LINK_TSCH_CTRL_RUN) = false := by
    simp [hdue, hon, hmode, hrun]
  have hstop : tschStopRx (tschAdvance c) = tschAdvance c :=
    tschStopRx_idle (by rw [tschAdvance_radio]; exact hrx) (by rw [tschAdvance_radio]; exact hack)
  simp only [tschTimeslot, hnext, hgate, if_neg Bool.false_ne_true, hstop, tschAdvance_entering, hent] <;> rfl

end Timeslot

/-! ### Rendezvous and windows (R146, R147) -/

/-- Every rendezvous due is dealt with, in order. -/
def reserveAll (c : Chip) : Chip :=
  (c.rdvDue.foldl (fun l x => insertDue x l) []).foldl (fun c x => reserveOne x.2.2.1 x.2.2.2 c) c

theorem rendezvousReserve_eq (hrun : c.schedRuns = true) (hent : c.entering = false) :
    rendezvousReserve c = reserveAll (readAll (c.regN Reg.LINK_PSCHED_BASE) c) := by
  have hgate : (! c.schedRuns || c.entering) = false := by rw [hrun, hent]; rfl
  exact if_neg fun h => Bool.false_ne_true (hgate.symm.trans h)

theorem reserveAll_one {g p i k : Nat} (hdue : c.rdvDue = [(g, p, i, k)]) : reserveAll c = reserveOne i k c := by
  rw [reserveAll, hdue, List.foldl_cons, List.foldl_nil, insertDue, List.foldl_cons, List.foldl_nil]

theorem laneListen_tschRx (n : Nat) (v : Bool) : (laneListen n v c).radio.tschRx = c.radio.tschRx := by
  unfold laneListen
  dsimp only
  split
  · split <;> rfl
  · rfl

/-- The one window whose end has come. -/
theorem windowClose_one {w : RdvWindow} (hw : c.radio.windows = [w]) (hopen : w.closed = false) (hend : w.at_ + w.half ≤ c.now)
    (huntil : w.until_ ≤ c.now) (hrx : c.radio.tschRx = none) (hack : c.ackHeardFor w = false) :
    windowClose c = releaseWindows (laneListen w.lane false (c.onRadio fun x => { x with windows := [{ w with closed := true }] })) := by
  have hfilter : (c.radio.windows.filter fun w => ! w.closed && decide (w.at_ + w.half ≤ c.now)) = [w] := by
    simp [hw, hopen, hend]
  have hmark : (c.onRadio fun x => { x with windows := x.windows.map fun y => if y = w then { w with closed := true } else y }) =
      c.onRadio fun x => { x with windows := [{ w with closed := true }] } := by
    rw [Chip.onRadio, hw, List.map_cons, if_pos rfl, List.map_nil]
    rfl
  have hgate : (decide (c.now < w.until_) || c.ackHeardFor w) = false := by simp [huntil, hack]
  have hrx' : (laneListen w.lane false (c.onRadio fun x => { x with windows := [{ w with closed := true }] })).radio.tschRx = none :=
    (laneListen_tschRx _ _).trans hrx
  simp only [windowClose, hfilter, List.foldl_cons, List.foldl_nil, hmark, hgate, if_neg Bool.false_ne_true, hrx']

/-! ### Downlinks and pages (R149, R154) -/

theorem readPair_mems {c d : Chip} (h : d.mems = c.mems) (p : Nat) : (readPair p d).1 = (readPair p c).1 := by
  have hflaw : d.flaw (evenOf p) = c.flaw (evenOf p) := by rw [Chip.flaw, Chip.flaw, h]
  have hstored := stored_mems h
  unfold readPair
  dsimp only
  rw [hflaw, hstored, hstored]
  split <;> rfl

/-- Schedule records lie in memory, and change with nothing of the radio's. -/
theorem onRadio_sched (g : Radio → Radio) (i : Nat) : (c.onRadio g).sched i = c.sched i := by
  have hptr : (c.onRadio g).recordPtr8 i = c.recordPtr8 i := rfl
  have hsp : ∀ sp, (c.onRadio g).spaceAccess sp = c.spaceAccess sp := fun sp => rfl
  have hn : (c.onRadio g).partners = c.partners := rfl
  have hpeek : ∀ p, (c.onRadio g).peek p = c.peek p := fun p =>
    congrArg (PairRead.word · p) (readPair_mems (Chip.onRadio_mems c g) p)
  simp only [Chip.sched, hptr, hsp, hn, Chip.peek8, hpeek]

/-- The one downlink that is due, in no window. -/
theorem downlinkSend_one {d : Downlink} {j : TxJob} (hd : c.radio.downlinks = [d]) (hdue : d.goAt ≤ c.now + 2112)
    (hrun : c.schedRuns = true) (hent : c.entering = false)
    (hj : (c.radio.jobs.find? fun j => j.kind == 3 && j.handle == some d.handle && j.phase == .queued) = some j) :
    let c2 := commitJob j d.goAt d.freq (c.sched d.handle).phy none (c.onRadio fun x => { x with downlinks := [] })
    (c2.radio.windows.find? fun w => w.handle == d.handle) = none → downlinkSend c = c2 := by
  intro c2 hnone
  have hfilter : (c.radio.downlinks.filter fun d => decide (d.goAt ≤ c.now + 2112)) = [d] := by
    simp [hd, hdue]
  have hdrop : (c.onRadio fun x => { x with downlinks := x.downlinks.filter fun y => y != d }) =
      c.onRadio fun x => { x with downlinks := [] } := by
    have hnil : (c.radio.downlinks.filter fun y => y != d) = [] := by simp [hd]
    rw [Chip.onRadio, hnil]
    rfl
  have hgate : (! (c.onRadio fun x => { x with downlinks := [] }).schedRuns || (c.onRadio fun x => { x with downlinks := [] }).entering) =
      false := by
    rw [show (c.onRadio fun x => { x with downlinks := [] }).schedRuns = true from hrun,
      show (c.onRadio fun x => { x with downlinks := [] }).entering = false from hent]
    rfl
  have hj' : ((c.onRadio fun x => { x with downlinks := [] }).radio.jobs.find? fun j =>
      j.kind == 3 && j.handle == some d.handle && j.phase == .queued) = some j := hj
  have hsched : (c.onRadio fun x => { x with downlinks := [] }).sched d.handle = c.sched d.handle := onRadio_sched _ _
  simp only [downlinkSend, hfilter, List.foldl_cons, List.foldl_nil, hdrop, hgate, if_neg Bool.false_ne_true, hj', hsched, c2]
  simp only [c2] at hnone
  rw [hnone]

/-! ### The grant (R153) -/

/-- A register that is none of a lane's (R105). -/
def notLaneReg (a : Nat) : Prop := a % 64 = 7

section NotLane
variable {a : Nat} (ha : notLaneReg a) (n : Nat)
include ha

theorem setLaneState_reg (v : Nat) : (setLaneState n v c).reg a = c.reg a :=
  Chip.reg_setF_ne c _ _ _ fun h => by
    have h : a = 0xa005 + 0x40 * n := h
    unfold notLaneReg at ha
    omega

theorem laneListen_reg (v : Bool) : (laneListen n v c).reg a = c.reg a := by
  have hset : (c.setB (Fld.LANE_CTRL_LISTEN n) v).reg a = c.reg a := Chip.reg_setB_ne c _ _ _ fun h => by
    have h : a = 0xa000 + 0x40 * n := h
    unfold notLaneReg at ha
    omega
  unfold laneListen
  dsimp only
  split
  · split
    · exact (setLaneState_reg ha n _).trans hset
    · exact (setLaneState_reg ha n _).trans hset
  · exact hset

theorem laneArm_reg (g : Nat) : (laneArm n g c).reg a = c.reg a :=
  (Chip.reg_setB_ne _ _ _ _ fun h => by
    have h : a = 0xa005 + 0x40 * n := h
    unfold notLaneReg at ha
    omega).trans rfl

theorem laneSchedule_reg (f p g : Nat) (listen : Bool) : (laneSchedule n f p g listen c).reg a = c.reg a := by
  unfold notLaneReg at ha
  have h1 : a ≠ Reg.LANE_FREQ n := fun h => by simp only [Reg.LANE_FREQ] at h; omega
  have h2 : a ≠ Reg.LANE_PHY n := fun h => by simp only [Reg.LANE_PHY] at h; omega
  have h3 : a ≠ Reg.LANE_SWITCH_AT n := fun h => by simp only [Reg.LANE_SWITCH_AT] at h; omega
  rw [laneSchedule, laneArm_reg ha, laneListen_reg ha, Chip.reg_setRegN_ne _ _ _ _ h3, Chip.reg_setRegN_ne _ _ _ _ h2,
    Chip.reg_setRegN_ne _ _ _ _ h1]

theorem reserveLane_reg (w : RdvWindow) (g p : Nat) : (reserveLane w g p c).reg a = c.reg a := by
  have hset : ∀ d : Chip, (d.setB (Fld.LANE_STATUS_SCHEDULED w.lane) true).reg a = d.reg a := fun d => Chip.reg_setB_ne d _ _ _ fun h => by
    have h : a = 0xa005 + 0x40 * w.lane := h
    unfold notLaneReg at ha
    omega
  rw [reserveLane, laneSchedule_reg ha, Chip.onRadio_reg, hset]
  rfl

theorem grantLane_reg (r : Resync) (stop : Nat) : (grantLane r stop c).reg a = c.reg a := by
  unfold grantLane
  split
  · exact (laneListen_reg ha _ _).trans rfl
  · split
    · exact reserveLane_reg ha _ _ _
    · rfl

end NotLane

/-- The one grant whose commit grain has come. -/
theorem resyncGrant_one {r : Resync} (hr : c.radio.resyncs = [r]) (hc : r.carrier = none) (hgo : r.goAt ≤ c.now + 2112) :
    resyncGrant c = grantOne r c := by
  have hfilter : (c.radio.resyncs.filter fun r => r.carrier.isNone && decide (r.goAt ≤ c.now + 2112)) = [r] := by
    simp [hr, hc, hgo]
  rw [resyncGrant, hfilter, List.foldl_cons, List.foldl_nil]

/-- A grant that is sent: its carrier, and the chip it is committed in. -/
theorem grantOne_sent {r : Resync} (hrun : c.schedRuns = true) (hent : c.entering = false)
    (hfc : c.regN Reg.LINK_TX_FRAME_COUNTER ≠ 2 ^ 32 - 1) : ∃ (k : Carrier) (d : Chip), k.kind = .grant ∧ k.first = r.goAt ∧ k.freq = r.freq ∧
      k.handle = some r.handle ∧ d.regN Reg.LINK_TX_FRAME_COUNTER = (c.regN Reg.LINK_TX_FRAME_COUNTER + 1) % 2 ^ 36 ∧
      grantOne r c = contestNow lostCarrier (commitCarrier k d) := by
  have hgate : (! c.schedRuns || c.entering || c.regN Reg.LINK_TX_FRAME_COUNTER == 2 ^ 32 - 1) = false := by
    rw [hrun, hent, beq_eq_false_iff_ne.mpr hfc]
    rfl
  refine ⟨_, _, ?_, ?_, ?_, ?_, ?_, if_neg fun h => Bool.false_ne_true (hgate.symm.trans h)⟩
  · rfl
  · rfl
  · rfl
  · rfl
  · rw [Chip.regN, grantLane_reg (show notLaneReg Reg.LINK_TX_FRAME_COUNTER from rfl), ← Chip.regN]
    exact Chip.regN_setRegN _ _ _

/-! ### One rendezvous reserved (R146) -/

section Reserve
variable {i k : Nat} (hnarrow : (readPartner i c).regN Reg.LINK_PSCHED_MAX_WINDOW ≥ ((readPartner i c).sched i).widening k)

/-- The chip once the rendezvous counts as the last one its partner was given. -/
def rdvTaken (i k : Nat) (c : Chip) : Chip :=
  c.onRadio fun x => { x with lastRdv := Store.put 0 x.lastRdv i ((c.sched i).number k + 1) }

include hnarrow

theorem reserveOne_noLane (hlane : (rdvTaken i k (readPartner i c)).pickLane ((readPartner i c).sched i).phy
      ((readPartner i c).rdvFreq ((readPartner i c).sched i) (((readPartner i c).sched i).number k)) = none) :
    reserveOne i k c = ((rdvTaken i k (readPartner i c)).bump Fld.LINK_PSCHED_COUNTS_1_RDV_NO_LANE).raise .psched 3 := by
  unfold rdvTaken at hlane ⊢
  simp only [reserveOne, if_neg (Nat.not_lt.mpr hnarrow), hlane]

theorem reserveOne_lane {n : Nat} (hlane : (rdvTaken i k (readPartner i c)).pickLane ((readPartner i c).sched i).phy
      ((readPartner i c).rdvFreq ((readPartner i c).sched i) (((readPartner i c).sched i).number k)) = some n) :
    reserveOne i k c =
      let d := readPartner i c
      let r := d.sched i
      reserveLane {
        kind := 0, handle := i, n := r.number k, lane := n, at_ := r.at_ k, half := d.halfWindow r k, freq := d.rdvFreq r (r.number k),
        closed := false, heard := false, until_ := r.at_ k + d.halfWindow r k } (max (d.now + 1) (d.rdvSwitch r k)) r.phy
        (rdvTaken i k d) := by
  unfold rdvTaken at hlane ⊢
  simp only [reserveOne, if_neg (Nat.not_lt.mpr hnarrow), hlane]

end Reserve

/-! ### The page (R154, R155) -/

/-- The carrier of a page to a handle. -/
def pageCarrier (c : Chip) (i : Nat) : Carrier where
  id := c.radio.nextId
  kind := .page
  commit := c.now
  ramp := c.now + 2048
  first := c.now + 2048 + 64
  last := c.now + 2048 + 3221353
  freq := 860000000 + 50000 * (c.sched i).step
  phy := 0
  powerDb := 0
  lane := 64
  priority := (c.entry i).priority
  ticket := 512
  handle := some i
  onAir := false
  cut := false
  octets := (leOctets 6 (wakePattern (c.regN Reg.LINK_WUR_NET) (c.sched i).wakeId)).reverse
  wave := pageWave (wakePattern (c.regN Reg.LINK_WUR_NET) (c.sched i).wakeId)
  heard := none

theorem pageStart_sent {i n : Nat} {rest : List (Nat × Nat)} (hpages : c.radio.pages = (i, n) :: rest) (hrun : c.schedRuns = true)
    (hpage : c.radio.page = none) (hnext : c.radio.pageNext ≤ c.now) (hent : c.entering = false) :
    pageStart c = contestNow lostCarrier (commitCarrier (pageCarrier c i) (refreshPage (c.onRadio fun x => { x with
      nextId := x.nextId + 1
      page := some { handle := i, carrier := c.radio.nextId, waitUntil := none, answered := false } }))) := by
  have hgate : (! c.schedRuns || c.radio.page.isSome || decide (c.now < c.radio.pageNext) || c.entering) = false := by
    simp [hrun, hpage, hnext, hent]
  simp only [pageStart, hpages, hgate, if_neg Bool.false_ne_true, freshId, pageCarrier, onRadio_onRadio]

end Sys2Proof.Machine
end

section
namespace Sys2Proof
open Machine Safety

/-- Settles O49: what is due in a schedule is served as its definition says. -/
theorem schedules : Obligations.Schedules := by
  intro s c
  refine ⟨fun start hnext hdue hon hmode hrun hrx hack hent => ?_, fun hon hrun => ?_, fun hon hrun hmode => ?_, fun g p i k hrun hent => ?_,
    fun w hw hopen hend huntil hrx hack => ?_, fun d j hd hdue hrun hent hj => ?_, fun i n rest hpages hrun hpage hnext hent => ?_,
    fun g t hpage hwait => ⟨fun hearly => ?_, fun hlate hrun => ?_, fun hlate hrun => ?_⟩, fun r hr hc hgo => ⟨fun hrun => ?_,
    fun hrun hent hfc => ?_⟩⟩
  · have heq := tschTimeslot_eq hnext hdue hon hmode hrun hrx hack hent
    intro stop d
    refine ⟨fun hpick => next_chip (heq.trans ?_), fun l j hpick hreq => next_chip (heq.trans ?_), fun l n hpick hreq hadv hlane =>
      next_chip (heq.trans ?_)⟩
    · simp only [d] at hpick
      simp only [hpick, d, stop]
    · simp only [d] at hpick hreq
      simp only [hpick, hreq, d, stop]
    · simp only [d] at hpick hreq hlane
      simp only [hpick, hreq, hadv, hlane, Bool.false_and, if_neg Bool.false_ne_true, d, stop]
  · have heq : tschRunClear c = finishWhere (fun j => j.kind == 3 && j.phase == .queued) txStateRefused
        (((tschDrive false (tschStopRx (c.setB Fld.LINK_TSCH_CTRL_RUN false))).onRadio fun x => { x with
          tschNext := none
          tschIn := false }).setB Fld.LINK_STATUS_TSCH_SYNCED (c.b Fld.LINK_TSCH_CTRL_COORD)) := by
      simp only [tschRunClear, hon, hrun, Bool.not_true, if_neg Bool.false_ne_true]
    exact next_chip heq
  · have heq : pschedRunClear c = finishWhere (fun j => j.kind == 3 && j.phase == .queued) txStateRefused
        (pschedStop (c.setB Fld.LINK_PSCHED_CTRL_RUN false)) := by
      simp only [pschedRunClear, hon, hrun, hmode, Bool.not_true, if_neg Bool.false_ne_true, BEq.rfl, Bool.and_true]
    exact next_chip heq
  · intro c0 hdue
    have heq := (rendezvousReserve_eq hrun hent).trans (reserveAll_one hdue)
    intro c r c1
    exact ⟨fun hwide => next_chip (heq.trans (if_pos hwide)), fun hnarrow hlane => next_chip (heq.trans (reserveOne_noLane hnarrow hlane)),
      fun n hnarrow hlane => next_chip (heq.trans (reserveOne_lane hnarrow hlane))⟩
  · exact next_chip (windowClose_one hw hopen hend huntil hrx hack)
  · intro c2 hnone
    exact next_chip (downlinkSend_one hd hdue hrun hent hj hnone)
  · exact ⟨pageCarrier c i, rfl, rfl, Nat.add_assoc _ _ _, rfl, rfl, rfl, rfl, rfl,
      next_chip (pageStart_sent hpages hrun hpage hnext hent)⟩
  · have heq : resyncWaitExpiry c = c := by simp only [resyncWaitExpiry, hpage, hwait, if_neg (Nat.not_le.mpr hearly)]
    exact next_chip heq
  · have heq : resyncWaitExpiry c = releaseWindows (pageFailed g.handle (refreshPage (c.onRadio fun x => { x with page := none }))) := by
      simp only [resyncWaitExpiry, hpage, hwait, if_pos hlate, hrun, if_true]
    exact next_chip heq
  · have heq : resyncWaitExpiry c = releaseWindows (refreshPage (c.onRadio fun x => { x with page := none })) := by
      simp only [resyncWaitExpiry, hpage, hwait, if_pos hlate, hrun, if_neg Bool.false_ne_true]
    exact next_chip heq
  · have heq : grantOne r c = dropResync r.handle c := by
      rw [grantOne]
      exact if_pos (by simp [hrun])
    exact next_chip ((resyncGrant_one hr hc hgo).trans heq)
  · obtain ⟨k, d, hkind, hfirst, hfreq, hhandle, hcount, heq⟩ := grantOne_sent (r := r) hrun hent hfc
    exact ⟨k, d, hkind, hfirst, hfreq, hhandle, hcount, next_chip ((resyncGrant_one hr hc hgo).trans heq)⟩

end Sys2Proof
end

section
/-! SUPPORT. Partner operations (R139 to R143) and the wake-up receiver (R156 to R158). -/

namespace Sys2Proof.Machine
open Safety

variable {c : Chip}

/-! ### Partner operations -/

theorem partnerStart_busy (op h : Nat) (hbusy : c.b Fld.LINK_PARTNER_STATUS_BUSY = true) : partnerStart op h c = c.regReject :=
  if_pos (by rw [hbusy, Bool.or_true])

theorem partnerStart_free (hon : c.isOn .link = true) (op h : Nat) (hfree : c.b Fld.LINK_PARTNER_STATUS_BUSY = false) :
    partnerStart op h c = ((c.onRadio fun x => { x with
      op := some { op := op, handle := h, entry := none, ticket := none } }).setB Fld.LINK_PARTNER_STATUS_BUSY true).setF
        Fld.LINK_PARTNER_STATUS_LAST_HANDLE h :=
  if_neg (by rw [hon, hfree]; decide)

/-- One of eight values, by the code of an operation (R139). -/
def byOp {α : Type} (op : Nat) (a0 a1 a2 a3 a4 a5 a6 a7 : α) : α :=
  match op with
  | 0 => a0
  | 1 => a1
  | 2 => a2
  | 3 => a3
  | 4 => a4
  | 5 => a5
  | 6 => a6
  | _ => a7

section ByOp
variable {α : Type} (a0 a1 a2 a3 a4 a5 a6 a7 : α)

theorem byOp_invalidate : byOp 3 a0 a1 a2 a3 a4 a5 a6 a7 = a3 := rfl
theorem byOp_schedWrite : byOp 4 a0 a1 a2 a3 a4 a5 a6 a7 = a4 := rfl
theorem byOp_schedClear : byOp 5 a0 a1 a2 a3 a4 a5 a6 a7 = a5 := rfl
theorem byOp_page : byOp 6 a0 a1 a2 a3 a4 a5 a6 a7 = a6 := rfl
theorem byOp_pageCancel : byOp 7 a0 a1 a2 a3 a4 a5 a6 a7 = a7 := rfl

end ByOp

/-- The effect of READ: the entry and its record as read, in the stage registers (R139). -/
def stageRead (i : Nat) (c : Chip) : Status × Chip :=
  let (es, c1) := readWords (c.entryPtr i) 8 c
  let (rs, c2) := readWords (c.recordPtr8 i) 8 c1
  (.ok, (List.range 8).foldl (fun c k =>
    (c.setReg (Reg.LINK_PARTNER_STAGE k) (es.getD k .absent)).setReg (Reg.LINK_PSCHED_STAGE k) (rs.getD k .absent)) c2)

/-- The effect of an operation in the chip its reads leave. -/
def partnerAct (p : PartnerOp) (c : Chip) : Status × Chip :=
  let i := p.handle
  if c.spaceAccess 0 ≠ .served ∧ p.ticket.isSome = true then (.stateRefused, c)
  else if c.partners ≤ i ∨ c.spaceAccess 0 ≠ .served then (.badArg, c)
  else if (p.op = 4 ∨ p.op = 6 ∨ p.ticket.isSome = true) ∧ (c.entry i).valid = false then (.badArg, c)
  else if p.ticket.isSome = true ∧ (c.entry i).ext = 0 then (.badArg, c)
  else byOp p.op (stageRead i c) (writeEntry i false (p.entry.getD ((List.range 8).map c.stage)) c)
    (writeEntry i true (p.entry.getD ((List.range 8).map c.stage)) c)
    (.ok, pageLeave i (clearSched i (setEntryBit i entryPaging false (setEntryBit i entryValid false c)))) (schedWrite i c)
    (.ok, clearSched i c) (.ok, loseSync i c) (.ok, pageLeave i (setEntryBit i entryPaging false c))

theorem partnerEffect_eq (p : PartnerOp) (c : Chip) :
    partnerEffect p c = partnerAct p (if p.op = 0 then c else readPartner p.handle c) := rfl

section Effect
variable {p : PartnerOp} (hticket : p.ticket = none)

theorem readPartner_unknown {i : Nat} (h : c.partners ≤ i) : readPartner i c = c :=
  if_neg (by simp [Nat.not_lt.mpr h])

theorem partnerOpEffect_waits (hop : c.radio.op = some p) (hheld : c.handleHeld p.handle = true) : partnerOpEffect c = c := by
  simp only [partnerOpEffect, hop, hheld, Bool.true_or, if_true]

include hticket

theorem partnerOpEffect_done (hop : c.radio.op = some p) (hon : c.isOn .link = true) (hfree : c.handleHeld p.handle = false) :
    partnerOpEffect c =
      let e := partnerEffect p c
      (((e.2.onRadio fun x => { x with op := none }).setB Fld.LINK_PARTNER_STATUS_BUSY false).setF
        Fld.LINK_PARTNER_STATUS_RESULT e.1.code).raise .psched 4 := by
  have hgate : (c.handleHeld p.handle || ! c.isOn .link) = false := by rw [hfree, hon]; rfl
  simp only [partnerOpEffect, hop, hgate, if_neg Bool.false_ne_true, hticket]

theorem partnerEffect_unknown (h : c.partners ≤ p.handle) : partnerEffect p c = (.badArg, c) := by
  have hread : (if p.op = 0 then c else readPartner p.handle c) = c := by
    rw [readPartner_unknown h]
    exact ite_self c
  simp [partnerEffect, hread, hticket, h]

section Known
variable {d : Chip} (hknown : p.handle < d.partners) (hserved : d.spaceAccess 0 = .served)
include hknown hserved

theorem partnerAct_invalid (hop : p.op = 4 ∨ p.op = 6) (hinvalid : (d.entry p.handle).valid = false) : partnerAct p d = (.badArg, d) := by
  simp [partnerAct, hticket, hserved, Nat.not_le.mpr hknown, hop, hinvalid]

/-- An operation that no check refuses has the effect of its code (R139). -/
theorem partnerAct_served (hvalid : p.op = 4 ∨ p.op = 6 → (d.entry p.handle).valid = true) :
    partnerAct p d = byOp p.op (stageRead p.handle d) (writeEntry p.handle false (p.entry.getD ((List.range 8).map d.stage)) d)
      (writeEntry p.handle true (p.entry.getD ((List.range 8).map d.stage)) d)
      (.ok, pageLeave p.handle (clearSched p.handle (setEntryBit p.handle entryPaging false (setEntryBit p.handle entryValid false d))))
      (schedWrite p.handle d) (.ok, clearSched p.handle d) (.ok, loseSync p.handle d)
      (.ok, pageLeave p.handle (setEntryBit p.handle entryPaging false d)) := by
  have hno : ¬ p.ticket.isSome = true := by rw [hticket]; decide
  have hentry : ¬ ((p.op = 4 ∨ p.op = 6 ∨ p.ticket.isSome = true) ∧ (d.entry p.handle).valid = false) := by
    rintro ⟨hop, hv⟩
    exact absurd ((hvalid (hop.imp_right fun h => h.resolve_right hno)).symm.trans hv) (by decide)
  exact (if_neg fun h => hno h.2).trans ((if_neg fun h => h.elim (Nat.not_le.mpr hknown) fun h => h hserved).trans
    ((if_neg hentry).trans (if_neg fun h => hno h.1)))

end Known
end Effect

theorem schedWrite_illegal (i : Nat) (h : schedLegal c.schedStage = false) : schedWrite i c = (.badArg, c) :=
  if_pos (by rw [h]; rfl)

/-! ### The wake-up receiver -/

theorem crcBit_lt {w reg : Nat} (poly : Nat) (bit : Bool) : crcBit w poly reg bit < 2 ^ w := by
  have hsh : reg * 2 % 2 ^ w < 2 ^ w := Nat.mod_lt _ (Nat.two_pow_pos w)
  unfold crcBit
  dsimp only
  split
  · exact Nat.xor_lt_two_pow hsh (Nat.mod_lt _ (Nat.two_pow_pos w))
  · exact hsh

theorem foldl_crcBit_lt {w reg : Nat} (poly : Nat) (bs : List Bool) (h : reg < 2 ^ w) : bs.foldl (crcBit w poly) reg < 2 ^ w := by
  induction bs generalizing reg with
  | nil => exact h
  | cons b bs ih => exact ih (crcBit_lt poly b)

theorem wakeCheck_lt (n : Nat) : wakeCheck n < 256 := foldl_crcBit_lt (w := 8) 0x07 _ (by decide)

theorem wakePattern_body (net id : Nat) : wakePattern net id / 256 = net % 65536 * 2 ^ 24 + id % 2 ^ 24 := by
  have h := wakeCheck_lt (net % 65536 * 2 ^ 24 + id % 2 ^ 24)
  rw [wakePattern, Nat.mul_comm, Nat.mul_add_div (by decide), Nat.div_eq_of_lt h, Nat.add_zero]

theorem wakePattern_check (net id : Nat) : wakePattern net id % 256 = wakeCheck (wakePattern net id / 256) := by
  have h := wakeCheck_lt (net % 65536 * 2 ^ 24 + id % 2 ^ 24)
  rw [wakePattern_body, wakePattern, Nat.mul_comm, Nat.mul_add_mod, Nat.mod_eq_of_lt h]

theorem wurMatch_none {bits : Nat} (hnone : c.wakeMatches bits = none) : wurMatch bits c = c := by
  simp only [wurMatch, hnone, ite_self]

section Match
variable {bits : Nat} (hon : c.isOn .wur = true) (hena : c.b Fld.LINK_WUR_CTRL_ENABLE = true) (hair : c.onAir = false)
  (hpow : c.power ≠ 7) (hlive : c.pwr.heldInReset = false)
include hon hena hair hpow hlive

theorem wurMatch_gate : (! c.isOn .wur || ! c.b Fld.LINK_WUR_CTRL_ENABLE || c.onAir || c.power == 7 || c.pwr.heldInReset) = false := by
  rw [hon, hena, hair, hlive, beq_eq_false_iff_ne.mpr hpow]
  rfl

variable {b : Bool} (hb : c.wakeMatches bits = some b)
include hb

theorem wurMatch_heldOff (hhold : c.b Fld.LINK_WUR_STATUS_HOLDOFF = true) : wurMatch bits c = c.bump Fld.LINK_WUR_COUNTS_HELD_OFF := by
  simp only [wurMatch, wurMatch_gate hon hena hair hpow hlive, if_neg Bool.false_ne_true, hb, hhold, if_true]

theorem wurMatch_taken (hhold : c.b Fld.LINK_WUR_STATUS_HOLDOFF = false) : wurMatch bits c =
    let c1 := ((c.bump Fld.LINK_WUR_COUNTS_MATCHES).setB Fld.LINK_WUR_STATUS_MATCH true).setB Fld.LINK_WUR_STATUS_LAST_BCAST b
    let c2 := (c1.setB Fld.LINK_WUR_STATUS_HOLDOFF (c1.f Fld.LINK_WUR_CTRL_HOLDOFF_S != 0)).onRadio fun r =>
      { r with wurHold := some (c1.now + c1.f Fld.LINK_WUR_CTRL_HOLDOFF_S * 67108864) }
    latchWake (if c.awake then c2.fire 0xC3 (some 0) else c2) 0 := by
  simp only [wurMatch, wurMatch_gate hon hena hair hpow hlive, if_neg Bool.false_ne_true, hb, hhold]

end Match

end Sys2Proof.Machine
end

section
namespace Sys2Proof
open Machine Safety

/-- Settles O50: a partner operation waits for its grain and then has the effect of its code; a pattern that matches wakes or fires,
unless held off. -/
theorem partnersAndWakeUp : Obligations.PartnersAndWakeUp := by
  intro s c
  refine ⟨fun r hr h hon => ?_, fun p hop hon => ⟨fun hheld => next_chip (partnerOpEffect_waits hop hheld),
    fun hfree hticket => next_chip (partnerOpEffect_done hticket hop hon hfree), fun hticket hunknown => partnerEffect_unknown hticket hunknown,
    fun d hd hknown hserved hticket => ?_⟩, fun bits hon hena hair hpow hlive => ?_,
    fun net id => ⟨wakePattern_check net id, wakePattern_body net id⟩, fun g hg => ⟨fun hearly => ?_, fun hdue => ?_⟩⟩
  · have hrow : exec (r.1 h) s = partnerRow r.2 h s := by
      simp only [List.mem_cons, List.not_mem_nil, or_false] at hr
      rcases hr with rfl | rfl | rfl | rfl | rfl | rfl | rfl | rfl <;> rfl
    exact ⟨fun hbusy => hrow.trans (next_chip (partnerStart_busy _ _ hbusy)),
      fun hfree => hrow.trans (next_chip (partnerStart_free hon _ _ hfree))⟩
  · have heq := partnerEffect_eq p c
    rw [← hd] at heq
    have hserves := partnerAct_served hticket hknown hserved
    refine ⟨fun h3 => ?_, fun h4 hvalid hbad => ?_, fun h5 => ?_, fun h6 hvalid => ?_, fun h7 => ?_,
      fun hop hinvalid => heq.trans (partnerAct_invalid hticket hknown hserved hop hinvalid)⟩
    · rw [heq, hserves (by omega), h3, byOp_invalidate]
    · rw [heq, hserves fun _ => hvalid, h4, byOp_schedWrite, schedWrite_illegal _ hbad]
    · rw [heq, hserves (by omega), h5, byOp_schedClear]
    · rw [heq, hserves fun _ => hvalid, h6, byOp_page]
    · rw [heq, hserves (by omega), h7, byOp_pageCancel]
  · exact ⟨fun hnone => next_chip (wurMatch_none hnone),
      fun b hb => ⟨fun hhold => next_chip (wurMatch_heldOff hon hena hair hpow hlive hb hhold),
        fun hhold => next_chip (wurMatch_taken hon hena hair hpow hlive hb hhold)⟩⟩
  · have heq : wurHoldoffEnd c = c := by simp only [wurHoldoffEnd, hg, if_neg (Nat.not_le.mpr hearly)]
    exact next_chip heq
  · have heq : wurHoldoffEnd c = (c.setB Fld.LINK_WUR_STATUS_HOLDOFF false).onRadio fun r => { r with wurHold := none } := by
      simp only [wurHoldoffEnd, hg, if_pos hdue]
    exact next_chip heq

end Sys2Proof
end

section
/-! SUPPORT. The upkeep of memories: the scrubber (R168, R169), the march test (R170, R171), DRAM (R175 to R177). -/

namespace Sys2Proof.Machine
open Safety

variable {c : Chip}

/-! ### The scrubber (R168, R169) -/

theorem scrubOnce_clean {m : ScrubMemory} (hm : m ≠ .instruction) : scrubOnce m [] c = scrubRead (scrubSpace m) c := if_neg hm

theorem scrubRead_early {sp : Nat} (h : c.now < Store.get 0 c.mems.scrubDue sp) : scrubRead sp c = c :=
  if_neg (by simp [Nat.not_le.mpr h])

theorem scrubRead_due {sp : Nat} (hserved : c.spaceAccess sp = .served) (hen : c.b (scrubControl sp).1 = true)
    (hdue : Store.get 0 c.mems.scrubDue sp ≤ c.now) (hawake : c.awake = true) :
    scrubRead sp c =
      let pos := Store.get 0 c.mems.scrubPos sp
      let size := c.bankCodewords sp
      (scrubWhere (fun p => spaceOf p == sp && bankPlace p % size == pos) c).onMems fun x => { x with
        scrubDue := Store.put 0 x.scrubDue sp (c.now + c.regN (scrubControl sp).2)
        scrubPos := Store.put 0 x.scrubPos sp (if pos + 1 < size then pos + 1 else 0) } :=
  have hgate : (c.spaceAccess sp == .served && c.b (scrubControl sp).1 && decide (Store.get 0 c.mems.scrubDue sp ≤ c.now) && c.awake) =
      true := by
    rw [hserved, hen, decide_eq_true hdue, hawake]
    rfl
  if_pos hgate

theorem memoryServed_serving {i : Island} (o : Store Nat) (h : c.island i ≠ .restarting) : memoryServed i o c = c := if_neg h

theorem memoryServed_sram {i : Island} (o : Store Nat) (hi : i ≠ .ddr) (h : c.island i = .restarting) :
    memoryServed i o c = restartEnds i (islandUp o i (memoryScrubDone i c)) := by
  have hgate : ¬ (i = .ddr ∧ ¬ (islandUp o i (memoryScrubDone i c)).b Fld.MEM_DDR_STATUS_TRAINED = true) := fun h => hi h.1
  rw [memoryServed, if_pos h]
  dsimp only
  rw [if_neg hgate]

/-! ### The march test (R170, R171) -/

/-- The chip with the tester in a phase of a run, or in none. -/
def marchAt (phase : Nat) (run : Option MarchRun) (c : Chip) : Chip :=
  (c.setF Fld.MEM_MARCH_STATUS_PHASE phase).onMems fun m => { m with marchRun := run }

theorem marchAt_phase {phase : Nat} (h : phase < 4) (run : Option MarchRun) : (marchAt phase run c).f Fld.MEM_MARCH_STATUS_PHASE = phase :=
  (Chip.f_setF _ Fld.MEM_MARCH_STATUS_PHASE phase (by decide)).trans (Nat.mod_eq_of_lt h)

theorem marchAt_mems (phase : Nat) (run : Option MarchRun) : (marchAt phase run c).mems = { c.mems with marchRun := run } := (rfl)

section March
variable {g : Nat} (hseg : c.marchSegment = some g) (hdue : c.mems.marchDue ≤ c.now) (hawake : c.awake = true)
  (hrun : c.mems.marchRun = none) (hfresh : c.mems.redirected.contains g = false)

/-- The chip once the tester has taken a segment. -/
def marchTaken (g : Nat) (c : Chip) : Chip :=
  c.onMems fun m => { m with
    march := g + 1
    marchDue := c.now + c.regN Reg.MEM_MARCH_INTERVAL }

/-- The chip in which the COPY of a segment begins. -/
def marchBegun (g : Nat) (fails : Bool) (c : Chip) : Chip :=
  marchAt 1 (some { segment := g, fails := fails, phase := 1, done_ := 0 })
    ((c.setB Fld.MEM_MARCH_STATUS_IN_TABLE (decide (dataSegments ≤ g))).setF Fld.MEM_MARCH_STATUS_SEGMENT
      (if g < dataSegments then g else g - dataSegments))

theorem marchBegun_phase (fails : Bool) : (marchBegun g fails c).f Fld.MEM_MARCH_STATUS_PHASE = 1 := marchAt_phase (by decide) _

theorem marchBegun_mems (fails : Bool) :
    (marchBegun g fails c).mems = { c.mems with marchRun := some { segment := g, fails := fails, phase := 1, done_ := 0 } } := (rfl)

theorem marchBegun_core (fails : Bool) : (marchBegun g fails c).core = c.core := (rfl)

include hseg hdue hawake hrun hfresh

theorem marchSegmentStep_exhausted (hspares : 4 ≤ c.sparesUsed (segmentBank g)) (fails : Bool) :
    marchSegmentStep fails c = exhaustBank (segmentBank g) (marchTaken g c) := by
  have hfresh' : ¬ (marchTaken g c).mems.redirected.contains g = true := by rw [Bool.not_eq_true]; exact hfresh
  have hspares' : 4 ≤ (marchTaken g c).sparesUsed (segmentBank g) := hspares
  unfold marchTaken at *
  simp only [marchSegmentStep, hseg, if_pos (And.intro hdue (And.intro hawake hrun)), if_neg hfresh', if_pos hspares']

theorem marchSegmentStep_begins (hspares : c.sparesUsed (segmentBank g) < 4) (fails : Bool) :
    marchSegmentStep fails c = marchBegun g fails (marchTaken g c) := by
  have hfresh' : ¬ (marchTaken g c).mems.redirected.contains g = true := by rw [Bool.not_eq_true]; exact hfresh
  have hspares' : ¬ 4 ≤ (marchTaken g c).sparesUsed (segmentBank g) := Nat.not_le.mpr hspares
  unfold marchTaken at *
  simp only [marchSegmentStep, hseg, if_pos (And.intro hdue (And.intro hawake hrun)), if_neg hfresh', if_neg hspares', marchBegun, marchAt]

end March

theorem marchSegmentStep_busy {r : MarchRun} (h : c.mems.marchRun = some r) (fails : Bool) : marchSegmentStep fails c = c := by
  have hno : ¬ (c.mems.marchDue ≤ c.now ∧ c.awake = true ∧ c.mems.marchRun = none) := fun hall => by
    rw [h] at hall
    exact absurd hall.2.2 (by simp)
  unfold marchSegmentStep
  split
  · rfl
  · exact if_neg hno

theorem retireSegment_redirected (g : Nat) : (retireSegment g c).mems.redirected = c.mems.redirected ++ [g] := by
  simp only [retireSegment, Chip.raise_mems, Chip.setF_mems, Chip.setRegN_mems]
  rfl

theorem retireSegment_run (g : Nat) : (retireSegment g c).mems.marchRun = c.mems.marchRun := by
  simp only [retireSegment, Chip.raise_mems, Chip.setF_mems, Chip.setRegN_mems]
  rfl

theorem retireSegment_flag (g : Nat) : (retireSegment g c).b Fld.MEM_INT_STATUS_SEGMENT_RETIRED = true :=
  Chip.raise_flag _ .mem 4 (by decide)

theorem retireSegment_phase (g : Nat) : (retireSegment g c).f Fld.MEM_MARCH_STATUS_PHASE = c.f Fld.MEM_MARCH_STATUS_PHASE := by
  simp (disch := decide) only [retireSegment, Chip.f_regs, Chip.raise_regs_put, Chip.setF_regs, Chip.setRegN_regs, Chip.onMems_regs,
    writeMram, takeFree, regF_putF_ne, regF_putN_ne]

theorem exhaustBank_redirected (b : Nat) : (exhaustBank b c).mems.redirected = c.mems.redirected := by
  unfold exhaustBank
  split
  · rfl
  · simp only [Chip.raise_mems, Chip.setF_mems]
    rfl

theorem exhaustBank_run (b : Nat) : (exhaustBank b c).mems.marchRun = c.mems.marchRun := by
  unfold exhaustBank
  split
  · rfl
  · simp only [Chip.raise_mems, Chip.setF_mems]
    rfl

theorem exhaustBank_exhausted (b : Nat) : (exhaustBank b c).mems.exhausted.contains b = true := by
  unfold exhaustBank
  split
  · assumption
  · simp only [Chip.raise_mems, Chip.setF_mems]
    exact List.contains_iff_mem.mpr (List.mem_append_right _ (List.mem_singleton_self b))

theorem exhaustBank_phase (b : Nat) : (exhaustBank b c).f Fld.MEM_MARCH_STATUS_PHASE = c.f Fld.MEM_MARCH_STATUS_PHASE := by
  unfold exhaustBank
  split
  · rfl
  · simp (disch := decide) only [Chip.f_regs, Chip.raise_regs_put, Chip.setF_regs, Chip.onMems_regs, regF_putF_ne]

theorem exhaustBank_retired (b : Nat) : (exhaustBank b c).f Fld.MEM_INT_STATUS_SEGMENT_RETIRED = c.f Fld.MEM_INT_STATUS_SEGMENT_RETIRED := by
  unfold exhaustBank
  split
  · rfl
  · simp (disch := decide) only [Chip.f_regs, Chip.raise_regs_put, Chip.setF_regs, Chip.onMems_regs, regF_putF_ne]

/-- A segment that failed is retired, and its bank closed where that took its last spare (R171). -/
def marchRetire (g : Nat) (c : Chip) : Chip :=
  if 4 ≤ (retireSegment g c).sparesUsed (segmentBank g) then exhaustBank (segmentBank g) (retireSegment g c) else retireSegment g c

theorem marchRetire_facts (g : Nat) : let d := marchRetire g c
    d.f Fld.MEM_MARCH_STATUS_PHASE = c.f Fld.MEM_MARCH_STATUS_PHASE ∧ d.mems.marchRun = c.mems.marchRun ∧
      d.mems.redirected = c.mems.redirected ++ [g] ∧ d.b Fld.MEM_INT_STATUS_SEGMENT_RETIRED = true ∧
      (4 ≤ d.sparesUsed (segmentBank g) → d.mems.exhausted.contains (segmentBank g) = true) := by
  intro d
  by_cases hfull : 4 ≤ (retireSegment g c).sparesUsed (segmentBank g)
  · have hd : d = exhaustBank (segmentBank g) (retireSegment g c) := if_pos hfull
    have hflag : d.b Fld.MEM_INT_STATUS_SEGMENT_RETIRED = (retireSegment g c).b Fld.MEM_INT_STATUS_SEGMENT_RETIRED := by
      rw [hd, Chip.b, exhaustBank_retired, ← Chip.b]
    exact ⟨by rw [hd, exhaustBank_phase, retireSegment_phase], by rw [hd, exhaustBank_run, retireSegment_run],
      by rw [hd, exhaustBank_redirected, retireSegment_redirected], hflag.trans (retireSegment_flag g),
      fun _ => by rw [hd]; exact exhaustBank_exhausted _⟩
  · have hd : d = retireSegment g c := if_neg hfull
    exact ⟨by rw [hd, retireSegment_phase], by rw [hd, retireSegment_run], by rw [hd, retireSegment_redirected],
      by rw [hd]; exact retireSegment_flag g, fun h => absurd (hd ▸ h) hfull⟩

section Next
variable {r : MarchRun}

theorem marchNext_copied (h : r.phase = 1) : marchNext r c = marchAt 2 (some { r with phase := 2, done_ := 0 }) c := if_pos h

theorem marchNext_passed (h : r.phase = 2) (hpass : r.fails = false) :
    marchNext r c = marchAt 3 (some { r with phase := 3, done_ := 0 }) c :=
  (if_neg (by omega)).trans (if_pos ⟨h, hpass⟩)

theorem marchNext_failed (h : r.phase = 2) (hfail : r.fails = true) : marchNext r c = marchRetire r.segment (marchAt 0 none c) :=
  (if_neg (by omega)).trans ((if_neg (by simp [hfail])).trans (if_pos h))

theorem marchNext_back (h : r.phase = 3) : marchNext r c = marchAt 0 none c :=
  (if_neg (by omega)).trans ((if_neg (by omega)).trans (if_neg (by omega)))

end Next

/-! ### Retention and DRAM (R173, R175 to R177) -/

theorem retentionSupplyDip_asleep (hlow : 5 ≤ c.power) (hhigh : c.power ≤ 6) :
    retentionSupplyDip c = (c.setB Fld.MEM_RETAIN_STATUS_SUPPLY_DIP true).raise .mem 2 := if_pos ⟨hlow, hhigh⟩

section Dram
theorem retrain_held (h : c.dramHeld ≠ 0) : retrain c = c.regReject := if_pos (by simp [h])

variable (hon : c.isOn .ddr = true)
include hon

theorem retrain_idle (h : c.dramHeld = 0) : retrain c = c.onMems fun m => { m with training := true } := if_neg (by simp [hon, h])

theorem dramTrainDone_failed (htrain : c.mems.training = true) :
    dramTrainDone none c = (ddrFailed (c.onMems fun m => { m with training := false })).raise .mem 6 :=
  if_pos (by rw [htrain, hon]; rfl)

theorem dramTrainDone_found (htrain : c.mems.training = true) (size rate : Nat) :
    dramTrainDone (some (size, rate)) c = (ddrTrained size rate (c.b Fld.MEM_DDR_STATUS_TRAIN_FAILED)
      (c.onMems fun m => { m with training := false })).raise .mem 6 :=
  if_pos (by rw [htrain, hon]; rfl)

theorem ddrFillDone_trained (htrained : c.b Fld.MEM_DDR_STATUS_TRAINED = true) (hok : c.b Fld.MEM_DDR_STATUS_TRAIN_FAILED = false) :
    ddrFillDone c = (c.setB Fld.MEM_DDR_STATUS_INIT_DONE true).onMems fun m => { m with
      ddrFillAt := none
      ddrWritten := [] } :=
  if_pos (by rw [hon, htrained, hok]; rfl)

end Dram

end Sys2Proof.Machine
end

section
namespace Sys2Proof
open Machine Safety

/-- Settles O51: the scrubber, the march test and DRAM as their definitions say. -/
theorem memoryUpkeep : Obligations.MemoryUpkeep := by
  intro s c
  refine ⟨fun m hm => ⟨fun hearly => ?_, fun hserved hen hdue hawake => ?_⟩, fun m h => ?_, fun m hm h => ?_,
    fun g hseg hdue hawake hrun hfresh => ⟨fun hspares fails => ?_, fun hspares fails => ?_⟩, fun r h fails => ?_,
    fun r => ⟨fun h => ?_, fun h hpass => ?_, fun h hfail => ?_, fun h => ?_⟩, fun hlow hhigh => ?_,
    fun hon => ⟨fun h => ?_, fun h => ?_, fun htrain => ⟨?_, fun d => ?_⟩, fun htrained hok => ?_⟩⟩
  · exact next_chip ((scrubOnce_clean hm).trans (scrubRead_early hearly))
  · exact next_chip ((scrubOnce_clean hm).trans (scrubRead_due hserved hen hdue hawake))
  · exact next_chip (memoryServed_serving s.otp h)
  · have hsram : memIslandOf m ≠ .ddr := by
      cases m with
      | memD => decide
      | memT => decide
      | ddr => exact absurd rfl hm
    exact next_chip (memoryServed_sram s.otp hsram h)
  · exact next_chip (marchSegmentStep_exhausted hseg hdue hawake hrun hfresh hspares fails)
  · exact ⟨_, next_chip (marchSegmentStep_begins hseg hdue hawake hrun hfresh hspares fails), marchBegun_mems fails, marchBegun_phase fails,
      marchBegun_core fails⟩
  · exact next_chip (marchSegmentStep_busy h fails)
  · rw [marchNext_copied h]
    exact ⟨marchAt_phase (by decide) _, marchAt_mems _ _⟩
  · rw [marchNext_passed h hpass]
    exact ⟨marchAt_phase (by decide) _, marchAt_mems _ _⟩
  · rw [marchNext_failed h hfail]
    obtain ⟨hphase, hrun, hredirected, hflag, hexhausted⟩ := marchRetire_facts (c := marchAt 0 none c) r.segment
    exact ⟨hphase.trans (marchAt_phase (by decide) _), hrun, hredirected, hflag, hexhausted⟩
  · rw [marchNext_back h]
    exact ⟨marchAt_phase (by decide) _, marchAt_mems _ _⟩
  · exact next_chip (retentionSupplyDip_asleep hlow hhigh)
  · exact next_chip (retrain_held h)
  · exact next_chip (retrain_idle hon h)
  · exact next_chip (dramTrainDone_failed hon htrain)
  · exact next_chip (dramTrainDone_found hon htrain d.size.val d.rate.val)
  · exact next_chip (ddrFillDone_trained hon htrained hok)

end Sys2Proof
end

section
/-! SUPPORT. The start (R22, R239, R357 to R359, R372, R378). -/

namespace Sys2Proof.Machine
open Safety

variable {c : Chip}

/-! ### What reports a start leaves alone -/

/-- One chip is another but for its registers, its memories and the update state's record and AON count. -/
structure Reported (c d : Chip) : Prop where
  core : d.core = c.core
  slot : d.upd.slot = c.upd.slot
  codes : d.upd.codes = c.upd.codes
  burns : d.sec.burns = c.sec.burns

theorem Reported.trans {c d e : Chip} (h : Reported c d) (h' : Reported d e) : Reported c e :=
  ⟨h'.core.trans h.core, h'.slot.trans h.slot, h'.codes.trans h.codes, h'.burns.trans h.burns⟩

theorem putRec_reported (r : SlotRec) : Reported c (putRec r c) := by
  obtain ⟨n, hn⟩ := putRec_upd c r
  exact ⟨putRec_core c r, by rw [hn], by rw [hn], by rw [putRec_sec]⟩

theorem onUpd_reported {g : Upd → Upd} (hslot : (g c.upd).slot = c.upd.slot) (hcodes : (g c.upd).codes = c.upd.codes) :
    Reported c (c.onUpd g) :=
  ⟨Chip.onUpd_core c g, by rw [Chip.onUpd_upd, hslot], by rw [Chip.onUpd_upd, hcodes], by rw [Chip.onUpd_sec]⟩

theorem setFailCount_reported (n : Nat) : Reported c (setFailCount n c) := by
  unfold setFailCount
  split
  · split
    · exact onUpd_reported rfl rfl
    · exact (putRec_reported _).trans (onUpd_reported rfl rfl)
  · exact onUpd_reported rfl rfl

theorem startTrial_reported : Reported c (startTrial c) := by
  obtain ⟨hcore, -, hslot, -⟩ := startTrial_reads c
  exact ⟨hcore, hslot, by simp [startTrial], by simp [startTrial]⟩

theorem bootRegs_reported (started : Bool) : Reported c (bootRegs started c) :=
  ⟨by simp [bootRegs], by simp [bootRegs], by simp [bootRegs], by simp [bootRegs]⟩

theorem writeMramBytes_reported (b : Nat) (xs : List Nat) : Reported c (writeMramBytes b xs c) :=
  ⟨writeMramBytes_core c xs b, by rw [writeMramBytes_upd], by rw [writeMramBytes_upd], by rw [writeMramBytes_sec]⟩

theorem writeStartRecord_reported (dev failed status alt : Nat) : Reported c (writeStartRecord dev failed status alt c) := by
  unfold writeStartRecord
  dsimp only
  split
  · exact bootRegs_reported _
  · exact (bootRegs_reported _).trans (writeMramBytes_reported _ _)

/-- The start record is written to MRAM and the registers of UPD that report it. -/
theorem writeStartRecord_dev (dev failed status alt : Nat) : (writeStartRecord dev failed status alt c).dev = c.dev := by
  have hregs : ∀ started, (bootRegs started c).dev = c.dev := fun started => by
    simp (disch := decide) only [Chip.dev, bootRegs, Chip.f_regs, Chip.setF_regs, Chip.setRegN_regs, regF_putF_ne, regF_putN_ne]
  unfold writeStartRecord
  dsimp only
  split
  · exact hregs _
  · rw [Chip.dev, Chip.f_regs, writeMramBytes_regs, ← Chip.f_regs]
    exact hregs _

/-! ### The codes of the steps (R357) -/

theorem stepCode_bits (k : Nat) : c.stepCode k = bitsOf c.upd.codes (2 * k) 2 := by
  have hpow : 4 ^ k = 2 ^ (2 * k) := (Nat.pow_mul (a := 2) (m := 2) (n := k)).symm
  exact congrArg (fun q => c.upd.codes / q % 4) hpow

theorem setStepCode_same (k : Nat) {code : Nat} (h : code < 4) : (setStepCode k code c).stepCode k = code := by
  rw [stepCode_bits, setStepCode, Chip.onUpd_upd, bitsOf_putBits]
  exact Nat.mod_eq_of_lt h

theorem setStepCode_below {j k : Nat} (h : j < k) (code : Nat) : (setStepCode k code c).stepCode j = c.stepCode j := by
  rw [stepCode_bits, stepCode_bits, setStepCode, Chip.onUpd_upd, bitsOf_putBits_below _ _ _ _ _ _ (by omega)]

theorem Reported.stepCode {c d : Chip} (h : Reported c d) (k : Nat) : d.stepCode k = c.stepCode k := by
  rw [Chip.stepCode, h.codes, ← Chip.stepCode]

/-! ### The hand-off (R239, R372) -/

/-- The chip that S13 hands to firmware in a device state. -/
def handedTo (dev : Nat) (c : Chip) : Chip := setDev dev (setFailCount 0 (setStepCode 13 1 c))

/-- The chip of a restart activation's trial, as it is handed over. -/
def handedTrial (c : Chip) : Chip :=
  startTrial (((handedTo devGerminate c).setB Fld.SYS_STATE_TRIAL true).setB Fld.UPD_STATUS_RESTART_MODE true)

theorem handOff_trial (alt : Nat) (h : c.slotRec.slot c.upd.slot = slotTrial) :
    handOff alt c = coreStart 0 (writeStartRecord devGerminate 15 0 alt (handedTrial c)) := by
  simp only [handOff, h, BEq.rfl, if_true, handedTrial, handedTo]

theorem handOff_run (alt : Nat) (h : c.slotRec.slot c.upd.slot ≠ slotTrial) :
    handOff alt c = coreStart 0 (writeStartRecord devRun 15 0 alt (handedTo devRun c)) := by
  simp only [handOff, beq_eq_false_iff_ne.mpr h, if_neg Bool.false_ne_true, handedTo]

/-- What S13 leaves of the chip it takes: its core, slot, burns and codes but its own. -/
structure HandedOff (c d : Chip) : Prop where
  im : d.core.im = c.core.im
  slot : d.upd.slot = c.upd.slot
  burns : d.sec.burns = c.sec.burns
  own : d.stepCode 13 = 1
  below : ∀ k, k < 13 → d.stepCode k = c.stepCode k

theorem HandedOff.reported {c d e : Chip} (h : HandedOff c d) (h' : Reported d e) : HandedOff c e :=
  ⟨by rw [h'.core, h.im], h'.slot.trans h.slot, h'.burns.trans h.burns, (h'.stepCode 13).trans h.own,
    fun k hk => (h'.stepCode k).trans (h.below k hk)⟩

theorem HandedOff.coreStart {c d : Chip} (h : HandedOff c d) : HandedOff c (coreStart 0 d) := ⟨h.im, h.slot, h.burns, h.own, h.below⟩

theorem setF_reported (x : Field) (v : Nat) : Reported c (c.setF x v) := ⟨rfl, rfl, rfl, rfl⟩

theorem handedTo_handedOff (dev : Nat) : HandedOff c (handedTo dev c) := by
  have hcode : HandedOff c (setStepCode 13 1 c) :=
    ⟨by rw [setStepCode, Chip.onUpd_core], by rw [setStepCode, Chip.onUpd_upd], by rw [setStepCode, Chip.onUpd_sec],
      setStepCode_same 13 (by decide), fun k hk => setStepCode_below hk 1⟩
  exact (hcode.reported (setFailCount_reported 0)).reported (setF_reported _ _)

theorem handedTo_dev {dev : Nat} (h : dev < 8) : (handedTo dev c).dev = dev :=
  (Chip.f_setF _ Fld.SYS_STATE_DEVICE_STATE dev (by decide)).trans (Nat.mod_eq_of_lt h)

theorem handedTrial_dev : (handedTrial c).dev = devGerminate := by
  obtain ⟨-, -, -, hregs⟩ := startTrial_reads
    (((handedTo devGerminate c).setB Fld.SYS_STATE_TRIAL true).setB Fld.UPD_STATUS_RESTART_MODE true)
  rw [handedTrial, Chip.dev, Chip.f, hregs _ (by decide) (by decide) (by decide) (by decide), ← Chip.f, Chip.setB, Chip.setB,
    Chip.f_setF_ne _ _ _ _ (by decide), Chip.f_setF_ne _ _ _ _ (by decide)]
  exact handedTo_dev (by decide)

theorem handedTrial_handedOff : HandedOff c (handedTrial c) :=
  (((handedTo_handedOff devGerminate).reported (setF_reported _ _)).reported (setF_reported _ _)).reported startTrial_reported

/-- Firmware starts at bundle 0 with start cause START (R239). -/
theorem coreStart_starts : let d := coreStart 0 c
    d.core.running = true ∧ d.core.pc = 0 ∧ d.core.startCause = 0 := ⟨rfl, rfl, rfl⟩

theorem handOff_handedOff (alt : Nat) : HandedOff c (handOff alt c) := by
  by_cases h : c.slotRec.slot c.upd.slot = slotTrial
  · rw [handOff_trial alt h]
    exact (handedTrial_handedOff.reported (writeStartRecord_reported _ _ _ _)).coreStart
  · rw [handOff_run alt h]
    exact ((handedTo_handedOff devRun).reported (writeStartRecord_reported _ _ _ _)).coreStart

theorem handOff_starts (alt : Nat) : (handOff alt c).core.running = true ∧ (handOff alt c).core.pc = 0 ∧
    (handOff alt c).core.startCause = 0 := by
  by_cases h : c.slotRec.slot c.upd.slot = slotTrial
  · rw [handOff_trial alt h]
    exact coreStart_starts
  · rw [handOff_run alt h]
    exact coreStart_starts

theorem handOff_dev (alt : Nat) : (handOff alt c).dev = if c.slotRec.slot c.upd.slot = slotTrial then devGerminate else devRun := by
  by_cases h : c.slotRec.slot c.upd.slot = slotTrial
  · rw [handOff_trial alt h, if_pos h]
    exact (writeStartRecord_dev _ _ _ _).trans handedTrial_dev
  · rw [handOff_run alt h, if_neg h]
    exact (writeStartRecord_dev _ _ _ _).trans (handedTo_dev (by decide))

/-- A start whose steps each end done is handed off (R358). -/
theorem runBoot_stepsDone (alt : Nat) (o : Store Nat) {gs : List (Nat × (Chip → StepEnd))} {d : Chip}
    (h : stepsDone alt gs c = some d) : runBoot alt o gs c = handOff alt d := by
  induction gs generalizing c with
  | nil => rw [runBoot, Option.some.inj h]
  | cons e gs ih =>
    obtain ⟨k, g⟩ := e
    rw [stepsDone] at h
    rw [runBoot]
    split at h
    · next code c1 hg =>
      rw [hg]
      exact ih h
    · exact absurd h (by simp)

/-! ### Starts that end elsewhere (R22, R359, R378) -/

/-- The chip that the ROM of RECOVERY or DEAD holds keeps its core, and its state and level are put last. -/
theorem enterRom_eq (d level : Nat) : ∃ e, e.core = c.core ∧ enterRom d level c = setDev d (setPower level e) := by
  have hoff : (romOff.foldl (fun c i => (c.resetRegs i).setIsland i .off) c).core = c.core :=
    foldl_same (fun c => c.core) (fun c i => (c.resetRegs i).setIsland i .off) (fun _ _ => rfl) romOff c
  rw [enterRom]
  exact ⟨_, by simp only [Chip.setB_core, Chip.setF_core]; exact hoff, rfl⟩

theorem enterRom_core (d level : Nat) : (enterRom d level c).core = c.core := by
  obtain ⟨e, hcore, heq⟩ := enterRom_eq (c := c) d level
  rw [heq, setDev, Chip.setF_core, setPower_core, hcore]

theorem setDev_dev {d : Nat} (h : d < 8) : (setDev d c).dev = d :=
  (Chip.f_setF c Fld.SYS_STATE_DEVICE_STATE d (by decide)).trans (Nat.mod_eq_of_lt h)

theorem enterRom_dev {d : Nat} (h : d < 8) (level : Nat) : (enterRom d level c).dev = d := by
  obtain ⟨e, -, heq⟩ := enterRom_eq (c := c) d level
  rw [heq, setDev_dev h]

theorem enterRom_power (d : Nat) {level : Nat} (h : level < 8) : (enterRom d level c).power = level := by
  obtain ⟨e, -, heq⟩ := enterRom_eq (c := c) d level
  rw [heq, Chip.power, setDev, Chip.f_setF_ne _ _ _ _ (by decide), ← Chip.power, setPower_power, Nat.mod_eq_of_lt (by omega)]

theorem burnDead_dev (o : Store Nat) : (burnDead o c).dev = c.dev := by
  unfold burnDead
  split <;> rfl

theorem burnDead_core (o : Store Nat) : (burnDead o c).core = c.core := by
  unfold burnDead
  split <;> rfl

theorem bootRegs_dev (started : Bool) : (bootRegs started c).dev = c.dev := by
  simp (disch := decide) only [Chip.dev, bootRegs, Chip.f_regs, Chip.setF_regs, Chip.setRegN_regs, regF_putF_ne, regF_putN_ne]

/-- A ROM that fails its check leaves the device DEAD, its core as it was (R22). -/
theorem startFailed_rom (alt : Nat) (o : Store Nat) : (startFailed 0 none alt o c).dev = devDead ∧
    (startFailed 0 none alt o c).core = c.core := by
  have heq : startFailed 0 none alt o c =
      bootRegs false (enterDead o ((setStepCode 0 3 (takeStatus c).2).onUpd fun u => { u with failed := 0 })) := rfl
  rw [heq]
  refine ⟨?_, ?_⟩
  · rw [bootRegs_dev, enterDead, burnDead_dev, enterRom_dev (by decide)]
  · rw [(bootRegs_reported false).core, enterDead, burnDead_core, enterRom_core, Chip.onUpd_core, setStepCode, Chip.onUpd_core]
    rfl

section Facts
variable {f : StartFacts} (alt : Nat) (o : Store Nat)

theorem runBoot_romBad (h : f.romGood = false) : runBoot alt o (bootSteps f o) c = startFailed 0 none alt o c := by
  have hstep : stepS0 f o c = .failed none c := by rw [stepS0, h]; rfl
  rw [bootSteps, runBoot, hstep]

variable (hrom : f.romGood = true)
include hrom

/-- The chip that S0 leaves, its ROM good. -/
theorem runBoot_romGood : runBoot alt o (bootSteps f o) c = runBoot alt o ((bootSteps f o).drop 1)
    (writeStartRecord devBoot 15 0 alt (setStepCode 0 1 (measExtend 3 (otpOctets o 2 4) (measExtend 0 Config.romDigest c)))) := by
  have hstep : stepS0 f o c = .done 1 (measExtend 3 (otpOctets o 2 4) (measExtend 0 Config.romDigest c)) := by rw [stepS0, hrom]; rfl
  rw [bootSteps, runBoot, hstep]
  rfl

theorem runBoot_supplyLow (hlow : f.vsys.toNat < 1850) : ∃ d, runBoot alt o (bootSteps f o) c = startFailed 1 none alt o d := by
  rw [runBoot_romGood alt o hrom]
  generalize writeStartRecord devBoot 15 0 alt _ = e
  have hstep : ∃ d, stepS1 f e = .failed none d := ⟨_, if_pos hlow⟩
  obtain ⟨d, hd⟩ := hstep
  refine ⟨d, ?_⟩
  rw [bootSteps, List.drop_one, List.tail_cons, runBoot, hd]

theorem runBoot_recovery (hvsys : 1850 ≤ f.vsys.toNat) (hlow : f.recoveryLow = true) :
    ∃ d, runBoot alt o (bootSteps f o) c = enterRecovery (writeStartRecord devRecovery 15 0 alt d) := by
  rw [runBoot_romGood alt o hrom]
  generalize writeStartRecord devBoot 15 0 alt _ = e
  have hstep : ∃ d, stepS1 f e = .left devRecovery d := ⟨_, (if_neg (Nat.not_lt.mpr hvsys)).trans (if_pos hlow)⟩
  obtain ⟨d, hd⟩ := hstep
  refine ⟨d, ?_⟩
  rw [bootSteps, List.drop_one, List.tail_cons, runBoot, hd]
  exact if_neg (by decide)

end Facts

theorem settled_power (s : State) (d : Chip) : (settled s d).chip.power = d.power := (rfl)

/-- The chip in which a start takes its first step. -/
def opened (f : StartFacts) (c : Chip) : Chip :=
  let c1 := c.onPwr fun p => { p with vsys := f.vsys.toNat }
  (mramLines (ledgerBase + 0x1000) 128 (mramLines ledgerBase 512 c1)).onUpd fun u => { u with
    record := c1.readRecord
    codes := 0
    startSeq := u.startSeq + 1 }

theorem mramLines_core (b n : Nat) : (mramLines b n c).core = c.core := by
  unfold mramLines
  exact foldl_same (fun c => c.core) _ (fun _ _ => Chip.bump_core _ _) _ c

theorem opened_core (f : StartFacts) : (opened f c).core = c.core := by
  simp only [opened, Chip.onUpd_core, mramLines_core]
  rfl

theorem start_outside (f : StartFacts) (o : Store Nat) (h : c.dev ≠ devBoot) : start f o c = c := if_pos (.inl h)

theorem start_runs (f : StartFacts) (o : Store Nat) (hboot : c.dev = devBoot) (hlive : c.pwr.heldInReset = false) (hpow : c.power ≠ 7) :
    start f o c = runBoot (opened f c).slotRec.alt o (bootSteps f o) (opened f c) :=
  if_neg (by simp [hboot, hlive, hpow])

theorem execStart_settled (f : StartFacts) (s : State) {d : Chip} (h : start f s.otp s.chip = d) :
    exec (.start f) s = .next (settled s d) := by
  subst h
  rfl

end Sys2Proof.Machine
end

section
namespace Sys2Proof
open Machine Safety

/-- Settles O53: a start runs its steps in order, and ends where the first that is not done sends it, or at the hand-off. -/
theorem starts : Obligations.Starts := by
  intro s f c1 c2 alt
  refine ⟨fun hout hburns => ?_, fun hboot hlive hpow => ?_⟩
  · rw [execStart_settled f s (start_outside f s.otp hout), settled_self s hburns]
  have hrun : ∀ {d : Chip}, runBoot alt s.otp (bootSteps f s.otp) c2 = d → exec (.start f) s = .next (settled s d) :=
    fun h => execStart_settled f s ((start_runs f s.otp hboot hlive hpow).trans h)
  refine ⟨hrun rfl, fun d hd => ?_, fun hrom => ?_, fun hrom hlow => ?_, fun hrom hvsys hlow => ?_⟩
  · have hoff : HandedOff d (handOff alt d) := handOff_handedOff alt
    obtain ⟨hrunning, hpc, hcause⟩ := handOff_starts (c := d) alt
    refine ⟨_, hrun (runBoot_stepsDone alt s.otp hd), (settled_dev s _).trans (handOff_dev alt), ?_⟩
    rw [settled_core, settled_otp]
    exact ⟨hrunning, hpc, hcause, hoff.im, hoff.slot, hoff.own, hoff.below, by rw [hoff.burns]⟩
  · have hbad := runBoot_romBad (c := c2) alt s.otp hrom
    obtain ⟨hdev, hcore⟩ := startFailed_rom (c := c2) alt s.otp
    have hc2 : c2.core = s.chip.core := opened_core f
    exact ⟨hrun hbad, _, hrun hbad, (settled_dev s _).trans hdev, by rw [settled_core, hcore, hc2]⟩
  · obtain ⟨d, hd⟩ := runBoot_supplyLow (c := c2) alt s.otp hrom hlow
    exact ⟨d, hrun hd⟩
  · obtain ⟨d, hd⟩ := runBoot_recovery (c := c2) alt s.otp hrom hvsys hlow
    exact ⟨⟨d, hrun hd⟩, _, hrun hd, (settled_dev s _).trans (enterRom_dev (by decide) 2),
      (settled_power s _).trans (enterRom_power devRecovery (by decide))⟩

end Sys2Proof
end

section
/-! SUPPORT. The Reed-Solomon code over GF(2^8): one byte in error is put right (R163, R164). -/

namespace Sys2Proof.Machine

/-! ### Powers of α -/

theorem gfDouble_lt : ∀ x : Fin 256, gfDouble x < 256 := by decide +kernel

theorem gfDouble_ne_zero : ∀ x : Fin 256, x.val ≠ 0 → gfDouble x ≠ 0 := by decide +kernel

/-- The order of α and the factors of 255 leave no power from α to α^12 that fixes a byte. -/
theorem gfShift_moves : ∀ x : Fin 256, x.val ≠ 0 → ∀ d : Fin 12, gfShift x (d + 1) ≠ x := by decide +kernel

theorem gfShift_zero (k : Nat) : gfShift 0 k = 0 := by
  induction k with
  | zero => rfl
  | succ k ih => rw [gfShift, ih]; rfl

theorem gfShift_add (x a b : Nat) : gfShift x (a + b) = gfShift (gfShift x a) b := by
  induction b with
  | zero => rfl
  | succ b ih => rw [← Nat.add_assoc, gfShift, ih, gfShift]

section Byte
variable {x : Nat} (hx : x < 256)
include hx

theorem gfShift_lt (k : Nat) : gfShift x k < 256 := by
  induction k with
  | zero => exact hx
  | succ k ih => exact gfDouble_lt ⟨_, ih⟩

variable (h0 : x ≠ 0)
include h0

theorem gfShift_ne_zero (k : Nat) : gfShift x k ≠ 0 := by
  induction k with
  | zero => exact h0
  | succ k ih => exact gfDouble_ne_zero ⟨_, gfShift_lt hx k⟩ ih

theorem gfShift_ne_of_lt {a b : Nat} (hab : a < b) (hb : b ≤ 12) : gfShift x a ≠ gfShift x b := by
  have hfix := gfShift_moves ⟨gfShift x a, gfShift_lt hx a⟩ (gfShift_ne_zero hx h0 a) ⟨b - a - 1, by omega⟩
  intro h
  apply hfix
  change gfShift (gfShift x a) (b - a - 1 + 1) = gfShift x a
  rw [← gfShift_add, show a + (b - a - 1 + 1) = b by omega, h]

theorem gfShift_inj {a b : Nat} (ha : a ≤ 12) (hb : b ≤ 12) (h : gfShift x a = gfShift x b) : a = b := by
  rcases Nat.lt_trichotomy a b with hab | hab | hab
  · exact absurd h (gfShift_ne_of_lt hx h0 hab hb)
  · exact hab
  · exact absurd h.symm (gfShift_ne_of_lt hx h0 hab ha)

end Byte

/-! ### The syndromes of one byte in error -/

/-- One byte in error in a codeword of thirteen. -/
abbrev oneError (j e : Nat) : List Nat := (List.replicate 13 0).set j e

theorem oneError_split {j : Nat} (hj : j < 13) (e : Nat) :
    oneError j e = List.replicate j 0 ++ e :: List.replicate (12 - j) 0 := by
  rw [oneError, List.set_eq_take_append_cons_drop, if_pos (by simpa using hj), List.take_replicate, List.drop_replicate,
    Nat.min_eq_left (by omega), show 13 - (j + 1) = 12 - j by omega]

theorem syndrome_zeros (k s n : Nat) :
    (List.replicate n 0).foldl (fun s b => Nat.xor (gfShift s k) b) s = gfShift s (k * n) := by
  induction n generalizing s with
  | zero => rfl
  | succ n ih =>
    rw [List.replicate_succ, List.foldl_cons, ih, show Nat.xor (gfShift s k) 0 = gfShift s k from Nat.xor_zero _, ← gfShift_add,
      show k + k * n = k * (n + 1) by ring]

theorem syndrome_oneError (k : Nat) {j : Nat} (hj : j < 13) (e : Nat) : syndrome k (oneError j e) = gfShift e (k * (12 - j)) := by
  rw [syndrome, oneError_split hj, List.foldl_append, syndrome_zeros, gfShift_zero, List.foldl_cons, gfShift_zero,
    show Nat.xor 0 e = e from Nat.zero_xor e, syndrome_zeros]

section Decode
variable {j e : Nat} (hj : j < 13) (he : e < 256) (h0 : e ≠ 0)
include hj he h0

/-- The syndromes tell the place of the byte in error, and no other. -/
theorem errorPlace_oneError : errorPlace e (gfShift e (12 - j)) (gfShift e (2 * (12 - j))) = some j := by
  have hplace : gfShift (gfShift e (12 - j)) (12 - j) = gfShift e (2 * (12 - j)) := by rw [← gfShift_add, Nat.two_mul]
  have hothers : ∀ i, i < j → (gfShift e (12 - i) == gfShift e (12 - j) &&
      gfShift (gfShift e (12 - j)) (12 - i) == gfShift e (2 * (12 - j))) = false := fun i hi => by
    have hne : gfShift e (12 - i) ≠ gfShift e (12 - j) := fun h => by
      have := gfShift_inj he h0 (by omega) (by omega) h
      omega
    rw [beq_eq_false_iff_ne.mpr hne, Bool.false_and]
  rw [errorPlace, List.find?_range_eq_some]
  refine ⟨?_, List.mem_range.mpr hj, fun i hi => ?_⟩
  · rw [hplace, BEq.rfl, BEq.rfl]
    rfl
  · rw [hothers i hi]
    rfl

theorem rsDecode_oneError : rsDecode (oneError j e) = .corrected (List.replicate 13 0) := by
  have hs0 : syndrome 0 (oneError j e) = e := by rw [syndrome_oneError 0 hj, Nat.zero_mul]; rfl
  have hs1 : syndrome 1 (oneError j e) = gfShift e (12 - j) := by rw [syndrome_oneError 1 hj, Nat.one_mul]
  have hs2 := syndrome_oneError 2 hj e
  have hleft : (oneError j e).set j (Nat.xor ((oneError j e).getD j 0) e) = List.replicate 13 0 := by
    have hbyte : (oneError j e).getD j 0 = e := by
      rw [List.getD_eq_getElem _ _ (by simpa using hj), List.getElem_set_self]
    rw [hbyte, show Nat.xor e e = 0 from Nat.xor_self e, List.set_set, List.set_replicate_self]
  have hn1 := gfShift_ne_zero he h0 (12 - j)
  have hn2 := gfShift_ne_zero he h0 (2 * (12 - j))
  simp only [rsDecode, hs0, hs1, hs2, h0, hn1, hn2, false_and, or_self, if_false, errorPlace_oneError hj he h0, hleft]

/-- A read of a codeword with one byte in error gives the words stored, and is counted (R164). -/
theorem readPair_oneError {c : Chip} {p : Nat} (hp : p % 2 = 0) (hflaw : c.flaw p = oneError j e) :
    readPair p c = ({ even := c.stored p, odd := c.stored (p + 1), bad := false }, c.bump (eccCounters (spaceOf p)).1) := by
  have heven : evenOf p = p := by rw [evenOf, hp, Nat.sub_zero]
  have hclean : ∀ w : Word, disturbed w (List.replicate 5 0) = w := fun w => if_pos rfl
  simp only [readPair, heven, hflaw, rsDecode_oneError hj he h0]
  rw [show (List.replicate 13 0).take 5 = List.replicate 5 0 from rfl,
    show ((List.replicate 13 0).drop 5).take 5 = List.replicate 5 0 from rfl, hclean, hclean]

end Decode

end Sys2Proof.Machine
end

section
namespace Sys2Proof
open Machine

/-- Settles O52: the syndromes of one byte in error are powers of α of it, and no two places have the same. -/
theorem errorCode : Obligations.ErrorCode := by
  refine ⟨by decide, fun j e he => rsDecode_oneError j.isLt e.isLt he, fun c p j e he hp hflaw => ?_⟩
  rw [readPair_oneError j.isLt e.isLt he hp hflaw]
  exact ⟨rfl, rfl⟩

end Sys2Proof
end
